-- ==== Sys2Proof/Word.lean ====
section
/-!
DEFINITION. The plain word types of the model and their simplest arithmetic.
-/
namespace Sys2Proof

/-- One byte on a wire, in a key or in a value. -/
abbrev Byte := BitVec 8

/-- A string of bytes: a key, a value, an image, an operation field. -/
abbrev Bytes := List Byte

/-- The service classes Express/0, Standard/1, Bulk/2 and Background/3 by number (R14). -/
abbrev Cls := Fin 4

/-- The largest value of an unsigned field of `n` bits. -/
def maxU (n : Nat) : Nat := 2 ^ n - 1

/-- Saturating increment at the top of a counter of `n` bits (R454). -/
def satAddW (n a b : Nat) : Nat := min (a + b) (maxU n)

/-- Round up division. -/
def ceilDiv (a b : Nat) : Nat := (a + b - 1) / b

/-- `a` rounded up to a multiple of `m`. -/
def roundUp (a m : Nat) : Nat := ceilDiv a m * m

/-- Bit `i` of the number `n` (R8). -/
def bit (n i : Nat) : Bool := n.testBit i

/-- Bits `[hi:lo]` of the number `n` (R8). -/
def bits (n hi lo : Nat) : Nat := (n / 2 ^ lo) % 2 ^ (hi - lo + 1)

/-- The number with bit `i` set when `b` holds. -/
def bitOf (b : Bool) (i : Nat) : Nat := if b then 2 ^ i else 0

/-- `n` with bit `i` set. -/
def setBit (n i : Nat) : Nat := n ||| 2 ^ i

/-- `n` with bit `i` cleared. -/
def clrBit (n i : Nat) : Nat := if n.testBit i then n - 2 ^ i else n

/-- The number a big-endian string of bytes spells (R9). -/
def beNat (b : Bytes) : Nat := b.foldl (fun n x => n * 256 + x.toNat) 0

/-- A number as `w` big-endian bytes (R9), its low bits where it is too large. -/
def natBytes : (w n : Nat) → Bytes
  | 0, _ => []
  | w + 1, n => BitVec.ofNat 8 (n / 256 ^ w) :: natBytes w n

/-- `n` bytes of a string from an offset. -/
def slice (b : Bytes) (off n : Nat) : Bytes := (b.drop off).take n

/-- The number in `n` bytes at an offset, big-endian; bytes beyond the end are missing. -/
def numAt (b : Bytes) (off n : Nat) : Nat := beNat (slice b off n)

/-- Bytes without the zeros at their end. -/
def trimZeros (b : Bytes) : Bytes := (b.reverse.dropWhile (· == 0)).reverse

/-- The low `n` bytes of a window at `off` of an entry of `size` bytes whose stored bytes may stop short (zeros). -/
def window (b : Bytes) (size off n : Nat) : Bytes :=
  let m := min n (size - off)
  let w := slice b off m
  w ++ List.replicate (m - w.length) 0

/-- `n` cut to a number of `w` bits from the top: saturation. -/
def clampU (w n : Nat) : Nat := min n (maxU w)

/-- The two's complement bits of an integer in `w` bits, saturating. -/
def clampI (w : Nat) (i : Int) : Nat :=
  let hi : Int := 2 ^ (w - 1) - 1
  let lo : Int := -(2 ^ (w - 1))
  ((max lo (min hi i)) % (2 ^ w : Int)).toNat

/-- Concatenate the pieces of a layout. -/
def cat (l : List Bytes) : Bytes := l.flatten

/-- `n` reserved (zero) bytes. -/
def zeros (n : Nat) : Bytes := List.replicate n 0

end Sys2Proof
end

