-- ==== Sys2Proof/Syntax.lean ====
section
/-!
DEFINITION. The commands of the block: one constructor of `Instr` for each row of the opcode table, with the
operands that the outside world chooses (a frame on a port, the value a requester writes, a measured
temperature) or that name the unit the step is made for (a port, a tile, a task, a session).
-/
namespace Sys2Proof

/-- Port A and Port B (R13). -/
inductive Port where | a | b
  deriving DecidableEq, Repr

/-- Warden A and Warden B (R13). -/
inductive Warden where | a | b
  deriving DecidableEq, Repr

/-- The dictionary's requesters (R483). -/
inductive Requester where
  | service                 -- the service port: Supervisor
  | segment                 -- the management segment: Manager
  | session (tenant : Nat)  -- a Wombe session: Operator for tenant 0, Tenant otherwise
  deriving DecidableEq, Repr

/-- A value of a dictionary entry: a number for the fixed-size types, bytes for STR and BLOB (R478). -/
inductive OdVal where
  | num (n : Nat)
  | bytes (b : Bytes)
  deriving DecidableEq, Repr

/-- An IP address of either family. -/
structure IpAddr where
  v6   : Bool
  addr : Nat
  deriving DecidableEq, Repr

/-- The 802.1Q tag of a frame: priority code point and VLAN ID. -/
structure Tag where
  pcp : Nat
  vid : Nat
  deriving DecidableEq, Repr

/-- The lead block of fragment 0 of a leg (R99). `fields` are the bytes from offset 24 on. -/
structure Lead where
  leadLen : Nat
  unit    : Nat
  legLen  : Nat
  msgLen  : Nat
  legOff  : Nat
  fields  : Bytes
  deriving DecidableEq, Repr

/-- The nonce of an encrypted fragment (R135). -/
structure Nonce where
  toClient : Bool
  epoch    : Nat
  counter  : Nat
  deriving DecidableEq, Repr

/-- A Wombe datagram with the parts of its carriage that the module looks at (R89, R94, R99, R134). -/
structure Frag where
  srcMac     : Nat
  tag        : Option Tag
  dscp       : Nat
  src        : IpAddr
  dst        : IpAddr
  ipFragment : Bool
  srcPort    : Nat
  dstPort    : Nat
  udpLen     : Nat
  magic      : Nat
  version    : Nat
  flags      : Nat
  session    : Nat
  seq        : Nat
  cumAck     : Nat
  sack       : Nat
  reqId      : Nat
  opcode     : Nat
  status     : Nat
  cls        : Nat
  index      : Nat
  count      : Nat
  payloadLen : Nat
  credit     : Nat
  leg        : Nat
  lead       : Option Lead
  data       : Bytes
  nonce      : Option Nonce
  gcmTag     : Nat
  deriving DecidableEq, Repr

/-- What an Announce says of its grandmaster: the members that the best master clock algorithm of IEEE 1588 compares
(R257), in the order in which it compares them. -/
structure ClockData where
  priority1   : Nat
  clockClass  : Nat
  accuracy    : Nat
  variance    : Nat
  priority2   : Nat
  identity    : Nat
  steps       : Nat
  deriving DecidableEq, Repr

/-- The messages of the PTP follower clock that the module receives (R257, R536). `source` is the sender's port
identity (clockIdentity and port number), `seq` its sequence number. -/
inductive PtpMsg where
  /-- Announce: its grandmaster, the UTC offset and its valid flag, the timescale flag, the announce interval in µs. -/
  | announce (source : Nat) (data : ClockData) (utcOffset : Int) (utcValid ptpTimescale : Bool) (intervalUs : Nat)
  /-- Sync with the origin time it carries (`none` for two-step) and the receive time stamp. -/
  | sync (source seq : Nat) (origin : Option Int) (rx : Int)
  | followUp (source seq : Nat) (origin : Int)
  /-- Delay_Resp: the port identity and sequence number it answers, the leader's receive time, and the interval in µs
  it gives. -/
  | delayResp (source requester seq : Nat) (rx : Int) (intervalUs : Nat)
  /-- Any other message, such as Delay_Req or Signaling: a follower consumes it without effect (R232). -/
  | other (source : Nat)
  deriving DecidableEq, Repr

/-- What a received Ethernet frame carries (R232). -/
inductive FrameBody where
  | pause (quanta : Nat)
  | pfc (enable : Nat) (quanta : List Nat)
  | lldp (eee : Option (Nat × Nat))
  | ptp (transport domain : Nat) (m : PtpMsg)
  | arp (request : Bool) (sender target : Nat)
  | neighbourSolicit (src dst target : Nat)
  | echo (src dst : IpAddr) (ident seq : Nat) (data : Bytes)
  | icmpOther (dst : IpAddr)
  | udp (f : Frag)
  | ipOther (dst : IpAddr)
  | other
  deriving DecidableEq, Repr

/-- An Ethernet frame that arrives whole at a port (R231, R232, R239, R242). -/
structure RxFrame where
  dstMac    : Nat
  srcMac    : Nat
  tag       : Option Tag
  secondTag : Bool
  len       : Nat
  dscp      : Option Nat
  fcsOk     : Bool
  /-- Codewords that FEC has corrected, and could not correct, since the frame before (R228, R260). -/
  fecFixed  : Nat
  fecLost   : Nat
  /-- Its bytes from the destination MAC address up to the FCS, as the checksums and the capture ring take them, and the four
  bytes of the FCS as received. -/
  raw       : Bytes
  fcs       : Nat
  body      : FrameBody
  deriving DecidableEq, Repr

/-- A dictionary request on the management segment (R504 to R507) or on the service port (R609). -/
structure DictFrame where
  /-- Source MAC address on the segment; 0 on the service port. -/
  source    : Nat
  broadcast : Bool
  op        : Nat
  /-- The reserved bytes at offsets 1, 7 and 11, in this order. -/
  reserved  : Nat
  seq       : Nat
  index     : Nat
  sub       : Nat
  status    : Nat
  length    : Nat
  area      : Bytes
  deriving DecidableEq, Repr

/-- A unit of R576 by subsystem number and unit number. -/
structure UnitId where
  subsystem : Nat
  number    : Nat
  deriving DecidableEq, Repr

/-- The commands of the block: the rows of the opcode table, in its order. -/
inductive Instr where
  | frameReceive (p : Port) (f : RxFrame)
  | pfcFrameRx (p : Port)
  | pfcRefresh (p : Port) (q : Nat)
  | pauseExpiry (p : Port) (q : Nat)
  | pauseWatchdog (p : Port) (q : Nat)
  | pauseHonourResume (p : Port) (q : Nat)
  | linkUp (p : Port) (partner : Nat)
  | linkDown (p : Port)
  | trainingFailure (p : Port) (mode : Nat)
  | linkPartnerDetect (p : Port)
  | lpiEntry (p : Port)
  | lpiExit (p : Port)
  | lldpRx (p : Port)
  | lldpTimer (p : Port)
  | ptpMessageRx (p : Port)
  | delayReqDue
  | ptpAnnounceTimeout
  | utcOffsetChange (offset : Int)
  | gateCommit (p : Port) (r : Requester) (v : OdVal)
  | gateSwitch (p : Port)
  | captureFreezeExpiry (p : Port)
  | fragmentRx (p : Port)
  | ackOnly (p : Port)
  | ackDue (session : Nat)
  | rtoExpiry (session : Nat)
  | sessionIdleExpiry (session : Nat)
  | halfOpenExpiry (session : Nat)
  | epochGraceExpiry (session : Nat)
  | fragmentSend (session : Nat)
  | replayEntryExpiry (session : Nat) (reqId : Nat)
  | sessionIdRelease (session : Nat)
  | sessionOpen
  | sessionConfirm
  | sessionClose (task : Nat)
  | get (task : Nat)
  | head (task : Nat)
  | put (task : Nat)
  | putIf (task : Nat)
  | delete (task : Nat)
  | punch (task : Nat)
  | append (task : Nat)
  | batch (task : Nat)
  | scan (task : Nat)
  | lock (task : Nat)
  | unlock (task : Nat)
  | flush (task : Nat)
  | odRead (task : Nat)
  | odWrite (task : Nat)
  | attest (task : Nat)
  | queueReset (task : Nat)
  | sanitizeCrypto (task : Nat)
  | sanitizeBlockErase (task : Nat)
  | sanitizeOverwrite (task : Nat)
  | format (task : Nat)
  | query (task : Nat)
  | stayReady (task : Nat)
  | auto (task : Nat)
  | dozeNow (task : Nat)
  | prepareHold (task : Nat)
  | holdPendingExpiry
  | admission
  | commandStart
  | keyLockJoin (task : Nat)
  | keyChainHead (task : Nat)
  | pageInComplete (page : Nat) (readable : Bool)
  | commit (task : Nat)
  | postCompletion (task : Nat)
  | flushComplete (task : Nat)
  | clientLeaseExpiry (tenant : Nat) (key : Bytes)
  | cursorExpiry (cursor : Nat)
  | drainPhaseAdvance
  | drainLimitExpiry
  | slotFill
  | slotTableGenerate
  | tableSwap
  | endpointMaskChange
  | unitIsolate (u : UnitId) (kind : Nat)
  | throttleChange
  | caseTempSample (celsius : Int)
  | camUpdateCycle
  | camBankWidth (bank : Nat) (r : Requester) (v : OdVal)
  | directorySplit
  | pageJoin (page neighbour : Nat)
  | pinReevaluate (r : Requester) (v : OdVal)
  | ruleInsert (r : Requester) (v : OdVal)
  | ruleReplace (r : Requester) (v : OdVal)
  | ruleDelete (r : Requester) (v : OdVal)
  | ruleUpdateWrite
  | ruleScrub (position : Nat)
  | scanStep (task : Nat)
  | imageMemoryError (engine address : Nat)
  | predImageWrite (slot : Nat) (r : Requester) (v : OdVal)
  | predClear (r : Requester) (v : OdVal)
  | keyPageWrite (page sub : Nat) (r : Requester) (v : OdVal)
  | adminPageClear (r : Requester) (v : OdVal)
  | pkMultiplyP256 (r : Requester) (v : OdVal)
  | pkMultiplyP384 (r : Requester) (v : OdVal)
  | pkVerifyP256 (r : Requester) (v : OdVal)
  | pkVerifyP384 (r : Requester) (v : OdVal)
  | pkJobStart
  | pkJobComplete (ladder : Nat)
  | pipelineParity (pipeline stage : Nat) (mismatchPage : Option Nat)
  | pipelineRebind (pipeline page : Nat)
  | rngHealthFail (source test : Nat)
  | rngStartupTestDone
  | rngReseed
  | stripeDrain (stripe : Nat)
  | shardProgramDone (stripe shard : Nat)
  | programReplacement (stripe shard : Nat)
  | packSealTimeout (stripe : Nat)
  | gcStep (tile channel die block : Nat)
  | repack (tenant : Nat) (key : Bytes)
  | journalTrim
  | indexPageRebuild (page : Nat)
  | rebuildStripe (stripe : Nat)
  | reserveRefill (bytes : Nat)
  | longOpStep (work : Nat)
  | flushEnd (bankMv energyMj : Nat) (mapRootWritten : Bool)
  | flushVerify (stripe : Nat) (unreadable : List Nat)
  | dieOpStart (tile channel die : Nat)
  | readDone (tile channel die : Nat) (outcome : List Nat)
  | programDone (tile channel die : Nat)
  | programFailed (tile channel die : Nat)
  | eraseDone (tile channel die : Nat) (passed : Bool)
  | rowVerify (tile channel die block row : Nat) (outcome : List (List Nat))
  | rewrite (tile channel die block : Nat)
  | dieTempSample (tile channel die : Nat) (celsius : Int) (sensor : Bool)
  | tileEmberIdle (tile : Nat)
  | tilePeatIdle (tile : Nat)
  | tileWake (tile : Nat)
  | tileFault (u : UnitId) (kind : Nat)
  | leaseRenewal (w : Warden)
  | pairMismatch (w : Warden)
  | leaseDrop (w : Warden)
  | leaseExpiry
  | leaseGrant
  | deliveryNote (seq digest own : Nat)
  | gatedOutput (w : Warden) (seq : Nat)
  | resyncStart (w : Warden)
  | resyncComplete
  | resyncAbandoned (bytesLeft : Nat)
  | wardenRestartDone (w : Warden)
  | switchoverRequest (r : Requester) (v : OdVal)
  | aonClockStop
  | aonClockRestore (stopUs : Nat)
  | dictTick
  | configLock (r : Requester) (v : OdVal)
  | restoreDefaults (r : Requester) (v : OdVal)
  | read (f : DictFrame)
  | write (f : DictFrame)
  | stagedWriteExpiry
  | segResponseExpiry (source seq : Nat)
  | heartbeat
  | alertNotify
  | quietPropose (source quietId delay : Nat)
  | quietAck
  | quietCommit
  | quietAbandon (own : Bool)
  | wake
  | plcaBeacon
  | plcaBeaconTimeout
  | plcaCollision
  | epochClose
  | byteSecondsSample
  | meteringCheckpoint
  | epochLength (r : Requester) (v : OdVal)
  | wallTime (r : Requester) (v : OdVal)
  | dozeEntry
  | dozeWake
  | powerLossDetect (cause : Nat)
  | holdEntry
  | auxRemoved
  | mainPowerGood (bankMv : Nat)
  | startupStepDone (ms : Nat) (failed : List UnitId)
  | mrstNAssert (heldUs : Nat)
  | mrstNRelease
  | pwrdisAssert
  | pwrdisRelease
  | moduleReset (r : Requester) (v : OdVal)
  | deviceTimeCheckpoint
  | aonTrim (ppm : Int)
  | firewoodTestDue
  | firewoodTestNow (r : Requester) (v : OdVal)
  | firewoodDischargeStart
  | firewoodTestEnd (dischargeUs esrMilliohm bankMv : Nat)
  | chargeComplete (chargeMs : Nat)
  | eventWrite
  | recorderFreeze (r : Requester) (v : OdVal)
  | freezeExpiry
  | kilnLogic (r : Requester) (v : OdVal)
  | kilnMemory (r : Requester) (v : OdVal)
  | kilnLogicMemory (r : Requester) (v : OdVal)
  | kilnHoldUp (r : Requester) (v : OdVal)
  | kilnVaultMemory (r : Requester) (v : OdVal)
  | kilnTargetedStart (u : UnitId)
  | kilnLimitsMet (mv : Nat) (celsius ppm : Int)
  | kilnTestEnd (result failures address failBit durationUs : Nat)
  | traceOff (r : Requester) (v : OdVal)
  | traceArmOnce (r : Requester) (v : OdVal)
  | traceArmContinuous (r : Requester) (v : OdVal)
  | triggerNow (r : Requester) (v : OdVal)
  | traceEntry (kind source task data : Nat)
  | captureReadout
  | traceRearm
  | privateWrite (bytes : Bytes)
  | privateRead
  | responseExpiry
  | entdaa (address : Nat)
  | setdasa (static address : Nat)
  | rstdaa
  | enec (mask : Nat)
  | disec (mask : Nat)
  | getpid
  | getbcr
  | getdcr
  | getstatus
  | setmwl (n : Nat)
  | getmwl
  | setmrl (n : Nat)
  | getmrl
  | unlistedCommonCommand (code : Nat)
  | fwImageWindow (offset valueLen : Nat) (data : Bytes)
  | fwStagingExpiry
  | fwActivate (r : Requester) (v : OdVal)
  | fwAbandon (r : Requester) (v : OdVal)
  | fwFloor (element : Nat) (r : Requester) (v : OdVal)
  | auxApplied (slotAddress : Nat)
  | lpiRxEntry (p : Port)
  | lpiRxExit (p : Port)
  | frameTransmit (p : Port)
  | standbyLeavesStep
  | wakeSettleEnd
  | kilnLimitsLost (limit : Nat) (measured : Int)
  | moduleOutOfService
  | beaconReceived
  | segmentOtherFrame (f : DictFrame) (accepted : Bool)
  deriving DecidableEq, Repr

end Sys2Proof
end

