-- ==== Sys2Proof/Config.lean ====
section
/-!
DEFINITION. What one module fixes for good (manufacturing values, order code), and the free values: functions with
no body, of which nothing can be evaluated, for what the spec names but does not compute (random draws, keys) or leaves open.
-/
namespace Sys2Proof.Config

/-- The draws of the random source in order (R353, R354): the n-th 256-bit value. -/
opaque draw : Nat → Nat

/-- The firmware private key of the module page (R357), as a scalar. -/
opaque firmwareKey : Nat

/-- The device wrap key, derived from fuses at every boot (R357, R360). -/
opaque wrapKey : Nat

/-- The vendor key that the boot ROM holds (R613), as a point of P-384. -/
opaque vendorKey : Nat × Nat

/-- The identity private key of the module page (R357), as a scalar. -/
opaque identityKey : Nat

/-- The order code of the module is HK64-E3L2-QX rather than HK64-E3L2-QA (R2). -/
opaque extendedTemp : Bool

/-- The other manufacturing values by dictionary index and subindex (R260, R439, R494, R519, R620). -/
opaque manufacturing : (index sub : Nat) → Nat

/-- The manufacturing values of BLOB and STR entries by index and subindex. -/
opaque manufacturingBytes : (index sub : Nat) → Bytes

/-- Wake time in µs of a link mode before any EEE TLV (R256: the link mode's default, which the spec does not give). -/
opaque defaultWakeUs : (linkState : Nat) → Nat

/-- Minimum wake time in µs of a link mode (R256; not given). -/
opaque minWakeUs : (linkState : Nat) → Nat

/-- The order in which a generated table reserves slots (R266): the sources reserved in a slot with destinations.
The spec states conditions on a table and leaves its choice to the Warden. -/
opaque slotReservation : (share generation slot source : Nat) → Option Nat

/-- The lane that a generated table takes for the end `place` of the Express routes in a slot (R266). -/
opaque slotLane : (share generation slot place : Nat) → Nat

/-- The delay in µs that a broadcast READ waits (R506) and a QUIET_ACK is drawn from (R514), by draw number. -/
opaque segmentDelay : Nat → Nat

/-- A value the spec leaves open, by the number of the open point and a running count. -/
opaque freeValue : (point count : Nat) → Nat

/-- The bytes from offset 64 on of an interior page, which the spec does not lay out (R296, R297), by page number and page
version. -/
opaque pageBody : (page version : Nat) → Bytes

/-- Die blocks (tile, channel, die, block) that a step of a SANITIZE finds it cannot program, verify or erase (log 127). -/
opaque sanitizeFails : (phase step : Nat) → List (Nat × Nat × Nat × Nat)

end Sys2Proof.Config
end

