-- ==== Sys2Proof/Machine/Crypto.lean ====
section
/-!
DEFINITION. The algorithms of the standards that the cipher complex computes (R337, R348 to R351, R613): AES-256, AES-CMAC, AES-GCM,
AES key unwrap, SHA-256 and SHA-384. The spec cites the standards; PRESUMED (log 11) from FIPS 197, FIPS 180-4 and SP 800-38B, 38D and 38F.
-/
namespace Sys2Proof

/-- The exclusive or of two strings, the shorter counted as zero beyond its end. -/
def xorBytes : Bytes → Bytes → Bytes
  | [], b => b
  | a, [] => a
  | x :: a, y :: b => (x ^^^ y) :: xorBytes a b

/-! ## AES-256 (R337; FIPS 197) -/

/-- The substitution box of FIPS 197: byte x stands at bits [8x + 7 : 8x]. -/
def sboxTable : Nat :=
  0x75B227EBE28012079A059618C323C7041531D871F1E5A534CCF73F362693FDB7C072A49CAFA2D4ADF04759FA7DC982CA76ABD7FE2B670130C56F6BF27B777C63 +
  0xD2F3FF1021DAB6BCF5389D928F40A351A89F3C507F02F94585334D43FBAAEFD0CF584C4A39BECB6A5BB1FC20ED00D153842FE329B3D63B52A05A6E1B1A2C8309 <<< 512 +
  0x08AE7A65EAF4566CA94ED58D6D37C8E779E4959162ACD3C25C2406490A3A32E0DB0B5EDE14B8EE4688902A22DC4F816073195D643D7EA7C41744975FEC130CCD <<< 1024 +
  0x16BB54B00F2D99416842E6BF0D89A18CDF2855CEE9871E9B948ED9691198F8E19E1DC186B95735610EF6034866B53E708A8BBD4B1F74DDE8C6B4A61C2E2578BA <<< 1536

/-- The inverse of the substitution box, laid out likewise. -/
def inverseSboxTable : Nat :=
  0x25D18B6D49A25B76B224D92866A12E084EC3FA420B954CEE3D23C2A632947B54CBE9DEC444438E3487FF2F9B8239E37CFBD7F3819EA340BF38A53630D56A0952 +
  0x6B8A130103BDAFC1020F3FCA8F1E2CD00645B3B80558E4F70AD3BC8C00ABD890849D8DA75746155EDAB9EDFD5048706C92B6655DCC5CA4D41698688664F6F872 <<< 512 +
  0xF45ACD78FEC0DB9A2079D2C64B3E56FC1BBE18AA0E62B76F89C5291D711AF1476EDF751CE837F9E28535ADE72274AC9673E6B4F0CECFF297EADC674F4111913A <<< 1024 +
  0x7D0C2155631469E126D677BA7E042B17619953833CBBEBC8B0F52AAE4D3BE0A0EF9CC9939F7AE52D0D4AB519A97F51605FEC8027591012B131C7078833A8DD1F <<< 1536

def subByte (x : Nat) : Nat := (sboxTable >>> (8 * x)) % 256

def inverseSubByte (x : Nat) : Nat := (inverseSboxTable >>> (8 * x)) % 256

/-- Twice a byte in the field of FIPS 197. -/
def xtime (x : Nat) : Nat := if x < 128 then 2 * x else (2 * x) ^^^ 0x11B

/-- One column through MixColumns. -/
def mixColumn (a b c d : Nat) : List Nat :=
  let t := a ^^^ b ^^^ c ^^^ d
  [a ^^^ t ^^^ xtime (a ^^^ b), b ^^^ t ^^^ xtime (b ^^^ c), c ^^^ t ^^^ xtime (c ^^^ d), d ^^^ t ^^^ xtime (d ^^^ a)]

/-- MixColumns on the columns of a state, four bytes each. -/
def mixColumns : List Nat → List Nat
  | a :: b :: c :: d :: l => mixColumn a b c d ++ mixColumns l
  | l => l

/-- InvMixColumns: MixColumns has the order 4. -/
def inverseMixColumns (l : List Nat) : List Nat := mixColumns (mixColumns (mixColumns l))

/-- ShiftRows: row r is moved left by r columns, so that byte i comes from byte 5i modulo 16. -/
def shiftRows (l : List Nat) : List Nat := (List.range 16).map fun i => l.getD (5 * i % 16) 0

def inverseShiftRows (l : List Nat) : List Nat := (List.range 16).map fun i => l.getD (13 * i % 16) 0

/-- The bytewise exclusive or of two lists of bytes as numbers. -/
def xorNats (a b : List Nat) : List Nat := List.zipWith (fun x y => x ^^^ y) a b

/-- SubWord of FIPS 197 on a word of 32 bits. -/
def subWord (w : Nat) : Nat :=
  subByte (w >>> 24) <<< 24 + subByte ((w >>> 16) % 256) <<< 16 + subByte ((w >>> 8) % 256) <<< 8 + subByte (w % 256)

/-- RotWord of FIPS 197. -/
def rotWord (w : Nat) : Nat := (w <<< 8) % 2 ^ 32 + w >>> 24

/-- Every word exclusive-ored with all words before it and a start. -/
def runningXor : Nat → List Nat → List Nat
  | _, [] => []
  | a, w :: l => (a ^^^ w) :: runningXor (a ^^^ w) l

/-- Eight words of the expanded key from the eight before them. -/
def nextKeyWords (rcon : Nat) (w : List Nat) : List Nat :=
  let low := runningXor (subWord (rotWord (w.getD 7 0)) ^^^ rcon <<< 24) (w.take 4)
  low ++ runningXor (subWord (low.getD 3 0)) (w.drop 4)

/-- The expanded key: `n` times eight words more. -/
def keyWords : (n rcon : Nat) → List Nat → List Nat
  | 0, _, w => w
  | n + 1, rcon, w => w ++ keyWords n (2 * rcon) (nextKeyWords rcon w)

/-- A number as `n` big-endian bytes, themselves numbers. -/
def natParts (width : Nat) : (n x : Nat) → List Nat
  | 0, _ => []
  | n + 1, x => (x >>> (width * n)) % 2 ^ width :: natParts width n x

/-- The 15 round keys of a 32-byte key, 16 bytes each. -/
def roundKeys (key : Bytes) : List (List Nat) :=
  let w := keyWords 7 1 (natParts 32 8 (beNat key))
  (List.range 15).map fun i => ((w.drop (4 * i)).take 4).flatMap (natParts 8 4)

def aesRounds : List (List Nat) → List Nat → List Nat
  | [], s => s
  | [k], s => xorNats (shiftRows (s.map subByte)) k
  | k :: l, s => aesRounds l (xorNats (mixColumns (shiftRows (s.map subByte))) k)

def inverseAesRounds : List (List Nat) → List Nat → List Nat
  | [], s => s
  | [k], s => xorNats ((inverseShiftRows s).map inverseSubByte) k
  | k :: l, s => inverseAesRounds l (inverseMixColumns (xorNats ((inverseShiftRows s).map inverseSubByte) k))

/-- The number that bytes given as numbers spell. -/
def partsNat (l : List Nat) : Nat := l.foldl (fun n x => 256 * n + x) 0

/-- One block, as a number, through AES-256 under expanded round keys. -/
def aesBlock (keys : List (List Nat)) (block : Nat) : Nat :=
  match keys with
  | [] => block
  | k :: l => partsNat (aesRounds l (xorNats (natParts 8 16 block) k))

/-- One block back through AES-256. -/
def inverseAesBlock (keys : List (List Nat)) (block : Nat) : Nat :=
  match keys.reverse with
  | [] => block
  | k :: l => partsNat (inverseAesRounds l (xorNats (natParts 8 16 block) k))

/-- AES-256 of one 16-byte block under a 32-byte key (R337). -/
@[irreducible] def aes256 (key block : Bytes) : BitVec 128 := BitVec.ofNat 128 (aesBlock (roundKeys key) (beNat block))

/-! ## AES-CMAC (R351; SP 800-38B) -/

/-- A block doubled in the field of SP 800-38B. -/
def doubleBlock (x : Nat) : Nat := if x < 2 ^ 127 then 2 * x else ((2 * x) % 2 ^ 128) ^^^ 0x87

/-- The chaining over `n` whole blocks of a message, and what follows them. -/
def cmacChain (keys : List (List Nat)) : (n c : Nat) → Bytes → Nat × Bytes
  | 0, c, m => (c, m)
  | n + 1, c, m => cmacChain keys n (aesBlock keys (c ^^^ beNat (m.take 16))) (m.drop 16)

/-- AES-CMAC with an AES-256 key (R351). -/
@[irreducible] def cmac (key msg : Bytes) : BitVec 128 :=
  let keys := roundKeys key
  let k1 := doubleBlock (aesBlock keys 0)
  let (c, rest) := cmacChain keys ((msg.length - 1) / 16) 0 msg
  let last := if rest.length = 16 then beNat rest ^^^ k1
    else beNat (rest ++ 0x80#8 :: zeros (15 - rest.length)) ^^^ doubleBlock k1
  BitVec.ofNat 128 (aesBlock keys (c ^^^ last))

/-! ## AES-GCM (R348; SP 800-38D) -/

/-- The product of two blocks in the field of SP 800-38D: the top `n` bits of `x` still to be taken, `v` the multiple of the other. -/
def gcmProduct : (n x v z : Nat) → Nat
  | 0, _, _, z => z
  | n + 1, x, v, z =>
    gcmProduct n x (if v % 2 = 1 then (v / 2) ^^^ (0xE1 <<< 120) else v / 2) (if x.testBit n then z ^^^ v else z)

/-- GHASH over `n` blocks of a string, the last filled up with zeros. -/
def ghash (h : Nat) : (n y : Nat) → Bytes → Nat
  | 0, y, _ => y
  | n + 1, y, b =>
    let x := b.take 16
    ghash h n (gcmProduct 128 (y ^^^ beNat (x ++ zeros (16 - x.length))) h 0) (b.drop 16)

/-- `n` blocks of a string through counter mode, the counter block being `nonce` and a count. -/
def counterMode (keys : List (List Nat)) (nonce : Nat) : (n count : Nat) → Bytes → Bytes
  | 0, _, _ => []
  | n + 1, count, b =>
    let x := b.take 16
    xorBytes x ((natBytes 16 (aesBlock keys (nonce <<< 32 + count % 2 ^ 32))).take x.length)
      ++ counterMode keys nonce n (count + 1) (b.drop 16)

/-- The ciphertext of a plaintext, or the plaintext of a ciphertext, under a key and a 12-byte nonce. -/
def gcmStream (key nonce text : Bytes) : Bytes := counterMode (roundKeys key) (beNat nonce) (ceilDiv text.length 16) 2 text

/-- The tag over additional data and ciphertext. -/
def gcmCipherTag (key nonce aad cipher : Bytes) : Nat :=
  let keys := roundKeys key
  let h := aesBlock keys 0
  let y := ghash h (ceilDiv aad.length 16) 0 aad
  let y := ghash h (ceilDiv cipher.length 16) y cipher
  let y := gcmProduct 128 (y ^^^ ((8 * aad.length) <<< 64 + 8 * cipher.length)) h 0
  y ^^^ aesBlock keys (beNat nonce <<< 32 + 1)

/-- The 128-bit tag of a plaintext under key, 12-byte nonce and additional data (R348). -/
@[irreducible] def gcmTag (key nonce aad plain : Bytes) : Nat := gcmCipherTag key nonce aad (gcmStream key nonce plain)

/-- AES-256-GCM decryption of a firmware body (R613): none where the tag is wrong. -/
@[irreducible] def gcmOpen (key nonce aad body tag : Bytes) : Option Bytes :=
  if gcmCipherTag key nonce aad body = beNat tag ∧ tag.length = 16 then some (gcmStream key nonce body) else none

/-! ## AES key unwrap (R613; KW of SP 800-38F) -/

/-- One pass over the 64-bit pieces from the last to the first; `t` is the number of the step. -/
def unwrapPass (keys : List (List Nat)) : (t a : Nat) → List Nat → Nat × List Nat
  | _, a, [] => (a, [])
  | t, a, r :: l =>
    let b := inverseAesBlock keys ((a ^^^ t) <<< 64 + r)
    let (a, l) := unwrapPass keys (t - 1) (b >>> 64) l
    (a, b % 2 ^ 64 :: l)

/-- `j` passes over the pieces, which stand last first. -/
def unwrapPasses (keys : List (List Nat)) : (j a : Nat) → List Nat → Nat × List Nat
  | 0, a, l => (a, l)
  | j + 1, a, l =>
    let (a, l) := unwrapPass keys (l.length * (j + 1)) a l
    unwrapPasses keys j a l

/-- AES key unwrap under a 32-byte key (R613): none where the integrity check fails. -/
@[irreducible] def keyUnwrap (key wrapped : Bytes) : Option Bytes :=
  let n := wrapped.length / 8 - 1
  let (a, l) := unwrapPasses (roundKeys key) 6 (numAt wrapped 0 8)
    ((List.range n).map fun i => numAt wrapped (8 * (n - i)) 8)
  if a = 0xA6A6A6A6A6A6A6A6 then some (l.reverse.flatMap (natBytes 8)) else none

/-! ## SHA-256 and SHA-384 (R130, R178, R613; FIPS 180-4) -/

/-- The first 64 bits of the fractional parts of the cube roots of the first 80 primes (FIPS 180-4). -/
def shaConstants : List Nat :=
  [0x428A2F98D728AE22, 0x7137449123EF65CD, 0xB5C0FBCFEC4D3B2F, 0xE9B5DBA58189DBBC,
    0x3956C25BF348B538, 0x59F111F1B605D019, 0x923F82A4AF194F9B, 0xAB1C5ED5DA6D8118,
    0xD807AA98A3030242, 0x12835B0145706FBE, 0x243185BE4EE4B28C, 0x550C7DC3D5FFB4E2,
    0x72BE5D74F27B896F, 0x80DEB1FE3B1696B1, 0x9BDC06A725C71235, 0xC19BF174CF692694] ++
  [0xE49B69C19EF14AD2, 0xEFBE4786384F25E3, 0x0FC19DC68B8CD5B5, 0x240CA1CC77AC9C65,
    0x2DE92C6F592B0275, 0x4A7484AA6EA6E483, 0x5CB0A9DCBD41FBD4, 0x76F988DA831153B5,
    0x983E5152EE66DFAB, 0xA831C66D2DB43210, 0xB00327C898FB213F, 0xBF597FC7BEEF0EE4,
    0xC6E00BF33DA88FC2, 0xD5A79147930AA725, 0x06CA6351E003826F, 0x142929670A0E6E70] ++
  [0x27B70A8546D22FFC, 0x2E1B21385C26C926, 0x4D2C6DFC5AC42AED, 0x53380D139D95B3DF,
    0x650A73548BAF63DE, 0x766A0ABB3C77B2A8, 0x81C2C92E47EDAEE6, 0x92722C851482353B,
    0xA2BFE8A14CF10364, 0xA81A664BBC423001, 0xC24B8B70D0F89791, 0xC76C51A30654BE30,
    0xD192E819D6EF5218, 0xD69906245565A910, 0xF40E35855771202A, 0x106AA07032BBD1B8] ++
  [0x19A4C116B8D2D0C8, 0x1E376C085141AB53, 0x2748774CDF8EEB99, 0x34B0BCB5E19B48A8,
    0x391C0CB3C5C95A63, 0x4ED8AA4AE3418ACB, 0x5B9CCA4F7763E373, 0x682E6FF3D6B2B8A3,
    0x748F82EE5DEFB2FC, 0x78A5636F43172F60, 0x84C87814A1F0AB72, 0x8CC702081A6439EC,
    0x90BEFFFA23631E28, 0xA4506CEBDE82BDE9, 0xBEF9A3F7B2C67915, 0xC67178F2E372532B] ++
  [0xCA273ECEEA26619C, 0xD186B8C721C0C207, 0xEADA7DD6CDE0EB1E, 0xF57D4F7FEE6ED178,
    0x06F067AA72176FBA, 0x0A637DC5A2C898A6, 0x113F9804BEF90DAE, 0x1B710B35131C471B,
    0x28DB77F523047D84, 0x32CAAB7B40C72493, 0x3C9EBE0A15C9BEBC, 0x431D67C49C100D4C,
    0x4CC5D4BECB3E42B6, 0x597F299CFC657E2A, 0x5FCB6FAB3AD6FAEC, 0x6C44198C4A475817]

/-- The first 64 bits of the fractional parts of the square roots of the first 16 primes (FIPS 180-4). -/
def shaRoots : List Nat :=
  [0x6A09E667F3BCC908, 0xBB67AE8584CAA73B, 0x3C6EF372FE94F82B, 0xA54FF53A5F1D36F1,
    0x510E527FADE682D1, 0x9B05688C2B3E6C1F, 0x1F83D9ABFB41BD6B, 0x5BE0CD19137E2179,
    0xCBBB9D5DC1059ED8, 0x629A292A367CD507, 0x9159015A3070DD17, 0x152FECD8F70E5939,
    0x67332667FFC00B31, 0x8EB44A8768581511, 0xDB0C2E0D64F98FA7, 0x47B5481DBEFA4FA4]

/-- What tells the two hashes apart: the word's bits, the constants and the turns of the functions Σ0, Σ1, σ0 and σ1. -/
structure Sha2 where
  width : Nat
  ks    : List Nat
  big0  : Nat × Nat × Nat
  big1  : Nat × Nat × Nat
  low0  : Nat × Nat × Nat
  low1  : Nat × Nat × Nat

/-- SHA-256: words of 32 bits, 64 rounds. -/
def sha2of256 : Sha2 :=
  { width := 32, ks := (shaConstants.take 64).map (· >>> 32), big0 := (2, 13, 22), big1 := (6, 11, 25), low0 := (7, 18, 3),
    low1 := (17, 19, 10) }

/-- SHA-384 and SHA-512: words of 64 bits, 80 rounds. -/
def sha2of512 : Sha2 :=
  { width := 64, ks := shaConstants, big0 := (28, 34, 39), big1 := (14, 18, 41), low0 := (1, 8, 7), low1 := (19, 61, 6) }

/-- `x` turned right by `n` bits. -/
def turnRight (width n x : Nat) : Nat := x >>> n + (x <<< (width - n)) % 2 ^ width

def Sha2.turns (p : Sha2) (t : Nat × Nat × Nat) (x : Nat) : Nat :=
  turnRight p.width t.1 x ^^^ turnRight p.width t.2.1 x ^^^ turnRight p.width t.2.2 x

def Sha2.shifts (p : Sha2) (t : Nat × Nat × Nat) (x : Nat) : Nat :=
  turnRight p.width t.1 x ^^^ turnRight p.width t.2.1 x ^^^ x >>> t.2.2

/-- The window of 16 words moved on by one word of the message schedule. -/
def Sha2.advance (p : Sha2) (w : List Nat) : List Nat :=
  w.drop 1 ++ [(p.shifts p.low1 (w.getD 14 0) + w.getD 9 0 + p.shifts p.low0 (w.getD 1 0) + w.getD 0 0) % 2 ^ p.width]

/-- One round with the sum of constant and word. -/
def Sha2.round (p : Sha2) (kw : Nat) : List Nat → List Nat
  | [a, b, c, d, e, f, g, h] =>
    let t1 := h + p.turns p.big1 e + ((e &&& f) ^^^ ((2 ^ p.width - 1 - e) &&& g)) + kw
    let t2 := p.turns p.big0 a + ((a &&& b) ^^^ (a &&& c) ^^^ (b &&& c))
    [(t1 + t2) % 2 ^ p.width, a, b, c, (d + t1) % 2 ^ p.width, e, f, g]
  | l => l

def Sha2.rounds (p : Sha2) : (ks window v : List Nat) → List Nat
  | [], _, v => v
  | k :: ks, w, v => p.rounds ks (p.advance w) (p.round (k + w.headD 0) v)

/-- `n` blocks of a padded message. -/
def Sha2.blocks (p : Sha2) : (n : Nat) → (v : List Nat) → Bytes → List Nat
  | 0, v, _ => v
  | n + 1, v, b =>
    let size := 2 * p.width
    let u := p.rounds p.ks (natParts p.width 16 (beNat (b.take size))) v
    p.blocks n (List.zipWith (fun x y => (x + y) % 2 ^ p.width) v u) (b.drop size)

/-- The hash of a message from the initial value `v`: eight words. -/
def Sha2.hash (p : Sha2) (v : List Nat) (msg : Bytes) : List Nat :=
  let size := 2 * p.width
  let n := ceilDiv (msg.length + 1 + p.width / 4) size
  p.blocks n v (msg ++ 0x80#8 :: zeros (n * size - msg.length - 1 - p.width / 4) ++ natBytes (p.width / 4) (8 * msg.length))

/-- The number that words spell. -/
def wordsNat (width : Nat) (l : List Nat) : Nat := l.foldl (fun n x => n <<< width + x) 0

/-- SHA-256 (R130, R414). -/
@[irreducible] def sha256 (msg : Bytes) : BitVec 256 :=
  BitVec.ofNat 256 (wordsNat 32 (sha2of256.hash ((shaRoots.take 8).map (· >>> 32)) msg))

/-- SHA-384 (R178, R613). -/
@[irreducible] def sha384 (msg : Bytes) : BitVec 384 := BitVec.ofNat 384 (wordsNat 64 ((sha2of512.hash (shaRoots.drop 8) msg).take 6))

end Sys2Proof
end

