-- ==== Sys2Proof/Machine/Curves.lean ====
section
/-!
DEFINITION. The two curves of the public-key engine, P-256 and P-384, by the arithmetic of their points (R364, R366).
The spec names the curves and the order of checks; the constants of the curves are PRESUMED from FIPS 186. A scalar
multiplication gives the product of a point and a scalar; the ladder's order of steps is timing and is left out.
-/
namespace Sys2Proof

/-- A curve y² = x³ − 3x + b modulo p, its base point and the order n of its group. -/
structure Curve where
  size : Nat
  p    : Nat
  n    : Nat
  b    : Nat
  gx   : Nat
  gy   : Nat
  deriving DecidableEq, Repr

def p256 : Curve :=
  { size := 32, p := 2 ^ 256 - 2 ^ 224 + 2 ^ 192 + 2 ^ 96 - 1,
    n := 0xFFFFFFFF00000000FFFFFFFFFFFFFFFFBCE6FAADA7179E84F3B9CAC2FC632551,
    b := 0x5AC635D8AA3A93E7B3EBBD55769886BC651D06B0CC53B0F63BCE3C3E27D2604B,
    gx := 0x6B17D1F2E12C4247F8BCE6E563A440F277037D812DEB33A0F4A13945D898C296,
    gy := 0x4FE342E2FE1A7F9B8EE7EB4A7C0F9E162BCE33576B315ECECBB6406837BF51F5 }

def p384 : Curve :=
  { size := 48, p := 2 ^ 384 - 2 ^ 128 - 2 ^ 96 + 2 ^ 32 - 1,
    n := 0xFFFFFFFFFFFFFFFFFFFFFFFFFFFFFFFFFFFFFFFFFFFFFFFFC7634D81F4372DDF581A0DB248B0A77AECEC196ACCC52973,
    b := 0xB3312FA7E23EE7E4988E056BE3F82D19181D9C6EFE8141120314088F5013875AC656398D8A2ED19D2A85C8EDD3EC2AEF,
    gx := 0xAA87CA22BE8B05378EB1C71EF320AD746E1D3B628BA79B9859F741E082542A385502F25DBF55296C3A545E3872760AB7,
    gy := 0x3617DE4A96262C6F5D9E98BF9292DC29F8F41DBD289A147CE9DA3113B5F0B8C00A60B1CE1D7E819D7A431D7C90EA0E5F }

/-- A point of a curve; `none` is the point at infinity. -/
abbrev Point := Option (Nat × Nat)

/-- `b ^ e` modulo `m`, one bit of the exponent for each unit of fuel. -/
def powMod (m : Nat) : (fuel b e : Nat) → Nat
  | 0, _, _ => 1 % m
  | f + 1, b, e =>
    if e = 0 then 1 % m
    else
      let r := powMod m f (b * b % m) (e / 2)
      if e % 2 = 1 then r * b % m else r

/-- The inverse of `a` modulo a prime of at most 384 bits. -/
def invMod (m a : Nat) : Nat := powMod m 384 (a % m) (m - 2)

def Curve.base (c : Curve) : Point := some (c.gx, c.gy)

/-- The point lies on the curve. -/
def Curve.holds (c : Curve) (x y : Nat) : Bool :=
  decide ((y * y + 3 * x) % c.p = (x * x % c.p * x + c.b) % c.p)

/-- The third point on a line of slope `m` through two points, reflected. -/
def Curve.third (c : Curve) (m x1 y1 x2 : Nat) : Point :=
  let x := (m * m + 2 * c.p - x1 - x2) % c.p
  some (x, (m * (x1 + c.p - x) + c.p - y1) % c.p)

/-- The sum of two points. -/
def Curve.add (c : Curve) : Point → Point → Point
  | none, q => q
  | q, none => q
  | some (x1, y1), some (x2, y2) =>
    if x1 = x2 then
      if (y1 + y2) % c.p = 0 then none
      else c.third ((3 * x1 * x1 + c.p - 3) * invMod c.p (2 * y1) % c.p) x1 y1 x2
    else c.third ((y2 + c.p - y1) * invMod c.p (x2 + c.p - x1) % c.p) x1 y1 x2

/-- The product of a scalar and a point, one bit of the scalar for each unit of fuel. -/
def Curve.mulBits (c : Curve) : (fuel k : Nat) → Point → Point
  | 0, _, _ => none
  | f + 1, k, q =>
    if k = 0 then none
    else
      let r := c.mulBits f (k / 2) (c.add q q)
      if k % 2 = 1 then c.add r q else r

def Curve.mul (c : Curve) (k : Nat) (q : Point) : Point := c.mulBits (8 * c.size) k q

/-- A point in uncompressed form: 0x04, X, Y; zeros for the point at infinity. -/
def Curve.encode (c : Curve) : Point → Bytes
  | none => zeros (2 * c.size + 1)
  | some (x, y) => 0x04 :: natBytes c.size x ++ natBytes c.size y

/-- The point that an uncompressed form spells. -/
def Curve.decode (c : Curve) (b : Bytes) : Point := some (numAt b 1 c.size, numAt b (1 + c.size) c.size)

/-- Checks 3 to 6 of R366 on a public key field: the sub-code of the first that fails. -/
def Curve.keyFault (c : Curve) (b : Bytes) : Option Nat :=
  let x := numAt b 1 c.size
  let y := numAt b (1 + c.size) c.size
  if b.all (· == 0) then some 0x0023
  else if b.head? ≠ some 0x04 then some 0x0020
  else if c.p ≤ x ∨ c.p ≤ y then some 0x0021
  else if !c.holds x y then some 0x0022
  else none

/-- Checks 1 and 2 of R366 on scalars from outside. -/
def Curve.scalarFault (c : Curve) (l : List Nat) : Option Nat :=
  if l.any (· == 0) then some 0x0024 else if l.any (fun k => decide (c.n ≤ k)) then some 0x0025 else none

/-- ECDSA verification of a signature (r, s) of a digest under a public key (PRESUMED from FIPS 186). -/
def Curve.verify (c : Curve) (q : Point) (digest r s : Nat) : Bool :=
  let w := invMod c.n s
  match c.add (c.mul (digest * w % c.n) c.base) (c.mul (r * w % c.n) q) with
  | none => false
  | some (x, _) => x % c.n == r

/-- ECDSA signature of a digest with a private key and a nonce; none where the nonce must be redrawn. -/
def Curve.sign (c : Curve) (d digest k : Nat) : Option (Nat × Nat) :=
  match c.mul k c.base with
  | none => none
  | some (x, _) =>
    let r := x % c.n
    let s := invMod c.n k * (digest + r * d) % c.n
    if r = 0 ∨ s = 0 then none else some (r, s)

end Sys2Proof
end

