-- ==== Sys2Proof/WellFormed.lean ====
section
/-!
DEFINITION. Which operands a wire can carry: every field of a frame fits its bits (R94, R99, R135, R232, R504).
A command that brings in a frame no wire carries is refused by name.
-/
namespace Sys2Proof

/-- A number fits a field of `w` bits. -/
def fits (w n : Nat) : Bool := decide (n < 2 ^ w)

def Tag.ok (t : Tag) : Bool := fits 3 t.pcp && fits 12 t.vid

def IpAddr.ok (a : IpAddr) : Bool := if a.v6 then fits 128 a.addr else fits 32 a.addr

def Lead.ok (l : Lead) : Bool :=
  fits 16 l.leadLen && fits 16 l.unit && fits 32 l.legLen && fits 64 l.msgLen && fits 64 l.legOff

def Nonce.ok (n : Nonce) : Bool := fits 31 n.epoch && fits 64 n.counter

/-- Every header field fits its bits (R94) and at most 65,507 data bytes follow. -/
def Frag.ok (f : Frag) : Bool :=
  fits 48 f.srcMac && (f.tag.all Tag.ok) && fits 6 f.dscp && f.src.ok && f.dst.ok && fits 16 f.srcPort
    && fits 16 f.dstPort && fits 16 f.udpLen && fits 12 f.magic && fits 4 f.version && fits 16 f.flags
    && fits 32 f.session && fits 32 f.seq && fits 32 f.cumAck && fits 32 f.sack && fits 64 f.reqId
    && fits 8 f.opcode && fits 8 f.status && fits 2 f.cls && fits 14 f.index && fits 16 f.count
    && fits 16 f.payloadLen && fits 16 f.credit && fits 16 f.leg && (f.lead.all Lead.ok)
    && (f.nonce.all Nonce.ok) && fits 128 f.gcmTag && decide (f.data.length ≤ 65507)

def ClockData.ok (d : ClockData) : Bool :=
  fits 8 d.priority1 && fits 8 d.clockClass && fits 8 d.accuracy && fits 16 d.variance && fits 8 d.priority2
    && fits 64 d.identity && fits 16 d.steps

def PtpMsg.ok : PtpMsg → Bool
  | .announce source d _ _ _ _ => fits 80 source && d.ok
  | .sync source seq _ _ => fits 80 source && fits 16 seq
  | .followUp source seq _ => fits 80 source && fits 16 seq
  | .delayResp source requester seq _ _ => fits 80 source && fits 80 requester && fits 16 seq
  | .other source => fits 80 source

def FrameBody.ok : FrameBody → Bool
  | .pause q => fits 16 q
  | .pfc e qs => fits 8 e && decide (qs.length = 8) && qs.all (fits 16)
  | .lldp (some (a, b)) => fits 16 a && fits 16 b
  | .ptp tr dom m => decide (tr ≤ 2) && fits 8 dom && m.ok
  | .arp _ a t => fits 32 a && fits 32 t
  | .neighbourSolicit a d t => fits 128 a && fits 128 d && fits 128 t
  | .echo a b i n _ => a.ok && b.ok && fits 16 i && fits 16 n
  | .icmpOther d => d.ok
  | .udp f => f.ok
  | .ipOther d => d.ok
  | _ => true

/-- EtherType of the frame, behind its first tag. -/
def RxFrame.etherType (f : RxFrame) : Nat := numAt f.raw (if f.tag.isSome then 16 else 12) 2

/-- The IP family that carries the body, where IP carries it. -/
def FrameBody.family : FrameBody → Option Bool
  | .ptp 1 _ _ => some false
  | .ptp 2 _ _ => some true
  | .neighbourSolicit _ _ _ => some true
  | .echo _ dst _ _ _ => some dst.v6
  | .icmpOther dst => some dst.v6
  | .udp f => some f.dst.v6
  | .ipOther dst => some dst.v6
  | _ => none

/-- The bytes are those of a frame of its length that carries the body's IP family. -/
def RxFrame.spelt (f : RxFrame) : Bool :=
  f.raw.length + 4 == f.len && (match f.body.family with
    | some v6 => f.etherType == (if v6 then 0x86DD else 0x0800)
    | none => f.etherType != 0x0800 && f.etherType != 0x86DD)

/-- The frame is one an Ethernet port can receive. -/
def RxFrame.ok (f : RxFrame) : Bool :=
  fits 48 f.dstMac && fits 48 f.srcMac && (f.tag.all Tag.ok) && fits 16 f.len && (f.dscp.all (fits 6)) && fits 32 f.fcs && f.body.ok
    && f.spelt

/-- Every field of the 12-byte dictionary header fits its bytes (R504). -/
def DictFrame.ok (f : DictFrame) : Bool :=
  fits 48 f.source && fits 8 f.op && fits 24 f.reserved && fits 16 f.seq && fits 16 f.index && fits 8 f.sub
    && fits 8 f.status && fits 16 f.length

/-- The command's operands are such as the outside world can bring about. -/
def Instr.wellFormed : Instr → Bool
  | .frameReceive _ f => f.ok
  | .read f => f.ok && f.op == 1
  | .write f => f.ok && f.op == 2
  | .segmentOtherFrame f _ => f.ok
  | .quietPropose source quietId delay => fits 48 source && fits 32 quietId && fits 32 delay
  | _ => true

end Sys2Proof
end

