-- ==== Sys2Proof/Machine/State.lean ====
section
/-!
DEFINITION. The state of the module as plain data, one structure per subsystem of R15, and the state right after
reset. Every dictionary entry that the spec gives as a stored value (settings, counters, records) lives in the one
register file `od` under its own index and subindex (R477); entries that mirror live state are computed on read.
-/
namespace Sys2Proof.Machine

/-- Why a step stops with a fault. -/
inductive Fault where
  /-- Raised by a command whose operand names a unit the module does not have (R13: "and no others"). Safe: the
  hardware has no such unit, so no run of it is lost. -/
  | noSuchUnit
  deriving DecidableEq, Repr

/-- Why a command has no meaning. -/
inductive Refusal where
  /-- A row of the table not modelled yet. Raised by an arm of exec only. Safe. -/
  | notModelled (mnemonic : String)
  /-- A command whose operand is no frame or word that the wire can carry (a field wider than its bits, R94).
  Raised by the commands that bring a frame in. Safe: no such command exists. -/
  | illFormed (mnemonic : String)
  deriving DecidableEq, Repr

/-! ## What leaves the module -/

/-- What the measure of an Express/0 response needs (R279): core cycle (ns) of the last byte of the request frame, whether
any byte of the response was read from a tile, and the task. -/
structure Timing where
  rx    : Nat
  media : Bool
  task  : Nat
  deriving DecidableEq, Repr

/-- A response of a command: what its fragments carry (R117, R153). -/
structure Response where
  session : Nat
  reqId   : Nat
  opcode  : Nat
  status  : Nat
  /-- Response flags as bits of the header flags field (R96). -/
  flags   : Nat
  fields  : Bytes
  data    : Bytes
  cls     : Cls
  /-- Tenant of the keys read, whose page its data is encrypted under (R340). -/
  tenant  : Nat
  /-- Some of the data was read from a tile. -/
  media   : Bool
  /-- Present where the response is measured (R279). -/
  timed   : Option Timing
  deriving DecidableEq, Repr

/-- Where a datagram goes and how it is carried (R89, R234): destination MAC address, VLAN ID where it is tagged, IP
addresses and destination UDP port. -/
structure Carriage where
  dstMac  : Nat
  vid     : Option Nat
  src     : IpAddr
  dst     : IpAddr
  dstPort : Nat
  deriving DecidableEq, Repr

/-- One fragment that the module sends (R94). -/
structure TxFrag where
  session : Nat
  port    : Port
  seq     : Nat
  cumAck  : Nat
  sack    : Nat
  reqId   : Nat
  opcode  : Nat
  status  : Nat
  flags   : Nat
  cls     : Cls
  index   : Nat
  count   : Nat
  credit  : Nat
  leg     : Nat
  unit    : Nat
  legLen  : Nat
  msgLen  : Nat
  legOff  : Nat
  fields  : Bytes
  data    : Bytes
  nonce   : Option Nonce
  /-- Ciphertext and GCM tag, with a nonce (R134). -/
  cipher  : Bytes
  gcm     : Nat
  /-- The measure that its first byte on the wire ends (R279). -/
  timed   : Option Timing
  deriving DecidableEq, Repr

/-- A frame waiting in a transmit queue or sent on a port. Replies and refusals of the handshake, the replies of R148
and NO_SESSION are fragments that no session's acknowledgements cover. -/
inductive TxFrame where
  | fragment (f : TxFrag) (c : Carriage)
  | noSession (f : TxFrag) (c : Carriage)
  | handshake (f : TxFrag) (c : Carriage)
  /-- The port's address asked for, and who asks. -/
  | arpReply (own peer dstMac : Nat) (vid : Option Nat)
  | gratuitousArp (addr : Nat)
  /-- The port's address it is sent from, and the target address it is about. -/
  | neighbourAdvert (own addr dst dstMac : Nat) (vid : Option Nat) (solicited : Bool)
  | echoReply (c : Carriage) (ident seq : Nat) (data : Bytes)
  /-- Receive Tw, Transmit Tw, and the partner's two as stored. -/
  | lldp (rxTw txTw partnerRx partnerTx : Nat)
  | delayReq (seq : Nat)
  | pfc (priority quanta : Nat)
  | pauseFrame (quanta : Nat)
  deriving DecidableEq, Repr

/-- A dictionary response on the segment or the service port (R504, R508). -/
structure DictResponse where
  dest    : Nat
  op      : Nat
  seq     : Nat
  index   : Nat
  sub     : Nat
  status  : Nat
  area    : Bytes
  deriving DecidableEq, Repr

/-- What the outside world sees, in order: the log of everything that has left the module. -/
inductive Out where
  /-- A frame sent: its transmit queue, its bytes up to the FCS, and the transmit lanes that carry it (R226). -/
  | frame (p : Port) (queue : Option Nat) (f : TxFrame) (bytes : Bytes) (lanes : Nat)
  | segment (r : DictResponse)
  | segBeacon
  | segWake
  | segQuietAck (quietId status : Nat)
  | segHeartbeat (area : Bytes)
  | segAlert (area : Bytes)
  | ibi
  | i3cRead (bytes : Bytes)
  | i3cAck
  | i3cNack
  | i3cBytes (b : Bytes)
  /-- The answer to a write: its status, the BAD_REQUEST sub-code or 0 (R155), and the device time of its tick. -/
  | dictAnswer (r : Requester) (index sub status code deviceTime : Nat)
  deriving DecidableEq, Repr

/-! ## DPX: the data ports -/

/-- A gate control list in force or pending: enable, cycle, phase, entries of gate states and interval (R246). -/
structure GateList where
  enable  : Bool
  cycle   : Nat
  phase   : Nat
  entries : List (Nat × Nat)
  /-- Device time in ns of the switch instant its cycles count from (R248). -/
  start   : Nat
  deriving DecidableEq, Repr

/-- A record of the capture ring (R244). -/
structure CaptureRec where
  time     : Nat
  seq      : Nat
  frameLen : Nat
  capLen   : Nat
  priority : Nat
  flags    : Nat
  offset   : Nat
  data     : Bytes
  deriving DecidableEq, Repr

/-- A datagram that waits for WTE: its partition and frame length, the core cycle (ns) at which its last byte came, and the
class that its marking mapped to as it came (R92, R145). -/
structure Datagram where
  frag : Frag
  part : Nat
  len  : Nat
  rx   : Nat
  mark : Nat
  deriving DecidableEq, Repr

/-- One data port. -/
structure PortS where
  /-- 1x01 LINK_STATE: 0 down, 1 negotiating, 2 up 400G, 3 up 200G, 4 up 100G. -/
  linkState    : Nat
  /-- Clause 73 signalling has been seen since power was applied (R625). -/
  partnerSeen  : Bool
  /-- Modes dropped from the advertisement, as LINK_ABILITIES bits (R227). -/
  dropped      : Nat
  /-- Mode bit and length of the running streak of training failures (R227). -/
  trainMode    : Nat
  trainFails   : Nat
  /-- Bytes held in each of the eight receive partitions (R239). -/
  partitions   : List Nat
  /-- Frames consumed by the port itself, with their partition and length, and datagrams for WTE, in arrival order. -/
  inbox        : List (FrameBody × Nat × Nat)
  toWte        : List Datagram
  /-- A pause is asked of the partner for the partition (R252), or for the port in entry 0 in PAUSE mode. -/
  pauseSent    : List Bool
  /-- Core cycle (ns) at which the queue's pause ends, when paused (R251). -/
  pausedUntil  : List (Option Nat)
  /-- Device time (µs) from which the queue has been paused without a break (R253). -/
  pausedSince  : List (Option Nat)
  /-- Device time until which pause frames for the queue are ignored (R253). -/
  ignoreUntil  : List (Option Nat)
  /-- Core cycle (ns) at which the last pause was asked for each priority (R252). -/
  pauseAt      : List Nat
  /-- Device time (ns) at which the transmitter has sent the frame it is sending (R247, R251). -/
  txFreeAt     : Nat
  /-- The eight transmit queues (R245), each frame with its length in bytes. -/
  txq          : List (List (TxFrame × Nat))
  /-- Frames that bypass the queues (R245). -/
  bypass       : List TxFrame
  oper         : GateList
  /-- 1x16 GATE_STATE. -/
  gateState    : Nat
  /-- Pending commit: the list and the device time (ns) of the switch instant (R248). -/
  gatePending  : Option (GateList × Nat)
  lpiTx        : Bool
  lpiRx        : Bool
  /-- Device time of the last frame the transmitter had to send (R254). -/
  idleSince    : Nat
  /-- Device time at which the first frame may follow an LPI exit (R256). -/
  lpiWakeAt    : Nat
  eeeTlvSeen   : Bool
  lldpDue      : Nat
  capture      : List CaptureRec
  captureSeq   : Nat
  captureHead  : Nat
  captureFrozenAt : Option Nat
  /-- Device times of the echo replies of the last second (R237). -/
  echoTimes    : List Nat
  deriving DecidableEq, Repr

/-- The PTP follower clock (R257, R258, R536). -/
structure PtpS where
  /-- 1004 PTP_STATE. -/
  state        : Nat
  /-- Port identity of the leader and its latest grandmaster (R257). -/
  leader       : Nat
  best         : ClockData
  intervalUs   : Nat
  lastAnnounce : Nat
  /-- Sequence number and receive time of a two-step Sync waiting for its Follow_Up. -/
  syncRx       : Option (Nat × Int)
  /-- The latest pair (master to slave difference), the sequence number of the latest Delay_Req, and the time at which
  it left the port while its answer is awaited (R258). -/
  msDiff       : Option Int
  delaySeq     : Nat
  delaySent    : Option Int
  delayInterval : Nat
  delayDue     : Nat
  utcOffset    : Int
  timescaleOk  : Bool
  deriving DecidableEq, Repr

structure Dpx where
  portA : PortS
  portB : PortS
  ptp   : PtpS
  deriving DecidableEq, Repr

/-! ## WTE: sessions -/

/-- A replay-cache entry (R122). -/
structure ReplayEntry where
  reqId    : Nat
  opcode   : Nat
  status   : Nat
  flags    : Nat
  fields   : Bytes
  postedAt : Nat
  deriving DecidableEq, Repr

/-- A request message under reassembly: the byte ranges that have arrived, with their data (R102). -/
structure Message where
  reqId   : Nat
  opcode  : Nat
  cls     : Cls
  ordered : Bool
  msgLen  : Nat
  /-- Legs seen: number, D, length, offset, fragment count. -/
  legs    : List (Nat × Nat × Nat × Nat × Nat)
  /-- Fragments that have joined. -/
  arrived : Nat
  /-- Fragments held for a leg whose fragment 0 has not arrived, with their place in the order of arrival. -/
  held    : List (Nat × Frag)
  /-- Ranges present: place in the order of arrival, offset and bytes; rising in the first (R102). -/
  parts   : List (Nat × Nat × Bytes)
  /-- The whole message has gone to the command's TRS: what further fragments say is still compared (R103). -/
  done    : Bool
  deriving DecidableEq, Repr

/-- A request id whose fragments are discarded (R103, R115, R116): whether fragment 0 of leg 0 has come, and, where the
request is a duplicate of one in flight, the sequence number from which its fragments are the duplicate's. -/
structure Discard where
  reqId : Nat
  lead  : Bool
  after : Option Nat
  deriving DecidableEq, Repr

/-- A fragment sent and not yet acknowledged. -/
structure Unacked where
  frag      : TxFrag
  /-- Core cycle counter, ns, at the first sending. -/
  firstSent : Nat
  /-- Retransmissions on RTO expiry, and whether it was ever retransmitted (R108, R110). -/
  retries   : Nat
  resent    : Bool
  fastAt    : Option Nat
  deriving DecidableEq, Repr

/-- A leg being sent: number, data unit D, offset and length of its data, index of its next fragment (R99, R100). -/
structure TxLeg where
  num   : Nat
  unit  : Nat
  off   : Nat
  len   : Nat
  index : Nat
  deriving DecidableEq, Repr

/-- Message data that lies in a stripe: the stripe, the offset in the message data, the length, and the stripe data offset
(R158). -/
structure Span where
  stripe : Nat
  pos    : Nat
  len    : Nat
  off    : Nat
  deriving DecidableEq, Repr

/-- A response being cut into fragments (R117 to R120). It stays here until every fragment is acknowledged. -/
structure TxMessage where
  resp     : Response
  port     : Port
  /-- Ranges of message data, offset and length, that no leg has numbered yet. -/
  todo     : List (Nat × Nat)
  cur      : Option TxLeg
  nextLeg  : Nat
  /-- The message ends with CUT where its data cannot be had: offset from which it is missing, and final status. -/
  cutAt    : Option (Nat × Nat)
  cutSent  : Bool
  /-- Where the data is read from. -/
  spans    : List Span
  /-- The SESSION_CLOSE whose acknowledgement ends the session (R141). -/
  closes   : Bool
  deriving DecidableEq, Repr

/-- Why a session record exists. -/
inductive SessionPhase where
  | halfOpen (since : Nat)
  | confirmed
  /-- Its SESSION_CLOSE response has been sent and its acknowledgement is awaited. -/
  | closing
  deriving DecidableEq, Repr

/-- The half-open record of a session (R350): the module's ephemeral scalar, Qc, the transcript T, Mm, and the response to the
SESSION_OPEN as first sent, with Nm (R132). -/
structure HalfOpen where
  scalar     : Nat
  qc         : Bytes
  transcript : Bytes
  mm         : BitVec 128
  reply      : TxFrag
  deriving DecidableEq, Repr

/-- A live or half-open session (R27, R91, R104 to R144, R350). -/
structure Session where
  id         : Nat
  phase      : SessionPhase
  tenant     : Nat
  port       : Port
  src        : IpAddr
  srcPort    : Nat
  modAddr    : IpAddr
  tag        : Option Tag
  srcMac     : Nat
  size       : Nat
  enc        : Bool
  openReqId  : Nat
  nc         : Nat
  /-- Destroyed on confirmation. -/
  opening    : Option HalfOpen
  keyCm      : Bytes
  keyMc      : Bytes
  keyR       : Bytes
  hashH      : Bytes
  claimed    : Option Nat
  /-- Requests whose further fragments are discarded. -/
  discard    : List Discard
  /-- Receive side: every sequence number up to `rxCum` has come; `rxSeen` holds those beyond it. -/
  rxCum      : Nat
  rxSeen     : List Nat
  edge       : Nat
  ackDue     : Option Nat
  lastAuth   : Nat
  messages   : List Message
  /-- Send side. -/
  txNext     : Nat
  txCum      : Nat
  peerEdge   : Nat
  unacked    : List Unacked
  outgoing   : List TxMessage
  /-- RTO in ns, its base, SRTT and RTTVAR in ns once sampled, and the cycle (ns) at which the RTO started. -/
  rto        : Nat
  rtoBase    : Nat
  srtt       : Option (Nat × Nat)
  rtoFrom    : Option Nat
  retries    : Nat
  /-- Receive nonces: epoch, highest counter and accepted counters; previous epoch until the grace ends. -/
  rxEpoch    : Nat
  rxHigh     : Nat
  rxCounters : List Nat
  prevEpoch  : Option (Nat × Nat × List Nat × Nat)
  txEpoch    : Nat
  txCounter  : Nat
  replay     : List ReplayEntry
  deriving DecidableEq, Repr

/-- The replay cache of an ended session, kept 30 s for a successor (R125, R144). -/
structure KeptCache where
  session  : Nat
  tenant   : Nat
  endedAt  : Nat
  entries  : List ReplayEntry
  /-- The session that claims it, and whether the claim is final. -/
  claimedBy : Option Nat
  final    : Bool
  deriving DecidableEq, Repr

/-- A handshake request past the receive checks, waiting for its step (R133, R466), with its class as received (R145). -/
structure Handshake where
  port : Port
  frag : Frag
  at_  : Nat
  cls  : Cls
  deriving DecidableEq, Repr

structure Wte where
  sessions   : List Session
  kept       : List KeptCache
  /-- Ended session ids and the device time at which they may be used again (R143). -/
  resting    : List (Nat × Nat)
  handshakes : List Handshake
  /-- NO_SESSION replies sent: port, source address, device time (R121). -/
  noSession  : List (Port × IpAddr × Nat)
  /-- WOMBE_UDP_PORT in force since the last module reset (R145). -/
  udpPort    : Nat
  /-- Of the datagram in hand: its arrival, core cycle in ns (R279), and the class of its marking. -/
  inHand     : Nat
  mark       : Nat
  deriving DecidableEq, Repr

/-! ## CQC: the queue -/

/-- What a classification reported (R311). -/
structure Classification where
  admitted   : Bool
  cls        : Cls
  pin        : Bool
  fast       : Bool
  ruleId     : Nat
  position   : Nat
  generation : Nat
  deriving DecidableEq, Repr

/-- An admission descriptor waiting in a lane (R192, R193). -/
structure Desc where
  opcode  : Nat
  cls     : Cls
  /-- It behaves as ORDERED: its flag is set, or it is a SESSION_CLOSE (R141). -/
  ordered : Bool
  orderedFlag : Bool
  port    : Port
  session : Nat
  seq0    : Nat
  reqId   : Nat
  msgLen  : Nat
  leadLen : Nat
  fields  : Bytes
  /-- Place in the order of arrival of all descriptors (R216). -/
  arrival : Nat
  /-- Core cycle (ns) at which the last byte of the request frame came (R279). -/
  rxAt    : Nat
  /-- Its admission has been delayed for lack of a TRS, of key-lock entries (R225). -/
  noTrs   : Bool
  noLock  : Bool
  deriving DecidableEq, Repr

/-- The states of a TRS in flight (R199); a TRS not listed is FREE. -/
inductive TrsState where
  | held | waiting | classifying | keyWait | running | committed | flushWait
  deriving DecidableEq, Repr

/-- A part of a value on the medium: stripe, stripe data offset and length; stripe 0 is a hole (R388). -/
structure Extent where
  stripe : Nat
  off    : Nat
  len    : Nat
  deriving DecidableEq, Repr

/-- One element of a write being carried out: what its commit will do to its key (R48, R393). -/
structure Change where
  tenant  : Nat
  key     : Bytes
  op      : Nat
  /-- Payload bytes, punch range, or nothing. -/
  payload : Bytes
  off     : Nat
  len     : Nat
  pin     : Bool
  fast    : Bool
  /-- Parts of the payload placed so far, in order (R373, R380), and whether FAST placement found no room for one (R379). -/
  extents : List Extent
  overflow : Bool
  deriving DecidableEq, Repr

/-- A task register set and what the command it stands for carries along (R198). -/
structure Trs where
  idx        : Nat
  gen        : Nat
  state      : TrsState
  opcode     : Nat
  admitCls   : Cls
  cls        : Cls
  ordered    : Bool
  /-- The ORDERED flag of the request (R198). -/
  orderedFlag : Bool
  port       : Port
  tenant     : Nat
  session    : Nat
  seq0       : Nat
  reqId      : Nat
  /-- Core cycle counter (ns) and device time (µs) at admission, and the admission order number. -/
  admitTime  : Nat
  admitDev   : Nat
  order      : Nat
  earlierOpen : Nat
  started    : Bool
  /-- The QUEUE_RESET in whose effect cycle it had not started (R215): it never starts. -/
  abortedBy  : Option Nat
  /-- It started after a FORMAT of its tenant had started (R185). -/
  late       : Bool
  /-- When its classification and fingerprints became known, in the order of all commands (R204). -/
  ready      : Option Nat
  /-- Arrival of the request frame; its response is excepted from the measure; a byte it needs came from a tile (R279). -/
  rxAt       : Nat
  unmeasured : Bool
  media      : Bool
  classes    : List Classification
  prints     : List Nat
  keys       : List Bytes
  /-- Elements whose Key CAM search has been made, and whether their lookup is complete (R293, R301). -/
  looked     : List (Nat × Bool)
  joined     : Bool
  headed     : Bool
  keysReserved  : Nat
  bytesReserved : Nat
  version    : Nat
  status     : Nat
  flags      : Nat
  msgLen     : Nat
  fields     : Bytes
  /-- The message data, once every byte has arrived (R102). -/
  data       : Option Bytes
  /-- Set once the result is known; the response's operation fields and data. -/
  result     : Bool
  respFields : Bytes
  respData   : Bytes
  changes    : List Change
  /-- Journal sequence of the place reserved for its commit record (R394). -/
  place      : Option Nat
  committed  : Bool
  /-- Abandoned: its key-lock entries are free (R103). -/
  unlocked   : Bool
  /-- Stripes written by the command. -/
  stripes    : List Nat
  /-- FLUSH: the stripes of the covered writes. -/
  covered    : List Nat
  /-- Snapshot the read holds (R401): the stripes that its data comes from, with offset and length in the data; they are
  not released until the response is acknowledged. -/
  reading    : List Span
  /-- OD_WRITE accepted into the serialiser, or another wait for a unit's answer. -/
  parked     : Bool
  degraded   : Bool
  cursor     : Nat
  /-- A FLUSH admitted while completion is write-through waits for nothing (R212). -/
  atOnce     : Bool
  deriving DecidableEq, Repr

/-- A client lease (R73 to R79). -/
structure Lease where
  tenant  : Nat
  key     : Bytes
  session : Nat
  endsAt  : Nat
  deriving DecidableEq, Repr

/-- What started a drain (R218). -/
inductive DrainCause where
  | reset | activation
  | prepareHold (task : Nat)
  deriving DecidableEq, Repr

structure Drain where
  cause  : DrainCause
  phase  : Nat
  start  : Nat
  grace  : Option Nat
  deriving DecidableEq, Repr

/-- A tenant's account (R522 to R531). -/
structure Account where
  tenant      : Nat
  usageBytes  : Nat
  usageKeys   : Nat
  bytesRead   : Nat
  bytesWritten : Nat
  operations  : Nat
  /-- Byte-milliseconds of the open epoch, with the remainder carried over. -/
  byteMs      : Nat
  deriving DecidableEq, Repr

/-- The open epoch, shared by every tenant (R528 to R539). -/
structure Epoch where
  startNs : Nat
  minutes : Nat
  flags   : Nat
  deriving DecidableEq, Repr

/-- A closed epoch (R530, R531): every tenant's record has its start, flags and minutes; `counts` lists the tenants
whose counts are not all zero, with bytes read, bytes written, operations and byte-seconds. -/
structure ClosedEpoch where
  start   : Nat
  flags   : Nat
  minutes : Nat
  counts  : List (Nat × Nat × Nat × Nat × Nat)
  deriving DecidableEq, Repr

structure Cqc where
  /-- Core cycle counter, ns (R194), and its value at the start of the running tick. -/
  cycle      : Nat
  tickBase   : Nat
  /-- Port A Express/0 to Background/3, then Port B likewise (3006). -/
  lanes      : List (List Desc)
  trs        : List Trs
  /-- Generations of the TRS ever allocated since reset: index and generation (R197). -/
  gens       : List (Nat × Nat)
  nextOrder  : Nat
  /-- Numbers for the next descriptor to arrive and the next command to become ready for its key locks. -/
  nextArrival : Nat
  nextReady  : Nat
  /-- Lane commands in the scope of a QUEUE_RESET, with its task: ABORTED is still to be posted (R215). -/
  aborting   : List (Nat × Desc)
  /-- Device time at which the core clock stopped for Doze (R194). -/
  stoppedAt  : Option Nat
  /-- TRS_EXPRESS_RESERVE in force since the last module reset. -/
  expressReserve : Nat
  /-- Chains of the key-lock table: tenant, fingerprint, tasks from head to tail (R204). -/
  chains     : List (Nat × Nat × List Nat)
  leases     : List Lease
  drain      : Option Drain
  /-- 0 AUTO, 1 STAY_READY, 2 DOZE_NOW pending, 3 Hold pending (R188). -/
  policy     : Nat
  policyBefore : Nat
  holdUntil  : Option Nat
  /-- Writes posted with OK whose stripes may be unprogrammed: session and stripes (R211). -/
  posted     : List (Nat × List Nat)
  /-- Express/0 admissions in the running 1 µs interval (R277): interval and count. -/
  expressSeen : Nat × Nat
  accounts   : List Account
  epoch      : Epoch
  /-- The copy of the last metering checkpoint (R532). -/
  checkpoint : List Account × Epoch
  /-- The newest 8,760 closed epochs, newest first, and how many records have been written to each ring. -/
  closed     : List ClosedEpoch
  ringWritten : Nat
  /-- Device times of the last byte-seconds sample and of the last checkpoint (R527, R532). -/
  sampledAt   : Nat
  checkpointAt : Nat
  deriving DecidableEq, Repr

/-! ## TPK: the Turnpike -/

/-- A transfer waiting at a source lane: its 64-byte units not yet moved (R262, R270), and whether one has moved. -/
structure Transfer where
  src   : Nat
  dst   : Nat
  cls   : Cls
  lead  : Bool
  task  : Nat
  units : Nat
  begun : Bool
  /-- Stripe and shard that a tile's read brings. -/
  back  : Option (Nat × Nat)
  deriving DecidableEq, Repr

structure Tpk where
  slot       : Nat
  /-- Revolutions begun, and whether the lease holder has installed a table since the reset (R267). -/
  revolution : Nat
  installed  : Bool
  /-- EXPRESS_SHARE and weights of the active table, the shadow table when a swap waits with the revolution at whose start
  it is due, and table numbers. -/
  share      : Nat
  weights    : Nat × Nat
  tableId    : Nat
  shadow     : Option (Nat × (Nat × Nat))
  shadowDue  : Nat
  /-- Device time of the write a generation owes a table to (R267). -/
  wantTable  : Option Nat
  mask       : List Nat
  maskWanted : List Nat
  throttle   : Nat
  throttleWanted : Nat
  queue      : List Transfer
  /-- Rotating pointers by destination and class, 0 where not listed (R273). -/
  pointers   : List (Nat × Nat × Nat)
  /-- Turn counts by destination (R272). -/
  turns      : List (Nat × Nat)
  /-- Open slots seen, for the blanking and Bulk limits of R281, by destination for Bulk. -/
  openSeen   : Nat
  bulkSeen   : List (Nat × Nat)
  deriving DecidableEq, Repr

/-! ## ASU: classification and index -/

/-- A dictionary write in the tick serialiser (R486). -/
structure DictWrite where
  req   : Requester
  index : Nat
  sub   : Nat
  val   : OdVal
  /-- The tick in which it came (R486). -/
  at_   : Nat
  /-- The OD_WRITE's task, or the frame's answer route. -/
  task  : Option Nat
  frame : Option DictFrame
  deriving DecidableEq, Repr

/-- A Rule Table entry (R306 to R308): 40 value and mask bytes, action word. -/
structure Rule where
  value  : Bytes
  mask   : Bytes
  action : Nat
  deriving DecidableEq, Repr

/-- A rule command (R312). -/
inductive RuleOp where
  | insert (pos : Nat) (r : Rule)
  | replace (pos : Nat) (r : Rule)
  | delete (pos : Nat)
  /-- A predicate replacement, which takes effect in an update cycle (R333). -/
  | image (slot : Nat) (img : Bytes)
  deriving DecidableEq, Repr

/-- An earlier state of a key that an open snapshot may need (R305). -/
structure Older where
  version : Nat
  length  : Nat
  present : Bool
  /-- The retention page that holds the record. -/
  page    : Nat
  deriving DecidableEq, Repr

/-- An index entry with its map record and value (R298, R385). -/
structure KeyRec where
  tenant    : Nat
  key       : Bytes
  version   : Nat
  value     : Bytes
  print     : Nat
  pinned    : Bool
  fast      : Bool
  tombstone : Bool
  lost      : Bool
  packed    : Bool
  extents   : List Extent
  pinnedMap : Bool
  older     : List Older
  /-- Index page that holds the entry, and its entry id there. -/
  page      : Nat
  entryId   : Nat
  /-- Map pages of the record: the head page, then the continuation pages. -/
  mapPages  : List Nat
  deriving DecidableEq, Repr

/-- An index, interior, directory, retention or map page and its place (R297, R304, R384). -/
structure Page where
  number  : Nat
  /-- 1 index, 2 interior, 3 directory, 4 retention, 5 map. -/
  kind    : Nat
  pinned  : Bool
  tenant  : Nat
  version : Nat
  cached  : Bool
  lru     : Nat
  /-- A command waits for the page. -/
  wanted  : Bool
  unreadable : Bool
  /-- Written in a metadata stripe since its last change (R397). -/
  clean   : Bool
  /-- Detached by a FORMAT, to be reclaimed (R423). -/
  detached : Bool
  /-- Metadata stripe and data shard that hold the page, once written (R391). -/
  home     : Option (Nat × Nat)
  /-- Of a directory page: the depth of its buckets, 64 for overflow buckets, and its place among the pages of that depth
  (R300). Of an interior page: its level, 0 above the leaves, and its place there (R296). -/
  dir      : Option (Nat × Nat)
  deriving DecidableEq, Repr

/-- An overflow bucket of the main directory (R300): the depth and number of the bucket it goes on from, its place in that
bucket's chain, and its number. -/
structure Overflow where
  depth  : Nat
  bucket : Nat
  link   : Nat
  number : Nat
  deriving DecidableEq, Repr

/-- A Key CAM entry (R285, R286, R290). -/
structure CamEntry where
  addr   : Nat
  ref    : Bool
  tenant : Nat
  print  : Nat
  keyLen : Nat
  key    : Bytes
  page   : Nat
  entry  : Nat
  pinned : Bool
  deriving DecidableEq, Repr

structure CamBank where
  /-- 5012: 0 in service, 1 reinitialising, 2 under test, 3 retired. -/
  state   : Nat
  width   : Nat
  entries : List CamEntry
  hands   : List (Nat × Nat)
  /-- Invalidations waiting (R292), entries to clear after a fault hit (R293), device times of fault hits (R294). -/
  invalid : List Nat
  clears  : List Nat
  faults  : List Nat
  /-- Device time at which a reinitialised bank returns (R295). -/
  returnAt : Option Nat
  deriving DecidableEq, Repr

/-- An insertion waiting for an update cycle: the entry and the page version it read (R291). -/
structure CamInsert where
  bank    : Nat
  entry   : CamEntry
  pageVersion : Nat
  deriving DecidableEq, Repr

structure Asu where
  keys       : List KeyRec
  rules      : List Rule
  ruleWidth  : Nat
  ruleGen    : Nat
  accepted   : List RuleOp
  /-- Writes already made of the running command, when one runs (R313). -/
  running    : Option Nat
  /-- RULE_COMMAND writes waiting for a place (R314). -/
  waiting    : List DictWrite
  /-- The Journal Store copy of the table (R313). -/
  copy       : List Rule
  banks      : List CamBank
  lastBank   : Nat
  inserts    : List CamInsert
  depth      : Nat
  split      : Option Nat
  overflows  : List Overflow
  pages      : List Page
  nextPage   : Nat
  lruClock   : Nat
  reevaluate : Option (List (Nat × Bytes))
  /-- Tenants whose CAM entries are being swept out (R292). -/
  sweeping   : List Nat
  /-- The draw that gave K_fp, none while it is destroyed (R284, R360). -/
  printKey   : Option Nat
  deriving DecidableEq, Repr

/-! ## PAE: pattern engines -/

structure Engine where
  /-- 6000: 0 idle, 1 running a page, 2 under test, 3 retired. -/
  state : Nat
  image : Option Bytes
  task  : Option Nat
  deriving DecidableEq, Repr

/-- An open SCAN cursor (R68, R70, R168, R330). -/
structure Cursor where
  id       : Nat
  session  : Nat
  tenant   : Nat
  snapshot : Nat
  image    : Bytes
  cls      : Cls
  lastAdmit : Nat
  /-- The value accepted and the position it stands for; the value before it, still accepted. -/
  value    : Nat
  position : Option Bytes
  prevValue : Nat
  prevPosition : Option Bytes
  deriving DecidableEq, Repr

/-- A SCAN page in the making (R327 to R329). -/
structure ScanRun where
  task     : Nat
  cursor   : Nat
  tenant   : Nat
  snapshot : Nat
  image    : Bytes
  engine   : Option Nat
  /-- The engine holds the image; the run has been moved from another engine (R331). -/
  loaded   : Bool
  position : Option Bytes
  maxKeys  : Nat
  listed   : List (Nat × Nat × Bytes)
  done     : Bool
  more     : Bool
  deriving DecidableEq, Repr

structure Pae where
  engines    : List Engine
  preds      : List (Nat × Bytes)
  cursors    : List Cursor
  nextCursor : Nat
  runs       : List ScanRun
  deriving DecidableEq, Repr

/-! ## CPX: the cipher complex -/

/-- The modes of a pipeline (R338). -/
inductive CipherMode where
  | xtsE | xtsD | gcmE | gcmD | xg | gx | cmac | ecbE
  deriving DecidableEq, Repr

/-- A transfer that the dispatcher sends through pipelines bound to its key page (R339): number in order of arrival, page,
mode, class, whether it is a lead transfer, task, lane it comes from and lane it goes to, bytes. -/
structure CipherJob where
  order : Nat
  page  : Nat
  mode  : CipherMode
  cls   : Cls
  lead  : Bool
  task  : Nat
  src   : Nat
  dst   : Nat
  bytes : Nat
  /-- Session and request id of the command that the transfer belongs to; (0, 0) where there is none (R341). -/
  cmd   : Nat × Nat
  /-- Stripe and shard that a tile's read brings (R31). -/
  back  : Option (Nat × Nat)
  deriving DecidableEq, Repr

/-- What one pipeline of the rotation has of a transfer: its bytes, the core cycles its blocks still need, and, at the first
pipeline of a GCM rotation, that the partial GHASH sums of all are combined there (R339). -/
structure PipeShare where
  job      : CipherJob
  bytes    : Nat
  cycles   : Nat
  combines : Bool
  deriving DecidableEq, Repr

structure Pipeline where
  /-- 7000: 0 unbound, 1 bound, 2 under test, 3 retired. -/
  state   : Nat
  binding : Nat
  /-- Blocks in the pipeline and at its input, in the order in which they enter (R339). -/
  input   : List PipeShare
  /-- Express/0 commands whose blocks it has received under this binding, by session and request id (R341). -/
  express : List (Nat × Nat)
  /-- Key material in its round-key registers: that of the page it is bound to and no other (R340). -/
  keys    : List Bytes
  deriving DecidableEq, Repr

/-- A pipeline with no block in it and no page. -/
def Pipeline.unbound : Pipeline := { state := 0, binding := 0xFFFF, input := [], express := [], keys := [] }

/-- A stored copy of a key in the Journal Store, wrapped under the device wrap key with AES-256-GCM (R360). -/
structure StoredKey where
  nonce : Nat
  body  : Bytes
  tag   : Bytes
  deriving DecidableEq, Repr

/-- A key page (R357 to R361): working keys and stored copies, absent where not held. -/
structure KeyPage where
  page    : Nat
  xts1    : Option Bytes
  xts2    : Option Bytes
  access  : Option Bytes
  copy1   : Option StoredKey
  copy2   : Option StoredKey
  copyA   : Option StoredKey
  transit : Option Nat
  /-- The stored copy of the transit key; destroyed with the key by a vault memory test (R360, R361). -/
  copyT   : Option StoredKey
  /-- 0 EMPTY, 1 PARTIAL, 2 LOADED, 3 RESTORE. -/
  state   : Nat
  before  : Nat
  loadedAt : Nat
  loads   : Nat
  deriving DecidableEq, Repr

/-- Who is answered when a dictionary job ends (R368): an OD_WRITE by its task number, a tenant 0 session whose write came as a
command of its own, or nobody, where the write was answered in its tick. -/
inductive JobAnswer where
  | nobody
  | task (task : Nat)
  | session (tenant : Nat)
  deriving DecidableEq, Repr

/-- A job of the public-key engine (R364, R365). -/
inductive PkKind where
  | handshakeOpen (h : Handshake)
  | handshakeConfirm (h : Handshake)
  /-- The task number of the ATTEST (R197). -/
  | attest (task : Nat)
  /-- A PK_JOB with the tick of its write and who waits for it. -/
  | dictionary (job : Bytes) (tick : Nat) (who : JobAnswer)
  deriving DecidableEq, Repr

structure PkJob where
  kind  : PkKind
  order : Nat
  deriving DecidableEq, Repr

structure Cpx where
  pipelines : List Pipeline
  /-- The pipeline at which the next rotation starts, transfers that wait for a pipeline of their page, and the number of
  the next transfer (R339). -/
  rotation  : Nat
  waiting   : List CipherJob
  jobOrder  : Nat
  pages     : List KeyPage
  rngState  : Nat
  requests  : Nat
  reseedAt  : Nat
  /-- The model's own field: draws taken from the free source so far. -/
  draws     : Nat
  pkWaiting : List PkJob
  /-- The four ladder units: the running job and the device time of its start. -/
  ladders   : List (Option (PkJob × Nat))
  pkOrder   : Nat
  jobSeq    : Nat
  deriving DecidableEq, Repr

/-! ## PLC: placement -/

/-- Where a shard stands. -/
inductive ShardPhase where
  | dirty | sent | programmed | failed | lost | absent
  deriving DecidableEq, Repr

/-- A shard of a stripe: address of R387 and its phase. -/
structure Shard where
  tile   : Nat
  region : Nat
  slot   : Nat
  len    : Nat
  phase  : ShardPhase
  deriving DecidableEq, Repr

/-- A stripe (R371, R386). -/
structure Stripe where
  id       : Nat
  tenant   : Nat
  /-- 1 value, 2 packed, 3 metadata. -/
  kind     : Nat
  k        : Nat
  fast     : Bool
  filled   : Nat
  sealed   : Bool
  openedAt : Nat
  shards   : List Shard
  degraded : Bool
  lost     : Bool
  cls      : Cls
  /-- Journal sequence of the commit that made it, the order of its draining; none before. -/
  order    : Option Nat
  /-- In the dirty write buffer, with the bytes it counts there (R25, R381). -/
  dirty    : Bool
  flushed  : Bool
  /-- Its only owners were detached by a FORMAT (R423). -/
  detached : Bool
  deriving DecidableEq, Repr

/-- One element of a commit or relocation record (R393). -/
structure JournalElem where
  tenant  : Nat
  /-- Operation code; 0 in a relocation record. -/
  op      : Nat
  old     : Nat
  new     : Nat
  len     : Nat
  pointer : Nat
  key     : Bytes
  deriving DecidableEq, Repr

/-- What the map roots give (R397): for each tenant the root pages of both trees, the directory pages, and the map region's
allocation state, which has for each page number the metadata stripe and the data shard that hold the page. -/
structure MapRoots where
  roots : List (Nat × Option Nat × Option Nat)
  dirs  : List Nat
  alloc : List (Nat × Nat × Nat)
  deriving DecidableEq, Repr

/-- A stripe of the flush image (R404): the flush-region slot of each of its shards, none where the shard was not written. -/
structure FlushEntry where
  stripe : Nat
  slots  : List (Option (Nat × Nat))
  deriving DecidableEq, Repr

inductive JournalBody where
  | commit (elems : List JournalElem)
  | relocation (elems : List JournalElem)
  | milestone (op phase tenant pattern step progress position : Nat)
  | mapRoot (roots : MapRoots)
  | flushManifest (stripes : List FlushEntry)
  | void
  /-- A place reserved whose record's valid mark is not written (R392, R394). -/
  | unmarked
  | cleanMark
  deriving DecidableEq, Repr

/-- A record of the commit journal (R392). -/
structure JournalRec where
  seq   : Nat
  time  : Nat
  bytes : Nat
  body  : JournalBody
  /-- Pages the record changed, for trimming (R397). -/
  pages : List Nat
  deriving DecidableEq, Repr

/-- A SANITIZE or a FORMAT reclaim in progress (R420 to R423). -/
structure LongOp where
  op       : Nat
  phase    : Nat
  tenant   : Nat
  pattern  : Nat
  step     : Nat
  done     : Nat
  total    : Nat
  position : Nat
  started  : Nat
  /-- Work units left in the running phase. -/
  left     : Nat
  deriving DecidableEq, Repr

structure LostEntry where
  index   : Nat
  tenant  : Nat
  key     : Bytes
  version : Nat
  time    : Nat
  deriving DecidableEq, Repr

structure Rebuild where
  /-- 9010:01: 0 idle, 1 running, 2 waiting for room. -/
  state  : Nat
  tiles  : List Nat
  total  : Nat
  done   : Nat
  start  : Nat
  deriving DecidableEq, Repr

/-- A valid slot on its way to another slot of its tile and region (R400, R437): the die block it leaves, the keys whose records
name its stripe with the versions that their relocations require (R396), and how far it has come. -/
structure Move where
  tile   : Nat
  stripe : Nat
  shard  : Nat
  region : Nat
  from_  : Nat
  to_    : Nat
  source : Nat × Nat × Nat
  names  : List (Nat × Bytes × Nat)
  /-- 0 garbage collection, 1 rewrite, 2 rewrite for the read count, 3 a recovered page. -/
  why    : Nat
  read   : Bool
  done   : Bool
  deriving DecidableEq, Repr

/-- A value repacked into new stripes whose relocation is not applied yet (R396, R403). -/
structure Repack where
  tenant  : Nat
  key     : Bytes
  version : Nat
  extents : List Extent
  deriving DecidableEq, Repr

structure Plc where
  versionCounter : Nat
  /-- The highest version committed. -/
  lastVersion : Nat
  stripeCounter  : Nat
  stripes     : List Stripe
  pointer     : Nat
  journal     : List JournalRec
  journalSeq  : Nat
  /-- Place in the ring of the next record (R392). -/
  ringNext    : Nat
  /-- An append of the module's own waits for room in the ring (R392). -/
  journalWait : Bool
  lostLog     : List LostEntry
  rebuild     : Rebuild
  longOp      : Option LongOp
  /-- The SANITIZE admitted and waiting for started commands (R182): task and mode. -/
  sanitizeTask : Option Nat
  /-- FORMATs whose space waits for reclaim (R423): tenant, and device time at the FORMAT's admission. -/
  reclaims    : List (Nat × Nat)
  /-- FORMATs waiting for started commands: task and tenants. -/
  formats     : List (Nat × List Nat)
  charcoal    : Nat
  /-- Raw QLC bytes held by the rebuild reserve (R416). -/
  reserve     : Nat
  /-- The map roots in their fixed area of the Journal Store (R397). -/
  roots       : MapRoots
  /-- Stripes of the flush image that wait for verification, and the image as it stands in the flush regions until every one of
  its stripes is on its tiles (R406). -/
  flushImage  : List Nat
  flushHeld   : List FlushEntry
  /-- Slots that are being moved on their tiles, and values that are being repacked (R400, R403, R437). -/
  moves       : List Move
  repacks     : List Repack
  /-- Free slots taken, by tile and region (R378). -/
  usedSlots   : List (Nat × Nat × Nat)
  garbage     : List (Nat × Nat × Nat)
  deriving DecidableEq, Repr

/-! ## MTA: the tiles -/

/-- A die block of R441 (factory state ERASED where not listed). -/
structure DieBlock where
  channel : Nat
  die     : Nat
  block   : Nat
  state   : Nat
  slc     : Bool
  pointer : Nat
  qlcErases : Nat
  slcErases : Nat
  reads   : Nat
  time    : Nat
  /-- Sum of the die temperatures at its row programs; the program temperature is their mean (R436). -/
  tempSum : Int
  region  : Nat
  superblock : Nat
  verified : List Nat
  /-- Queued for rewrite (R435, R437): 1 for its codewords, 2 for its read count. -/
  queued  : Nat
  deriving DecidableEq, Repr

/-- What a read of a shard's slot brings (R389): bytes of the shard from an offset on, in whole data units; whether they go to
placement for a reconstruction, and whether they are lead transfers (R270). -/
structure ReadPart where
  off    : Nat
  len    : Nat
  around : Bool
  lead   : Bool
  deriving DecidableEq, Repr

/-- An operation on a die (R430): a read of a shard, the program of one or of a row that no shard comes for (R436), an erase, a
Background read for a rewrite or of a row whose program failed, a verification read (R446). -/
inductive DieOp where
  | read (cls : Cls) (rebuild : Bool) (stripe shard block row : Nat) (slc : Bool) (part : ReadPart)
  | program (stripe shard block row : Nat) (slc : Bool)
  | filler (block row : Nat) (slc : Bool)
  | erase (block : Nat)
  | background (block row : Nat) (slc : Bool)
  | verify (block row : Nat)
  deriving DecidableEq, Repr

structure Die where
  channel : Nat
  die     : Nat
  queue   : List DieOp
  /-- The operation in progress, when it started and how often it was suspended; and the operation suspended, with the
  time it has run. -/
  doing   : Option (DieOp × Nat × Nat)
  suspended : Option (DieOp × Nat × Nat)
  temp    : Int
  sensorFailed : Bool
  deriving DecidableEq, Repr

/-- A position of a superblock and the die block that serves it from a row on (R427, R428, R443). -/
structure SuperPlace where
  region     : Nat
  superblock : Nat
  pos        : Nat
  channel    : Nat
  die        : Nat
  block      : Nat
  fromRow    : Nat
  deriving DecidableEq, Repr

/-- A parity page of a row and its place in the die-parity area (R445). -/
structure ParityPage where
  region     : Nat
  superblock : Nat
  row        : Nat
  /-- Die by position 0 to 19, and page of its parity block. -/
  at_        : Nat
  page       : Nat
  deriving DecidableEq, Repr

structure Tile where
  /-- A400+t:01: 0 Run, 1 Ember, 2 Peat, 3 Retired. -/
  state     : Nat
  /-- Steps of the entry to Peat made, 0 when none runs (R451). -/
  peatStep  : Nat
  isolated  : Bool
  closed    : Bool
  spares    : Nat
  idleSince : Nat
  dies      : List Die
  blocks    : List DieBlock
  /-- Parity pages held, and the die that takes the next one. -/
  parity    : List ParityPage
  parityNext : Nat
  superblocks : List SuperPlace
  /-- Time of the hottest die by the buckets of TEMP_HISTORY, µs, and the device time up to which it is counted. -/
  tempUs    : List Nat
  tempAt    : Nat
  deriving DecidableEq, Repr

structure Mta where
  tiles : List Tile
  deriving DecidableEq, Repr

/-! ## WDN: the Wardens -/

/-- One Warden as the arbiter and the other units see it. -/
structure WardenS where
  eligible : Bool
  /-- B001: 0 holder, 1 standby, 2 under test, 3 resynchronising, 4 retired, 5 restarting, 6 halted. -/
  state    : Nat
  /-- Its pair has shown a mismatch; its outputs are suppressed (R455). -/
  mismatch : Bool
  deriving DecidableEq, Repr

structure Wdn where
  holder     : Option Warden
  leaseEnd   : Nat
  /-- Tick in which the lease ended, the cause of R476's record, and who held it. -/
  ended      : Option (Nat × Nat × Warden)
  /-- Tick in which the holder of a lease that ends stopped delivering outputs: the start of the gap of R465. -/
  gapFrom    : Nat
  dropWanted : Option (Warden × Nat)
  wardenA    : WardenS
  wardenB    : WardenS
  /-- Output sequence number after that of the last output delivered (R457). -/
  outSeq     : Nat
  /-- Resynchronisation: the Warden, its start and the stage (R470). -/
  resync     : Option (Warden × Nat)
  resyncAfter : Nat
  clockStopped : Bool
  deriving DecidableEq, Repr

/-! ## JSR: the recorder -/

/-- An event as raised (R587). -/
structure Event where
  code : Nat
  unit : Nat
  p1   : Nat
  p2   : Nat
  p3   : Nat
  time : Nat
  deriving DecidableEq, Repr

/-- A record (R575). -/
structure Record where
  ev     : Event
  count  : Nat
  flags  : Nat
  seq    : Nat
  deriving DecidableEq, Repr

structure Jsr where
  /-- Records since manufacture, newest first; the newest 8,192 + 2,088,960 rule of R574 is applied on read. -/
  records : List Record
  nextSeq : Nat
  written : Nat
  queue   : List Event
  dropped : Nat
  staging : List Record
  stagingLost : Nat
  /-- Freeze: start and the requester that started it. -/
  freeze  : Option (Nat × Requester)
  aon     : List Event
  aonDropped : Nat
  powered : Bool
  fatal   : Bool
  /-- Device time at which the last event was written: at most one a µs (R580). -/
  wroteAt : Option Nat
  deriving DecidableEq, Repr

/-! ## PCH: power, clocks, time, Firewood -/

/-- The module power states (R14, R544). -/
inductive Power where
  | startUp | active | ready | readyWt | doze | hold | off
  deriving DecidableEq, Repr

/-- What the Firewood bank is doing (D020). -/
inductive FirewoodPhase where
  | charging | ready | waitDischarge | discharging | restoring | failed | flushing | trickle
  deriving DecidableEq, Repr

structure Pch where
  power      : Power
  /-- Start-up step in progress, 1 to 6; 0 when none. -/
  step       : Nat
  mainPower  : Bool
  mainGood   : Bool
  aux        : Bool
  mrst       : Bool
  pwrdis     : Bool
  slotAddress : Nat
  /-- Device time, µs (R556), and the copy in the Journal Store. -/
  devTime    : Nat
  devSaved   : Nat
  /-- Wall time less device time, ns; a slew still to apply (R534, R536). -/
  wallOffset : Int
  slew       : Int
  /-- Doze entry step reached, when entry runs; the wake asked for. -/
  dozeStep   : Nat
  /-- A frame has arrived at a port since Doze entry began: the wake begins at the next safe point (R223, R549). -/
  wakeWanted : Bool
  idleSince  : Nat
  flushing   : Option Nat
  /-- Start of the flush and the bytes it writes (R565). -/
  flushAt    : Nat
  flushBytes : Nat
  /-- A restart waits for the end of a flush or for the release of MRST_N; the cause of the latest module reset and the
  kind of start-up the next one is (D011). -/
  resetWanted : Bool
  resetCause : Nat
  startKind  : Nat
  /-- The Firewood test of step 6 has been made since the latest start-up. -/
  tested     : Bool
  /-- Latest case temperature, °C, when it was sampled, and time above the operating range not yet counted, µs. -/
  throttleTemp : Int
  caseAt     : Nat
  overTempUs : Nat
  firewood   : FirewoodPhase
  bankMv     : Nat
  lastTest   : Nat
  testPassed : Bool
  energyLimit : Nat
  testLimit  : Option Nat
  dirtyLimit : Nat
  wtDrain    : Bool
  /-- The Keep die or the Journal Store has failed (R32); start-up stopped without an image to boot (R617); start-up
  stopped (R569). -/
  outOfService : Bool
  noImage    : Bool
  bootStopped : Bool
  deriving DecidableEq, Repr

/-! ## MSV: management, Kiln, trace, service port, firmware -/

/-- A write staged in windows (R507, R609): where from, the entry, the whole length, the bytes so far and the
device time of its last window. -/
structure StagedWrite where
  source : Nat
  index  : Nat
  sub    : Nat
  length : Nat
  got    : Bytes
  last   : Nat
  deriving DecidableEq, Repr

structure Segment where
  /-- E008 PLCA_STATE, E009 NODE_ID_IN_USE, E00C QUIET_STATE, E00D QUIET_ID. -/
  plca       : Nat
  nodeId     : Nat
  quiet      : Nat
  quietId    : Nat
  quietAt    : Nat
  /-- The QUIET_ACK to send: quiet id and status. -/
  ackWanted  : Option (Nat × Nat)
  ackAt      : Nat
  settleAt   : Nat
  lastBeacon : Nat
  collisions : List Nat
  heartbeatDue : Nat
  /-- Masked summary last reported, and when. -/
  alertSeen  : Nat
  alertSent  : Option Nat
  /-- Earliest time a frame may follow a WAKE (R512, R517). -/
  holdUntil  : Nat
  staged     : Option StagedWrite
  kept       : List (DictFrame × DictResponse × Nat)
  /-- Requests held, oldest first; the first waits for its tick while `busy` (R510). -/
  requests   : List DictFrame
  busy       : Bool
  /-- Time at which the broadcast READ in front is answered, once drawn (R506). -/
  answerAt   : Option Nat
  macOn      : Bool
  deriving DecidableEq, Repr

structure Kiln where
  /-- Test in progress: unit, test code, start, requested. -/
  test     : Option (UnitId × Nat × Nat × Bool)
  /-- Units isolated and waiting for their targeted test, with the device time of isolation. -/
  due      : List (UnitId × Nat)
  /-- Tests that wait for the limits: unit, test code, requested (R594). -/
  waiting  : List (UnitId × Nat × Bool)
  limitMv  : Nat
  limitC   : Int
  limitPpm : Int
  limitsOk : Bool
  deriving DecidableEq, Repr

/-- The health of a replicated unit (R588). -/
structure Health where
  unit    : UnitId
  state   : Nat
  last    : Nat
  total   : Nat
  recent  : List Nat
  deriving DecidableEq, Repr

structure Trace where
  /-- Nanoseconds counted by the TIME domain since it started (R599). -/
  clock     : Nat
  /-- E207: 0 off, 1 armed, 2 post-trigger, 3 captured, 4 re-arming. -/
  state     : Nat
  continuous : Bool
  pre       : Nat
  enable    : Nat
  threshold : Nat
  status    : Nat
  entry     : Nat
  mask      : Nat
  snapshot  : Bool
  /-- Entries recorded, newest first: time, kind, source, task, data. -/
  ring      : List (Nat × Nat × Nat × Nat × Nat)
  trigger   : Option (Nat × Nat × Nat)
  preKept   : Nat
  postLeft  : Nat
  trsSnap   : List Trs
  readOut   : Bool
  /-- The core cycle of the last entry, and the entries taken in it (R599). -/
  seen      : Nat × Nat
  /-- Entries dropped since arming (E20A). -/
  dropped   : Nat
  /-- Events of the module whose entry is due, oldest first: kind, source, task number (none where the model ties the event
  to no command), data (R600). -/
  due       : List (Nat × Nat × Option Nat × Nat)
  deriving DecidableEq, Repr

structure Service where
  dynAddr   : Nat
  events    : Bool
  mwl       : Nat
  mrl       : Nat
  response  : Option (DictResponse × Nat × Bool)
  pendingReq : Option DictFrame
  staged    : Option StagedWrite
  deriving DecidableEq, Repr

/-- A firmware slot (R614, E301). -/
structure Slot where
  state   : Nat
  version : Nat
  floorRequest : Nat
  length  : Nat
  result  : Nat
  reason  : Nat
  stagedAt : Nat
  checkedAt : Nat
  image   : Bytes
  booted  : Bool
  deriving DecidableEq, Repr

structure Msv where
  serial   : List DictWrite
  /-- Writes held over a gap, in order of arrival (R466, R467). -/
  held     : List DictWrite
  segment  : Segment
  kiln     : Kiln
  health   : List Health
  trace    : Trace
  service  : Service
  slot1    : Slot
  slot2    : Slot
  /-- The staging of FW_IMAGE: value length, bytes so far, device time of the last window. -/
  fwStaged : Option (Nat × Bytes × Nat)
  fallback : Bool
  /-- W1 entries written since manufacture (R479). -/
  written1 : List Nat
  deriving DecidableEq, Repr

/-! ## Buffer memory (R22 to R25) -/

/-- What a 32-byte block of the buffer memory holds. -/
inductive BufHolds where
  /-- Part of a page in a frame of the index cache. -/
  | page (number : Nat)
  /-- Part of a value in the read cache. -/
  | value (tenant : Nat) (key : Bytes)
  /-- Part of an inbound fragment of a session in staging. -/
  | inbound (session seq : Nat)
  /-- Part of an outbound response fragment of a session in staging. -/
  | outbound (session seq : Nat)
  /-- Part of a shard in the dirty write buffer. -/
  | shard (stripe i : Nat)
  deriving DecidableEq, Repr

/-- A bit error that stands in a 32-byte block until the block is next read (R24). -/
structure BufFault where
  /-- Byte address in the 32 GiB that the module uses. -/
  address : Nat
  /-- Two bits are in error, not one. -/
  double  : Bool
  holds   : BufHolds
  deriving DecidableEq, Repr

/-- Bytes `lo` to `hi` of a value at a version, held as ciphertext in the read cache (R23). -/
structure CachedValue where
  tenant  : Nat
  key     : Bytes
  version : Nat
  lo      : Nat
  hi      : Nat
  deriving DecidableEq, Repr

/-- The buffer memory: the errors that stand in it, and the read cache, the value read last first. The other regions hold
what the sessions, the index pages and the dirty stripes list. -/
structure Bfc where
  faults : List BufFault
  cache  : List CachedValue
  deriving DecidableEq, Repr

/-! ## The whole machine -/

/-- The state of the module. -/
structure State where
  pending : List Instr
  out     : List Out
  /-- Stored dictionary values by index × 256 + subindex, keys rising; an entry not listed has its default. -/
  od      : List (Nat × OdVal)
  dpx     : Dpx
  wte     : Wte
  cqc     : Cqc
  tpk     : Tpk
  asu     : Asu
  pae     : Pae
  cpx     : Cpx
  bfc     : Bfc
  plc     : Plc
  mta     : Mta
  wdn     : Wdn
  jsr     : Jsr
  pch     : Pch
  msv     : Msv
  deriving DecidableEq, Repr

/-! ## The state right after reset -/

/-- The gate list in force at reset: gating off, every gate open. -/
def GateList.reset : GateList := { enable := false, cycle := 0, phase := 0, entries := [], start := 0 }

/-- A port at reset: link down, nothing held, nothing paused. -/
def PortS.reset : PortS :=
  { linkState := 0, partnerSeen := false, dropped := 0, trainMode := 0, trainFails := 0,
    partitions := List.replicate 8 0, inbox := [], toWte := [], pauseSent := List.replicate 8 false,
    pausedUntil := List.replicate 8 none, pausedSince := List.replicate 8 none,
    ignoreUntil := List.replicate 8 none, pauseAt := List.replicate 8 0, txFreeAt := 0, txq := List.replicate 8 [], bypass := [], oper := .reset,
    gateState := 0, gatePending := none, lpiTx := false, lpiRx := false, idleSince := 0, lpiWakeAt := 0,
    eeeTlvSeen := false, lldpDue := 0, capture := [], captureSeq := 0, captureHead := 0,
    captureFrozenAt := none, echoTimes := [] }

/-- The PTP clock at reset: disabled, with the UTC offset of R536 before any valid one. -/
def PtpS.reset : PtpS :=
  { state := 0, leader := 0,
    best := { priority1 := 0, clockClass := 0, accuracy := 0, variance := 0, priority2 := 0, identity := 0, steps := 0 },
    intervalUs := 0, lastAnnounce := 0, syncRx := none, msDiff := none, delaySeq := 0,
    delaySent := none, delayInterval := 0, delayDue := 0, utcOffset := 37, timescaleOk := true }

def Dpx.reset : Dpx := { portA := .reset, portB := .reset, ptp := .reset }

/-- No session, and the default UDP port (R145). -/
def Wte.reset : Wte :=
  { sessions := [], kept := [], resting := [], handshakes := [], noSession := [], udpPort := 7463, inHand := 0, mark := 0 }

/-- A time in nanoseconds, down to the whole hour. -/
def wholeHours (ns : Nat) : Nat := ns / 3600000000000 * 3600000000000

/-- The epoch open at manufacture: the one that contains MANUFACTURE_TIME (R529, R534). -/
def Epoch.first : Epoch := { startNs := wholeHours (Config.manufacturing 0xF005 0), minutes := 60, flags := 0 }

/-- Every TRS FREE, every lane empty, policy AUTO (R186), epoch length 60 min (R529). -/
def Cqc.reset : Cqc :=
  { cycle := 0, tickBase := 0, lanes := List.replicate 8 [], trs := [], gens := [], nextOrder := 0,
    nextArrival := 0, nextReady := 0, aborting := [], stoppedAt := none,
    expressReserve := 4096, chains := [], leases := [], drain := none, policy := 0, policyBefore := 0,
    holdUntil := none, posted := [], expressSeen := (0, 0), accounts := [],
    epoch := .first,
    checkpoint := ([], .first), closed := [], ringWritten := 0, sampledAt := 0,
    checkpointAt := 0 }

/-- The table of the default share and weights (R282), every pointer 0 (R273), no lane masked. -/
def Tpk.reset : Tpk :=
  { slot := 0, revolution := 0, installed := false, share := 128, weights := (4, 1), tableId := 0, shadow := none, shadowDue := 0,
    wantTable := none, mask := [],
    maskWanted := [], throttle := 0, throttleWanted := 0, queue := [], pointers := [], turns := [],
    openSeen := 0, bulkSeen := [] }

/-- The single entry that admits every key (R315). -/
def Rule.admitAll : Rule :=
  { value := List.replicate 40 0, mask := List.replicate 40 0, action := 0xFFFF }

/-- A bank in service, empty, at width 1 (R317). -/
def CamBank.reset : CamBank :=
  { state := 0, width := 1, entries := [], hands := [], invalid := [], clears := [], faults := [], returnAt := none }

def Asu.reset : Asu :=
  { keys := [], rules := [.admitAll], ruleWidth := 1, ruleGen := 0, accepted := [], running := none,
    waiting := [], copy := [.admitAll], banks := List.replicate 32 .reset, lastBank := 31,
    inserts := [], depth := 20, split := none, overflows := [], pages := [], nextPage := 0, lruClock := 0,
    reevaluate := none, sweeping := [], printKey := some 0 }

def Pae.reset : Pae :=
  { engines := List.replicate 8 { state := 0, image := none, task := none }, preds := [], cursors := [],
    nextCursor := 1, runs := [] }

/-- Pipelines unbound (7000, 7001), every key page EMPTY, the random source generating (7003). -/
def Cpx.reset : Cpx :=
  { pipelines := List.replicate 16 .unbound, rotation := 0, waiting := [], jobOrder := 0, pages := [], rngState := 0,
    requests := 0, reseedAt := 0, draws := 1, pkWaiting := [],
    ladders := List.replicate 4 none, pkOrder := 0, jobSeq := 0 }

/-- A buffer memory without an error, the read cache empty. -/
def Bfc.reset : Bfc := { faults := [], cache := [] }

/-- Both counters at 1 (R43, R375), an empty journal, the whole reserve held (R377, R416). -/
def Plc.reset : Plc :=
  { versionCounter := 1, lastVersion := 0, stripeCounter := 1, stripes := [], pointer := 0, journal := [], journalSeq := 0, ringNext := 0, journalWait := false,
    lostLog := [], rebuild := { state := 0, tiles := [], total := 0, done := 0, start := 0 }, longOp := none,
    sanitizeTask := none, reclaims := [], formats := [], charcoal := 0, reserve := 14330165526528,
    roots := { roots := [], dirs := [], alloc := [] }, flushImage := [], flushHeld := [], moves := [], repacks := [], usedSlots := [],
    garbage := [] }

/-- A tile in Run with its 492 spares (R454) and no die block written. -/
def Tile.reset : Tile :=
  { state := 0, peatStep := 0, isolated := false, closed := false, spares := 492, idleSince := 0, dies := [],
    blocks := [], parity := [], parityNext := 0, superblocks := [],
    tempUs := List.replicate 24 0, tempAt := 0 }

def Mta.reset : Mta := { tiles := List.replicate 64 .reset }

/-- HOLDER none (B000); WARDEN_STATE as its defaults 0 and 1 (B001). -/
def Wdn.reset : Wdn :=
  { holder := none, leaseEnd := 0, ended := none, gapFrom := 0, dropWanted := none,
    wardenA := { eligible := false, state := 0, mismatch := false },
    wardenB := { eligible := false, state := 1, mismatch := false }, outSeq := 0, resync := none,
    resyncAfter := 0, clockStopped := false }

/-- An empty recorder (R574), JSR not yet powered (R582). -/
def Jsr.reset : Jsr :=
  { records := [], nextSeq := 0, written := 0, queue := [], dropped := 0, staging := [], stagingLost := 0,
    freeze := none, aon := [], aonDropped := 0, powered := false, fatal := false, wroteAt := none }

/-- Start-up held at step 1 with both supplies applied and main power not yet good (R627), an empty bank. -/
def Pch.reset : Pch :=
  { power := .startUp, step := 1, mainPower := true, mainGood := false, aux := true, mrst := false,
    pwrdis := false, slotAddress := 0, devTime := 0, devSaved := 0, wallOffset := Config.manufacturing 0xF005 0, slew := 0, dozeStep := 0, wakeWanted := false,
    idleSince := 0, flushing := none, flushAt := 0, flushBytes := 0, resetWanted := false, resetCause := 1,
    startKind := 0, tested := false,
    throttleTemp := 0, caseAt := 0, overTempUs := 0, firewood := .charging, bankMv := 0, lastTest := 0, testPassed := false, energyLimit := 0,
    testLimit := none, dirtyLimit := 4294967296, wtDrain := false, outOfService := false, noImage := false,
    bootStopped := false }

def Segment.reset : Segment :=
  { plca := 0, nodeId := 31, quiet := 0, quietId := 0, quietAt := 0, ackWanted := none, ackAt := 0,
    settleAt := 0, lastBeacon := 0, collisions := [], heartbeatDue := 0, alertSeen := 0, alertSent := none,
    holdUntil := 0, staged := none, kept := [], requests := [], busy := false, answerAt := none, macOn := true }

def Kiln.reset : Kiln :=
  { test := none, due := [], waiting := [], limitMv := 0, limitC := 0, limitPpm := 0,
    limitsOk := false }

/-- Trace off, with the default settings of R607. -/
def Trace.reset : Trace :=
  { clock := 0, state := 0, continuous := false, pre := 32768, enable := 1, threshold := 2500, status := 0x0E,
    entry := 0xFFFFFFFF, mask := 0x07FE, snapshot := false, ring := [], trigger := none, preKept := 0,
    postLeft := 0, trsSnap := [], readOut := false, seen := (0, 0), dropped := 0, due := [] }

def Service.reset : Service :=
  { dynAddr := 0, events := true, mwl := 1048, mrl := 1048, response := none, pendingReq := none, staged := none }

/-- A firmware slot of the given state as manufactured; its image is a manufacturing value. -/
def Slot.reset (state : Nat) : Slot :=
  { state := state, version := Config.manufacturing 0xE301 state, floorRequest := 0, length := 0, result := 1, reason := 0, stagedAt := 0,
    checkedAt := 0, image := Config.manufacturingBytes 0xE310 state, booted := true }

/-- Slot 1 RUNNING and slot 2 FALLBACK (E300); element 1 of FW_FLOOR written at manufacture (E305). -/
def Msv.reset : Msv :=
  { serial := [], held := [], segment := .reset, kiln := .reset, health := [], trace := .reset,
    service := .reset, slot1 := .reset 3, slot2 := .reset 4, fwStaged := none, fallback := false,
    written1 := [0xE30501] }

/-- The machine right after reset: a module as manufactured, its AON domain just started. -/
def State.reset : State :=
  { pending := [], out := [], od := [], dpx := .reset, wte := .reset, cqc := .reset, tpk := .reset,
    asu := .reset, pae := .reset, cpx := .reset, bfc := .reset, plc := .reset, mta := .reset, wdn := .reset, jsr := .reset,
    pch := .reset, msv := .reset }

end Sys2Proof.Machine
end

