-- ==== Sys2Proof/Machine/Entries.lean ====
section
/-!
DEFINITION. The object dictionary's entries as the owning chapters list them (R477 to R480): where each entry lies,
its type, access class, default, whether it persists, and the plain range its table gives. A range that depends on
other entries, or on a layout, is checked by the entry's own write.
-/
namespace Sys2Proof.Machine

/-- Entry types (R478). -/
inductive OdType where
  | u8 | u16 | u32 | u64 | i32 | bool | time64
  | str (n : Nat)
  | blob (n : Nat)
  deriving DecidableEq, Repr

/-- Access classes (R479). -/
inductive Access where | ro | rw | wo | w1 | rwl
  deriving DecidableEq, Repr

/-- A default: numbers by element (the last one repeats), bytes (zero from their end on), or a manufacturing value. -/
inductive Dflt where
  | nums (l : List Nat)
  | blob (b : Bytes)
  | mfg
  deriving DecidableEq, Repr

/-- The range a table gives for a write; values outside it answer RANGE. -/
inductive Rng where
  | any
  | between (lo hi : Nat)
  | zeroOr (lo hi : Nat)
  | steps (lo hi step : Nat)
  | oneOf (l : List Nat)
  | divisorOf (n : Nat)
  /-- BLOCK_SELECT (R454): die 0 to 9, bits 31 to 22 and 10 zero. -/
  | dieBlock
  /-- TRIGGER_ENTRY (R607): an entry, or all ones. -/
  | traceEntry
  deriving DecidableEq, Repr

/-- A row of an owning table. The indices it covers are `base + i * stride` for `i < count`. -/
structure EntryRow where
  base    : Nat
  count   : Nat
  stride  : Nat
  subLo   : Nat
  subHi   : Nat
  type    : OdType
  access  : Access
  dflt    : Dflt
  persist : Bool
  range   : Rng
  deriving DecidableEq, Repr

/-- ASCII characters as bytes. -/
def ascii (s : String) : Bytes := s.toList.map fun c => BitVec.ofNat 8 c.toNat

/-- Default classes of the DSCP values 0 to 63 (R145): 46 Express/0; 8, 10, 12 and 14 Bulk/2; every other Standard/1. -/
def dscpDefaults : List Nat :=
  (List.range 64).map fun d => if d = 46 then 0 else if d = 8 ∨ d = 10 ∨ d = 12 ∨ d = 14 then 2 else 1

/-- Default gate list (R260): one entry, every gate open for 1,000,000 ns. -/
def gateListDefault : Bytes := [0xFF, 0, 0, 0] ++ natBytes 4 1000000

/-- FLUSH_MODEL (R572): four U32. -/
def flushModelDefault : Bytes := natBytes 4 300 ++ natBytes 4 800 ++ natBytes 4 1500 ++ natBytes 4 12000

/-- Entries of chapter 03. -/
def entriesWte : List EntryRow := [
  ⟨0x2000, 1, 1, 0x00, 0x00, .u16, .rw, .nums [7463], true, .between 1024 65535⟩,  -- WOMBE_UDP_PORT
  ⟨0x2001, 1, 1, 0x00, 0x00, .u32, .rw, .nums [60000], true, .between 1000 3600000⟩,  -- SESSION_IDLE_LIMIT
  ⟨0x2002, 1, 1, 0x00, 0x00, .u8, .ro, .nums [64], false, .any⟩,  -- DSCP_CLASS
  ⟨0x2002, 1, 1, 0x01, 0x40, .u8, .rw, .nums dscpDefaults, true, .between 0 3⟩,  -- DSCP_CLASS
  ⟨0x2003, 1, 1, 0x00, 0x00, .u8, .ro, .nums [8], false, .any⟩,  -- PCP_CLASS
  ⟨0x2003, 1, 1, 0x01, 0x08, .u8, .rw, .nums [1, 2, 2, 1, 1, 0, 0, 0], true, .between 0 3⟩,  -- PCP_CLASS
  ⟨0x2004, 1, 1, 0x00, 0x00, .u8, .rw, .nums [1], true, .between 0 1⟩,  -- CLASS_SOURCE
  ⟨0x2005, 1, 1, 0x00, 0x00, .u8, .ro, .nums [4], false, .any⟩,  -- CLASS_TX_QUEUE
  ⟨0x2005, 1, 1, 0x01, 0x04, .u8, .rw, .nums [7, 5, 2, 1], true, .between 0 7⟩,  -- CLASS_TX_QUEUE
  ⟨0x2006, 1, 1, 0x00, 0x00, .u8, .ro, .nums [4], false, .any⟩,  -- CLASS_TX_DSCP
  ⟨0x2006, 1, 1, 0x01, 0x04, .u8, .rw, .nums [46, 0, 8, 8], true, .between 0 63⟩,  -- CLASS_TX_DSCP
  ⟨0x2007, 1, 1, 0x00, 0x00, .u8, .ro, .nums [4], false, .any⟩,  -- CLASS_TX_PCP
  ⟨0x2007, 1, 1, 0x01, 0x04, .u8, .rw, .nums [5, 0, 1, 1], true, .between 0 7⟩,  -- CLASS_TX_PCP
  ⟨0x2010, 1, 1, 0x00, 0x00, .u32, .ro, .nums [0], false, .any⟩,  -- SESSIONS_OPEN
  ⟨0x2011, 1, 1, 0x00, 0x00, .u32, .ro, .nums [0], false, .any⟩,  -- SESSIONS_HALF_OPEN
  ⟨0x2012, 1, 1, 0x00, 0x00, .u8, .ro, .nums [16], false, .any⟩,  -- WTE_COUNTERS
  ⟨0x2012, 1, 1, 0x01, 0x10, .u64, .ro, .nums [0], false, .any⟩,  -- WTE_COUNTERS
  ⟨0x2400, 1024, 1, 0x00, 0x00, .u8, .ro, .nums [2], false, .any⟩,  -- TENANT_TRANSPORT
  ⟨0x2400, 1024, 1, 0x01, 0x01, .bool, .rw, .nums [0], true, .any⟩,  -- TRANSIT_PLAINTEXT
  ⟨0x2400, 1024, 1, 0x02, 0x02, .u32, .ro, .nums [0], false, .any⟩]  -- TENANT_SESSIONS

/-- Entries of chapter 05. -/
def entriesCqc : List EntryRow := [
  ⟨0x3000, 1, 1, 0x00, 0x00, .u32, .ro, .nums [0], false, .any⟩,  -- TRS_IN_USE
  ⟨0x3001, 1, 1, 0x00, 0x00, .u32, .rw, .nums [4096], true, .between 0 16384⟩,  -- TRS_EXPRESS_RESERVE
  ⟨0x3002, 1, 1, 0x00, 0x00, .u32, .ro, .nums [0], false, .any⟩,  -- KEYLOCK_IN_USE
  ⟨0x3003, 1, 1, 0x00, 0x00, .u16, .rw, .nums [1024], true, .between 0 4096⟩,  -- KEYLOCK_EXPRESS_RESERVE
  ⟨0x3004, 1, 1, 0x00, 0x00, .u32, .rw, .nums [5000], true, .between 100 60000⟩,  -- DRAIN_LIMIT
  ⟨0x3005, 1, 1, 0x00, 0x00, .u8, .ro, .nums [0], false, .any⟩,  -- DRAIN_STATE
  ⟨0x3006, 1, 1, 0x00, 0x00, .u8, .ro, .nums [8], false, .any⟩,  -- LANE_DEPTH
  ⟨0x3006, 1, 1, 0x01, 0x08, .u32, .ro, .nums [0], false, .any⟩,  -- LANE_DEPTH
  ⟨0x3008, 1, 1, 0x00, 0x00, .u32, .ro, .nums [0], false, .any⟩,  -- LEASES_HELD
  ⟨0x3010, 1, 1, 0x00, 0x00, .u8, .ro, .nums [13], false, .any⟩,  -- CQC_COUNTERS
  ⟨0x3010, 1, 1, 0x01, 0x0D, .u64, .ro, .nums [0], false, .any⟩,  -- CQC_COUNTERS
  ⟨0x3101, 1, 1, 0x00, 0x00, .blob 4194304, .ro, .blob [], false, .any⟩]  -- TRS_TABLE

/-- Entries of chapter 06, part 1. -/
def entriesDpx1 : List EntryRow := [
  ⟨0x1000, 1, 1, 0x00, 0x00, .u8, .rw, .nums [6], true, .between 0 7⟩,  -- RESPONDER_QUEUE
  ⟨0x1001, 1, 1, 0x00, 0x00, .u8, .rw, .nums [0], true, .between 0 2⟩,  -- PTP_PORT
  ⟨0x1002, 1, 1, 0x00, 0x00, .u8, .rw, .nums [0], true, .between 0 127⟩,  -- PTP_DOMAIN
  ⟨0x1003, 1, 1, 0x00, 0x00, .u8, .rw, .nums [0], true, .between 0 2⟩,  -- PTP_TRANSPORT
  ⟨0x1004, 1, 1, 0x00, 0x00, .u8, .ro, .nums [0], false, .any⟩,  -- PTP_STATE
  ⟨0x1005, 1, 1, 0x00, 0x00, .i32, .ro, .nums [0], false, .any⟩,  -- PTP_OFFSET
  ⟨0x1006, 1, 1, 0x00, 0x00, .u32, .ro, .nums [0], false, .any⟩,  -- PTP_PATH_DELAY
  ⟨0x1007, 1, 1, 0x00, 0x00, .blob 10, .ro, .blob [], false, .any⟩,  -- PTP_LEADER
  ⟨0x1100, 2, 256, 0x00, 0x00, .u8, .rw, .nums [7], true, .any⟩,  -- LINK_ABILITIES
  ⟨0x1101, 2, 256, 0x00, 0x00, .u8, .ro, .nums [0], false, .any⟩,  -- LINK_STATE
  ⟨0x1102, 2, 256, 0x00, 0x00, .blob 6, .rw, .mfg, true, .any⟩,  -- MAC_ADDRESS
  ⟨0x1103, 2, 256, 0x00, 0x00, .u16, .rw, .nums [9216], true, .between 1280 9216⟩,  -- MTU
  ⟨0x1104, 2, 256, 0x00, 0x00, .u32, .rw, .nums [0], true, .any⟩,  -- IPV4_ADDRESS
  ⟨0x1105, 2, 256, 0x00, 0x00, .u8, .ro, .nums [4], false, .any⟩,  -- IPV6_ADDRESS
  ⟨0x1105, 2, 256, 0x01, 0x04, .blob 16, .rw, .blob [], true, .any⟩,  -- IPV6_ADDRESS
  ⟨0x1106, 2, 256, 0x00, 0x00, .u8, .ro, .nums [8], false, .any⟩,  -- UNICAST_FILTER
  ⟨0x1106, 2, 256, 0x01, 0x08, .blob 6, .rw, .blob [], true, .any⟩,  -- UNICAST_FILTER
  ⟨0x1107, 2, 256, 0x00, 0x00, .u8, .ro, .nums [8], false, .any⟩,  -- MULTICAST_FILTER
  ⟨0x1107, 2, 256, 0x01, 0x08, .blob 6, .rw, .blob [], true, .any⟩,  -- MULTICAST_FILTER
  ⟨0x1108, 2, 256, 0x00, 0x00, .bool, .rw, .nums [1], true, .any⟩,  -- BROADCAST_ENABLE
  ⟨0x1109, 2, 256, 0x00, 0x00, .u8, .rw, .nums [64], true, .between 1 255⟩,  -- HOP_LIMIT
  ⟨0x110A, 2, 256, 0x00, 0x00, .u8, .ro, .nums [8], false, .any⟩,  -- RX_PRIORITY_LIMIT
  ⟨0x110A, 2, 256, 0x01, 0x08, .u32, .rw, .nums [1048576], true, .any⟩,  -- RX_PRIORITY_LIMIT
  ⟨0x110B, 2, 256, 0x00, 0x00, .u8, .rw, .nums [1], true, .between 0 2⟩,  -- FLOW_CONTROL
  ⟨0x110C, 2, 256, 0x00, 0x00, .u8, .rw, .nums [255], true, .any⟩,  -- PFC_ENABLE
  ⟨0x110D, 2, 256, 0x00, 0x00, .u32, .rw, .nums [262144], true, .any⟩,  -- PFC_HEADROOM
  ⟨0x110E, 2, 256, 0x00, 0x00, .u32, .rw, .nums [200], true, .between 1 10000⟩,  -- PAUSE_WATCHDOG
  ⟨0x1111, 2, 256, 0x00, 0x00, .bool, .rw, .nums [0], true, .any⟩,  -- GATE_ENABLE
  ⟨0x1112, 2, 256, 0x00, 0x00, .u32, .rw, .nums [1000000], true, .any⟩,  -- GATE_CYCLE
  ⟨0x1113, 2, 256, 0x00, 0x00, .u32, .rw, .nums [0], true, .any⟩,  -- GATE_PHASE
  ⟨0x1114, 2, 256, 0x00, 0x00, .u16, .rw, .nums [1], true, .any⟩,  -- GATE_LIST_LENGTH
  ⟨0x1114, 2, 256, 0x01, 0x01, .blob 2048, .rw, .blob gateListDefault, true, .any⟩,  -- GATE_LIST
  ⟨0x1115, 2, 256, 0x00, 0x00, .u8, .rw, .nums [0], false, .between 1 1⟩,  -- GATE_COMMIT
  ⟨0x1116, 2, 256, 0x00, 0x00, .u8, .ro, .nums [0], false, .any⟩,  -- GATE_STATE
  ⟨0x1116, 2, 256, 0x01, 0x01, .blob 2064, .ro, .blob [], false, .any⟩,  -- OPER_GATE_LIST
  ⟨0x1117, 2, 256, 0x00, 0x00, .u8, .ro, .nums [8], false, .any⟩,  -- QUEUE_DATAGRAM_LIMIT
  ⟨0x1117, 2, 256, 0x01, 0x08, .u16, .ro, .nums [9216], false, .any⟩,  -- QUEUE_DATAGRAM_LIMIT
  ⟨0x1118, 2, 256, 0x00, 0x00, .bool, .rw, .nums [1], true, .any⟩,  -- EEE_ENABLE
  ⟨0x1119, 2, 256, 0x00, 0x00, .bool, .rw, .nums [0], true, .any⟩,  -- EEE_READY_LPI
  ⟨0x111A, 2, 256, 0x00, 0x00, .u8, .ro, .nums [4], false, .any⟩]  -- EEE_TW

/-- Entries of chapter 06, part 2. -/
def entriesDpx2 : List EntryRow := [
  ⟨0x111A, 2, 256, 0x01, 0x02, .u16, .rw, .nums [2, 2], true, .any⟩,  -- EEE_TW
  ⟨0x111A, 2, 256, 0x03, 0x04, .u16, .ro, .nums [0, 0], false, .any⟩,  -- EEE_TW
  ⟨0x111B, 2, 256, 0x00, 0x00, .bool, .rw, .nums [1], true, .any⟩,  -- LLDP_ENABLE
  ⟨0x111C, 2, 256, 0x00, 0x00, .bool, .rw, .nums [0], false, .any⟩,  -- DELIVER_BAD
  ⟨0x111D, 2, 256, 0x00, 0x00, .bool, .rw, .nums [0], false, .any⟩,  -- DIAG_PROMISCUOUS
  ⟨0x111E, 2, 256, 0x00, 0x00, .u16, .rw, .nums [256], false, .between 64 9242⟩,  -- CAPTURE_SNAP
  ⟨0x111F, 2, 256, 0x00, 0x00, .blob 4194304, .ro, .blob [], false, .any⟩,  -- CAPTURE_RING
  ⟨0x111F, 2, 256, 0x01, 0x01, .u32, .ro, .nums [0], false, .any⟩,  -- CAPTURE_HEAD
  ⟨0x1120, 2, 256, 0x00, 0x00, .bool, .rw, .nums [0], false, .any⟩,  -- CAPTURE_FREEZE
  ⟨0x1121, 2, 256, 0x00, 0x00, .u8, .ro, .nums [8], false, .any⟩,  -- RX_OVERFLOW
  ⟨0x1121, 2, 256, 0x01, 0x08, .u64, .ro, .nums [0], false, .any⟩,  -- RX_OVERFLOW
  ⟨0x1122, 2, 256, 0x00, 0x00, .u8, .ro, .nums [29], false, .any⟩,  -- PORT_COUNTERS
  ⟨0x1122, 2, 256, 0x01, 0x1D, .u64, .ro, .nums [0], false, .any⟩]  -- PORT_COUNTERS

/-- Entries of chapter 07. -/
def entriesTpk : List EntryRow := [
  ⟨0x4000, 1, 1, 0x00, 0x00, .u16, .rw, .nums [128], true, .steps 0 256 32⟩,  -- EXPRESS_SHARE
  ⟨0x4001, 1, 1, 0x00, 0x00, .u16, .ro, .nums [64], false, .any⟩,  -- BACKGROUND_MIN
  ⟨0x4002, 1, 1, 0x00, 0x00, .u8, .ro, .nums [2], false, .any⟩,  -- CLASS_WEIGHT
  ⟨0x4002, 1, 1, 0x01, 0x02, .u8, .rw, .nums [4, 1], true, .between 1 15⟩,  -- CLASS_WEIGHT
  ⟨0x4003, 1, 1, 0x00, 0x00, .u32, .ro, .nums [0], false, .any⟩,  -- TABLE_GENERATION
  ⟨0x4004, 1, 1, 0x00, 0x00, .u8, .ro, .nums [0], false, .any⟩,  -- THROTTLE_LEVEL
  ⟨0x4005, 1, 1, 0x00, 0x00, .blob 262144, .ro, .blob [], false, .any⟩,  -- ACTIVE_TABLE
  ⟨0x4005, 1, 1, 0x01, 0x01, .blob 1024, .ro, .blob [], false, .any⟩,  -- SLOT_KINDS
  ⟨0x4006, 1, 1, 0x00, 0x00, .blob 16, .ro, .blob [], false, .any⟩,  -- ENDPOINT_MASK
  ⟨0x4007, 1, 1, 0x00, 0x00, .u16, .ro, .nums [32], false, .any⟩,  -- EXPRESS_GAP
  ⟨0x4008, 1, 1, 0x00, 0x00, .u32, .ro, .nums [2], false, .any⟩,  -- EXPRESS_LATENCY_MAX
  ⟨0x4008, 1, 1, 0x01, 0x02, .u32, .rw, .nums [0, 0], false, .between 0 0⟩,  -- EXPRESS_LATENCY_MAX
  ⟨0x4010, 1, 1, 0x00, 0x00, .u8, .ro, .nums [10], false, .any⟩,  -- TPK_COUNTERS
  ⟨0x4010, 1, 1, 0x01, 0x0A, .u64, .ro, .nums [0], false, .any⟩]  -- TPK_COUNTERS

/-- Entries of chapter 08. -/
def entriesAsu : List EntryRow := [
  ⟨0x5000, 1, 1, 0x00, 0x00, .u8, .rw, .nums [1], true, .oneOf [1, 2, 4]⟩,  -- RULE_WIDTH
  ⟨0x5001, 1, 1, 0x00, 0x00, .u32, .ro, .nums [1], false, .any⟩,  -- RULE_COUNT
  ⟨0x5002, 1, 1, 0x00, 0x00, .u32, .ro, .nums [0], false, .any⟩,  -- RULE_GENERATION
  ⟨0x5003, 1, 1, 0x00, 0x00, .blob 104, .rw, .blob [], false, .any⟩,  -- RULE_COMMAND
  ⟨0x5004, 1, 1, 0x00, 0x00, .u16, .ro, .nums [0], false, .any⟩,  -- RULE_PENDING
  ⟨0x5005, 1, 1, 0x00, 0x00, .blob 6291456, .ro, .blob [], true, .any⟩,  -- RULE_TABLE
  ⟨0x5010, 1, 1, 0x00, 0x00, .u8, .ro, .nums [32], false, .any⟩,  -- CAM_BANK_WIDTH
  ⟨0x5010, 1, 1, 0x01, 0x20, .u8, .rw, .nums [1], true, .oneOf [1, 2, 4]⟩,  -- CAM_BANK_WIDTH
  ⟨0x5011, 1, 1, 0x00, 0x00, .u8, .ro, .nums [32], false, .any⟩,  -- CAM_BANK_ENTRIES
  ⟨0x5011, 1, 1, 0x01, 0x20, .u32, .ro, .nums [0], false, .any⟩,  -- CAM_BANK_ENTRIES
  ⟨0x5012, 1, 1, 0x00, 0x00, .u8, .ro, .nums [32], false, .any⟩,  -- CAM_BANK_STATE
  ⟨0x5012, 1, 1, 0x01, 0x20, .u8, .ro, .nums [0], false, .any⟩,  -- CAM_BANK_STATE
  ⟨0x5013, 1, 1, 0x00, 0x00, .u8, .ro, .nums [32], false, .any⟩,  -- CAM_BANK_DUMP
  ⟨0x5013, 1, 1, 0x01, 0x20, .blob 3145728, .ro, .blob [], false, .any⟩,  -- CAM_BANK_DUMP
  ⟨0x5020, 1, 1, 0x00, 0x00, .u8, .ro, .nums [20], false, .any⟩,  -- DIRECTORY_DEPTH
  ⟨0x5021, 1, 1, 0x00, 0x00, .u64, .ro, .nums [0], false, .any⟩,  -- KEYS_STORED
  ⟨0x5022, 1, 1, 0x00, 0x00, .u64, .ro, .nums [134217728], false, .any⟩,  -- PINNED_BYTES
  ⟨0x5023, 1, 1, 0x00, 0x00, .u32, .ro, .nums [0], false, .any⟩,  -- INDEX_CACHE_FRAMES
  ⟨0x5024, 1, 1, 0x00, 0x00, .u8, .rw, .nums [0], false, .between 1 1⟩,  -- PIN_REEVALUATE
  ⟨0x5025, 1, 1, 0x00, 0x00, .u32, .rw, .nums [0], false, .between 0 0x3FFFFFFF⟩,  -- PAGE_SELECT
  ⟨0x5025, 1, 1, 0x01, 0x01, .blob 16384, .ro, .blob [], false, .any⟩,  -- PAGE_COPY
  ⟨0x5030, 1, 1, 0x00, 0x00, .u8, .ro, .nums [17], false, .any⟩,  -- ASU_COUNTERS
  ⟨0x5030, 1, 1, 0x01, 0x11, .u64, .ro, .nums [0], false, .any⟩]  -- ASU_COUNTERS

/-- Entries of chapter 09. -/
def entriesPae : List EntryRow := [
  ⟨0x6000, 1, 1, 0x00, 0x00, .u8, .ro, .nums [8], false, .any⟩,  -- ENGINE_STATE
  ⟨0x6000, 1, 1, 0x01, 0x08, .u8, .ro, .nums [0], false, .any⟩,  -- ENGINE_STATE
  ⟨0x6001, 1, 1, 0x00, 0x00, .u8, .rw, .nums [0], false, .any⟩,  -- PRED_CLEAR
  ⟨0x6002, 1, 1, 0x00, 0x00, .u32, .ro, .nums [0], false, .any⟩,  -- PRED_STORE_USED
  ⟨0x6003, 1, 1, 0x00, 0x00, .u32, .ro, .nums [0], false, .any⟩,  -- IMAGE_STORE_USED
  ⟨0x6004, 1, 1, 0x00, 0x00, .u16, .ro, .nums [0], false, .any⟩,  -- SCAN_WAITING
  ⟨0x6005, 1, 1, 0x00, 0x00, .u16, .ro, .nums [0], false, .any⟩,  -- CURSORS_OPEN
  ⟨0x6010, 1, 1, 0x00, 0x00, .u8, .ro, .nums [11], false, .any⟩,  -- PAE_COUNTERS
  ⟨0x6010, 1, 1, 0x01, 0x0B, .u64, .ro, .nums [0], false, .any⟩,  -- PAE_COUNTERS
  ⟨0x6100, 256, 1, 0x00, 0x00, .blob 2098496, .rw, .blob [], true, .any⟩,  -- PRED_IMAGE
  ⟨0x6100, 256, 1, 0x01, 0x01, .u16, .ro, .nums [0], false, .any⟩]  -- PRED_REFS

/-- Entries of chapter 10. -/
def entriesCpx : List EntryRow := [
  ⟨0x7000, 1, 1, 0x00, 0x00, .u8, .ro, .nums [16], false, .any⟩,  -- PIPELINE_STATE
  ⟨0x7000, 1, 1, 0x01, 0x10, .u8, .ro, .nums [0], false, .any⟩,  -- PIPELINE_STATE
  ⟨0x7001, 1, 1, 0x00, 0x00, .u8, .ro, .nums [16], false, .any⟩,  -- PIPELINE_BINDING
  ⟨0x7001, 1, 1, 0x01, 0x10, .u16, .ro, .nums [65535], false, .any⟩,  -- PIPELINE_BINDING
  ⟨0x7002, 1, 1, 0x00, 0x00, .u8, .rw, .nums [0], false, .between 1 1⟩,  -- ADMIN_PAGE_CLEAR
  ⟨0x7003, 1, 1, 0x00, 0x00, .u8, .ro, .nums [0], false, .any⟩,  -- RNG_STATE
  ⟨0x7004, 1, 1, 0x00, 0x00, .u32, .ro, .mfg, false, .any⟩,  -- FP_KEY_CHECK
  ⟨0x7005, 1, 1, 0x00, 0x00, .u32, .ro, .nums [0], false, .any⟩,  -- SESSION_RECORDS
  ⟨0x7020, 1, 1, 0x00, 0x00, .blob 256, .rw, .blob [], false, .any⟩,  -- PK_JOB
  ⟨0x7021, 1, 1, 0x00, 0x00, .blob 120, .ro, .blob [], false, .any⟩,  -- PK_RESULT
  ⟨0x7030, 1, 1, 0x00, 0x00, .u8, .ro, .nums [12], false, .any⟩,  -- CPX_COUNTERS
  ⟨0x7030, 1, 1, 0x01, 0x0C, .u64, .ro, .nums [0], false, .any⟩,  -- CPX_COUNTERS
  ⟨0x7400, 1024, 1, 0x00, 0x00, .u8, .ro, .nums [10], false, .any⟩,  -- KEY_PAGE
  ⟨0x7400, 1024, 1, 0x01, 0x01, .blob 32, .wo, .blob [], true, .any⟩,  -- XTS_KEY_1
  ⟨0x7400, 1024, 1, 0x02, 0x02, .blob 32, .wo, .blob [], true, .any⟩,  -- XTS_KEY_2
  ⟨0x7400, 1024, 1, 0x03, 0x03, .blob 32, .wo, .blob [], true, .any⟩,  -- ACCESS_KEY
  ⟨0x7400, 1024, 1, 0x04, 0x04, .u8, .ro, .nums [0], true, .any⟩,  -- PAGE_STATE
  ⟨0x7400, 1024, 1, 0x05, 0x05, .u32, .ro, .nums [0], true, .any⟩,  -- KCV_XTS_1
  ⟨0x7400, 1024, 1, 0x06, 0x06, .u32, .ro, .nums [0], true, .any⟩,  -- KCV_XTS_2
  ⟨0x7400, 1024, 1, 0x07, 0x07, .u32, .ro, .nums [0], true, .any⟩,  -- KCV_ACCESS
  ⟨0x7400, 1024, 1, 0x08, 0x08, .u32, .ro, .nums [0], true, .any⟩,  -- KCV_TRANSIT
  ⟨0x7400, 1024, 1, 0x09, 0x09, .time64, .ro, .nums [0], true, .any⟩,  -- PAGE_LOADED_TIME
  ⟨0x7400, 1024, 1, 0x0A, 0x0A, .u32, .ro, .nums [0], true, .any⟩]  -- PAGE_LOADS

/-- Entries of chapter 11. -/
def entriesPlc : List EntryRow := [
  ⟨0x9000, 1, 1, 0x00, 0x00, .u64, .ro, .nums [256000000000000], false, .any⟩,  -- MODULE_CAPACITY
  ⟨0x9001, 1, 1, 0x00, 0x00, .u64, .ro, .nums [0], false, .any⟩,  -- STORED_BYTES
  ⟨0x9002, 1, 1, 0x00, 0x00, .u8, .ro, .nums [8], false, .any⟩,  -- REGION_BYTES
  ⟨0x9002, 1, 1, 0x01, 0x08, .u64, .ro, .nums [0], false, .any⟩,  -- REGION_BYTES
  ⟨0x9003, 1, 1, 0x00, 0x00, .u8, .ro, .nums [3], false, .any⟩,  -- RESERVE_TILES
  ⟨0x9004, 1, 1, 0x00, 0x00, .u32, .rw, .nums [1000], true, .between 100 100000⟩,  -- PACK_SEAL_TIME
  ⟨0x9005, 1, 1, 0x00, 0x00, .u8, .rw, .nums [50], true, .between 10 90⟩,  -- PACK_MIN_LIVE
  ⟨0x9006, 1, 1, 0x00, 0x00, .u64, .ro, .nums [0], false, .any⟩,  -- PINNED_MAP_BYTES
  ⟨0x9007, 1, 1, 0x00, 0x00, .u64, .ro, .nums [1], true, .any⟩,  -- STRIPE_COUNTER
  ⟨0x9008, 1, 1, 0x00, 0x00, .u32, .ro, .nums [0], false, .any⟩,  -- JOURNAL_USED
  ⟨0x9010, 1, 1, 0x00, 0x00, .u8, .ro, .nums [6], false, .any⟩,  -- REBUILD
  ⟨0x9010, 1, 1, 0x01, 0x01, .u8, .ro, .nums [0], false, .any⟩,  -- REBUILD_STATE
  ⟨0x9010, 1, 1, 0x02, 0x02, .blob 8, .ro, .blob [], false, .any⟩,  -- REBUILD_TILES
  ⟨0x9010, 1, 1, 0x03, 0x03, .u64, .ro, .nums [0], false, .any⟩,  -- SHARDS_TOTAL
  ⟨0x9010, 1, 1, 0x04, 0x04, .u64, .ro, .nums [0], false, .any⟩,  -- SHARDS_DONE
  ⟨0x9010, 1, 1, 0x05, 0x05, .u64, .ro, .nums [0], false, .any⟩,  -- STRIPES_TWO_MISSING
  ⟨0x9010, 1, 1, 0x06, 0x06, .u32, .ro, .nums [0], false, .any⟩,  -- REBUILD_ETA
  ⟨0x9011, 1, 1, 0x00, 0x00, .u8, .rw, .nums [3], true, .between 2 3⟩,  -- REBUILD_CLASS
  ⟨0x9020, 1, 1, 0x00, 0x00, .u32, .ro, .nums [0], true, .any⟩,  -- LOST_KEY_COUNT
  ⟨0x9020, 1, 1, 0x01, 0x01, .u64, .ro, .nums [0], true, .any⟩,  -- LOST_KEY_OVERFLOW
  ⟨0x9021, 1, 1, 0x00, 0x00, .blob 2097152, .ro, .blob [], true, .any⟩,  -- LOST_KEY_LOG
  ⟨0x9030, 1, 1, 0x00, 0x00, .u8, .ro, .nums [7], false, .any⟩,  -- LONG_OPERATION
  ⟨0x9030, 1, 1, 0x01, 0x01, .u8, .ro, .nums [0], true, .any⟩,  -- OPERATION
  ⟨0x9030, 1, 1, 0x02, 0x02, .u8, .ro, .nums [0], true, .any⟩,  -- PHASE
  ⟨0x9030, 1, 1, 0x03, 0x03, .u16, .ro, .nums [0], true, .any⟩,  -- OPERATION_TENANT
  ⟨0x9030, 1, 1, 0x04, 0x04, .u16, .ro, .nums [0], true, .any⟩,  -- PROGRESS
  ⟨0x9030, 1, 1, 0x05, 0x05, .u64, .ro, .nums [0], true, .any⟩,  -- STEP
  ⟨0x9030, 1, 1, 0x06, 0x06, .time64, .ro, .nums [0], true, .any⟩,  -- OPERATION_STARTED
  ⟨0x9030, 1, 1, 0x07, 0x07, .u64, .ro, .nums [0], true, .any⟩,  -- BLOCKS_UNREACHED
  ⟨0x9031, 1, 1, 0x00, 0x00, .u16, .ro, .nums [0], true, .any⟩,  -- RECLAIM_QUEUE
  ⟨0x9040, 1, 1, 0x00, 0x00, .u64, .rw, .nums [0], false, .any⟩,  -- STRIPE_SELECT
  ⟨0x9040, 1, 1, 0x01, 0x01, .blob 144, .ro, .blob [], false, .any⟩,  -- STRIPE_DESCRIPTOR
  ⟨0x9050, 1, 1, 0x00, 0x00, .u8, .ro, .nums [0], true, .any⟩,  -- CHARCOAL_REASON
  ⟨0x9060, 1, 1, 0x00, 0x00, .u8, .ro, .nums [16], false, .any⟩,  -- PLC_COUNTERS
  ⟨0x9060, 1, 1, 0x01, 0x10, .u64, .ro, .nums [0], false, .any⟩]  -- PLC_COUNTERS

/-- Entries of chapter 12. -/
def entriesMta : List EntryRow := [
  ⟨0xA000, 1, 1, 0x00, 0x00, .u32, .rw, .nums [50], true, .between 5 10000⟩,  -- TILE_EMBER_IDLE
  ⟨0xA000, 1, 1, 0x01, 0x01, .u32, .rw, .nums [20], true, .between 0 60000⟩,  -- TILE_PEAT_IDLE
  ⟨0xA000, 1, 1, 0x02, 0x02, .bool, .rw, .nums [0], true, .any⟩,  -- G2_COMPAT
  ⟨0xA000, 1, 1, 0x03, 0x03, .u8, .rw, .nums [0], true, .between 0 2⟩,  -- READ_COUNTER
  ⟨0xA000, 1, 1, 0x04, 0x04, .u32, .rw, .nums [100000], true, .between 10000 10000000⟩,  -- READ_COUNT_LIMIT_QLC
  ⟨0xA000, 1, 1, 0x05, 0x05, .u32, .rw, .nums [1000000], true, .between 10000 10000000⟩,  -- READ_COUNT_LIMIT_SLC
  ⟨0xA000, 1, 1, 0x06, 0x06, .u8, .rw, .nums [75], true, .between 50 95⟩,  -- REWRITE_THRESHOLD
  ⟨0xA000, 1, 1, 0x10, 0x10, .blob 4096, .rw, .mfg, true, .any⟩,  -- THRESHOLD_TABLE
  ⟨0xA000, 1, 1, 0x20, 0x20, .u32, .rw, .nums [0], false, .dieBlock⟩,  -- BLOCK_SELECT
  ⟨0xA000, 1, 1, 0x21, 0x21, .blob 32, .ro, .blob [], false, .any⟩,  -- BLOCK_INFO
  ⟨0xA400, 64, 1, 0x00, 0x00, .u8, .ro, .nums [25], false, .any⟩,  -- TILE
  ⟨0xA400, 64, 1, 0x01, 0x01, .u8, .ro, .nums [0], false, .any⟩,  -- TILE_STATE
  ⟨0xA400, 64, 1, 0x02, 0x02, .u8, .ro, .nums [0], false, .any⟩,  -- TILE_FLAGS
  ⟨0xA400, 64, 1, 0x03, 0x03, .u16, .ro, .nums [492], true, .any⟩,  -- SPARES_LEFT
  ⟨0xA400, 64, 1, 0x04, 0x04, .u16, .ro, .nums [0], true, .any⟩,  -- WEAR_AVERAGE
  ⟨0xA400, 64, 1, 0x05, 0x05, .u16, .ro, .nums [0], true, .any⟩,  -- WEAR_MAX
  ⟨0xA400, 64, 1, 0x06, 0x06, .u64, .ro, .nums [0], true, .any⟩,  -- CODEWORDS_READ
  ⟨0xA400, 64, 1, 0x07, 0x07, .u64, .ro, .nums [0], true, .any⟩,  -- CORRECTED_BITS
  ⟨0xA400, 64, 1, 0x08, 0x08, .u64, .ro, .nums [0], true, .any⟩,  -- HARD_RETRIES
  ⟨0xA400, 64, 1, 0x09, 0x09, .u64, .ro, .nums [0], true, .any⟩,  -- SOFT_DECODES
  ⟨0xA400, 64, 1, 0x0A, 0x0A, .u64, .ro, .nums [0], true, .any⟩,  -- UNCORRECTABLE
  ⟨0xA400, 64, 1, 0x0B, 0x0B, .u32, .ro, .nums [0], true, .any⟩,  -- PROGRAM_FAILURES
  ⟨0xA400, 64, 1, 0x0C, 0x0C, .u32, .ro, .nums [0], true, .any⟩,  -- ERASE_FAILURES
  ⟨0xA400, 64, 1, 0x0D, 0x0D, .u32, .ro, .nums [0], true, .any⟩,  -- PROGRAM_REFUSALS
  ⟨0xA400, 64, 1, 0x0E, 0x0E, .u32, .ro, .nums [0], true, .any⟩,  -- VERIFY_FAILURES
  ⟨0xA400, 64, 1, 0x0F, 0x0F, .u32, .ro, .nums [0], true, .any⟩,  -- PARITY_RECOVERIES
  ⟨0xA400, 64, 1, 0x10, 0x10, .u32, .ro, .nums [0], true, .any⟩,  -- REWRITES
  ⟨0xA400, 64, 1, 0x11, 0x11, .u32, .ro, .nums [0], true, .any⟩,  -- READ_COUNT_REWRITES
  ⟨0xA400, 64, 1, 0x12, 0x12, .u16, .ro, .nums [0], true, .any⟩,  -- DIE_BLOCKS_RETIRED
  ⟨0xA400, 64, 1, 0x13, 0x13, .u64, .ro, .nums [0], false, .any⟩,  -- WAKES_FROM_EMBER
  ⟨0xA400, 64, 1, 0x14, 0x14, .u64, .ro, .nums [0], false, .any⟩,  -- WAKES_FROM_PEAT
  ⟨0xA400, 64, 1, 0x15, 0x15, .i32, .ro, .nums [0], false, .any⟩,  -- TEMP_NOW
  ⟨0xA400, 64, 1, 0x16, 0x16, .i32, .ro, .nums [0], true, .any⟩,  -- TEMP_MAX
  ⟨0xA400, 64, 1, 0x17, 0x17, .blob 96, .ro, .blob [], true, .any⟩,  -- TEMP_HISTORY
  ⟨0xA400, 64, 1, 0x18, 0x18, .u32, .ro, .nums [0], true, .any⟩,  -- FAULTS_TRANSIENT
  ⟨0xA400, 64, 1, 0x19, 0x19, .u64, .ro, .nums [0], false, .any⟩]  -- EXPRESS_DIE_QUEUED

/-- Entries of chapter 13. -/
def entriesWdn : List EntryRow := [
  ⟨0xB000, 1, 1, 0x00, 0x00, .u8, .ro, .nums [0], false, .any⟩,  -- LEASE_HOLDER
  ⟨0xB001, 1, 1, 0x00, 0x00, .u8, .ro, .nums [2], false, .any⟩,  -- WARDEN_STATE
  ⟨0xB001, 1, 1, 0x01, 0x02, .u8, .ro, .nums [0, 1], false, .any⟩,  -- WARDEN_STATE
  ⟨0xB002, 1, 1, 0x00, 0x00, .u32, .rw, .nums [0], false, .between 0 0⟩,  -- SWITCHOVER_GAP_MAX
  ⟨0xB003, 1, 1, 0x00, 0x00, .blob 16, .ro, .blob [], true, .any⟩,  -- LAST_SWITCHOVER
  ⟨0xB004, 1, 1, 0x00, 0x00, .u32, .ro, .nums [0], false, .any⟩,  -- HELD_REQUESTS
  ⟨0xB005, 1, 1, 0x00, 0x00, .u32, .ro, .nums [0], true, .any⟩,  -- FIRMWARE_RESTARTS
  ⟨0xB006, 1, 1, 0x00, 0x00, .u8, .rw, .nums [0], false, .between 1 1⟩,  -- SWITCHOVER_REQUEST
  ⟨0xB010, 1, 1, 0x00, 0x00, .u8, .ro, .nums [12], false, .any⟩,  -- WDN_COUNTERS
  ⟨0xB010, 1, 1, 0x01, 0x0C, .u64, .ro, .nums [0], false, .any⟩,  -- WDN_COUNTERS
  ⟨0xB011, 1, 1, 0x00, 0x00, .u8, .ro, .nums [2], false, .any⟩,  -- FAULTS_LASTING_TOTAL
  ⟨0xB011, 1, 1, 0x01, 0x02, .u32, .ro, .nums [0, 0], true, .any⟩]  -- FAULTS_LASTING_TOTAL

/-- Entries of chapter 14. -/
def entriesMsv : List EntryRow := [
  ⟨0xF000, 1, 1, 0x00, 0x00, .str 16, .ro, .blob (ascii "Chimund"), false, .any⟩,  -- VENDOR
  ⟨0xF001, 1, 1, 0x00, 0x00, .str 16, .ro, .blob (ascii "Herom HK64"), false, .any⟩,  -- PRODUCT
  ⟨0xF002, 1, 1, 0x00, 0x00, .str 16, .ro, .mfg, false, .any⟩,  -- ORDER_CODE
  ⟨0xF003, 1, 1, 0x00, 0x00, .str 16, .ro, .mfg, false, .any⟩,  -- SERIAL_NUMBER
  ⟨0xF004, 1, 1, 0x00, 0x00, .u16, .ro, .mfg, false, .any⟩,  -- HARDWARE_LEVEL
  ⟨0xF005, 1, 1, 0x00, 0x00, .time64, .ro, .mfg, false, .any⟩,  -- MANUFACTURE_TIME
  ⟨0xF006, 1, 1, 0x00, 0x00, .u32, .ro, .mfg, false, .any⟩,  -- FIRMWARE_RUNNING
  ⟨0xF007, 1, 1, 0x00, 0x00, .blob 97, .ro, .mfg, false, .any⟩,  -- IDENTITY_PUBLIC_KEY
  ⟨0xF008, 1, 1, 0x00, 0x00, .blob 2048, .ro, .mfg, false, .any⟩,  -- IDENTITY_CERTIFICATE
  ⟨0xF009, 1, 1, 0x00, 0x00, .u16, .ro, .nums [1], false, .any⟩,  -- DICTIONARY_FORMAT
  ⟨0xF010, 1, 1, 0x00, 0x00, .u8, .ro, .nums [3], false, .any⟩,  -- MODULE_STATE
  ⟨0xF011, 1, 1, 0x00, 0x00, .u32, .ro, .nums [0], false, .any⟩,  -- HEALTH_SUMMARY
  ⟨0xF012, 1, 1, 0x00, 0x00, .u32, .rwl, .nums [28763], true, .any⟩,  -- ALERT_MASK
  ⟨0xF020, 1, 1, 0x00, 0x00, .bool, .rw, .nums [0], true, .any⟩,  -- CONFIG_LOCK
  ⟨0xF021, 1, 1, 0x00, 0x00, .u8, .rw, .nums [0], false, .between 0 1⟩,  -- RESTORE_DEFAULTS
  ⟨0xF022, 1, 1, 0x00, 0x00, .str 32, .w1, .blob [], true, .any⟩,  -- ASSET_TAG
  ⟨0xF023, 1, 1, 0x00, 0x00, .str 64, .rwl, .blob [], true, .any⟩,  -- LOCATION
  ⟨0xF030, 1, 1, 0x00, 0x00, .blob 16, .ro, .blob [], false, .any⟩,  -- LAST_WRITE
  ⟨0xE000, 1, 1, 0x00, 0x00, .blob 6, .rwl, .mfg, true, .any⟩,  -- MGMT_MAC_ADDRESS
  ⟨0xE001, 1, 1, 0x00, 0x00, .u8, .rwl, .nums [0], true, .between 0 1⟩,  -- SEGMENT_ACCESS
  ⟨0xE002, 1, 1, 0x00, 0x00, .u8, .rwl, .nums [1], true, .between 0 1⟩,  -- NODE_ID_SOURCE
  ⟨0xE003, 1, 1, 0x00, 0x00, .u8, .rwl, .nums [31], true, .between 0 31⟩,  -- PLCA_NODE_ID
  ⟨0xE004, 1, 1, 0x00, 0x00, .u8, .rwl, .nums [8], true, .between 1 32⟩,  -- PLCA_NODE_COUNT
  ⟨0xE005, 1, 1, 0x00, 0x00, .u8, .rwl, .nums [32], true, .between 1 255⟩,  -- PLCA_TO_TIMER
  ⟨0xE006, 1, 1, 0x00, 0x00, .u8, .rwl, .nums [0], true, .between 0 255⟩,  -- PLCA_BURST_COUNT
  ⟨0xE007, 1, 1, 0x00, 0x00, .u8, .rwl, .nums [128], true, .between 1 255⟩,  -- PLCA_BURST_TIMER
  ⟨0xE008, 1, 1, 0x00, 0x00, .u8, .ro, .nums [0], false, .any⟩,  -- PLCA_STATE
  ⟨0xE009, 1, 1, 0x00, 0x00, .u8, .ro, .nums [31], false, .any⟩,  -- NODE_ID_IN_USE
  ⟨0xE00A, 1, 1, 0x00, 0x00, .u32, .rw, .nums [1000], true, .zeroOr 100 60000⟩,  -- HEARTBEAT_PERIOD
  ⟨0xE00B, 1, 1, 0x00, 0x00, .blob 6, .rw, .blob (List.replicate 6 0xFF), true, .any⟩,  -- ALERT_DEST
  ⟨0xE00C, 1, 1, 0x00, 0x00, .u8, .ro, .nums [0], false, .any⟩,  -- QUIET_STATE
  ⟨0xE00D, 1, 1, 0x00, 0x00, .u32, .ro, .nums [0], false, .any⟩,  -- QUIET_ID
  ⟨0xE010, 1, 1, 0x00, 0x00, .u8, .ro, .nums [15], false, .any⟩,  -- SEGMENT_COUNTERS
  ⟨0xE010, 1, 1, 0x01, 0x0F, .u64, .ro, .nums [0], false, .any⟩]  -- SEGMENT_COUNTERS

/-- Entries of chapter 15. -/
def entriesTen : List EntryRow := [
  ⟨0x3200, 1, 1, 0x00, 0x00, .u16, .rw, .nums [60], true, .divisorOf 1440⟩,  -- EPOCH_LENGTH
  ⟨0x3201, 1, 1, 0x00, 0x00, .time64, .ro, .nums [0], true, .any⟩,  -- OPEN_EPOCH_START
  ⟨0x3202, 1, 1, 0x00, 0x00, .u8, .ro, .nums [0], true, .any⟩,  -- OPEN_EPOCH_FLAGS
  ⟨0x3203, 1, 1, 0x00, 0x00, .u64, .ro, .nums [0], true, .any⟩,  -- EPOCHS_CLOSED
  ⟨0x3401, 1023, 1, 0x00, 0x00, .u8, .ro, .nums [13], false, .any⟩,  -- TENANT_ACCOUNT
  ⟨0x3401, 1023, 1, 0x01, 0x01, .u64, .rw, .nums [18446744073709551615], true, .any⟩,  -- QUOTA_BYTES
  ⟨0x3401, 1023, 1, 0x02, 0x02, .u64, .rw, .nums [18446744073709551615], true, .any⟩,  -- QUOTA_KEYS
  ⟨0x3401, 1023, 1, 0x03, 0x03, .u64, .ro, .nums [0], true, .any⟩,  -- USAGE_BYTES
  ⟨0x3401, 1023, 1, 0x04, 0x04, .u64, .ro, .nums [0], true, .any⟩,  -- USAGE_KEYS
  ⟨0x3401, 1023, 1, 0x05, 0x05, .u64, .ro, .nums [0], false, .any⟩,  -- RESERVED_BYTES
  ⟨0x3401, 1023, 1, 0x06, 0x06, .bool, .ro, .nums [0], false, .any⟩,  -- OVER_QUOTA
  ⟨0x3401, 1023, 1, 0x07, 0x07, .u64, .ro, .nums [0], true, .any⟩,  -- EPOCH_BYTES_READ
  ⟨0x3401, 1023, 1, 0x08, 0x08, .u64, .ro, .nums [0], true, .any⟩,  -- EPOCH_BYTES_WRITTEN
  ⟨0x3401, 1023, 1, 0x09, 0x09, .u64, .ro, .nums [0], true, .any⟩,  -- EPOCH_OPERATIONS
  ⟨0x3401, 1023, 1, 0x0A, 0x0A, .u64, .ro, .nums [0], true, .any⟩,  -- EPOCH_BYTE_SECONDS
  ⟨0x3401, 1023, 1, 0x0B, 0x0B, .blob 280320, .ro, .blob [], true, .any⟩,  -- EPOCH_RING
  ⟨0x3401, 1023, 1, 0x0C, 0x0C, .u16, .ro, .nums [0], true, .any⟩,  -- EPOCH_RING_HEAD
  ⟨0x3401, 1023, 1, 0x0D, 0x0D, .u64, .ro, .nums [0], false, .any⟩,  -- QUOTA_REFUSALS
  ⟨0xD100, 1, 1, 0x00, 0x00, .time64, .rw, .mfg, true, .any⟩,  -- WALL_TIME
  ⟨0xD101, 1, 1, 0x00, 0x00, .u8, .ro, .nums [0], true, .any⟩,  -- WALL_TIME_SOURCE
  ⟨0xD102, 1, 1, 0x00, 0x00, .blob 32, .ro, .blob [], true, .any⟩,  -- LAST_STEP
  ⟨0xD103, 1, 1, 0x00, 0x00, .u32, .ro, .nums [0], true, .any⟩,  -- STEPS_BACK
  ⟨0xD104, 1, 1, 0x00, 0x00, .u32, .ro, .nums [0], true, .any⟩,  -- STEPS_FORWARD
  ⟨0xD105, 1, 1, 0x00, 0x00, .u32, .rw, .nums [1000000], true, .between 1000 1000000000⟩]  -- PTP_STEP_THRESHOLD

/-- Entries of chapter 16. -/
def entriesPch : List EntryRow := [
  ⟨0x8000, 1, 1, 0x00, 0x00, .u64, .rw, .nums [4294967296], true, .steps 1073741824 6442450944 67108864⟩,  -- DIRTY_CEILING
  ⟨0x8001, 1, 1, 0x00, 0x00, .u64, .ro, .nums [4294967296], false, .any⟩,  -- DIRTY_LIMIT
  ⟨0x8002, 1, 1, 0x00, 0x00, .u64, .ro, .nums [0], false, .any⟩,  -- DIRTY_BYTES
  ⟨0x8003, 1, 1, 0x00, 0x00, .u64, .ro, .nums [0], false, .any⟩,  -- ENERGY_LIMIT
  ⟨0x8010, 1, 1, 0x00, 0x00, .u8, .ro, .nums [4], false, .any⟩,  -- BFC_COUNTERS
  ⟨0x8010, 1, 1, 0x01, 0x04, .u64, .ro, .nums [0], false, .any⟩,  -- BFC_COUNTERS
  ⟨0xD000, 1, 1, 0x00, 0x00, .time64, .ro, .nums [0], true, .any⟩,  -- DEVICE_TIME
  ⟨0xD001, 1, 1, 0x00, 0x00, .u32, .rw, .nums [100], true, .between 1 60000⟩,  -- DOZE_IDLE
  ⟨0xD002, 1, 1, 0x00, 0x00, .u8, .ro, .nums [1], false, .any⟩,  -- COMPLETION_MODE
  ⟨0xD003, 1, 1, 0x00, 0x00, .u8, .ro, .nums [1], false, .any⟩,  -- WT_REASONS
  ⟨0xD004, 1, 1, 0x00, 0x00, .u8, .ro, .nums [0], false, .any⟩,  -- POWER_POLICY
  ⟨0xD010, 1, 1, 0x00, 0x00, .u8, .rw, .nums [0], false, .between 1 1⟩,  -- MODULE_RESET
  ⟨0xD011, 1, 1, 0x00, 0x00, .blob 16, .ro, .blob [], true, .any⟩,  -- LAST_RESET
  ⟨0xD012, 1, 1, 0x00, 0x00, .blob 24, .ro, .blob [], false, .any⟩,  -- START_UP_TIMES
  ⟨0xD020, 1, 1, 0x00, 0x00, .u8, .ro, .nums [0], false, .any⟩,  -- FIREWOOD_STATE
  ⟨0xD021, 1, 1, 0x00, 0x00, .blob 32, .ro, .blob [], true, .any⟩,  -- FIREWOOD_MEASURE
  ⟨0xD022, 1, 1, 0x00, 0x00, .u16, .rw, .nums [24], true, .between 1 24⟩,  -- FIREWOOD_TEST_PERIOD
  ⟨0xD023, 1, 1, 0x00, 0x00, .u8, .rw, .nums [0], false, .between 1 1⟩,  -- FIREWOOD_TEST_NOW
  ⟨0xD024, 1, 1, 0x00, 0x00, .blob 16, .ro, .blob flushModelDefault, false, .any⟩,  -- FLUSH_MODEL
  ⟨0xD025, 1, 1, 0x00, 0x00, .u32, .ro, .nums [0], false, .any⟩,  -- FIREWOOD_VOLTAGE
  ⟨0xD030, 1, 1, 0x00, 0x00, .u8, .ro, .nums [60], false, .any⟩,  -- CLOCK_DOMAIN
  ⟨0xD030, 1, 1, 0x01, 0x3C, .u8, .ro, .nums [0], false, .any⟩,  -- CLOCK_DOMAIN
  ⟨0xD031, 1, 1, 0x00, 0x00, .i32, .ro, .nums [0], false, .any⟩,  -- AON_TRIM
  ⟨0xD040, 1, 1, 0x00, 0x00, .blob 32, .ro, .blob [], true, .any⟩,  -- LAST_FLUSH
  ⟨0xD050, 1, 1, 0x00, 0x00, .u8, .ro, .nums [12], false, .any⟩,  -- PCH_COUNTERS
  ⟨0xD050, 1, 1, 0x01, 0x0C, .u64, .ro, .nums [0], true, .any⟩]  -- PCH_COUNTERS

/-- Entries of chapter 17. -/
def entriesRec : List EntryRow := [
  ⟨0xC000, 1, 1, 0x00, 0x00, .u64, .ro, .nums [0], true, .any⟩,  -- RECORDS_WRITTEN
  ⟨0xC001, 1, 1, 0x00, 0x00, .u32, .ro, .nums [0], true, .any⟩,  -- NEXT_SEQUENCE
  ⟨0xC002, 1, 1, 0x00, 0x00, .u32, .ro, .nums [0], true, .any⟩,  -- RING_HEAD
  ⟨0xC003, 1, 1, 0x00, 0x00, .blob 262144, .ro, .blob [], true, .any⟩,  -- PERMANENT_AREA
  ⟨0xC004, 1, 1, 0x00, 0x00, .blob 66846720, .ro, .blob [], true, .any⟩,  -- RING_AREA
  ⟨0xC005, 1, 1, 0x00, 0x00, .u32, .rw, .nums [0], false, .any⟩,  -- RECORD_SELECT
  ⟨0xC005, 1, 1, 0x01, 0x01, .blob 32, .ro, .blob [], false, .any⟩,  -- RECORD
  ⟨0xC006, 1, 1, 0x00, 0x00, .bool, .rw, .nums [0], false, .any⟩,  -- RECORDER_FREEZE
  ⟨0xC007, 1, 1, 0x00, 0x00, .u16, .ro, .nums [0], true, .any⟩,  -- STAGED_RECORDS
  ⟨0xC008, 1, 1, 0x00, 0x00, .u8, .ro, .nums [6], false, .any⟩,  -- RECORDER_COUNTERS
  ⟨0xC008, 1, 1, 0x01, 0x06, .u64, .ro, .nums [0], true, .any⟩,  -- RECORDER_COUNTERS
  ⟨0xE100, 1, 1, 0x00, 0x00, .u8, .ro, .nums [0], false, .any⟩,  -- KILN_STATE
  ⟨0xE101, 1, 1, 0x00, 0x00, .u32, .rw, .nums [32768], true, .oneOf [8192, 32768, 131072]⟩,  -- KILN_PATTERNS
  ⟨0xE102, 1, 1, 0x00, 0x00, .blob 8, .rw, .blob [], false, .any⟩,  -- KILN_REQUEST
  ⟨0xE103, 1, 1, 0x00, 0x00, .blob 32, .ro, .blob [], false, .any⟩,  -- KILN_RESULT
  ⟨0xE104, 1, 1, 0x00, 0x00, .blob 16, .ro, .blob [], false, .any⟩,  -- KILN_LIMITS
  ⟨0xE105, 1, 1, 0x00, 0x00, .u32, .ro, .nums [0], true, .any⟩,  -- REPAIRS_USED
  ⟨0xE110, 1, 1, 0x00, 0x00, .blob 1000, .ro, .blob [], true, .any⟩,  -- UNIT_HEALTH
  ⟨0xE111, 1, 1, 0x00, 0x00, .u8, .ro, .nums [6], false, .any⟩,  -- KILN_COUNTERS
  ⟨0xE111, 1, 1, 0x01, 0x06, .u64, .ro, .nums [0], true, .any⟩,  -- KILN_COUNTERS
  ⟨0xE200, 1, 1, 0x00, 0x00, .u8, .rw, .nums [0], false, .between 0 2⟩,  -- TRACE_CONTROL
  ⟨0xE201, 1, 1, 0x00, 0x00, .u16, .rw, .nums [32768], true, .any⟩,  -- PRE_TRIGGER
  ⟨0xE202, 1, 1, 0x00, 0x00, .u8, .rw, .nums [1], true, .any⟩,  -- TRIGGER_ENABLE
  ⟨0xE203, 1, 1, 0x00, 0x00, .u32, .rw, .nums [2500], true, .any⟩,  -- LATENCY_THRESHOLD
  ⟨0xE204, 1, 1, 0x00, 0x00, .u8, .rw, .nums [14], true, .between 0 0x13⟩,  -- TRIGGER_STATUS
  ⟨0xE205, 1, 1, 0x00, 0x00, .u32, .rw, .nums [4294967295], true, .traceEntry⟩,  -- TRIGGER_ENTRY
  ⟨0xE206, 1, 1, 0x00, 0x00, .u16, .rw, .nums [2046], true, .any⟩,  -- KIND_MASK
  ⟨0xE207, 1, 1, 0x00, 0x00, .u8, .ro, .nums [0], false, .any⟩,  -- TRACE_STATE
  ⟨0xE208, 1, 1, 0x00, 0x00, .u8, .rw, .nums [0], false, .between 1 1⟩,  -- TRIGGER_NOW
  ⟨0xE209, 1, 1, 0x00, 0x00, .blob 1048576, .ro, .blob [], false, .any⟩,  -- CAPTURE
  ⟨0xE20A, 1, 1, 0x00, 0x00, .blob 32, .ro, .blob [], false, .any⟩,  -- CAPTURE_INFO
  ⟨0xE20B, 1, 1, 0x00, 0x00, .bool, .rw, .nums [0], true, .any⟩,  -- TRIGGER_SNAPSHOT
  ⟨0xE20C, 1, 1, 0x00, 0x00, .blob 4194304, .ro, .blob [], false, .any⟩,  -- TRS_SNAPSHOT
  ⟨0xE20D, 1, 1, 0x00, 0x00, .u8, .ro, .nums [4], false, .any⟩,  -- TRACE_COUNTERS
  ⟨0xE20D, 1, 1, 0x01, 0x04, .u64, .ro, .nums [0], false, .any⟩]  -- TRACE_COUNTERS

/-- Entries of chapter 18. -/
def entriesFw : List EntryRow := [
  ⟨0xE300, 1, 1, 0x00, 0x00, .u8, .ro, .nums [2], false, .any⟩,  -- FW_SLOT_STATE
  ⟨0xE300, 1, 1, 0x01, 0x02, .u8, .ro, .nums [3, 4], true, .any⟩,  -- FW_SLOT_STATE
  ⟨0xE301, 1, 1, 0x00, 0x00, .u8, .ro, .nums [2], false, .any⟩,  -- FW_SLOT_INFO
  ⟨0xE301, 1, 1, 0x01, 0x02, .blob 32, .ro, .mfg, true, .any⟩,  -- FW_SLOT_INFO
  ⟨0xE302, 1, 1, 0x00, 0x00, .u8, .rw, .nums [0], false, .between 1 2⟩,  -- FW_STAGE_CONTROL
  ⟨0xE303, 1, 1, 0x00, 0x00, .u32, .ro, .nums [0], false, .any⟩,  -- FW_STAGED_BYTES
  ⟨0xE304, 1, 1, 0x00, 0x00, .blob 97, .ro, .mfg, false, .any⟩,  -- FW_PUBLIC_KEY
  ⟨0xE305, 1, 1, 0x00, 0x00, .u8, .ro, .nums [32], false, .any⟩,  -- FW_FLOOR
  ⟨0xE305, 1, 1, 0x01, 0x20, .u32, .w1, .mfg, true, .any⟩,  -- FW_FLOOR
  ⟨0xE306, 1, 1, 0x00, 0x00, .u32, .ro, .mfg, true, .any⟩,  -- FW_FLOOR_EFFECTIVE
  ⟨0xE310, 1, 1, 0x00, 0x00, .blob 67108864, .wo, .blob [], false, .any⟩,  -- FW_IMAGE
  ⟨0xE320, 1, 1, 0x00, 0x00, .u8, .ro, .nums [0], false, .any⟩,  -- SERVICE_DYNAMIC_ADDRESS
  ⟨0xE321, 1, 1, 0x00, 0x00, .u8, .ro, .nums [7], false, .any⟩,  -- SERVICE_COUNTERS
  ⟨0xE321, 1, 1, 0x01, 0x07, .u64, .ro, .nums [0], false, .any⟩]  -- SERVICE_COUNTERS

/-- Entries of chapter 19. -/
def entriesPhy : List EntryRow := [
  ⟨0xD060, 1, 1, 0x00, 0x00, .i32, .ro, .nums [0], false, .any⟩,  -- CASE_TEMP
  ⟨0xD061, 1, 1, 0x00, 0x00, .i32, .ro, .nums [0], true, .any⟩,  -- CASE_TEMP_MAX
  ⟨0xD062, 1, 1, 0x00, 0x00, .u32, .ro, .nums [0], false, .any⟩,  -- MAIN_VOLTAGE
  ⟨0xD063, 1, 1, 0x00, 0x00, .u32, .ro, .nums [0], false, .any⟩,  -- MAIN_POWER
  ⟨0xD064, 1, 1, 0x00, 0x00, .u32, .ro, .nums [0], false, .any⟩,  -- AUX_VOLTAGE
  ⟨0xD065, 1, 1, 0x00, 0x00, .u8, .ro, .nums [0], false, .any⟩,  -- SLOT_ADDRESS
  ⟨0xD066, 1, 1, 0x00, 0x00, .u8, .ro, .nums [0], false, .any⟩,  -- CONTACT_STATE
  ⟨0xD067, 1, 1, 0x00, 0x00, .bool, .rw, .nums [0], false, .any⟩,  -- LED_LOCATE
  ⟨0xD068, 1, 1, 0x00, 0x00, .u8, .ro, .nums [3], false, .any⟩,  -- PHYSICAL_COUNTERS
  ⟨0xD068, 1, 1, 0x01, 0x03, .u64, .ro, .nums [0], true, .any⟩]  -- PHYSICAL_COUNTERS

/-- The owning table of an index by its range (R482). -/
def entriesOf (index : Nat) : List EntryRow :=
  match index / 0x1000 with
  | 0x1 => entriesDpx1 ++ entriesDpx2
  | 0x2 => entriesWte
  | 0x3 => entriesCqc ++ entriesTen
  | 0x4 => entriesTpk
  | 0x5 => entriesAsu
  | 0x6 => entriesPae
  | 0x7 => entriesCpx
  | 0x8 => entriesPch
  | 0x9 => entriesPlc
  | 0xA => entriesMta
  | 0xB => entriesWdn
  | 0xC => entriesRec
  | 0xD => entriesPch ++ entriesPhy ++ entriesTen
  | 0xE => entriesMsv ++ entriesRec ++ entriesFw
  | 0xF => entriesMsv
  | _ => []

/-- The row covers the entry. -/
def EntryRow.covers (r : EntryRow) (index sub : Nat) : Bool :=
  decide (r.base ≤ index) && (index - r.base) % r.stride == 0 && decide ((index - r.base) / r.stride < r.count)
    && decide (r.subLo ≤ sub) && decide (sub ≤ r.subHi)

/-- The row of an entry, when some chapter lists it (R477). -/
def entryAt (index sub : Nat) : Option EntryRow := (entriesOf index).find? fun r => r.covers index sub

/-- Bytes of a value of a type (R478). -/
def OdType.size : OdType → Nat
  | .u8 | .bool => 1
  | .u16 => 2
  | .u32 | .i32 => 4
  | .u64 | .time64 => 8
  | .str n | .blob n => n

def OdType.isBytes : OdType → Bool
  | .str _ | .blob _ => true
  | _ => false

/-- FW_PUBLIC_KEY: the public part of the firmware key of the module page, uncompressed (R357, R613, R620). -/
@[irreducible] def firmwarePublicKey : Bytes := p384.encode (p384.mul (Config.firmwareKey % p384.n) p384.base)

/-- A threshold table with its reserved bytes as zero (R439): byte 15 of every entry, and bytes 1 to 14 of SLC ones. -/
def thresholdImage (b : Bytes) : Bytes :=
  (b.zipIdx).map fun (x : Byte × Nat) =>
    if x.2 % 16 = 15 ∨ (2048 ≤ x.2 ∧ x.2 % 16 ≠ 0) then 0 else x.1

/-- A BLOB or STR entry's manufacturing value: ORDER_CODE is one of the two of R2, and reserved bytes are zero (R11). -/
def manufacturedBytes (index sub : Nat) : Bytes :=
  if index = 0xE304 then firmwarePublicKey
  else if index = 0xF002 then ascii (if Config.extendedTemp then "HK64-E3L2-QX" else "HK64-E3L2-QA")
  else if index = 0xA000 ∧ sub = 0x10 then thresholdImage (Config.manufacturingBytes index sub)
  else Config.manufacturingBytes index sub

/-- The value of an entry at manufacture (R480). -/
def EntryRow.default (r : EntryRow) (index sub : Nat) : OdVal :=
  match r.dflt with
  | .nums l => .num (l.getD (sub - r.subLo) (l.getLastD 0))
  | .blob b => .bytes b
  | .mfg => if r.type.isBytes then .bytes (manufacturedBytes index sub) else .num (Config.manufacturing index sub)

/-- A number lies in the range its table gives. -/
def Rng.ok : Rng → Nat → Bool
  | .any, _ => true
  | .between lo hi, n => decide (lo ≤ n ∧ n ≤ hi)
  | .zeroOr lo hi, n => decide (n = 0 ∨ (lo ≤ n ∧ n ≤ hi))
  | .steps lo hi st, n => decide (lo ≤ n ∧ n ≤ hi ∧ n % st = 0)
  | .oneOf l, n => decide (n ∈ l)
  | .divisorOf m, n => decide (0 < n ∧ m % n = 0)
  | .dieBlock, n => decide (n < 2 ^ 22 ∧ bits n 10 10 = 0 ∧ bits n 14 11 ≤ 9)
  | .traceEntry, n => decide (n < 2 ^ 24 ∨ n = 0xFFFFFFFF)

/-- STR contents (R478): printable ASCII, then zeros. -/
def strOk (b : Bytes) : Bool :=
  let body := b.takeWhile (· ≠ 0)
  body.all (fun c => decide (0x20 ≤ c.toNat ∧ c.toNat ≤ 0x7E)) && (b.drop body.length).all (· == 0)

/-- The encoding of R478 holds and a number is in the table's range. -/
def EntryRow.rangeOk (r : EntryRow) (v : OdVal) : Bool :=
  match r.type, v with
  | .bool, .num n => decide (n ≤ 1)
  | .str _, .bytes b => strOk b
  | .blob _, .bytes _ => true
  | _, .num n => r.range.ok n
  | _, _ => false

/-- The length of a write fits the type (R478, step 4 of R493). -/
def EntryRow.lengthOk (r : EntryRow) (v : OdVal) : Bool :=
  match v with
  | .num n => !r.type.isBytes && decide (n < 256 ^ r.type.size)
  | .bytes b => r.type.isBytes && decide (1 ≤ b.length ∧ b.length ≤ r.type.size)

/-- A value as a requester's bytes spell it for a type; none when the length does not fit. -/
def OdType.read (t : OdType) (b : Bytes) : Option OdVal :=
  if t.isBytes then (if 1 ≤ b.length ∧ b.length ≤ t.size then some (.bytes b) else none)
  else if b.length = t.size then some (.num (beNat b)) else none

/-- The bytes of a value in its entry, the full entry size for numbers, and for bytes as far as they are not zero. -/
def OdType.write (t : OdType) : OdVal → Bytes
  | .num n => natBytes t.size n
  | .bytes b => b

end Sys2Proof.Machine
end

