-- ==== Sys2Proof/Machine/Ops.lean ====
section
/-!
DEFINITION. The named operations over the state that every family shares: the dictionary store, counters, events,
ports, sessions, tasks, keys, random draws and the time bases. No family changes the dictionary store, the event
queue or the log of what leaves the module in another way.
-/
namespace Sys2Proof

/-- A unit id (R576). -/
def unitId (subsystem number : Nat) : Nat := subsystem * 4096 + number

/-- The unit id of a subsystem as a whole. -/
def wholeUnit (subsystem : Nat) : Nat := subsystem * 4096 + 0xFFF

/-- A value in the form the store keeps: bytes without the zeros at their end (R478). -/
def OdVal.canon : OdVal → OdVal
  | .num n => .num n
  | .bytes b => .bytes (trimZeros b)

def Port.num : Port → Nat
  | .a => 0
  | .b => 1

/-- First index of the port's block (R482). -/
def Port.base : Port → Nat
  | .a => 0x1100
  | .b => 0x1200

def Port.unit (p : Port) : Nat := unitId 1 p.num

def Warden.num : Warden → Nat
  | .a => 0
  | .b => 1

def Warden.other : Warden → Warden
  | .a => .b
  | .b => .a

def Warden.unit (w : Warden) : Nat := unitId 0xB w.num

/-- A unit's number as a unit id word. -/
def UnitId.word (u : UnitId) : Nat := unitId u.subsystem u.number

end Sys2Proof

namespace Sys2Proof.Machine

/-! ## The dictionary store: a list of (key, value) in one canonical form -/

/-- The store's key of an entry (R477, R607). -/
def odKey (index sub : Nat) : Nat := index * 256 + sub

/-- The value a store lists for a key. -/
def odGet (l : List (Nat × OdVal)) (k : Nat) : Option OdVal :=
  match l with
  | [] => none
  | (j, v) :: t => if j = k then some v else odGet t k

/-- The store with the key's value replaced or inserted; keys stay rising. -/
def odInsert (l : List (Nat × OdVal)) (k : Nat) (v : OdVal) : List (Nat × OdVal) :=
  match l with
  | [] => [(k, v)]
  | (j, w) :: t => if k < j then (k, v) :: (j, w) :: t else if k = j then (k, v) :: t else (j, w) :: odInsert t k v

/-- The store without the key. -/
def odErase (l : List (Nat × OdVal)) (k : Nat) : List (Nat × OdVal) :=
  match l with
  | [] => []
  | (j, w) :: t => if j = k then t else (j, w) :: odErase t k

/-- The default of an entry (R480); a number 0 where no chapter lists the entry. -/
def odDefault (index sub : Nat) : OdVal :=
  match entryAt index sub with
  | some r => r.default index sub
  | none => .num 0

/-- The stored value of an entry. -/
def State.stored (s : State) (index sub : Nat) : OdVal :=
  (odGet s.od (odKey index sub)).getD (odDefault index sub)

/-- The stored number of an entry. -/
def State.num (s : State) (index sub : Nat) : Nat :=
  match s.stored index sub with
  | .num n => n
  | .bytes _ => 0

/-- The stored bytes of an entry. -/
def State.blob (s : State) (index sub : Nat) : Bytes :=
  match s.stored index sub with
  | .num _ => []
  | .bytes b => b

/-- The stored truth value of a BOOL entry. -/
def State.flag (s : State) (index sub : Nat) : Bool := s.num index sub != 0

/-- Store an entry's value. -/
def State.put (s : State) (index sub : Nat) (v : OdVal) : State :=
  { s with od := odInsert s.od (odKey index sub) v.canon }

def State.putNum (s : State) (index sub n : Nat) : State := s.put index sub (.num n)

def State.putBytes (s : State) (index sub : Nat) (b : Bytes) : State := s.put index sub (.bytes b)

/-- A counter up by `n`, saturating at the top of its type (R145, R225, R260, R282, R454, R519). -/
def State.bump (s : State) (index sub n : Nat) : State :=
  let w := match entryAt index sub with
    | some r => 8 * r.type.size
    | none => 64
  s.putNum index sub (satAddW w (s.num index sub) n)

/-! ## Events for the trace unit (R600) -/

/-- Cause of the trigger that an entry meets, 0 when it meets none (R601). -/
def Trace.triggerOf (t : Trace) (kind data : Nat) : Nat :=
  match kind with
  | 9 => if bit t.enable 0 ∧ t.threshold < data then 1 else 0
  | 8 => if bit t.enable 1 ∧ data / 2 ^ 24 % 256 = t.status then 2 else 0
  | 0xA => if bit t.enable 2 ∧ (t.entry = 0xFFFFFFFF ∨ data / 256 % 2 ^ 24 = t.entry) then 3 else 0
  | _ => 0

/-- The unit records an entry of the kind, or looks at it as a trigger. -/
def Trace.wants (t : Trace) (kind data : Nat) : Bool :=
  (bit t.mask kind && (t.state == 1 || t.state == 2)) || (t.triggerOf kind data != 0 && t.state != 0)

/-- An event: where the unit wants it, its entry is due (TRACE_ENTRY). -/
def Trace.see (t : Trace) (kind source : Nat) (task : Option Nat) (data : Nat) : Trace :=
  let e := (kind, source % 2 ^ 16, task.map (· % 2 ^ 32), data % 2 ^ 32)
  { t with due := if t.wants kind e.2.2.2 then t.due ++ [e] else t.due }

/-- An event of a kind of R600, as the trace unit sees it. -/
def State.traced (s : State) (kind source : Nat) (task : Option Nat) (data : Nat) : State :=
  { s with msv.trace := s.msv.trace.see kind source task data }

/-! ## Time -/

/-- Device time in µs (R556). -/
def State.now (s : State) : Nat := s.pch.devTime

/-- Device time in ns. -/
def State.nowNs (s : State) : Nat := s.pch.devTime * 1000

/-- Wall time in ns (R534). -/
def State.wall (s : State) : Int := s.pch.devTime * 1000 + s.pch.wallOffset

/-- A deadline has come. -/
def State.due (s : State) (t : Nat) : Bool := decide (t ≤ s.pch.devTime)

/-! ## Lanes (R263) -/

def portLane (p : Port) : Nat := p.num
def wteLane (sess : Nat) : Nat := 0x02 + sess % 4
def cqcLane : Nat := 0x06
def asuLane (n : Nat) : Nat := 0x07 + n % 4
def engineLane (n : Nat) : Nat := 0x0B + n
def pipeLane (n : Nat) : Nat := 0x13 + n
def bufferLane (n : Nat) : Nat := 0x23 + n % 4
def plcLane (id : Nat) : Nat := 0x27 + id % 2
def jsrLane : Nat := 0x29
def pchLane : Nat := 0x2A
def msvLane : Nat := 0x2B
def tileLane (t : Nat) : Nat := 0x40 + t

/-- Bytes of a full data shard (R371). -/
def shardBytes : Nat := 65536

/-- The place of what CPX passes through a pipeline itself: it has no lane (R263). -/
def vaultLane : Nat := 0x80

/-- The task of a transfer that belongs to no command. -/
def noTask : Nat := 0xFFFFFFFF

/-- A transfer for the Turnpike (R262): at most one queue entry, of whole units. `back` is the stripe and shard that a read
brings, for the reissue of R31. -/
def State.transfer (s : State) (src dst : Nat) (c : Cls) (lead : Bool) (task bytes : Nat)
    (back : Option (Nat × Nat) := none) : State :=
  { s with tpk.queue := s.tpk.queue ++ [{ src := src, dst := dst, cls := c, lead := lead, task := task,
                                          units := max 1 (ceilDiv bytes 64), begun := false, back := back }] }

/-- The lane at which control messages reach a unit of a subsystem (R33); none for the Turnpike itself. -/
def controlLane (unit : Nat) : Option Nat :=
  let n := unit % 4096
  match unit / 4096 with
  | 1 => some (n % 2)
  | 2 => some (wteLane n)
  | 3 => some cqcLane
  | 5 => some (asuLane n)
  | 6 => some (engineLane (n % 8))
  | 7 => some (pipeLane (n % 16))
  | 8 => some (bufferLane n)
  | 9 => some (plcLane n)
  | 0xA => some (tileLane (n % 2048 / 32))
  | 0xB => some (0x2C + n % 2)
  | 0xC => some jsrLane
  | 0xD => some pchLane
  | 0xE => some msvLane
  | _ => none

/-- The control message from one unit to another (R33): one unit of Background/3, where the two lie in different subsystems.
DESIGN CHOICE (log 126): the class. -/
def controlMessage (src dst : Nat) : List Transfer :=
  if src / 4096 = dst / 4096 then []
  else match controlLane src, controlLane dst with
    | some a, some b => [{ src := a, dst := b, cls := 3, lead := false, task := noTask, units := 1, begun := false, back := none }]
    | _, _ => []

/-- The unit that an entry belongs to, as the one that a written value is handed to (R482). -/
def entryUnit (index : Nat) : Nat :=
  if index / 4096 = 0xA then unitId 0xA (index % 64 * 32) else unitId (index / 4096) (index / 256 % 16 + 1)

/-- A control message goes from one unit to another. -/
def State.control (s : State) (src dst : Nat) : State := { s with tpk.queue := s.tpk.queue ++ controlMessage src dst }

/-! ## Events (R578, R580, R582, R587) -/

/-- A unit raises an event: it goes to JSR as a control message (R33), and JSR stamps it and queues it, or counts it as
dropped when the queue holds 1,024; while JSR is unpowered the AON domain keeps up to 64. -/
def State.raise (s : State) (code unit p1 p2 p3 : Nat) : State :=
  let e : Event := { code := code, unit := unit, p1 := p1 % 2 ^ 32, p2 := p2 % 2 ^ 32, p3 := p3 % 2 ^ 32,
                     time := s.pch.devTime }
  if s.jsr.powered then
    let s := s.control unit (wholeUnit 0xC)
    if s.jsr.queue.length < 1024 then { s with jsr.queue := s.jsr.queue ++ [e] }.bump 0xC008 0x01 1
    else { s with jsr.dropped := s.jsr.dropped + 1 }.bump 0xC008 0x05 1
  else if s.jsr.aon.length < 64 then { s with jsr.aon := s.jsr.aon ++ [e] }
  else { s with jsr.aonDropped := s.jsr.aonDropped + 1 }.bump 0xC008 0x05 1

/-- Append to the log of what leaves the module. -/
def State.emit (s : State) (o : Out) : State := { s with out := s.out ++ [o] }

/-! ## Ports -/

def State.port (s : State) (p : Port) : PortS :=
  match p with
  | .a => s.dpx.portA
  | .b => s.dpx.portB

def State.setPort (s : State) (p : Port) (x : PortS) : State :=
  match p with
  | .a => { s with dpx.portA := x }
  | .b => { s with dpx.portB := x }

def State.mapPort (s : State) (p : Port) (f : PortS → PortS) : State := s.setPort p (f (s.port p))

/-- An entry 1x.. of the port. -/
def State.pnum (s : State) (p : Port) (off sub : Nat) : Nat := s.num (p.base + off) sub

def State.pblob (s : State) (p : Port) (off sub : Nat) : Bytes := s.blob (p.base + off) sub

def State.pflag (s : State) (p : Port) (off sub : Nat) : Bool := s.pnum p off sub != 0

/-- A PORT_COUNTERS counter up by `n` (R260). -/
def State.pbump (s : State) (p : Port) (ctr n : Nat) : State := s.bump (p.base + 0x22) ctr n

/-- The link is up. -/
def PortS.up (x : PortS) : Bool := decide (2 ≤ x.linkState)

/-- MAC rate in Gb/s of a LINK_STATE (R226, R260). -/
def rateOf (linkState : Nat) : Nat :=
  match linkState with
  | 2 => 400
  | 3 => 200
  | 4 => 100
  | _ => 0

/-- LINK_STATE of the highest mode in a LINK_ABILITIES value; 0 when none is set. -/
def bestMode (abilities : Nat) : Nat :=
  if bit abilities 0 then 2 else if bit abilities 1 then 3 else if bit abilities 2 then 4 else 0

/-- The rate that R246 uses: the current one, or the highest in LINK_ABILITIES while the link is down. DESIGN CHOICE
(log 109): with LINK_ABILITIES 0 no mode gives a rate, and it is 0. -/
def State.portRate (s : State) (p : Port) : Nat :=
  if (s.port p).up then rateOf (s.port p).linkState else rateOf (bestMode (s.pnum p 0x00 0))

/-! ## Sessions -/

def State.session? (s : State) (id : Nat) : Option Session := s.wte.sessions.find? fun x => x.id == id

def State.mapSession (s : State) (id : Nat) (f : Session → Session) : State :=
  { s with wte.sessions := s.wte.sessions.map fun x => if x.id = id then f x else x }

def State.dropSession (s : State) (id : Nat) : State :=
  { s with wte.sessions := s.wte.sessions.filter fun x => x.id != id }

/-- The session is half-open. -/
def Session.half (x : Session) : Bool :=
  match x.phase with
  | .halfOpen _ => true
  | _ => false

/-! ## Tasks -/

def State.trs? (s : State) (idx : Nat) : Option Trs := s.cqc.trs.find? fun t => t.idx == idx

def State.mapTrs (s : State) (idx : Nat) (f : Trs → Trs) : State :=
  { s with cqc.trs := s.cqc.trs.map fun t => if t.idx = idx then f t else t }

/-- The task number of a TRS: generation and index (R197). -/
def Trs.task (t : Trs) : Nat := t.gen * 65536 + t.idx

/-! ## Keys -/

def State.key? (s : State) (tenant : Nat) (key : Bytes) : Option KeyRec :=
  s.asu.keys.find? fun k => k.tenant == tenant && k.key == key

/-- The entry of a key that is stored: no tombstone (R296). -/
def State.live? (s : State) (tenant : Nat) (key : Bytes) : Option KeyRec :=
  (s.key? tenant key).filter fun k => !k.tombstone

/-- Byte-string order of keys, tenant first (R38). -/
def keyLt : Bytes → Bytes → Bool
  | [], [] => false
  | [], _ :: _ => true
  | _ :: _, [] => false
  | a :: s, b :: t => if a < b then true else if a = b then keyLt s t else false

/-- A record of the key comes before another in the index. -/
def KeyRec.before (a b : KeyRec) : Bool :=
  decide (a.tenant < b.tenant) || (a.tenant == b.tenant && keyLt a.key b.key)

/-- The index with a record put in its place, replacing that of the same key. -/
def insertKey (r : KeyRec) : List KeyRec → List KeyRec
  | [] => [r]
  | k :: t => if k.tenant = r.tenant ∧ k.key = r.key then r :: t
              else if r.before k then r :: k :: t else k :: insertKey r t

def State.putKey (s : State) (r : KeyRec) : State := { s with asu.keys := insertKey r s.asu.keys }

def State.mapKey (s : State) (tenant : Nat) (key : Bytes) (f : KeyRec → KeyRec) : State :=
  { s with asu.keys := s.asu.keys.map fun k => if k.tenant = tenant ∧ k.key = key then f k else k }

/-- Length of a key's value. -/
def KeyRec.length (k : KeyRec) : Nat := k.value.length

/-! ## Tiles -/

def State.tile (s : State) (t : Nat) : Tile := s.mta.tiles.getD t .reset

def State.mapTile (s : State) (t : Nat) (f : Tile → Tile) : State :=
  { s with mta.tiles := s.mta.tiles.modify t f }

/-! ## Wardens -/

def State.warden (s : State) (w : Warden) : WardenS :=
  match w with
  | .a => s.wdn.wardenA
  | .b => s.wdn.wardenB

def State.mapWarden (s : State) (w : Warden) (f : WardenS → WardenS) : State :=
  match w with
  | .a => { s with wdn.wardenA := f s.wdn.wardenA }
  | .b => { s with wdn.wardenB := f s.wdn.wardenB }

/-! ## Random draws (R353, R354) -/

/-- The next `bits`-bit draw of the random source and the state after it; the DRBG counts the request. -/
def State.takeDraw (s : State) (bits : Nat) : Nat × State :=
  (Config.draw s.cpx.draws % 2 ^ bits, { s with cpx.draws := s.cpx.draws + 1, cpx.requests := s.cpx.requests + 1 })

/-- A value the spec leaves open at point `n`, a fresh one each time. -/
def State.takeFree (s : State) (n : Nat) : Nat × State :=
  (Config.freeValue n s.cpx.draws, { s with cpx.draws := s.cpx.draws + 1 })

/-! ## Unit health (R588) -/

/-- The units of UNIT_HEALTH in its order. -/
def healthUnits : List UnitId :=
  [⟨1, 0⟩, ⟨1, 1⟩] ++ (List.range 32).map (fun n => ⟨5, n⟩) ++ [⟨5, 0x20⟩] ++ (List.range 8).map (fun n => ⟨6, n⟩)
    ++ (List.range 16).map (fun n => ⟨7, n⟩) ++ (List.range 64).map (fun t => ⟨0xA, t * 32 + 15⟩) ++ [⟨0xB, 0⟩, ⟨0xB, 1⟩]

def Health.fresh (u : UnitId) : Health := { unit := u, state := 0, last := 0, total := 0, recent := [] }

def State.health (s : State) (u : UnitId) : Health := (s.msv.health.find? fun h => h.unit == u).getD (.fresh u)

def State.mapHealth (s : State) (u : UnitId) (f : Health → Health) : State :=
  { s with msv.health := f (s.health u) :: s.msv.health.filter fun h => h.unit != u }

end Sys2Proof.Machine
end

