-- ==== Sys2Proof/Machine/Flags.lean ====
section
/-!
DEFINITION. The codes and flags of the spec by name: status codes, BAD_REQUEST sub-codes, header flags, and the bits
of HEALTH_SUMMARY with the ALERT_N contact.
-/
namespace Sys2Proof.Machine

/-! ## Status codes (R16) -/

def stOk               : Nat := 0x00
def stNotFound         : Nat := 0x01
def stExists           : Nat := 0x02
def stVersionMismatch  : Nat := 0x03
def stLocked           : Nat := 0x04
def stQuota            : Nat := 0x05
def stReadOnly         : Nat := 0x06
def stRetryLater       : Nat := 0x07
def stAborted          : Nat := 0x08
def stTooLarge         : Nat := 0x09
def stBadRequest       : Nat := 0x0A
def stAuthFailed       : Nat := 0x0B
def stAccessLocked     : Nat := 0x0C
def stConflict         : Nat := 0x0D
def stMediaError       : Nat := 0x0E
def stSanitizing       : Nat := 0x0F
def stUnsupported      : Nat := 0x10
def stRange            : Nat := 0x11
def stSelfTestRefused  : Nat := 0x12
def stNoSession        : Nat := 0x13

/-- No status: the write waits, and is answered in a later tick (R314). -/
def stParked           : Nat := 0x100

/-! ## BAD_REQUEST sub-codes (R155) -/

def subReserved     : Nat := 0x0001
def subLeadBlock    : Nat := 0x0002
def subMismatch     : Nat := 0x0003
def subDataLength   : Nat := 0x0004
def subKeyLength    : Nat := 0x0005
def subTenant       : Nat := 0x0006
def subFlags        : Nat := 0x0007
def subEnum         : Nat := 0x0008
def subContext      : Nat := 0x0009
def subReuse        : Nat := 0x000A
def subCursor       : Nat := 0x000B
def subImage        : Nat := 0x000C
def subBatchEmpty   : Nat := 0x000D
def subBatchDup     : Nat := 0x000E
def subBatchLayout  : Nat := 0x000F
def subEntryLength  : Nat := 0x0010
def subSession      : Nat := 0x0011
def subPkFormat     : Nat := 0x0020
def subPkCoordinate : Nat := 0x0021
def subPkCurve      : Nat := 0x0022
def subPkInfinity   : Nat := 0x0023
def subPkZero       : Nat := 0x0024
def subPkRange      : Nat := 0x0025

/-- The detail that names no single field (R642, R508). -/
def noField : Nat := 0xFFFFFFFFFFFFFFFF

/-! ## Header flags (R96) -/

def flRsp         : Nat := 0x8000
def flEnc         : Nat := 0x4000
def flAckOnly     : Nat := 0x2000
def flAckReq      : Nat := 0x1000
def flOrdered     : Nat := 0x0800
def flVoid        : Nat := 0x0400
def flCut         : Nat := 0x0200
def flReplayed    : Nat := 0x0100
def flDegraded    : Nat := 0x0080
def flDurable     : Nat := 0x0040
def flContinues   : Nat := 0x0020
def flOverQuota   : Nat := 0x0010
def flTimeStepped : Nat := 0x0008

/-- A flag when the condition holds. -/
def flagIf (c : Bool) (f : Nat) : Nat := if c then f else 0

/-! ## Health (R495, R496) -/

/-- Tiles that hold data in the placement sense: in service, not isolated (R409). -/
def Tile.down (t : Tile) : Bool := t.isolated || t.state == 3

/-- RESERVE_TILES (R416): whole tiles' worth of raw QLC capacity that the reserve holds. -/
def Plc.reserveTiles (p : Plc) : Nat := p.reserve / 4780000000000

/-- A unit of the kind is retired. -/
def State.retired (s : State) (subsystem : Nat) (lo hi : Nat) : Bool :=
  s.msv.health.any fun h => h.unit.subsystem == subsystem && decide (lo ≤ h.unit.number ∧ h.unit.number ≤ hi)
    && h.state == 4

/-- A SANITIZE is in progress (R182): admitted, or in its phases. -/
def State.sanitizing (s : State) : Bool :=
  s.plc.sanitizeTask.isSome || (match s.plc.longOp with
    | some o => decide (2 ≤ o.op ∧ o.op ≤ 4)
    | none => false)

/-- THROTTLE_LEVEL in force (4004). -/
def State.throttle (s : State) : Nat := s.tpk.throttle

/-- The latest test of the bank failed: it forces write-through until one passes (R495, R564). -/
def State.testFailed (s : State) : Bool := s.pch.tested && !s.pch.testPassed

/-- HEALTH_SUMMARY: each bit while its condition holds. -/
def State.healthSummary (s : State) : Nat :=
  let eligible := (if s.wdn.wardenA.eligible then 1 else 0) + (if s.wdn.wardenB.eligible then 1 else 0)
  bitOf (s.plc.charcoal != 0) 0
  + bitOf s.testFailed 1
  + bitOf (decide (eligible < 2)) 2
  + bitOf (decide (s.pch.power ≠ .startUp) && s.wdn.holder.isNone) 3
  + bitOf (s.mta.tiles.any (·.down) || s.plc.rebuild.state != 0) 4
  + bitOf (decide (s.plc.reserveTiles < 3) || s.plc.rebuild.state == 2) 5
  + bitOf (!s.plc.lostLog.isEmpty || s.num 0x9020 1 != 0) 6
  + bitOf (decide (0 < s.throttle)) 7
  + bitOf s.sanitizing 8
  + bitOf (s.retired 5 0 31 || s.retired 7 0 15 || s.retired 6 0 7 || s.retired 1 0 1) 9
  + bitOf ((s.pnum .a 0x00 0 != 0 && !s.dpx.portA.up) || (s.pnum .b 0x00 0 != 0 && !s.dpx.portB.up)) 10
  + bitOf s.msv.fallback 11
  + bitOf s.jsr.fatal 12
  + bitOf (s.mta.tiles.any fun t => decide (t.spares < 49) || t.closed) 13
  + bitOf (s.pch.outOfService || s.pch.noImage) 14

/-- HEALTH_SUMMARY AND ALERT_MASK, whose bit 14 reads 1. -/
def State.maskedSummary (s : State) : Nat := s.healthSummary &&& (s.num 0xF012 0 ||| 0x4000)

/-- The ALERT_N contact is asserted. -/
def State.alertN (s : State) : Bool := s.maskedSummary != 0

end Sys2Proof.Machine
end

