-- ==== Sys2Proof/Machine/Operands.lean ====
section
/-!
DEFINITION. The operand forms: the write of one dictionary entry as every requester makes it (R493 steps 2 to 10,
with R479, R484, R485, R491 and R492), and the checks on the frames and words that a command brings in.
-/
namespace Sys2Proof.Machine

/-! ## Requesters -/

/-- The coding of a requester in F030:00 (R499). -/
def reqCode : Requester → Nat
  | .service => 0
  | .segment => 1
  | .session _ => 2

/-- The requester may read the entry (R483). -/
def mayRead (r : Requester) (index : Nat) : Bool :=
  match r with
  | .service | .segment | .session 0 => true
  | .session t => index == 0x3400 + t || decide (0xF000 ≤ index ∧ index ≤ 0xF009)

/-- A key page's three key entries (R357). -/
def isKeyEntry (index sub : Nat) : Bool :=
  decide (0x7400 ≤ index ∧ index ≤ 0x77FF ∧ 1 ≤ sub ∧ sub ≤ 3)

/-- Firmware staging entries (R483, R616, R620). -/
def isStaging (index : Nat) : Bool := decide (0xE300 ≤ index ∧ index ≤ 0xE3FF)

/-- The requester may write the entry (R483), with the narrowings of R243, R359, R362 and R497. -/
def mayWrite (r : Requester) (index sub : Nat) (v : OdVal) : Bool :=
  match r with
  | .service => true
  | .segment => !isKeyEntry index sub && !isStaging index && index != 0x7002
      && !(index == 0xF020 && v == .num 0)
  | .session 0 => !isStaging index && index != 0x7002 && index != 0x111D && index != 0x121D
      && !(index == 0xF020 && v == .num 0)
  | .session _ => false

/-- The DICT_WRITE event of a write (R600). A write that sets TRACE_CONTROL comes before what it arms. -/
def State.tracedWrite (s : State) (r : Requester) (index sub status : Nat) : State :=
  let data := index % 2 ^ 16 * 2 ^ 16 + sub % 256 * 256 + status % 256
  { s with msv.trace := if index = 0xE200 ∧ status = stOk then s.msv.trace else s.msv.trace.see 0xA (reqCode r) none data }

/-- LAST_WRITE (R491, R499), and the event that the trace unit sees. -/
def State.lastWrite (s : State) (r : Requester) (index sub status : Nat) : State :=
  (s.tracedWrite r index sub status).putBytes 0xF030 0 (natBytes 8 s.now ++ natBytes 2 index ++ natBytes 1 sub
    ++ natBytes 1 (reqCode r) ++ natBytes 1 status)

/-- A write refused at step 6 or later of R493. -/
def State.refuseWrite (s : State) (r : Requester) (index sub status : Nat) : State :=
  s.lastWrite r index sub status

/-- A write refused with ACCESS_LOCKED: counted and recorded (R492). -/
def State.lockedWrite (s : State) (r : Requester) (index sub : Nat) : State :=
  ((s.bump 0xE010 0x0E 1).raise 0xE401 (wholeUnit 0xE) (odKey index sub) (reqCode r) 0).lastWrite r index sub
    stAccessLocked

/-- A W1 entry has been written (R479, R492). -/
def State.isWritten1 (s : State) (index sub : Nat) : Bool := s.msv.written1.contains (odKey index sub)

/-- A key page entry that R359 holds: the page is LOADED, or the written key is present. -/
def State.keyHeld (s : State) (index sub : Nat) : Bool :=
  isKeyEntry index sub && (match s.cpx.pages.find? fun p => p.page == index - 0x7400 with
    | some p => p.state == 2 || (match sub with
      | 1 => p.xts1.isSome
      | 2 => p.xts2.isSome
      | _ => p.access.isSome)
    | none => false)

/-- An entry served from the AON domain in every state with aux power (R511, R573). -/
def aonServed (index : Nat) : Bool :=
  decide (0xF000 ≤ index ∧ index ≤ 0xF0FF) || decide (0xD000 ≤ index ∧ index ≤ 0xD0FF)

/-- The entry is served in the current module state (R511, step 5 of R493). Doze wakes the module and serves it. -/
def State.serves (s : State) (index : Nat) : Bool :=
  aonServed index || (match s.pch.power with
    | .hold => false
    | .startUp => decide (5 ≤ s.pch.step)
    | .off => false
    | _ => true)

/-- The firmware entries are served by the boot ROM over the service port from the end of step 2 of start-up, also when
start-up stops there (R611). -/
def State.servesFor (s : State) (r : Requester) (index : Nat) : Bool :=
  s.serves index || (r == .service && isStaging index && s.pch.power == .startUp && (decide (3 ≤ s.pch.step) || s.pch.noImage))

/-- Dictionary writes wait for a Warden that holds the lease, while the core works (R466). -/
def State.writesHeld (s : State) : Bool :=
  s.wdn.holder.isNone && (s.pch.power == .active || s.pch.power == .ready || s.pch.power == .readyWt)

/-- Steps 2 to 5 of R493 for a write: the status that refuses it, 0 when all hold. A warm reset is not taken in Hold,
in a flush or before step 5 of start-up (R571). -/
def writeGate (s : State) (r : Requester) (index sub : Nat) (v : OdVal) : Nat :=
  match entryAt index sub with
  | none => stNotFound
  | some e =>
    if !mayRead r index then stNotFound
    else if e.access = .ro ∨ !mayWrite r index sub v then stAuthFailed
    else if !e.lengthOk v then stBadRequest
    else if !s.servesFor r index ∨ (index = 0xD010 ∧ !s.serves 0x1000) then stRetryLater
    else stOk

/-- Step 7 of R493: the status of a locked write, 0 when no lock holds. -/
def writeLock (s : State) (index sub : Nat) : Nat :=
  if index = 0x7400 ∧ (sub = 1 ∨ sub = 2) then stRange
  else match entryAt index sub with
    | some e =>
      if (e.access = .w1 ∧ s.isWritten1 index sub) ∨ (e.access = .rwl ∧ s.flag 0xF020 0) ∨ s.keyHeld index sub
      then stAccessLocked else stOk
    | none => stOk

/-- What a write does once it has passed steps 2 to 8: the state after it and its status. -/
abbrev WriteEffect := Requester → Nat → Nat → OdVal → State → State × Nat

/-- Steps 7 to 10 of R493 with the effect of the entry, LAST_WRITE and the counters of R491 and R492. -/
def applyWrite (effect : WriteEffect) (r : Requester) (index sub : Nat) (v : OdVal) (s : State) : State × Nat :=
  let lock := writeLock s index sub
  if lock = stAccessLocked then (s.lockedWrite r index sub, lock)
  else if lock ≠ stOk then (s.refuseWrite r index sub lock, lock)
  else match entryAt index sub with
    | none => (s, stNotFound)
    | some e =>
      if !e.rangeOk v then (s.refuseWrite r index sub stRange, stRange)
      else
        let (s', st) := effect r index sub v s
        if st = stOk then
          let s' := s'.control (wholeUnit 0xE) (entryUnit index)
          let s' := if e.access = .w1 then { s' with msv.written1 := odKey index sub :: s'.msv.written1 } else s'
          ((s'.bump 0xE010 0x0F 1).lastWrite r index sub stOk, stOk)
        else if st = stAccessLocked then (s.lockedWrite r index sub, st)
        else if st = stParked then (s', st)
        else (s'.refuseWrite r index sub st, st)

/-- A write that must wait for a place keeps its place in the line of its entry (R314). -/
def State.park (s : State) (w : DictWrite) : State := { s with asu.waiting := s.asu.waiting ++ [w] }

/-- The write of one entry as a command of its own: steps 2 to 10 of R493, and the status and sub-code of its answer, none while
it waits. It is held over a Warden gap, and waits behind the writes held there (R467). -/
def State.takeWrite (s : State) (effect : WriteEffect) (r : Requester) (index sub : Nat) (v : OdVal) :
    State × Option (Nat × Nat) :=
  let g := writeGate s r index sub v
  let w : DictWrite := { req := r, index := index, sub := sub, val := v, at_ := s.now, task := none, frame := none }
  if g ≠ stOk then (s, some (g, if g = stBadRequest then subEntryLength else 0))
  else if s.writesHeld then ({ s with msv.held := s.msv.held ++ [w] }, none)
  else if !s.msv.held.isEmpty then ({ s with msv.serial := s.msv.serial ++ [w] }, none)
  else
    let (s', st) := applyWrite effect r index sub v s
    if st = stParked then (s'.park w, none) else (s', some (st, if st = stBadRequest then subEnum else 0))

/-- The write of one entry as a command of its own, answered in its tick. -/
def State.ownWrite (s : State) (effect : WriteEffect) (r : Requester) (index sub : Nat) (v : OdVal) : State :=
  match s.takeWrite effect r index sub v with
  | (s', some a) => s'.emit (.dictAnswer r index sub a.1 a.2 s.now)
  | (s', none) => s'

end Sys2Proof.Machine
end

