-- ==== Sys2Proof/Machine/Crc.lean ====
section
/-!
DEFINITION. CRC-32C, the check that pages, journal records, images, windows and statements carry (R297, R321, R384,
R392). The spec names it and gives no polynomial: the Castagnoli polynomial 0x1EDC6F41 reflected, initial value and
final exclusive or of all ones (PRESUMED).
-/
namespace Sys2Proof.Machine

/-- One bit of the reflected CRC register. -/
def crcBit (c : Nat) : Nat := if c % 2 = 1 then (c / 2) ^^^ 0x82F63B78 else c / 2

/-- One byte of the CRC register. -/
def crcByte (c : Nat) (b : Byte) : Nat :=
  crcBit (crcBit (crcBit (crcBit (crcBit (crcBit (crcBit (crcBit (c ^^^ b.toNat))))))))

/-- CRC-32C of a string of bytes. -/
def crc32c (b : Bytes) : Nat := (b.foldl crcByte 0xFFFFFFFF) ^^^ 0xFFFFFFFF

/-- CRC-32C with the four bytes at an offset taken as zero. -/
def crcWithZero (b : Bytes) (off : Nat) : Nat := crc32c (b.take off ++ zeros 4 ++ b.drop (off + 4))

/-- A string with the CRC-32C of itself (that field zero) put at an offset. -/
def withCrc (b : Bytes) (off : Nat) : Bytes := b.take off ++ natBytes 4 (crcWithZero b off) ++ b.drop (off + 4)

end Sys2Proof.Machine
end

