-- ==== Sys2Proof/Machine/Pattern.lean ====
section
/-!
DEFINITION. Automaton images: their layout, the checks the module makes, and what a run accepts (R321 to R325).
-/
namespace Sys2Proof.Machine

/-! ## The header and the sections (R321, R322) -/

def imgStates (b : Bytes) : Nat := numAt b 8 2
def imgStart (b : Bytes) : Nat := numAt b 10 2
def imgClasses (b : Bytes) : Nat := numAt b 12 2
def imgPrefixLen (b : Bytes) : Nat := numAt b 14 2
def imgMin (b : Bytes) : Nat := numAt b 16 2
def imgMax (b : Bytes) : Nat := numAt b 18 2
def imgLength (b : Bytes) : Nat := numAt b 20 4
def imgCheck (b : Bytes) : Nat := numAt b 24 4

/-- The prefix bytes. -/
def imgPrefix (b : Bytes) : Bytes := slice b 64 (imgPrefixLen b)

/-- Offset A: the class map. -/
def imgMap (b : Bytes) : Nat := 64 + 8 * ceilDiv (imgPrefixLen b) 8

/-- Offset of the transition table. -/
def imgTable (b : Bytes) : Nat := imgMap b + 256

/-- Offset B: the accept bitmap. -/
def imgAccept (b : Bytes) : Nat := imgTable b + 8 * ceilDiv (2 * imgStates b * imgClasses b) 8

/-- The length that R322 gives. -/
def imgExpected (b : Bytes) : Nat := imgAccept b + 8 * ceilDiv (imgStates b) 64

/-- The class of a symbol. -/
def imgClass (b : Bytes) (x : Byte) : Nat := numAt b (imgMap b + x.toNat) 1

/-- The 16-bit entry of a state and a class. -/
def imgEntry (b : Bytes) (s c : Nat) : Nat := numAt b (imgTable b + 2 * (s * imgClasses b + c)) 2

/-- A state accepts. -/
def imgAccepts (b : Bytes) (s : Nat) : Bool := bit (numAt b (imgAccept b + s / 8) 1) (7 - s % 8)

/-! ## The checks (R324, R642) -/

/-- First offset of a list whose byte is not zero. -/
def firstNonzero (b : Bytes) (l : List Nat) : Option Nat := l.find? fun i => numAt b i 1 != 0

/-- Offsets `a` to `z - 1`. -/
def offsets (a z : Nat) : List Nat := (List.range (z - a)).map (a + ·)

/-- Of a 16-bit field outside `lo` to `hi`, the first byte that puts it outside. -/
def breaksAt (b : Bytes) (off lo hi : Nat) : Option Nat :=
  let v := numAt b off 2
  if lo ≤ v ∧ v ≤ hi then none
  else if v / 256 < lo / 256 ∨ hi / 256 < v / 256 then some off
  else some (off + 1)

/-- The first byte of a field that differs from what the format gives it. -/
def differsAt (b : Bytes) (off : Nat) (want : Bytes) : Option Nat :=
  (offsets 0 want.length).findSome? fun i => if b[off + i]? = want[i]? then none else some (off + i)

/-- The bounds of R321 on N, start state, C, P and the key lengths: offset of the first byte that breaks one. -/
def imgBounds (b : Bytes) : Option Nat :=
  breaksAt b 8 2 4096 <|> breaksAt b 10 0 (imgStates b - 1) <|> breaksAt b 12 1 256 <|> breaksAt b 14 0 512
    <|> breaksAt b 16 (max 1 (imgPrefixLen b)) 65535 <|> breaksAt b 18 (imgMin b) 512

/-- Padding and reserved bits behind the header: offset of the first that is not zero. -/
def imgPadding (b : Bytes) : Option Nat :=
  let n := imgStates b
  let entries := (offsets 0 (n * imgClasses b)).map fun i => imgTable b + 2 * i
  firstNonzero b (offsets (64 + imgPrefixLen b) (imgMap b))
    <|> (entries.find? fun o => decide (0x10 ≤ numAt b o 1))
    <|> firstNonzero b (offsets (imgTable b + 2 * n * imgClasses b) (imgAccept b))
    <|> ((offsets 0 (8 * ceilDiv n 64)).map (imgAccept b + ·)).find? fun o =>
          (List.range 8).any fun i => decide (n ≤ 8 * (o - imgAccept b) + i) && bit (numAt b o 1) (7 - i)

/-- Class map and next states: offset of the first byte outside the counts. The reserved bits of the entries are 0 here. -/
def imgTargets (b : Bytes) : Option Nat :=
  let n := imgStates b
  let c := imgClasses b
  ((offsets (imgMap b) (imgMap b + 256)).find? fun o => decide (c ≤ numAt b o 1))
    <|> ((offsets 0 (n * c)).map fun i => imgTable b + 2 * i).findSome? fun o => breaksAt b o 0 (n - 1)

/-- State 0 does not accept and leads only to itself. -/
def imgDead (b : Bytes) : Option Nat :=
  (((offsets 0 (imgClasses b)).map fun i => imgTable b + 2 * i).findSome? fun o => breaksAt b o 0 0)
    <|> (if imgAccepts b 0 then some (imgAccept b) else none)

/-- The offset in an image of the first byte that breaks a check, or of the length or check field (R642); none when every
check of R324 passes. -/
def imageFault (b : Bytes) : Option Nat :=
  if b.length < 64 then some 20
  else match differsAt b 0 (natBytes 4 0x474F5155) <|> differsAt b 4 [0#8, 1#8] <|> firstNonzero b ([6, 7] ++ offsets 32 64)
      <|> imgBounds b with
    | some o => some o
    | none =>
        if imgLength b ≠ imgExpected b ∨ imgLength b ≠ b.length then some 20
        else match imgPadding b <|> imgTargets b <|> imgDead b with
          | some o => some o
          | none => if imgCheck b ≠ crcWithZero b 24 then some 24 else none

/-! ## Runs (R323, R325) -/

/-- The state after the bytes of a string, and how many bytes were taken: the run stops at state 0. -/
def imgRun (b : Bytes) : (state : Nat) → Bytes → Nat × Nat
  | s, [] => (s, 0)
  | s, x :: t =>
    if s = 0 then (0, 0)
    else
      let (e, n) := imgRun b (imgEntry b s (imgClass b x) % 4096) t
      (e, n + 1)

/-- Length and prefix conditions, which the comparator checks before a run. -/
def imgCandidate (b key : Bytes) : Bool :=
  decide (imgMin b ≤ key.length ∧ key.length ≤ imgMax b) && key.take (imgPrefixLen b) == imgPrefix b

/-- The image accepts the key (R323). -/
def imageMatches (b key : Bytes) : Bool :=
  imgCandidate b key && imgAccepts b (imgRun b (imgStart b) (key.drop (imgPrefixLen b))).1

/-- Engine cycles of a run (R325); none for a key that is no candidate. -/
def imageCycles (b key : Bytes) : Nat :=
  if imgCandidate b key then 4 + (imgRun b (imgStart b) (key.drop (imgPrefixLen b))).2 else 0

/-- An image's share of the predicate store (R332). -/
def imageRoom (b : Bytes) : Nat := roundUp b.length 64

/-! ## Engines -/

/-- An engine is in service (6000: idle or running a page). -/
def Engine.inService (e : Engine) : Bool := decide (e.state ≤ 1)

def State.enginesUp (s : State) : Bool := s.pae.engines.any Engine.inService

/-- Image of a predicate slot. -/
def State.predImage (s : State) (slot : Nat) : Option Bytes := (s.pae.preds.find? fun p => p.1 == slot).map (·.2)

/-- PRED_STORE_USED (6002). -/
def State.predUsed (s : State) : Nat := (s.pae.preds.map fun p => imageRoom p.2).foldl (· + ·) 0

end Sys2Proof.Machine
end

