-- ==== Sys2Proof/Machine/Rules.lean ====
section
/-!
DEFINITION. The Rule Table: matching, classification, the commands that change it, its scrub, and the predicate store
(R306 to R316, R326, R332 to R335).
-/
namespace Sys2Proof.Machine

/-! ## The action word (R308) -/

def Rule.deny (r : Rule) : Bool := bit r.action 63
def Rule.cls (r : Rule) : Nat := bits r.action 62 61
def Rule.pin (r : Rule) : Bool := bit r.action 60
def Rule.placement (r : Rule) : Nat := bits r.action 59 58
def Rule.pred (r : Rule) : Bool := bit r.action 57
def Rule.negate (r : Rule) : Bool := bit r.action 56
def Rule.slot (r : Rule) : Nat := bits r.action 55 48
def Rule.id (r : Rule) : Nat := bits r.action 15 0

/-! ## Matching (R306, R307) -/

/-- The bytes from `i` on of value, mask and word agree in every cared bit; a prefix byte that is cared about is
present in the key. -/
def bytesMatch (present : Nat) : (i : Nat) → (value mask word : Bytes) → Bool
  | _, [], _, _ | _, _, [], _ | _, _, _, [] => true
  | i, v :: vs, m :: ms, w :: ws =>
    ((v ^^^ w) &&& m == 0) && (m == 0 || decide (i < 4 ∨ i - 4 < present)) && bytesMatch present (i + 1) vs ms ws

/-- The classification word at width `w`. -/
def classWord (w tenant len : Nat) (key : Bytes) : Bytes :=
  natBytes 2 tenant ++ natBytes 2 len ++ (key ++ zeros 36).take (10 * w - 4)

/-- The entry matches a key of the tenant. -/
def Rule.matches (r : Rule) (w tenant : Nat) (key : Bytes) : Bool :=
  bytesMatch key.length 0 (r.value.take (10 * w)) (r.mask.take (10 * w)) (classWord w tenant key.length key)

/-- The entry matches a SCAN's prefix: its KEY_LENGTH mask counts as zero, entries with PRED are passed over (R326). -/
def Rule.matchesScan (r : Rule) (w tenant : Nat) (pre : Bytes) : Bool :=
  !Rule.pred r && bytesMatch pre.length 0 (r.value.take (10 * w)) (r.mask.take 2 ++ zeros 2 ++ (r.mask.drop 4).take (10 * w - 4))
    (classWord w tenant 0 pre)

/-! ## Classification (R309, R311, R334, R335) -/

/-- How a classification ended. -/
structure ClassResult where
  hit      : Option (Nat × Rule)
  runs     : Nat
  cycles   : Nat
  deep     : Bool
  noEngine : Bool
  deriving DecidableEq, Repr

def ClassResult.none (runs cycles : Nat) : ClassResult :=
  { hit := Option.none, runs := runs, cycles := cycles, deep := false, noEngine := false }

/-- Walk the entries from a position on. A predicate whose slot holds no image cannot be run, so its entry neither admits the
key nor passes it on (R335). -/
def State.classWalk (s : State) (tenant : Nat) (key : Bytes) : List Rule → (pos runs cycles : Nat) → ClassResult
  | [], _, runs, cycles => .none runs cycles
  | r :: l, pos, runs, cycles =>
    if !Rule.matches r s.asu.ruleWidth tenant key then s.classWalk tenant key l (pos + 1) runs cycles
    else if !Rule.pred r then { ClassResult.none runs cycles with hit := some (pos, r) }
    else if !s.enginesUp then { ClassResult.none runs cycles with noEngine := true }
    else match s.predImage (Rule.slot r) with
      | none => .none runs cycles
      | some img =>
        let cycles := cycles + imageCycles img key
        if runs = 4 then { ClassResult.none 5 cycles with deep := true }
        else if imageMatches img key != Rule.negate r then { ClassResult.none (runs + 1) cycles with hit := some (pos, r) }
        else s.classWalk tenant key l (pos + 1) (runs + 1) cycles

/-- What a matched entry reports (R311); a DENY entry refuses. -/
def State.classOf (s : State) (hit : Option (Nat × Rule)) : Classification :=
  match hit with
  | none => { admitted := false, cls := 0, pin := false, fast := false, ruleId := 0, position := 0,
              generation := s.asu.ruleGen }
  | some (p, r) => { admitted := !Rule.deny r, cls := Fin.ofNat 4 (Rule.cls r), pin := Rule.pin r,
                     fast := Rule.placement r == 1, ruleId := Rule.id r, position := p, generation := s.asu.ruleGen }

/-- Data of a CLASSIFY event (R600). -/
def Classification.traceData (c : Classification) : Nat :=
  (if c.admitted then 0 else 2 ^ 31) + c.cls.val * 2 ^ 16 + c.ruleId % 2 ^ 16

/-- Classify a key for a task and count it. -/
def State.classify (s : State) (tenant : Nat) (key : Bytes) (task : Option Nat) : Classification × State :=
  let x := s.classWalk tenant key s.asu.rules 0 0 0
  let c := s.classOf x.hit
  let s := (s.bump 0x5030 0x01 1).bump 0x5030 0x03 x.runs
  let s := if x.deep then s.bump 0x5030 0x04 1 else s
  let s := if x.noEngine then s.bump 0x6010 0x0B 1 else s
  let s := (s.bump 0x6010 0x06 x.cycles).traced 3 0 task c.traceData
  (c, if c.admitted then s else s.bump 0x5030 0x02 1)

/-- Position and entry of the first entry that matches a SCAN's prefix. -/
def scanEntry (w tenant : Nat) (pre : Bytes) : List Rule → (pos : Nat) → Option (Nat × Rule)
  | [], _ => none
  | r :: l, pos => if Rule.matchesScan r w tenant pre then some (pos, r) else scanEntry w tenant pre l (pos + 1)

/-- Classify a SCAN from its image's prefix (R326). -/
def State.classifyScan (s : State) (tenant : Nat) (pre : Bytes) (task : Nat) : Classification × State :=
  let c := s.classOf (scanEntry s.asu.ruleWidth tenant pre s.asu.rules 0)
  let s := (s.bump 0x5030 0x01 1).traced 3 0 (some task) c.traceData
  (c, if c.admitted then s else s.bump 0x5030 0x02 1)

/-! ## The table as commands change it (R312, R313) -/

/-- The table after a command. -/
def RuleOp.apply : RuleOp → List Rule → List Rule
  | .insert p r, l => l.take p ++ r :: l.drop p
  | .replace p r, l => l.set p r
  | .delete p, l => l.eraseIdx p
  | .image _ _, l => l

/-- Writes that a command takes on a table. -/
def RuleOp.writes : RuleOp → List Rule → Nat
  | .insert p _, l => l.length - p + 1
  | .delete p, l => l.length - p
  | .replace _ _, _ => 1
  | .image _ _, _ => 1

/-- The table after `n` of the command's writes. -/
def RuleOp.partly (op : RuleOp) (n : Nat) (l : List Rule) : List Rule :=
  if op.writes l ≤ n then op.apply l
  else match op with
    | .insert _ _ => l.take (l.length - n + 1) ++ l.drop (l.length - n)
    | .delete p => l.take p ++ (l.drop (p + 1)).take n ++ l.drop (p + n)
    | _ => l

/-- The update slot of R311: the number of the write that changes order or content. -/
def RuleOp.slot (op : RuleOp) (l : List Rule) : Nat :=
  match op with
  | .insert _ _ => op.writes l
  | _ => 1

/-- The table as it will stand after every accepted command. -/
def Asu.future (a : Asu) : List Rule := a.accepted.foldl (fun l op => op.apply l) a.copy

/-- The predicate store as it will stand after every accepted replacement. -/
def State.futurePreds (s : State) : List (Nat × Bytes) :=
  s.asu.accepted.foldl (fun l op => match op with
    | .image slot img => (slot, img) :: l.filter fun p => p.1 != slot
    | _ => l) s.pae.preds

/-- RULE_PENDING (5004): commands waiting or running. -/
def Asu.commands (a : Asu) : Nat :=
  (a.accepted.filter fun op => match op with
    | .image _ _ => false
    | _ => true).length

/-- Entries a table of a width holds (R306). -/
def ruleCapacity (w : Nat) : Nat := 65536 / w

/-- No entry with PRED stands before an entry with PIN (R310). -/
def predsLast : List Rule → Bool
  | [] => true
  | r :: l => (!Rule.pred r || !l.any Rule.pin) && predsLast l

/-- A table entry from a RULE_COMMAND: the first 10w bytes are used, reserved action bits are dropped (R11, R312). -/
def ruleOfCommand (w : Nat) (b : Bytes) : Rule :=
  let a := numAt b 88 8
  { value := (slice b 8 (10 * w) ++ zeros 40).take 40, mask := (slice b 48 (10 * w) ++ zeros 40).take 40,
    action := a / 2 ^ 48 * 2 ^ 48 + a % 2 ^ 16 }

/-- The conditions of R312 on an entry. -/
def State.ruleOk (s : State) (r : Rule) : Bool :=
  decide (Rule.placement r ≤ 1) && !(Rule.pred r && Rule.pin r) && !(Rule.deny r && Rule.pin r)
    && !(Rule.pred r && !s.futurePreds.any fun p => p.1 == Rule.slot r)

/-- The command that a RULE_COMMAND spells, when R312 does not refuse it. -/
def State.ruleCommand (s : State) (b : Bytes) : Option RuleOp :=
  let l := s.asu.future
  let p := numAt b 4 4
  let r := ruleOfCommand s.asu.ruleWidth b
  let op : Option RuleOp := match numAt b 0 1 with
    | 1 => if p ≤ l.length ∧ l.length < ruleCapacity s.asu.ruleWidth ∧ s.ruleOk r then some (.insert p r) else none
    | 2 => if p < l.length ∧ s.ruleOk r then some (.replace p r) else none
    | 3 => if p < l.length then some (.delete p) else none
    | _ => none
  op.filter fun o => predsLast (o.apply l)

/-- A RULE_COMMAND as read back: reserved bytes are zero (R11). -/
def ruleImage (b : Bytes) : Bytes :=
  slice b 0 1 ++ zeros 3 ++ slice b 4 84 ++ slice b 88 2 ++ zeros 4 ++ slice b 94 2

/-- Check and accept a command, when a place is free (R312, R314). -/
def State.acceptRule (s : State) (b : Bytes) : State × Nat :=
  match s.ruleCommand b with
  | none => (s, stRange)
  | some op => ({ s with asu.accepted := s.asu.accepted ++ [op] }.putBytes 0x5003 0 (ruleImage b), stOk)

/-- The bytes of a value written. -/
def valBytes : OdVal → Bytes
  | .num _ => []
  | .bytes b => b

def valNum : OdVal → Nat
  | .num n => n
  | .bytes _ => 0

/-- The write of RULE_COMMAND: it waits where 256 commands are accepted or an earlier write waits (R314). -/
def ruleCommandEffect : WriteEffect := fun _ _ _ v s =>
  if 256 ≤ s.asu.commands ∨ !s.asu.waiting.isEmpty then (s, stParked) else s.acceptRule (valBytes v)

/-- The row of a RULE_COMMAND of one operation. -/
def ruleRow (op : Nat) (r : Requester) (v : OdVal) (s : State) : State :=
  if numAt (valBytes v) 0 1 = op then s.ownWrite ruleCommandEffect r 0x5003 0 v else s

/-- RULE_INSERT (R312). -/
def execRuleInsert (r : Requester) (v : OdVal) (s : State) : Host.Outcome State Fault Refusal := .next (ruleRow 1 r v s)

/-- RULE_REPLACE (R312). -/
def execRuleReplace (r : Requester) (v : OdVal) (s : State) : Host.Outcome State Fault Refusal := .next (ruleRow 2 r v s)

/-- RULE_DELETE (R312). -/
def execRuleDelete (r : Requester) (v : OdVal) (s : State) : Host.Outcome State Fault Refusal := .next (ruleRow 3 r v s)

/-- Warden gap: accepted commands are held over a switch-over (R314, R466). -/
def State.gap (s : State) : Bool := s.wdn.holder.isNone

/-- RULE_UPDATE_WRITE (R313, R333): the next write of the running command; the update slot raises RULE_GENERATION. DESIGN CHOICE (log
133): RULE_UPDATES counts each completed command and each replacement of a predicate image. -/
def execRuleUpdateWrite (s : State) : Host.Outcome State Fault Refusal :=
  match s.asu.accepted with
  | [] => .next s
  | op :: rest =>
    if s.gap then .next s
    else
      let n := s.asu.running.getD 0 + 1
      let l := s.asu.copy
      let s := if n = op.slot l then { s with asu.ruleGen := (s.asu.ruleGen + 1) % 2 ^ 32 } else s
      let s := match op with
        | .image slot img => { s with pae.preds := (slot, img) :: s.pae.preds.filter fun p => p.1 != slot }
        | _ => s
      if op.writes l ≤ n then
        .next ({ s with asu.rules := op.apply l, asu.copy := op.apply l, asu.accepted := rest, asu.running := none }.bump
          0x5030 0x0F 1)
      else .next { s with asu.rules := op.partly n l, asu.running := some n }

/-- The table as the Journal Store copy and the writes made say it stands. -/
def Asu.expected (a : Asu) : List Rule :=
  match a.accepted, a.running with
  | op :: _, some n => op.partly n a.copy
  | _, _ => a.copy

/-- RULE_SCRUB (R316): one entry is compared with its copy and rewritten if it differs. -/
def execRuleScrub (position : Nat) (s : State) : Host.Outcome State Fault Refusal :=
  match s.asu.expected[position]?, s.asu.rules[position]? with
  | some e, some r =>
    if e = r then .next s
    else .next (({ s with asu.rules := s.asu.rules.set position e }.bump 0x5030 0x11 1).raise 0x5803 (unitId 5 0x20) position
      (Rule.id e) 0)
  | _, _ => .next s

/-- An entry fits a width: no bit beyond the narrower search field is cared about (R315). -/
def fitsWidth (w : Nat) (r : Rule) : Bool := (r.mask.drop (10 * w)).all (· == 0)

/-- The write of RULE_WIDTH (R315): it applies from the next module reset. -/
def ruleWidthEffect : WriteEffect := fun _ index sub v s =>
  let l := s.asu.future
  if l.length ≤ ruleCapacity (valNum v) ∧ l.all (fitsWidth (valNum v)) then (s.put index sub v, stOk) else (s, stRange)

/-! ## The predicate store (R332, R333) -/

/-- PRED_REFS of a slot. -/
def State.predRefs (s : State) (slot : Nat) : Nat :=
  (s.asu.future.filter fun r => Rule.pred r && Rule.slot r == slot).length

/-- Most bytes that the images of the other slots take while accepted replacements take effect one after the other (R332, R333). -/
def State.predPeak (s : State) (slot : Nat) : Nat :=
  let all := s.asu.accepted.foldl (fun (l : List (Nat × Bytes)) op => match op with
    | .image n img => (n, img) :: l
    | _ => l) s.pae.preds
  let slots := (all.map (·.1)).eraseDups.filter (· != slot)
  (slots.map fun n => ((all.filter fun p => p.1 == n).map fun p => imageRoom p.2).foldl max 0).foldl (· + ·) 0

/-- The write of PRED_IMAGE. -/
def predImageEffect (slot : Nat) : WriteEffect := fun _ _ _ v s =>
  let b := valBytes v
  let room := s.predPeak slot + imageRoom b
  if (imageFault b).isSome ∨ 8388608 < room then (s, stRange)
  else if s.futurePreds.any fun p => p.1 == slot then
    ({ s with asu.accepted := s.asu.accepted ++ [.image slot b] }, stOk)
  else ({ s with pae.preds := (slot, b) :: s.pae.preds }, stOk)

/-- PRED_IMAGE_WRITE (R333). -/
def execPredImageWrite (slot : Nat) (r : Requester) (v : OdVal) (s : State) : Host.Outcome State Fault Refusal :=
  if 256 ≤ slot then .fault .noSuchUnit else .next (s.ownWrite (predImageEffect slot) r (0x6100 + slot) 0 v)

/-- The write of PRED_CLEAR: a slot that a rule refers to is not cleared. -/
def predClearEffect : WriteEffect := fun _ _ _ v s =>
  let slot := valNum v
  if s.predRefs slot ≠ 0 then (s, stRange)
  else
    ({ s with
        pae.preds := s.pae.preds.filter fun p => p.1 != slot,
        asu.accepted := s.asu.accepted.filter fun (op : RuleOp) => match op with
          | .image i _ => i != slot
          | _ => true }, stOk)

/-- PRED_CLEAR (R333). -/
def execPredClear (r : Requester) (v : OdVal) (s : State) : Host.Outcome State Fault Refusal :=
  .next (s.ownWrite predClearEffect r 0x6001 0 v)

end Sys2Proof.Machine
end

