-- ==== Sys2Proof/Machine/Time.lean ====
section
/-!
DEFINITION. Wall time, its steps and slews, the metering epochs and the tenants' accounts (R522 to R540).
-/
namespace Sys2Proof.Machine

/-! ## Accounts -/

/-- An account with nothing in it. -/
def Account.fresh (t : Nat) : Account :=
  { tenant := t, usageBytes := 0, usageKeys := 0, bytesRead := 0, bytesWritten := 0, operations := 0, byteMs := 0 }

def State.account (s : State) (t : Nat) : Account := (s.cqc.accounts.find? fun a => a.tenant == t).getD (.fresh t)

/-- The accounts with one tenant's changed, kept in tenant order. -/
def mapAccounts (t : Nat) (f : Account → Account) : List Account → List Account
  | [] => [f (.fresh t)]
  | a :: l => if a.tenant = t then f a :: l else if t < a.tenant then f (.fresh t) :: a :: l
              else a :: mapAccounts t f l

def State.mapAccount (s : State) (t : Nat) (f : Account → Account) : State :=
  { s with cqc.accounts := mapAccounts t f s.cqc.accounts }

/-- What arrives or falls due in Doze, or during entry to it, asks for the wake (R223, R549). -/
def State.frameWakes (s : State) : State :=
  { s with pch.wakeWanted := s.pch.wakeWanted || s.pch.power == .doze || s.pch.dozeStep != 0 }

/-! ## Epochs -/

/-- Nanoseconds of `m` minutes. -/
def minutesNs (m : Nat) : Nat := m * 60000000000

/-- End of an epoch in wall time, ns (R529). -/
def Epoch.endNs (e : Epoch) : Nat := e.startNs + minutesNs e.minutes

/-- Boundary of length `m` minutes at or before a wall time (R529). -/
def boundary (m : Nat) (wall : Nat) : Nat := wall / minutesNs m * minutesNs m

/-- A count in the record's unit, saturated at its 48-bit field (R530). -/
def inUnits (n unit : Nat) : Nat := clampU 48 (n / unit)

/-- Byte-milliseconds in one MiB second. -/
def mibSecond : Nat := 1048576 * 1000

/-- A tenant's counts as its record of the closing epoch holds them. -/
def Account.counts (a : Account) : Nat × Nat × Nat × Nat × Nat :=
  (a.tenant, inUnits a.bytesRead 1024, inUnits a.bytesWritten 1024, inUnits a.operations 1, inUnits a.byteMs mibSecond)

/-- An account after a close: the remainders carry over. -/
def Account.carry (a : Account) : Account :=
  { a with bytesRead := a.bytesRead % 1024, bytesWritten := a.bytesWritten % 1024, operations := 0,
           byteMs := a.byteMs % mibSecond }

/-- Write records into every tenant's ring, oldest first (R531). -/
def Cqc.record (c : Cqc) (rs : List ClosedEpoch) : Cqc :=
  { c with closed := (rs.reverse ++ c.closed).take 8760, ringWritten := c.ringWritten + rs.length }

/-- Close the open epoch with further flags: one record per tenant, EPOCHS_CLOSED up by 1 (R528). -/
def State.closeEpoch (s : State) (flags : Nat) : State :=
  let e := s.cqc.epoch
  let r : ClosedEpoch := { start := e.startNs / 1000000000, flags := e.flags ||| flags, minutes := e.minutes,
                           counts := (s.cqc.accounts.map Account.counts).filter fun c => c.2 != (0, 0, 0, 0) }
  { s with cqc := { (s.cqc.record [r]) with accounts := s.cqc.accounts.map Account.carry } }.bump 0x3203 0 1

/-- An epoch opens; what its accounts begin with goes to the Journal Store with the records of the one that closed (R530, R532). -/
def State.openEpoch (s : State) (e : Epoch) : State :=
  { s with cqc := { s.cqc with epoch := e, checkpoint := (s.cqc.accounts, e) } }

/-- The SKIPPED records for the epochs wholly between two wall times (R539). -/
def skipped (minutes fromNs toNs : Nat) : List ClosedEpoch :=
  let total := (toNs - fromNs) / 60000000000
  let run := 65535 / minutes * minutes
  (List.range (ceilDiv total run)).map fun i =>
    { start := fromNs / 1000000000 + i * run * 60, flags := 4, minutes := min run (total - i * run), counts := [] }

/-- When wall time has reached the open epoch's end, close it with `flags` and open the one that contains the wall
time with the flag `flags` gathered, writing SKIPPED records for those between (R528, R539). -/
def State.advanceEpoch (s : State) (flags : Nat) : State :=
  let wall := s.wall.toNat
  let e := s.cqc.epoch
  if e.endNs ≤ wall then
    let s := s.closeEpoch flags
    let start := boundary e.minutes wall
    { s with cqc := s.cqc.record (skipped e.minutes e.endNs start) }.openEpoch { startNs := start, minutes := e.minutes, flags := flags }
  else s

/-! ## Steps and slews of wall time -/

/-- A step of wall time: recorded, counted, and applied to the open epoch (R537, R539, R540). Source 1 dictionary,
2 PTP, 3 leap second. -/
def State.stepWall (s : State) (step : Int) (source : Nat) : State :=
  let word := clampI 64 step
  let before := s.wall.toNat
  let s := { s with pch.wallOffset := s.pch.wallOffset + step }
  let s := s.putBytes 0xD102 0 (natBytes 8 s.now ++ natBytes 8 before ++ natBytes 8 word ++ natBytes 1 source)
  let s := s.raise 0xD404 (unitId 0xD 2) (word / 2 ^ 32) (word % 2 ^ 32) source
  if step < 0 then
    { s with cqc.epoch.flags := s.cqc.epoch.flags ||| 1 }.bump 0xD103 0 1
  else (s.advanceEpoch 2).bump 0xD104 0 1

/-- What an offset measurement does to wall time (R536). -/
def State.steer (s : State) (o : Int) : State :=
  let s := s.putNum 0xD101 0 2
  if o.natAbs ≤ s.num 0xD105 0 then { s with pch.slew := o }
  else { s with pch.slew := 0 }.stepWall o 2

/-- The slew of one tick of device time: at most 1 ns in every second tick, so within the rates of R536; whether a
tick moves wall time is left open by the spec. -/
def State.slewTick (s : State) : State :=
  if s.pch.slew ≠ 0 ∧ s.now % 2 = 0 ∧ Config.freeValue 1 s.now % 2 = 1 then
    let d : Int := if 0 < s.pch.slew then 1 else -1
    { s with pch.wallOffset := s.pch.wallOffset + d, pch.slew := s.pch.slew - d }
  else s

/-! ## Rows: EPOCH_CLOSE, BYTE_SECONDS_SAMPLE, METERING_CHECKPOINT, EPOCH_LENGTH, WALL_TIME, UTC_OFFSET_CHANGE -/

/-- Metering runs from the end of step 4 of start-up on, outside Hold and Off (R532). -/
def State.metersRun (s : State) : Bool :=
  match s.pch.power with
  | .off | .hold => false
  | .startUp => decide (5 ≤ s.pch.step)
  | _ => true

/-- EPOCH_CLOSE (R528): in the tick in which wall time has reached the open epoch's end; in Doze the close wakes
the module (R549). -/
def execEpochClose (s : State) : Host.Outcome State Fault Refusal :=
  .next (if s.cqc.epoch.endNs ≤ s.wall.toNat ∧ s.metersRun then (s.advanceEpoch 0).frameWakes else s)

/-- BYTE_SECONDS_SAMPLE (R527): every 1 ms of device time, usage integrated over that millisecond. -/
def execByteSecondsSample (s : State) : Host.Outcome State Fault Refusal :=
  if s.cqc.sampledAt + 1000 ≤ s.now then
    .next { s with cqc.accounts := s.cqc.accounts.map fun a => { a with byteMs := a.byteMs + a.usageBytes },
                   cqc.sampledAt := s.cqc.sampledAt + 1000 }
  else .next s

/-- METERING_CHECKPOINT (R532): every 1 s of device time, the open epoch's counters and remainders are copied to the
Journal Store. -/
def execMeteringCheckpoint (s : State) : Host.Outcome State Fault Refusal :=
  if s.cqc.checkpointAt + 1000000 ≤ s.now then
    .next { s with cqc.checkpoint := (s.cqc.accounts, s.cqc.epoch), cqc.checkpointAt := s.now }
  else .next s

/-- The write of EPOCH_LENGTH (R533): where it changes the length, the open epoch closes with the old length, a new one opens at the boundary of
the new length at or before the wall time. -/
def epochLengthEffect : WriteEffect := fun _ index sub v s =>
  let n := match v with
    | .num n => n
    | .bytes _ => 60
  if n = s.cqc.epoch.minutes then (s.put index sub v, stOk)
  else
    let s := s.closeEpoch 0x10
    let s := s.openEpoch { startNs := boundary n s.wall.toNat, minutes := n, flags := 0x10 }
    (s.put index sub v, stOk)

def execEpochLength (r : Requester) (v : OdVal) (s : State) : Host.Outcome State Fault Refusal :=
  .next (s.ownWrite epochLengthEffect r 0x3200 0 v)

/-- The write of WALL_TIME (R535): a step to the value written at the start of the tick. -/
def wallTimeEffect : WriteEffect := fun _ _ _ v s =>
  match v with
  | .num n =>
    if 4294967296 * 1000000000 ≤ n then (s, stRange)
    else ((s.stepWall (n - s.wall) 1).putNum 0xD101 0 1, stOk)
  | .bytes _ => (s, stRange)

def execWallTime (r : Requester) (v : OdVal) (s : State) : Host.Outcome State Fault Refusal :=
  .next (s.ownWrite wallTimeEffect r 0xD100 0 v)

/-- UTC_OFFSET_CHANGE (R536): a new UTC offset, at the instant the leader gives, is a step of the difference. -/
def execUtcOffsetChange (offset : Int) (s : State) : Host.Outcome State Fault Refusal :=
  if s.dpx.ptp.state = 3 ∧ s.dpx.ptp.utcOffset ≠ offset then
    let step := (s.dpx.ptp.utcOffset - offset) * 1000000000
    .next ({ s with dpx.ptp.utcOffset := offset }.stepWall step 3)
  else .next s

end Sys2Proof.Machine
end

