-- ==== Sys2Proof/Machine/Ports.lean ====
section
/-!
DEFINITION. What the rows of the data ports share: addresses, gate windows, receive partitions and pause frames,
transmit queues, the capture ring (R226 to R256).
-/
namespace Sys2Proof.Machine

/-! ## Addresses -/

/-- Stored bytes of an entry as its full `n` bytes. -/
def State.full (s : State) (index sub n : Nat) : Bytes := window (s.blob index sub) n 0 n

def State.mac (s : State) (p : Port) : Nat := beNat (s.full (p.base + 0x02) 0 6)

/-- One of the port's four IPv6 addresses; 0 unused. -/
def State.ipv6 (s : State) (p : Port) (i : Nat) : Nat := beNat (s.full (p.base + 0x05) (i + 1) 16)

/-- The IP address is one of the port's (R230). -/
def State.ownAddr (s : State) (p : Port) (a : IpAddr) : Bool :=
  a.addr != 0 && (if a.v6 then (List.range 4).any fun i => s.ipv6 p i == a.addr else s.pnum p 0x04 0 == a.addr)

/-- Solicited-node multicast MAC address of an IPv6 address. -/
def solicitedMac (a : Nat) : Nat := 0x3333FF000000 + a % 2 ^ 24

/-- The PTP multicast MAC addresses of a transport (IEEE 1588). -/
def ptpMacs (transport : Nat) : List Nat :=
  match transport with
  | 0 => [0x011B19000000, 0x0180C200000E]
  | 1 => [0x01005E000181, 0x01005E00006B]
  | _ => [0x333300000181, 0x33330000006B]

/-- The port named in PTP_PORT. -/
def State.isPtpPort (s : State) (p : Port) : Bool := s.num 0x1001 0 == p.num + 1

/-- The port accepts a destination MAC address (R231). -/
def State.accepts (s : State) (p : Port) (d : Nat) : Bool :=
  d == s.mac p
  || (d != 0 && (List.range 8).any fun i => beNat (s.full (p.base + 0x06) (i + 1) 6) == d)
  || (d != 0 && (List.range 8).any fun i => beNat (s.full (p.base + 0x07) (i + 1) 6) == d)
  || (d == 0xFFFFFFFFFFFF && s.pflag p 0x08 0)
  || d == 0x0180C2000001 || d == 0x0180C200000E || d == 0x333300000001
  || (List.range 4).any (fun i => s.ipv6 p i != 0 && solicitedMac (s.ipv6 p i) == d)
  || (s.isPtpPort p && (ptpMacs (s.num 0x1003 0)).contains d)

/-! ## Gate lists (R246, R247) -/

/-- Entries of a GATE_LIST as (states, interval) with the reserved bytes, from its stored bytes. -/
def gateEntries (b : Bytes) (n : Nat) : List (Nat × Nat × Nat) :=
  (List.range n).map fun i =>
    let e := window b 2048 (i * 8) 8
    (numAt e 0 1, numAt e 1 3, numAt e 4 4)

/-- Lengths of the runs in which the first component holds. -/
def runLengths : List (Bool × Nat) → Nat → List Nat
  | [], 0 => []
  | [], n => [n]
  | (true, i) :: t, n => runLengths t (n + i)
  | (false, _) :: t, 0 => runLengths t 0
  | (false, _) :: t, n => n :: runLengths t 0

/-- The queue's entries as open or closed with their intervals. -/
def GateList.forQueue (g : GateList) (q : Nat) : List (Bool × Nat) := g.entries.map fun e => (bit e.1 q, e.2)

/-- The queue is open in every entry, or gating is disabled. -/
def GateList.alwaysOpen (g : GateList) (q : Nat) : Bool := !g.enable || (g.forQueue q).all (·.1)

/-- Window lengths of a queue that some entry closes, counted cyclically. -/
def GateList.windows (g : GateList) (q : Nat) : List Nat :=
  let l := g.forQueue q
  runLengths (l.dropWhile (·.1) ++ l.takeWhile (·.1)) 0

/-- Datagram limit Lq at a rate in Gb/s (R247); 0 for a queue that is never open. -/
def GateList.limit (g : GateList) (mtu rate q : Nat) : Nat :=
  if g.alwaysOpen q then mtu
  else match g.windows q with
    | [] => 0
    | w :: ws => min mtu (ws.foldl min w * rate / 8 - 42)

/-- ns left in the queue's window at position `x` of the cycle; none when the queue is always open. -/
def GateList.leftAt (g : GateList) (q x : Nat) : Nat :=
  let rec go : List (Bool × Nat) → Nat → Nat
    | [], _ => 0
    | (o, i) :: t, x => if x < i then (if o then i - x + ((t ++ g.forQueue q).takeWhile (·.1)).foldl (fun n e => n + e.2) 0
                                       else 0)
                        else go t (x - i)
  go (g.forQueue q) x

/-- ns a frame of `len` bytes occupies at a rate in Gb/s, gap and preamble included, rounded up. -/
def frameNs (len rate : Nat) : Nat := ceilDiv ((len + 20) * 8) rate

/-- The queues named in CLASS_TX_QUEUE or RESPONDER_QUEUE (R246). -/
def State.queuesInUse (s : State) : List Nat :=
  (List.range 4).map (fun c => s.num 0x2005 (c + 1)) ++ [s.num 0x1000 0]

/-- The list that gates the port now: every gate is open while it is suspended (R250). -/
def PortS.gating (x : PortS) : GateList := if x.gateState = 2 then { x.oper with enable := false } else x.oper

/-- Operational datagram limit of a queue of the port (1x17). -/
def State.datagramLimit (s : State) (p : Port) (q : Nat) : Nat :=
  (s.port p).gating.limit (s.pnum p 0x03 0) (s.portRate p) q

/-- The queue's gate is open long enough for a frame of `len` bytes to start at `t` ns of device time (R247). -/
def State.gateFits (s : State) (p : Port) (q len t : Nat) : Bool :=
  let g := (s.port p).gating
  g.alwaysOpen q || decide (frameNs len (s.portRate p) ≤ g.leftAt q ((t - g.start) % g.cycle))

/-- The next instants from `t` on at which an entry of the list begins. -/
def GateList.starts (g : GateList) (t : Nat) : List Nat :=
  let x := (t - g.start) % g.cycle
  (g.entries.foldl (fun (a : Nat × List Nat) e => (a.1 + e.2, (t + (a.1 + g.cycle - x) % g.cycle) :: a.2)) (0, [])).2

/-! ## Transmit queues -/

/-- A frame joins the end of a transmit queue. DESIGN CHOICE (log 125): while the link is down too; it goes out when the link
comes up. -/
def State.enqueue (s : State) (p : Port) (q : Nat) (f : TxFrame) (len : Nat) : State :=
  s.mapPort p fun x => { x with txq := x.txq.modify q (· ++ [(f, len)]) }

/-- A frame that bypasses the queues (R245). -/
def State.bypass (s : State) (p : Port) (f : TxFrame) : State :=
  s.mapPort p fun x => { x with bypass := x.bypass ++ [f] }

/-! ## Receive partitions and flow control (R239 to R241, R252) -/

/-- Receive priority of a frame (R239). -/
def State.rxPriority (s : State) (f : RxFrame) : Nat :=
  match f.tag, f.dscp with
  | some t, _ => t.pcp
  | none, some d => s.num 0x2005 (s.num 0x2002 (d + 1) + 1)
  | none, none => s.num 0x1000 0

def State.partition (s : State) (p : Port) (i : Nat) : Nat := (s.port p).partitions.getD i 0

def State.rxLimit (s : State) (p : Port) (i : Nat) : Nat := s.pnum p 0x0A (i + 1)

/-- Change what a partition holds. -/
def State.setPartition (s : State) (p : Port) (i n : Nat) : State :=
  s.mapPort p fun x => { x with partitions := x.partitions.set i n }

/-- The quantities R252 compares for priority `i`: held and limit, of all partitions in PAUSE mode. -/
def State.fill (s : State) (p : Port) (i : Nat) : Nat × Nat :=
  if s.pnum p 0x0B 0 = 2 then
    ((s.port p).partitions.foldl (· + ·) 0, (List.range 8).foldl (fun n j => n + s.rxLimit p j) 0)
  else (s.partition p i, s.rxLimit p i)

/-- The port asks the partner to pause priority `i`: in PFC mode for an enabled priority, in PAUSE mode as one. -/
def State.flowOn (s : State) (p : Port) (i : Nat) : Bool :=
  match s.pnum p 0x0B 0 with
  | 1 => bit (s.pnum p 0x0C 0) i
  | 2 => i == 0
  | _ => false

/-- The partition (in PAUSE mode their sum) is at or above its limit less the headroom. -/
def State.fillHigh (s : State) (p : Port) (i : Nat) : Bool :=
  let (held, limit) := s.fill p i
  decide (limit - s.pnum p 0x0D 0 ≤ held)

/-- The partition is at or below its limit less twice the headroom. -/
def State.fillLow (s : State) (p : Port) (i : Nat) : Bool :=
  let (held, limit) := s.fill p i
  decide (held ≤ limit - 2 * s.pnum p 0x0D 0)

/-- Send a pause or a resume for priority `i`. -/
def State.sendPause (s : State) (p : Port) (i quanta : Nat) : State :=
  let f := if s.pnum p 0x0B 0 = 2 then TxFrame.pauseFrame quanta else .pfc i quanta
  ((s.bypass p f).mapPort p fun x => { x with
    pauseSent := x.pauseSent.set i (quanta != 0), pauseAt := x.pauseAt.set i s.cqc.cycle }).pbump p 0x10 1

/-- Threshold crossings of priority `i` (R252). -/
def State.flowCheck (s : State) (p : Port) (i : Nat) : State :=
  let i := if s.pnum p 0x0B 0 = 2 then 0 else i
  let sent := (s.port p).pauseSent.getD i false
  if s.flowOn p i && s.fillHigh p i && !sent then s.sendPause p i 0xFFFF
  else if sent && !s.flowOn p i then s.mapPort p fun x => { x with pauseSent := x.pauseSent.set i false }
  else if sent && s.fillLow p i then s.sendPause p i 0
  else s

/-- A frame of `len` bytes leaves partition `i`. -/
def State.release (s : State) (p : Port) (i len : Nat) : State :=
  (s.setPartition p i (s.partition p i - len)).flowCheck p i

/-! ## Capture ring (R243, R244) -/

/-- Bytes of the capture ring. -/
def captureBytes : Nat := 4194304

/-- Bytes of a record in the ring. -/
def CaptureRec.size (r : CaptureRec) : Nat := roundUp (32 + r.capLen) 8

/-- The records, newest first, of which some byte has not been overwritten: `used` bytes are newer. -/
def surviving : (used : Nat) → List CaptureRec → List CaptureRec
  | _, [] => []
  | used, r :: l => if used < captureBytes then r :: surviving (used + r.size) l else []

/-- A bad or filtered frame is captured, or counted as lost while the ring is frozen. -/
def State.capture (s : State) (p : Port) (f : RxFrame) (flags : Nat) : State :=
  if s.pflag p 0x20 0 then s.pbump p 0x1D 1
  else
    let n := min f.len (s.pnum p 0x1E 0)
    let x := s.port p
    let r : CaptureRec := { time := s.cqc.cycle, seq := x.captureSeq, frameLen := f.len, capLen := n,
                            priority := s.rxPriority f, flags := flags, offset := x.captureHead,
                            data := window (f.raw ++ natBytes 4 f.fcs) n 0 n }
    (s.setPort p { x with capture := surviving 0 (r :: x.capture), captureSeq := (x.captureSeq + 1) % 2 ^ 32,
                          captureHead := (x.captureHead + r.size) % captureBytes }).pbump p 0x1C 1

end Sys2Proof.Machine
end

