-- ==== Sys2Proof/Machine/Buffer.lean ====
section
/-!
DEFINITION. The buffer memory that BFC drives: its channels and regions, the errors that a read of it meets, and the read
cache (R21 to R24).
-/
namespace Sys2Proof.Machine

/-! ## Channels and regions (R22, R23) -/

/-- Usable bytes of the buffer memory. -/
def bufferBytes : Nat := 32 * 2 ^ 30

/-- The channel of an address: 4 KiB blocks in turn. -/
def bufferChannel (address : Nat) : Nat := address / 4096 % 4

/-- The dirty ceiling in force. -/
def State.dirtyCeiling (s : State) : Nat := s.num 0x8000 0

/-- Bytes of the read cache: 14 GiB less the dirty ceiling. -/
def State.readCacheBytes (s : State) : Nat := 14 * 2 ^ 30 - s.dirtyCeiling

/-- The region of an address, numbered as the event ECC_UNCORRECTED numbers them: index cache, dirty write buffer, staging
and read cache lie one behind the other. -/
def State.bufferRegion (s : State) (address : Nat) : Nat :=
  if address < 16 * 2 ^ 30 then 0
  else if address < 16 * 2 ^ 30 + s.dirtyCeiling then 3
  else if address < 18 * 2 ^ 30 + s.dirtyCeiling then 2
  else 1

/-- The region that holds a thing. -/
def BufHolds.region : BufHolds → Nat
  | .page _ => 0
  | .value _ _ => 1
  | .inbound _ _ => 2
  | .outbound _ _ => 2
  | .shard _ _ => 3

/-! ## Staging (R23) -/

/-- Bytes of the staging region. -/
def stagingBytes : Nat := 2 * 2 ^ 30

/-- Bytes of a message under reassembly. -/
def Message.stagedBytes (m : Message) : Nat :=
  (m.held.map fun h => h.2.data.length).sum + (m.parts.map fun p => p.2.2.length).sum

/-- Bytes that staging holds: the image store set apart in it (R330), fragments under reassembly, values under encryption,
responses being framed, and the shard slots of garbage collection and rewrites under way. -/
def State.stagingUsed (s : State) : Nat :=
  268435456
  + (s.wte.sessions.map fun x => (x.messages.map Message.stagedBytes).sum + (x.outgoing.map fun o => o.resp.data.length).sum).sum
  + (s.cqc.trs.map fun t => (t.data.map List.length).getD 0 + t.respData.length).sum
  + 65536 * (s.plc.moves.filter fun m => m.read && !m.done).length

/-- Fragments of the largest size for which staging has room. -/
def State.stagingRoom (s : State) : Nat := (stagingBytes - s.stagingUsed) / 8960

/-! ## Errors (R24) -/

/-- A read finds an error: a corrected one is counted, an uncorrectable one counted and recorded with its channel, region
and block. -/
def State.eccFound (s : State) (f : BufFault) : State :=
  if f.double then (s.bump 0x8010 0x02 1).raise 0x8801 (unitId 0x8 (bufferChannel f.address)) f.holds.region (f.address / 32) 0
  else s.bump 0x8010 0x01 1

/-- The error lies in what a read of `h` reads, in the region that holds it. -/
def State.inRead (s : State) (h : BufHolds) (f : BufFault) : Bool :=
  f.holds == h && decide (f.address < bufferBytes) && s.bufferRegion f.address == h.region

/-- Read something in the buffer memory: whether an uncorrectable error was met, and the state after it. Each error met is
gone, corrected or with the contents of its block. -/
def State.bufferRead (s : State) (h : BufHolds) : Bool × State :=
  let l := s.bfc.faults.filter (s.inRead h)
  if l.isEmpty then (false, s)
  else (l.any (·.double), l.foldl State.eccFound { s with bfc.faults := s.bfc.faults.filter fun f => !s.inRead h f })

/-! ## The read cache (R23) -/

/-- The values that fit, the one read last first. -/
def fitCache : (room : Nat) → List CachedValue → List CachedValue
  | _, [] => []
  | room, c :: l => if c.hi - c.lo ≤ room then c :: fitCache (room - (c.hi - c.lo)) l else []

/-- Read-cache contents are discarded until the rest fits its region. -/
def State.trimReadCache (s : State) : State := { s with bfc.cache := fitCache s.readCacheBytes s.bfc.cache }

/-- Bytes `lo` to `hi` of the key's value have been read. -/
def State.cacheValue (s : State) (k : KeyRec) (lo hi : Nat) : State :=
  let c : CachedValue := { tenant := k.tenant, key := k.key, version := k.version, lo := lo, hi := hi }
  { s with bfc.cache := c :: s.bfc.cache.filter fun e => !(e.tenant == k.tenant && e.key == k.key) }.trimReadCache

/-- The read cache holds these bytes of the key's value at its version. -/
def State.valueCached (s : State) (k : KeyRec) (lo hi : Nat) : Bool :=
  s.bfc.cache.any fun e => e.tenant == k.tenant && e.key == k.key && e.version == k.version && decide (e.lo ≤ lo ∧ hi ≤ e.hi)

/-- Take the bytes from the read cache: whether it serves them. A value with an uncorrectable error is discarded. -/
def State.readCached (s : State) (k : KeyRec) (lo hi : Nat) : Bool × State :=
  if !s.valueCached k lo hi then (false, s)
  else match s.bufferRead (.value k.tenant k.key) with
    | (true, s) => (false, { s with bfc.cache := s.bfc.cache.filter fun e => !(e.tenant == k.tenant && e.key == k.key) })
    | (false, s) => (true, s)

end Sys2Proof.Machine
end

