-- ==== Sys2Proof/Machine/Fabric.lean ====
section
/-!
DEFINITION. What the subsystems hand to the Turnpike: its lanes, transfers, and the cipher dispatcher that sends a transfer
through the pipelines bound to its key page (R33, R262, R263, R266, R274, R338 to R342).
-/
namespace Sys2Proof.Machine

/-- A request from one lane to another, and the bytes that come back. -/
def State.fetch (s : State) (from_ of_ : Nat) (c : Cls) (lead : Bool) (task bytes : Nat) : State :=
  (s.transfer from_ of_ c lead task 64).transfer of_ from_ c lead task bytes

/-! ## The pipelines' inputs (R338, R339) -/

def State.pipeline (s : State) (n : Nat) : Pipeline := s.cpx.pipelines.getD n .unbound

/-- The module page would be left without a pipeline while Express/0 is enabled (R341). -/
def State.lastOnModulePage (s : State) (pipeline : Nat) : Bool :=
  s.tpk.share != 0 && (s.pipeline pipeline).binding == 1024
    && (List.range 16).all fun n => n == pipeline || (s.pipeline n).binding != 1024 || (s.pipeline n).state != 1

/-- Core cycles in which `bytes` enter a pipeline (R338): a tweak takes one more in each data unit, XG and GX take two for a
block, and a chained CMAC block fourteen. -/
def CipherMode.cycles (m : CipherMode) (bytes : Nat) : Nat :=
  let blocks := ceilDiv bytes 16
  match m with
  | .xtsE | .xtsD => blocks + ceilDiv bytes 4096
  | .gcmE | .gcmD | .ecbE => blocks
  | .xg | .gx => 2 * blocks + ceilDiv bytes 4096
  | .cmac => 14 * blocks

/-- The mode ends in a GCM tag. -/
def CipherMode.tagged (m : CipherMode) : Bool := m == .gcmE || m == .gcmD || m == .xg || m == .gx

/-- A share joins the input: Express/0 ahead of every other class, in arrival order otherwise. -/
def enterInput (x : PipeShare) : List PipeShare → List PipeShare
  | [] => [x]
  | y :: l => if x.job.cls = 0 ∧ y.job.cls ≠ 0 then x :: y :: l else y :: enterInput x l

def Pipeline.take (p : Pipeline) (x : PipeShare) : Pipeline :=
  { p with input := enterInput x p.input,
           express := if x.job.cls = 0 ∧ x.job.cmd ≠ (0, 0) ∧ !p.express.contains x.job.cmd then x.job.cmd :: p.express else p.express }

/-- What enters a pipeline in `cycles` core cycles leaves its input. -/
def drainInput : (cycles : Nat) → List PipeShare → List PipeShare
  | _, [] => []
  | n, x :: l => if x.cycles ≤ n then drainInput (n - x.cycles) l else { x with cycles := x.cycles - n } :: l

/-- Blocks of a command may still come: its request is arriving, it has a TRS, or its response is being sent (R341). -/
def State.commandRuns (s : State) (c : Nat × Nat) : Bool :=
  s.cqc.trs.any (fun t => t.session == c.1 && t.reqId == c.2) || (match s.session? c.1 with
    | some x => x.messages.any (fun m => m.reqId == c.2 && !m.done) || x.outgoing.any fun m => m.resp.reqId == c.2
    | none => false)

/-- The pipeline may be bound to another page: no block is in it, no Express/0 command in flight has had it, and it is not
the module page's last (R340, R341). -/
def State.rebindable (s : State) (n : Nat) : Bool :=
  let p := s.pipeline n
  p.state ≤ 1 && p.input.isEmpty && !s.lastOnModulePage n
    && !p.express.any s.commandRuns

/-- Pipelines from the rotation on. -/
def State.rotated (s : State) : List Nat := (List.range 16).map fun i => (s.cpx.rotation + i) % 16

/-- Pipelines in service that are bound to the page, in rotation. -/
def State.boundTo (s : State) (page : Nat) : List Nat :=
  s.rotated.filter fun n => (s.pipeline n).state == 1 && (s.pipeline n).binding == page

/-- The pipeline that a transfer of a page without one takes over: an unbound one first. -/
def State.spare (s : State) : Option Nat :=
  let l := s.rotated.filter s.rebindable
  match l.find? fun n => (s.pipeline n).state == 0 with
  | some n => some n
  | none => l.head?

/-- Keys that a pipeline bound to the page carries (R340): of a tenant's page its XTS keys and the session keys of the
tenant's sessions, of the module page the keys of R357. -/
def State.vaultKeys (s : State) (page : Nat) : List Bytes :=
  if page = 1024 then (s.asu.printKey.map fun n => natBytes 32 (Config.draw n)).toList ++ [natBytes 48 Config.identityKey, natBytes 48 Config.firmwareKey,
    natBytes 32 Config.wrapKey]
  else
    (match s.cpx.pages.find? fun p => p.page == page with
      | some p => (p.xts1.map ([·])).getD [] ++ (p.xts2.map ([·])).getD []
      | none => [])
    ++ (s.wte.sessions.filter fun x => x.tenant == page && !x.half).flatMap fun x => [x.keyCm, x.keyMc]

/-- The pipeline is cleared, and bound to a page whose keys are loaded (R340). -/
def State.bind (s : State) (n page : Nat) : State :=
  let p : Pipeline := { state := 1, binding := page, input := [], express := [], keys := s.vaultKeys page }
  { s with cpx.pipelines := s.cpx.pipelines.set n p }.bump 0x7030 0x05 1

/-- While Express/0 is enabled the module page has a pipeline: where it has none, one that may be bound takes it (R341). -/
def State.keepModulePage (s : State) : State :=
  if s.tpk.share = 0 ∨ !(s.boundTo 1024).isEmpty then s
  else match s.spare with
    | some n => s.bind n 1024
    | none => s

/-- The pipelines of a transfer with the bytes of each (R339): 64-byte units in rotation over up to four of them where it has
more than four blocks, otherwise the first alone. -/
def dealt (l : List Nat) (bytes : Nat) : List (Nat × Nat) :=
  let units := ceilDiv bytes 64
  let k := if bytes ≤ 64 then 1 else min 4 (min l.length units)
  ((l.take k).zipIdx).map fun (e : Nat × Nat) =>
    let n := (units - e.2 + k - 1) / k * 64
    (e.1, if e.2 = (units - 1) % k then n - (units * 64 - bytes) else n)

/-- Deal a transfer over the pipelines bound to its page: each share enters its pipeline and goes on to where the transfer
goes. What CPX itself passes through a pipeline crosses no lane. The round keys are those that the vault holds now. -/
def State.dealOver (s : State) (l : List Nat) (j : CipherJob) : State :=
  let shares := (dealt l j.bytes).zipIdx
  let keys := s.vaultKeys j.page
  let s := shares.foldl (fun s e =>
    let x : PipeShare := { job := j, bytes := e.1.2, cycles := j.mode.cycles e.1.2, combines := j.mode.tagged && e.2 == 0 }
    let s := { s with cpx.pipelines := s.cpx.pipelines.modify e.1.1 fun p => { p.take x with keys := keys } }
    if j.src = vaultLane then s
    else (s.transfer j.src (pipeLane e.1.1) j.cls j.lead j.task e.1.2 j.back).transfer (pipeLane e.1.1) j.dst j.cls j.lead j.task
      e.1.2) s
  match shares.getLast? with
  | some e => { s with cpx.rotation := (e.1.1 + 1) % 16 }
  | none => s

/-- The dispatcher has a transfer to send: over the pipelines of its page, over one it binds to the page, or it waits. -/
def State.deal (s : State) (j : CipherJob) : State :=
  match s.boundTo j.page with
  | [] => match s.spare with
    | some n => (s.bind n j.page).dealOver [n] j
    | none => { s with cpx.waiting := s.cpx.waiting ++ [j] }
  | l => s.dealOver l j

/-- A transfer of `bytes` from one lane through the pipelines to another under a key page (R338, R339). -/
def State.crypt (s : State) (mode : CipherMode) (page src dst : Nat) (c : Cls) (lead : Bool) (task bytes : Nat)
    (cmd : Nat × Nat := (0, 0)) (back : Option (Nat × Nat) := none) : State :=
  if bytes = 0 then s
  else { s with cpx.jobOrder := s.cpx.jobOrder + 1 }.deal
    { order := s.cpx.jobOrder, page := page, mode := mode, cls := c, lead := lead, task := task, src := src, dst := dst,
      bytes := bytes, cmd := cmd, back := back }

/-- CPX encrypts single blocks under a key of a page, for a derivation or a check value (R338). -/
def State.ecbBlocks (s : State) (page blocks : Nat) : State := s.crypt .ecbE page vaultLane vaultLane 3 false noTask (16 * blocks)

/-- A CMAC of the transport under a key of a page: its subkey block, and its chained blocks, which are counted (R338, R351). -/
def State.macBlocks (s : State) (sess page blocks : Nat) : State :=
  ((s.bump 0x7030 0x04 blocks).ecbBlocks page 1).crypt .cmac page (wteLane sess) (wteLane sess) 3 false noTask (16 * blocks)

/-- The check value of a key of a page is made: a CMAC of one block, which is counted (R351, R352, R370). -/
def State.checkValue (s : State) (page : Nat) : State :=
  ((s.bump 0x7030 0x04 1).ecbBlocks page 1).crypt .cmac page vaultLane vaultLane 3 false noTask 16

/-- The transfers that wait are tried again, Express/0 first, then in arrival order; the module page comes before them. -/
def State.dealWaiting (s : State) : State :=
  let s := s.keepModulePage
  let l := s.cpx.waiting
  ((l.filter fun j => j.cls == 0) ++ l.filter fun j => j.cls != 0).foldl (fun s j => s.deal j) { s with cpx.waiting := [] }

/-- `cycles` core cycles pass in the pipelines in service. -/
def State.runPipelines (s : State) (cycles : Nat) : State :=
  { s with cpx.pipelines := s.cpx.pipelines.map fun (p : Pipeline) =>
      if p.state = 1 then { p with input := drainInput cycles p.input } else p }.dealWaiting

/-- A pipeline leaves service (R31, R342): the transfer whose blocks are in it is redone from its first block, with its
shares in other pipelines taken back, and what waits at its input goes to other pipelines of the page. -/
def State.pipelineOut (s : State) (n code : Nat) : State :=
  let l := (s.pipeline n).input
  let redo : List CipherJob := match l with
    | [] => []
    | x :: rest => x.job :: (rest.filter fun y => y.job.order != x.job.order).map fun y => { y.job with bytes := y.bytes }
  let first := (l.head?.map fun x => x.job.order)
  let left := s.cpx.pipelines.modify n fun p => { p with state := code, input := [], express := [], keys := [] }
  let s := { s with cpx.pipelines := left.map fun (p : Pipeline) => { p with input := p.input.filter fun x => some x.job.order != first } }
  redo.foldl (fun s j => s.deal j) s.keepModulePage

end Sys2Proof.Machine
end

