-- ==== Sys2Proof/Machine/Wire.lean ====
section
/-!
DEFINITION. Frames as bytes: the headers and checksums of what the module sends (R89, R90, R93, R94, R134, R234, R236,
R237, R255) and the checksums of what it receives (R235). The layouts of ARP, ICMP, LLDP, PTP, PFC and PAUSE are those of
the standards that the spec names (PRESUMED, entry 106 of the log).
-/
namespace Sys2Proof

/-! ## The Internet checksum -/

/-- Sum of the 16-bit words of a string, an odd last byte filled with 0. -/
def wordSum : Bytes → Nat
  | [] => 0
  | [a] => a.toNat * 256
  | a :: b :: t => a.toNat * 256 + b.toNat + wordSum t

/-- The sum with its carries folded back: 1 to 65,535, or 0 for 0. -/
def foldSum (n : Nat) : Nat := if n = 0 then 0 else (n - 1) % 65535 + 1

/-- The checksum of a string. -/
def inetChecksum (n : Nat) : Nat := 0xFFFF - foldSum n

/-- An IP address as its bytes. -/
def IpAddr.bytes (a : IpAddr) : Bytes := if a.v6 then natBytes 16 a.addr else natBytes 4 a.addr

/-- Word sum of the pseudo-header of a protocol over `len` bytes. -/
def pseudoSum (src dst : Bytes) (proto len : Nat) : Nat := wordSum (src ++ dst) + len / 65536 + len % 65536 + proto

/-! ## Checks on received frames (R235) -/

/-- Offset of the IP header in the frame. -/
def RxFrame.ipAt (f : RxFrame) : Nat := if f.tag.isSome then 18 else 14

/-- The frame carries an IPv4 packet whose header checksum is wrong. -/
def RxFrame.ipCsumBad (f : RxFrame) : Bool :=
  f.etherType == 0x0800
    && foldSum (wordSum (slice f.raw f.ipAt (numAt f.raw f.ipAt 1 % 16 * 4))) != 0xFFFF

/-- Sum over pseudo-header and UDP datagram at an offset. -/
def RxFrame.udpSum (f : RxFrame) (at_ addrAt addrLen : Nat) : Nat :=
  let len := numAt f.raw (at_ + 4) 2
  pseudoSum (slice f.raw addrAt addrLen) (slice f.raw (addrAt + addrLen) addrLen) 17 len + wordSum (slice f.raw at_ len)

/-- Where the UDP datagram of an IPv6 packet begins, behind its extension headers (RFC 8200); none for a fragment of a larger
packet and for another protocol. -/
def ipv6Udp (raw : Bytes) : (fuel next at_ : Nat) → Option Nat
  | 0, _, _ => none
  | n + 1, next, at_ =>
    if next = 17 then some at_
    else if [0, 43, 60, 135, 139, 140].contains next then ipv6Udp raw n (numAt raw at_ 1) (at_ + 8 * (numAt raw (at_ + 1) 1 + 1))
    else if next = 51 then ipv6Udp raw n (numAt raw at_ 1) (at_ + 4 * (numAt raw (at_ + 1) 1 + 2))
    else if next = 44 ∧ numAt raw (at_ + 2) 2 / 8 = 0 ∧ numAt raw (at_ + 2) 2 % 2 = 0 then ipv6Udp raw n (numAt raw at_ 1) (at_ + 8)
    else none

/-- The frame carries an unfragmented UDP datagram whose checksum fails: an IPv4 checksum of 0 is not checked, an IPv6
checksum of 0 fails. -/
def RxFrame.udpCsumBad (f : RxFrame) : Bool :=
  let o := f.ipAt
  if f.etherType = 0x0800 then
    let u := o + numAt f.raw o 1 % 16 * 4
    numAt f.raw (o + 9) 1 == 17 && numAt f.raw (o + 6) 2 % 16384 == 0 && numAt f.raw (u + 6) 2 != 0
      && foldSum (f.udpSum u (o + 12) 4) != 0xFFFF
  else
    f.etherType == 0x86DD && (ipv6Udp f.raw 64 (numAt f.raw (o + 6) 1) (o + 40)).any fun u =>
      numAt f.raw (u + 6) 2 == 0 || foldSum (f.udpSum u (o + 8) 16) != 0xFFFF

end Sys2Proof

namespace Sys2Proof.Machine

/-! ## Fragments (R94, R99, R134) -/

/-- The plaintext of a fragment: lead block and data. -/
def TxFrag.plain (f : TxFrag) : Bytes :=
  (if f.index = 0 ∧ f.count ≠ 0 then natBytes 2 (24 + f.fields.length) ++ natBytes 2 f.unit ++ natBytes 4 f.legLen
    ++ natBytes 8 f.msgLen ++ natBytes 8 f.legOff ++ f.fields else []) ++ f.data

/-- The 40-byte header of a fragment (R94). -/
def TxFrag.header (f : TxFrag) : Bytes :=
  natBytes 2 0xB0E1 ++ natBytes 2 f.flags ++ natBytes 4 f.session ++ natBytes 4 f.seq ++ natBytes 4 f.cumAck ++ natBytes 4 f.sack
    ++ natBytes 8 f.reqId ++ natBytes 1 f.opcode ++ natBytes 1 f.status ++ natBytes 2 (2 ^ 14 * f.cls.val + f.index)
    ++ natBytes 2 f.count ++ natBytes 2 f.plain.length ++ natBytes 2 f.credit ++ natBytes 2 f.leg

/-- A nonce as its 12 bytes (R135). -/
def nonceBytes (n : Nonce) : Bytes := natBytes 12 (bitOf n.toClient 95 + n.epoch * 2 ^ 64 + n.counter)

/-- The fragment as the payload of its UDP datagram. -/
def TxFrag.bytes (f : TxFrag) : Bytes :=
  match f.nonce with
  | none => f.header ++ f.plain
  | some n => f.header ++ nonceBytes n ++ f.cipher ++ natBytes 16 f.gcm

/-! ## IP, UDP and Ethernet (R89, R90, R234, R236) -/

/-- IPv4 header: version 4, IHL 5, ECN 0, identification 0, Don't Fragment, and its checksum. -/
def ipv4Header (dscp len ttl proto : Nat) (src dst : IpAddr) : Bytes :=
  let head := [0x45, BitVec.ofNat 8 (dscp * 4)] ++ natBytes 2 (20 + len) ++ zeros 2 ++ natBytes 2 0x4000 ++ natBytes 1 ttl
    ++ natBytes 1 proto
  let ends := src.bytes ++ dst.bytes
  head ++ natBytes 2 (inetChecksum (wordSum (head ++ zeros 2 ++ ends))) ++ ends

/-- IPv6 header: ECN 0, flow label 0. -/
def ipv6Header (dscp len ttl proto : Nat) (src dst : IpAddr) : Bytes :=
  natBytes 4 (6 * 2 ^ 28 + dscp * 2 ^ 22) ++ natBytes 2 len ++ natBytes 1 proto ++ natBytes 1 ttl ++ src.bytes ++ dst.bytes

/-- An IP datagram in the family of its source address. -/
def ipDatagram (dscp ttl proto : Nat) (src dst : IpAddr) (payload : Bytes) : Bytes :=
  (if src.v6 then ipv6Header dscp payload.length ttl proto src dst else ipv4Header dscp payload.length ttl proto src dst)
    ++ payload

/-- A UDP datagram with its checksum over the pseudo-header; a computed 0x0000 is sent as 0xFFFF. -/
def udpDatagram (src dst : IpAddr) (srcPort dstPort : Nat) (payload : Bytes) : Bytes :=
  let head := natBytes 2 srcPort ++ natBytes 2 dstPort ++ natBytes 2 (8 + payload.length)
  let c := inetChecksum (pseudoSum src.bytes dst.bytes 17 (8 + payload.length) + wordSum head + wordSum payload)
  head ++ natBytes 2 (if c = 0 then 0xFFFF else c) ++ payload

/-- An Ethernet frame up to its FCS, filled to 60 bytes: one 802.1Q tag where a VLAN ID is given. -/
def ethernet (dst src : Nat) (tag : Option (Nat × Nat)) (etherType : Nat) (payload : Bytes) : Bytes :=
  let head := natBytes 6 dst ++ natBytes 6 src ++ (match tag with
    | some (pcp, vid) => natBytes 2 0x8100 ++ natBytes 2 (pcp * 8192 + vid)
    | none => []) ++ natBytes 2 etherType
  head ++ payload ++ zeros (60 - (head.length + payload.length))

/-- EtherType of an IP family. -/
def ipEtherType (v6 : Bool) : Nat := if v6 then 0x86DD else 0x0800

/-- A datagram in its frame: HOP_LIMIT of the port, DSCP and, when tagged, PCP as given. -/
def State.ipFrame (s : State) (p : Port) (c : Carriage) (dscp pcp proto : Nat) (payload : Bytes) : Bytes :=
  ethernet c.dstMac (s.mac p) (c.vid.map fun v => (pcp, v)) (ipEtherType c.src.v6)
    (ipDatagram dscp (s.pnum p 0x09 0) proto c.src c.dst payload)

/-- A Wombe datagram in its frame, from WOMBE_UDP_PORT. -/
def State.wombeFrame (s : State) (p : Port) (f : TxFrag) (c : Carriage) (dscp pcp : Nat) : Bytes :=
  s.ipFrame p c dscp pcp 17 (udpDatagram c.src c.dst s.wte.udpPort c.dstPort f.bytes)

/-- A Wombe frame marked with the DSCP and the PCP of its class (R93). -/
def State.markedFrame (s : State) (p : Port) (f : TxFrag) (c : Carriage) : Bytes :=
  s.wombeFrame p f c (s.num 0x2006 (f.cls.val + 1)) (s.num 0x2007 (f.cls.val + 1))

/-! ## Frames of the responders, LLDP, PTP and flow control -/

/-- An ARP packet: operation 1 request or 2 reply, sender and target. -/
def arpPacket (op senderMac sender targetMac target : Nat) : Bytes :=
  natBytes 2 1 ++ natBytes 2 0x0800 ++ natBytes 1 6 ++ natBytes 1 4 ++ natBytes 2 op ++ natBytes 6 senderMac ++ natBytes 4 sender
    ++ natBytes 6 targetMac ++ natBytes 4 target

/-- An ICMP or ICMPv6 message with its checksum. -/
def icmpMessage (src dst : IpAddr) (type_ : Nat) (body : Bytes) : Bytes :=
  let sum := type_ * 256 + wordSum body + (if src.v6 then pseudoSum src.bytes dst.bytes 58 (4 + body.length) else 0)
  natBytes 1 type_ ++ zeros 1 ++ natBytes 2 (inetChecksum sum) ++ body

/-- Neighbour advertisement: solicited and override flags, the target, and its link-layer address (R237, R238). -/
def neighbourBody (addr mac : Nat) (solicited : Bool) : Bytes :=
  natBytes 4 (bitOf solicited 30 + 2 ^ 29) ++ natBytes 16 addr ++ natBytes 1 2 ++ natBytes 1 1 ++ natBytes 6 mac

/-- A TLV of LLDP. -/
def lldpTlv (type_ : Nat) (b : Bytes) : Bytes := natBytes 2 (type_ * 512 + b.length) ++ b

/-- The LLDPDU of R255: Chassis ID, Port ID, TTL 120, the EEE TLV and End. -/
def State.lldpdu (s : State) (p : Port) (rxTw txTw partnerRx partnerTx : Nat) : Bytes :=
  lldpTlv 1 (natBytes 1 4 ++ natBytes 6 (s.mac p)) ++ lldpTlv 2 [5, match p with | .a => 0x41 | .b => 0x42]
    ++ lldpTlv 3 (natBytes 2 120)
    ++ lldpTlv 127 (natBytes 4 0x00120F05 ++ natBytes 2 txTw ++ natBytes 2 rxTw ++ natBytes 2 rxTw ++ natBytes 2 partnerTx
      ++ natBytes 2 partnerRx)
    ++ lldpTlv 0 []

/-- Port identity of the follower clock: the EUI-64 of the port's MAC address, port 1. -/
def State.clockPort (s : State) (p : Port) : Nat :=
  ((s.mac p / 2 ^ 24 * 2 ^ 16 + 0xFFFE) * 2 ^ 24 + s.mac p % 2 ^ 24) * 2 ^ 16 + 1

/-- A Delay_Req message. -/
def State.delayReq (s : State) (p : Port) (seq : Nat) : Bytes :=
  [0x01, 0x12] ++ natBytes 2 44 ++ natBytes 1 (s.num 0x1002 0) ++ zeros 15 ++ natBytes 10 (s.clockPort p) ++ natBytes 2 seq
    ++ [0x01, 0x7F] ++ zeros 10

/-- The frame of a Delay_Req on the transport of PTP_TRANSPORT (R257). DESIGN CHOICE (log 125): untagged, with DSCP 0, over
IPv6 from the first of the port's IPv6 addresses that is in use. -/
def State.delayReqFrame (s : State) (p : Port) (seq : Nat) : Bytes :=
  let m := s.delayReq p seq
  match s.num 0x1003 0 with
  | 0 => ethernet 0x011B19000000 (s.mac p) none 0x88F7 m
  | 1 =>
    let src : IpAddr := { v6 := false, addr := s.pnum p 0x04 0 }
    let dst : IpAddr := { v6 := false, addr := 0xE0000181 }
    s.ipFrame p { dstMac := 0x01005E000181, vid := none, src := src, dst := dst, dstPort := 319 } 0 0 17
      (udpDatagram src dst 319 319 m)
  | _ =>
    let src : IpAddr := { v6 := true, addr := (((List.range 4).map (s.ipv6 p)).find? (· != 0)).getD 0 }
    let dst : IpAddr := { v6 := true, addr := 0xFF0E * 2 ^ 112 + 0x181 }
    s.ipFrame p { dstMac := 0x333300000181, vid := none, src := src, dst := dst, dstPort := 319 } 0 0 17
      (udpDatagram src dst 319 319 m)

/-- A frame as its bytes on the wire, up to the FCS. Responder replies have DSCP 0 and, when tagged, PCP 0. -/
def State.wire (s : State) (p : Port) : TxFrame → Bytes
  | .fragment f c => s.markedFrame p f c
  | .handshake f c => s.markedFrame p f c
  | .noSession f c => s.wombeFrame p f c 0 0
  | .arpReply own peer dstMac vid =>
    ethernet dstMac (s.mac p) (vid.map fun v => (0, v)) 0x0806 (arpPacket 2 (s.mac p) own dstMac peer)
  | .gratuitousArp addr => ethernet 0xFFFFFFFFFFFF (s.mac p) none 0x0806 (arpPacket 1 (s.mac p) addr 0 addr)
  | .neighbourAdvert own addr dst dstMac vid solicited =>
    let a : IpAddr := { v6 := true, addr := own }
    let d : IpAddr := { v6 := true, addr := dst }
    ethernet dstMac (s.mac p) (vid.map fun v => (0, v)) 0x86DD
      (ipDatagram 0 (s.pnum p 0x09 0) 58 a d (icmpMessage a d 136 (neighbourBody addr (s.mac p) solicited)))
  | .echoReply c ident seq data =>
    s.ipFrame p c 0 0 (if c.src.v6 then 58 else 1)
      (icmpMessage c.src c.dst (if c.src.v6 then 129 else 0) (natBytes 2 ident ++ natBytes 2 seq ++ data))
  | .lldp rx tx prx ptx => ethernet 0x0180C200000E (s.mac p) none 0x88CC (s.lldpdu p rx tx prx ptx)
  | .delayReq seq => s.delayReqFrame p seq
  | .pfc priority quanta =>
    ethernet 0x0180C2000001 (s.mac p) none 0x8808 (natBytes 2 0x0101 ++ natBytes 2 (2 ^ priority)
      ++ cat ((List.range 8).map fun i => natBytes 2 (if i = priority then quanta else 0)))
  | .pauseFrame quanta => ethernet 0x0180C2000001 (s.mac p) none 0x8808 (natBytes 2 0x0001 ++ natBytes 2 quanta)

/-- A frame of the responders, LLDP or Delay_Req joins RESPONDER_QUEUE, with its length on the wire (R237, R247). -/
def State.respond (s : State) (p : Port) (f : TxFrame) : State := s.enqueue p (s.num 0x1000 0) f ((s.wire p f).length + 4)

/-- Gratuitous ARP and unsolicited neighbour advertisements (R238). -/
def State.announceAddresses (s : State) (p : Port) : State :=
  let s := if s.pnum p 0x04 0 = 0 then s else s.respond p (.gratuitousArp (s.pnum p 0x04 0))
  (List.range 4).foldl (fun s i =>
    if s.ipv6 p i = 0 then s else s.respond p (.neighbourAdvert (s.ipv6 p i) (s.ipv6 p i) (0xFF02 * 2 ^ 112 + 1) 0x333300000001 none false)) s

/-- Transmit lanes that a link state drives (R226): none while the port is not up. -/
def lanesOf (linkState : Nat) : Nat :=
  match linkState with
  | 2 => 0xF
  | 3 => 0x3
  | 4 => 0x1
  | _ => 0

end Sys2Proof.Machine
end

