-- ==== Sys2Proof/Machine/DataPorts.lean ====
section
/-!
DEFINITION. The rows of the data ports: frames received and sent, flow control, link, low-power idle, LLDP and the
PTP follower (R226 to R258).
-/
namespace Sys2Proof.Machine

/-! ## FRAME_RECEIVE -/

/-- The first failing check of R242: its counter and capture flag. -/
def State.frameFault (s : State) (p : Port) (f : RxFrame) : Option (Nat × Nat) :=
  let most := s.pnum p 0x03 0 + (if f.tag.isSome then 22 else 18)
  if !f.fcsOk then some (0x05, 0x01)
  else if f.len < 64 then some (0x06, 0x02)
  else if most < f.len then some (0x07, 0x04)
  else if f.ipCsumBad then some (0x08, 0x08)
  else if f.udpCsumBad then some (0x09, 0x10)
  else none

/-- Class of the frame's marking (R92, R145). -/
def State.frameClass (s : State) (f : Frag) : Nat :=
  match f.tag with
  | some t => if s.num 0x2004 0 = 1 then s.num 0x2003 (t.pcp + 1) else s.num 0x2002 (f.dscp + 1)
  | none => s.num 0x2002 (f.dscp + 1)

/-- The frame is kept for a row of its own, in its partition: consumed by the port, or passed to WTE. -/
def State.hold (s : State) (p : Port) (f : RxFrame) : State :=
  let i := s.rxPriority f
  let s := s.setPartition p i (s.partition p i + f.len)
  let s := match f.body with
    | .udp d => s.mapPort p fun x => { x with
        toWte := x.toWte ++ [({ frag := d, part := i, len := f.len, rx := s.cqc.cycle, mark := s.frameClass d } : Datagram)] }
    | b => s.mapPort p fun x => { x with inbox := x.inbox ++ [(b, i, f.len)] }
  s.flowCheck p i

/-- Echo replies sent by the port in the last second (R237). DESIGN CHOICE (log 109): the second is a sliding window. -/
def PortS.echoRecent (x : PortS) (now : Nat) : List Nat := x.echoTimes.filter fun t => decide (now < t + 1000000)

/-- A whole frame past every check, by its kind (R232, R237). DESIGN CHOICE (log 109): a neighbour solicitation sent to an
address of the port for a target that the port does not hold counts in ICMP_IGNORED, one sent elsewhere in IP_MISS. DESIGN
CHOICE (log 125): a PTP message over another transport than PTP_TRANSPORT counts in OTHER_DROPPED. -/
def State.handle (s : State) (p : Port) (f : RxFrame) : State :=
  match f.body with
  | .pause _ | .pfc _ _ | .lldp _ => s.hold p f
  | .ptp tr _ _ => if s.isPtpPort p && tr == s.num 0x1003 0 then s.hold p f else s.pbump p 0x0C 1
  | .arp request sender target =>
    if request && target != 0 && target == s.pnum p 0x04 0 then
      (s.respond p (.arpReply target sender f.srcMac (f.tag.map (·.vid)))).pbump p 0x12 1
    else s.pbump p 0x0C 1
  | .neighbourSolicit src dst target =>
    if s.ownAddr p { v6 := true, addr := target } then
      let own := if s.ownAddr p { v6 := true, addr := dst } then dst else target
      (s.respond p (.neighbourAdvert own target (if src = 0 then 0xFF02 * 2 ^ 112 + 1 else src) f.srcMac
        (f.tag.map (·.vid)) (src != 0))).pbump p 0x13 1
    else if s.ownAddr p { v6 := true, addr := dst } then s.pbump p 0x0D 1
    else s.pbump p 0x0B 1
  | .echo src dst ident seq data =>
    if !s.ownAddr p dst then s.pbump p 0x0B 1
    else
      let recent := (s.port p).echoRecent s.now
      if 10000 ≤ recent.length then s.pbump p 0x15 1
      else ((s.mapPort p fun x => { x with echoTimes := s.now :: recent }).respond p
        (.echoReply { dstMac := f.srcMac, vid := f.tag.map (·.vid), src := dst, dst := src, dstPort := 0 } ident seq data)).pbump p 0x14 1
  | .icmpOther dst => if s.ownAddr p dst then s.pbump p 0x0D 1 else s.pbump p 0x0B 1
  | .udp d => if s.ownAddr p d.dst then s.hold p f else s.pbump p 0x0B 1
  | .ipOther dst => if s.ownAddr p dst then s.pbump p 0x0C 1 else s.pbump p 0x0B 1
  | .other => s.pbump p 0x0C 1

/-- A frame arrives whole at a port that is up: filter (R231), partition (R241), checks (R242), tags and kind (R232). -/
def State.receive (s : State) (p : Port) (f : RxFrame) : State :=
  if !s.accepts p f.dstMac then
    let s := s.pbump p 0x0A 1
    if s.pflag p 0x1D 0 then s.capture p f 0x20 else s
  else
    let i := s.rxPriority f
    if s.rxLimit p i < s.partition p i + f.len then s.bump (p.base + 0x21) (i + 1) 1
    else match s.frameFault p f with
      | some (ctr, flag) =>
        let s := s.pbump p ctr 1
        if s.pflag p 0x1C 0 then s.capture p f flag else s
      | none =>
        let s := (s.pbump p 0x01 1).pbump p 0x03 f.len
        if f.secondTag || (f.tag.any fun t => t.vid == 4095) then s.pbump p 0x0C 1 else s.handle p f

/-- FRAME_RECEIVE (R232). -/
def execFrameReceive (p : Port) (f : RxFrame) (s : State) : Host.Outcome State Fault Refusal :=
  if !f.ok then .refused (.illFormed "FRAME_RECEIVE")
  else if (s.port p).up then .next (((s.pbump p 0x16 f.fecFixed).pbump p 0x17 f.fecLost).frameWakes.receive p f) else .next s

/-! ## Flow control -/

/-- Take the first frame of the inbox that is of a kind: its body, and the state without it. -/
def State.takeInbox (s : State) (p : Port) (kind : FrameBody → Bool) : Option (FrameBody × State) :=
  match (s.port p).inbox.find? fun e => kind e.1 with
  | none => none
  | some (b, i, len) =>
    some (b, (s.mapPort p fun x => { x with inbox := x.inbox.eraseP fun e => kind e.1 }).release p i len)

def FrameBody.isPause : FrameBody → Bool
  | .pause _ | .pfc _ _ => true
  | _ => false

/-- Nanoseconds of a number of quanta of 512 bit times (R251), rounded up. -/
def quantaNs (quanta rate : Nat) : Nat := ceilDiv (quanta * 512) rate

/-- A pause of `quanta` reaches transmit queue `q`: 0 ends it; ignored while the watchdog says so (R251, R253). -/
def PortS.pauseQueue (x : PortS) (q quanta cycle now rate : Nat) : PortS :=
  if (x.ignoreUntil.getD q none).any (fun t => decide (now < t)) then x
  else if quanta = 0 then { x with pausedUntil := x.pausedUntil.set q none, pausedSince := x.pausedSince.set q none }
  else { x with pausedUntil := x.pausedUntil.set q (some (cycle + quantaNs quanta rate)),
                pausedSince := x.pausedSince.set q (some
                  (if (x.pausedUntil.getD q none).any (fun t => decide (cycle < t)) then (x.pausedSince.getD q none).getD now
                   else now)) }

/-- A received pause frame acts on the transmit queues by the port's mode (R251). -/
def State.pauseFrame (s : State) (p : Port) (b : FrameBody) : State :=
  let rate := rateOf (s.port p).linkState
  match s.pnum p 0x0B 0, b with
  | 1, .pfc enable quanta =>
    let on := s.pnum p 0x0C 0
    let s := s.mapPort p fun x => (List.range 8).foldl (fun x q =>
      if bit enable q && bit on q then x.pauseQueue q (quanta.getD q 0) s.cqc.cycle s.now rate else x) x
    if (List.range 8).any fun q => bit enable q && !bit on q then s.pbump p 0x0F 1 else s
  | 2, .pause quanta =>
    s.mapPort p fun x => (List.range 8).foldl (fun x q => x.pauseQueue q quanta s.cqc.cycle s.now rate) x
  | _, _ => s.pbump p 0x0F 1

/-- PFC_FRAME_RX (R251): the oldest waiting pause frame is consumed. -/
def execPfcFrameRx (p : Port) (s : State) : Host.Outcome State Fault Refusal :=
  match s.takeInbox p FrameBody.isPause with
  | none => .next s
  | some (b, s) => .next (s.pauseFrame p b)

/-- PFC_REFRESH (R252): the pause is repeated every 32,768 quanta while the partition stays above its threshold. -/
def execPfcRefresh (p : Port) (q : Nat) (s : State) : Host.Outcome State Fault Refusal :=
  if 8 ≤ q then .fault .noSuchUnit
  else if (s.port p).pauseSent.getD q false && s.flowOn p q && s.fillHigh p q
      && decide ((s.port p).pauseAt.getD q 0 + quantaNs 32768 (rateOf (s.port p).linkState) ≤ s.cqc.cycle) then
    .next (s.sendPause p q 0xFFFF)
  else .next s

/-- PAUSE_EXPIRY (R251): a queue's quanta have run out. -/
def execPauseExpiry (p : Port) (q : Nat) (s : State) : Host.Outcome State Fault Refusal :=
  if 8 ≤ q then .fault .noSuchUnit
  else if ((s.port p).pausedUntil.getD q none).any (fun t => decide (t ≤ s.cqc.cycle)) then
    .next (s.mapPort p fun x => { x with pausedUntil := x.pausedUntil.set q none, pausedSince := x.pausedSince.set q none })
  else .next s

/-- The watchdog's release (R253): in PAUSE mode of every queue, otherwise of queue `q`. -/
def PortS.breakPause (x : PortS) (all : Bool) (q untilUs : Nat) : PortS :=
  if all then { x with pausedUntil := List.replicate 8 none, pausedSince := List.replicate 8 none,
                       ignoreUntil := List.replicate 8 (some untilUs) }
  else { x with pausedUntil := x.pausedUntil.set q none, pausedSince := x.pausedSince.set q none,
                ignoreUntil := x.ignoreUntil.set q (some untilUs) }

/-- PAUSE_WATCHDOG (R253): a queue that is still paused and has been so without a break. -/
def execPauseWatchdog (p : Port) (q : Nat) (s : State) : Host.Outcome State Fault Refusal :=
  if 8 ≤ q then .fault .noSuchUnit
  else
    let wd := s.pnum p 0x0E 0
    if ((s.port p).pausedSince.getD q none).any (fun t => decide (t + wd * 1000 ≤ s.now))
        && ((s.port p).pausedUntil.getD q none).any (fun t => decide (s.cqc.cycle < t)) then
      let all := s.pnum p 0x0B 0 == 2
      .next (((s.mapPort p fun x => x.breakPause all q (s.now + wd * 1000)).pbump p 0x11 1).raise 0x1406 p.unit
        (if all then 0xFF else q) wd 0)
    else .next s

/-- PAUSE_HONOUR_RESUME (R253): the watchdog's second period has passed. -/
def execPauseHonourResume (p : Port) (q : Nat) (s : State) : Host.Outcome State Fault Refusal :=
  if 8 ≤ q then .fault .noSuchUnit
  else if ((s.port p).ignoreUntil.getD q none).any (fun t => decide (t ≤ s.now)) then
    .next (s.mapPort p fun x => { x with ignoreUntil := x.ignoreUntil.set q none })
  else .next s

/-! ## Link -/

/-- LINK_STATE of the highest mode both sides advertise, dropped modes left out (R227). -/
def State.resolve (s : State) (p : Port) (partner : Nat) : Nat :=
  let own := s.pnum p 0x00 0
  bestMode ((List.range 3).foldl (fun n i => n + bitOf (bit own i && bit partner i && !bit (s.port p).dropped i) i) 0)

/-- The in-use queues whose datagram limit is too small (R246, R250), with the limit. -/
def State.smallQueues (s : State) (p : Port) (g : GateList) (rate : Nat) : List (Nat × Nat) :=
  (s.queuesInUse.map fun q => (q, g.limit (s.pnum p 0x03 0) rate q)).filter fun e => decide (e.2 < 1280)

/-- The list is suspended when a link comes up too slow for it (R250). -/
def State.gateSuspend (s : State) (p : Port) : State :=
  match s.smallQueues p (s.port p).oper (rateOf (s.port p).linkState) with
  | [] => s
  | (q, l) :: _ => (s.mapPort p fun x => { x with gateState := 2 }).raise 0x1405 p.unit q l 0

/-- One LLDPDU (R255). -/
def State.sendLldp (s : State) (p : Port) : State :=
  s.respond p (.lldp (s.pnum p 0x1A 1) (s.pnum p 0x1A 2) (s.pnum p 0x1A 3) (s.pnum p 0x1A 4))

/-- The port engine runs: from step 4 of start-up on, and its unit neither isolated nor retired (R229, R567, R569). -/
def State.portRuns (s : State) (p : Port) : Bool :=
  !s.pch.outOfService && (s.health ⟨1, p.num⟩).state == 0 && (match s.pch.power with
    | .hold | .off => false
    | .startUp => decide (4 ≤ s.pch.step)
    | _ => true)

/-- LINK_UP (R227): negotiation with a partner seen since power-up succeeds at the highest common mode. -/
def execLinkUp (p : Port) (partner : Nat) (s : State) : Host.Outcome State Fault Refusal :=
  let m := s.resolve p partner
  if (s.port p).up || m == 0 || !(s.port p).partnerSeen || !s.portRuns p then .next s
  else
    let s := s.mapPort p fun x => { x with linkState := m, trainMode := 0, trainFails := 0, idleSince := s.now }
    let s := (s.raise 0x1001 p.unit m 0 0).announceAddresses p
    let s := if s.pflag p 0x1B 0 then (s.sendLldp p).mapPort p fun x => { x with lldpDue := s.now + 30000000 } else s
    .next (s.gateSuspend p)

/-- The link of a port falls (R229): waiting frames are discarded; sessions stay. -/
def State.linkFalls (s : State) (p : Port) : State :=
  if (s.port p).up then
    let old := (s.port p).linkState
    ((s.mapPort p fun x => { x with linkState := 0, txq := List.replicate 8 [], bypass := [], lpiTx := false,
                                    lpiRx := false }).pbump p 0x18 1).raise 0x1402 p.unit old 0 0
  else s

/-- LINK_DOWN (R229). -/
def execLinkDown (p : Port) (s : State) : Host.Outcome State Fault Refusal := .next (s.linkFalls p)

/-- TRAINING_FAILURE (R227): the third failure in a row at one mode drops the mode; `mode` is the LINK_ABILITIES bit of a
mode that the port advertises. -/
def execTrainingFailure (p : Port) (mode : Nat) (s : State) : Host.Outcome State Fault Refusal :=
  if 3 ≤ mode then .fault .noSuchUnit
  else if (s.port p).up ∨ !s.portRuns p ∨ !bit (s.pnum p 0x00 0) mode ∨ bit (s.port p).dropped mode then .next s
  else
    let n := if (s.port p).trainMode = mode then (s.port p).trainFails + 1 else 1
    if n < 3 then .next (s.mapPort p fun x => { x with trainMode := mode, trainFails := n })
    else .next (((s.mapPort p fun x => { x with trainMode := mode, trainFails := 0, dropped := setBit x.dropped mode,
                                                linkState := 1 }).pbump p 0x19 3).raise 0x1403 p.unit (2 ^ mode) 0 0)

/-- LINK_PARTNER_DETECT (R625): Clause 73 signalling seen, the port begins its own negotiation unless held down. -/
def execLinkPartnerDetect (p : Port) (s : State) : Host.Outcome State Fault Refusal :=
  if !s.portRuns p then .next s
  else .next (s.mapPort p fun x => { x with partnerSeen := true,
                                            linkState := if x.linkState = 0 ∧ s.pnum p 0x00 0 ≠ 0 then 1 else x.linkState })

/-! ## Low-power idle and LLDP -/

/-- Nothing waits to be sent on the port. -/
def PortS.idle (x : PortS) : Bool := x.bypass.isEmpty && x.txq.all (·.isEmpty)

/-- LPI_ENTRY (R254): the transmitter asserts LPI in Doze, or in Ready after 2 µs with nothing to send. -/
def execLpiEntry (p : Port) (s : State) : Host.Outcome State Fault Refusal :=
  let x := s.port p
  if x.up && s.pflag p 0x18 0 && !x.lpiTx && x.idle
      && (s.pch.power == .doze || (s.pflag p 0x19 0 && s.due (x.idleSince + 2))) then
    .next ((s.mapPort p fun x => { x with lpiTx := true }).pbump p 0x1A 1)
  else .next s

/-- Wait before the first frame after LPI (R256). -/
def State.lpiWake (s : State) (p : Port) : Nat :=
  let x := s.port p
  if x.eeeTlvSeen then max (s.pnum p 0x1A 3) (Config.minWakeUs x.linkState) else Config.defaultWakeUs x.linkState

/-- LPI_EXIT (R256): the transmitter leaves LPI to send. -/
def execLpiExit (p : Port) (s : State) : Host.Outcome State Fault Refusal :=
  if (s.port p).lpiTx && !(s.port p).idle then
    .next (s.mapPort p fun x => { x with lpiTx := false, lpiWakeAt := s.now + s.lpiWake p })
  else .next s

/-- LPI_RX_ENTRY (R254): the partner's low-power idle is honoured on receive while EEE_ENABLE is TRUE. -/
def execLpiRxEntry (p : Port) (s : State) : Host.Outcome State Fault Refusal :=
  if (s.port p).up && s.pflag p 0x18 0 && !(s.port p).lpiRx then
    .next ((s.mapPort p fun x => { x with lpiRx := true }).pbump p 0x1B 1)
  else .next s

/-- LPI_RX_EXIT (R256): the receiver leaves LPI on the partner's wake signalling. -/
def execLpiRxExit (p : Port) (s : State) : Host.Outcome State Fault Refusal :=
  .next (s.mapPort p fun x => { x with lpiRx := false })

def FrameBody.isLldp : FrameBody → Bool
  | .lldp _ => true
  | _ => false

/-- LLDP_RX (R255): of a received LLDPDU only the EEE TLV is used, partner Receive Tw and Transmit Tw. -/
def execLldpRx (p : Port) (s : State) : Host.Outcome State Fault Refusal :=
  match s.takeInbox p FrameBody.isLldp with
  | some (.lldp (some (rxTw, txTw)), s) =>
    if s.pflag p 0x1B 0 then
      .next (((s.putNum (p.base + 0x1A) 3 rxTw).putNum (p.base + 0x1A) 4 txTw).mapPort p
        fun x => { x with eeeTlvSeen := true })
    else .next s
  | some (_, s) => .next s
  | none => .next s

/-- LLDP_TIMER (R255): one LLDPDU every 30 s while LLDP_ENABLE is TRUE. -/
def execLldpTimer (p : Port) (s : State) : Host.Outcome State Fault Refusal :=
  if (s.port p).up && s.pflag p 0x1B 0 && s.due (s.port p).lldpDue then
    .next ((s.sendLldp p).mapPort p fun x => { x with lldpDue := s.now + 30000000 })
  else .next s

/-! ## PTP follower -/

def FrameBody.isPtp : FrameBody → Bool
  | .ptp _ _ _ => true
  | _ => false

/-- A delay and an offset are known: the state follows, the offset and path delay are reported, wall time is steered
unless the leader's timescale is not PTP's (R258, R536). The offset is leader time less own time. -/
def State.measured (s : State) (offset delay : Int) : State :=
  let s := { s with dpx.ptp.state := 3 }
  let s := (s.putNum 0x1005 0 (clampI 32 offset)).putNum 0x1006 0 (clampU 32 delay.toNat)
  if s.dpx.ptp.timescaleOk then s.steer offset else s

/-- The default best master clock algorithm's comparison of two Announces (IEEE 1588-2019, R257): a grandmaster's own
data first, then its identity; of one grandmaster the fewer steps, then the lower port identity. -/
def betterClock (a : ClockData) (aSource : Nat) (b : ClockData) (bSource : Nat) : Bool :=
  let less : List (Nat × Nat) → Bool := fun l => ((l.find? fun x => x.1 != x.2).map fun x => decide (x.1 < x.2)).getD false
  if a.identity = b.identity then less [(a.steps, b.steps), (aSource, bSource)]
  else less [(a.priority1, b.priority1), (a.clockClass, b.clockClass), (a.accuracy, b.accuracy), (a.variance, b.variance),
             (a.priority2, b.priority2), (a.identity, b.identity)]

/-- A pair of Sync times: the own receive time, in the leader's timescale, less the leader's origin time. -/
def State.syncPair (s : State) (origin rx : Int) : State :=
  { s with dpx.ptp := { s.dpx.ptp with msDiff := some (rx + s.dpx.ptp.utcOffset * 1000000000 - origin),
                                       syncRx := none } }

/-- An Announce (R257, R258, R536): the leader is chosen by the best master clock algorithm. -/
def State.announce (s : State) (leader : Nat) (data : ClockData) (utc : Int) (utcValid scaleOk : Bool) (intervalUs : Nat) :
    State :=
  let q := s.dpx.ptp
  let take := q.state == 1 || q.leader == leader || betterClock data leader q.best q.leader
  if q.state = 0 ∨ !take then s
  else
    let fresh := q.leader != leader || q.state == 1
    let s := { s with dpx.ptp := { q with
      leader := leader, best := data, intervalUs := intervalUs, lastAnnounce := s.now,
      state := if fresh then 2 else q.state,
      msDiff := if fresh then none else q.msDiff, syncRx := if fresh then none else q.syncRx,
      delaySent := if fresh then none else q.delaySent, delayDue := if fresh then s.now else q.delayDue,
      utcOffset := if utcValid ∧ (q.state ≠ 3 ∨ fresh) then utc else q.utcOffset, timescaleOk := scaleOk } }
    let s := s.putBytes 0x1007 0 (natBytes 10 leader)
    if scaleOk then s else s.raise 0x1407 (wholeUnit 1) (leader / 2 ^ 16 % 2 ^ 32) 0 0

/-- A PTP message in the follower clock's domain (R257, R258): of another clock than the leader only Announce is heard. -/
def State.ptpMessage (s : State) (p : Port) (m : PtpMsg) : State :=
  let q := s.dpx.ptp
  match m with
  | .announce l d u v t i => s.announce l d u v t i
  | .sync l _ (some o) rx => if 2 ≤ q.state ∧ l = q.leader then s.syncPair o rx else s
  | .sync l n none rx => if 2 ≤ q.state ∧ l = q.leader then { s with dpx.ptp.syncRx := some (n, rx) } else s
  | .followUp l n o => match q.syncRx with
    | some (k, rx) => if 2 ≤ q.state ∧ l = q.leader ∧ n = k then s.syncPair o rx else s
    | none => s
  | .other _ => s
  | .delayResp l r n rx i => match q.msDiff, q.delaySent with
    | some d, some t =>
      if l ≠ q.leader ∨ r ≠ s.clockPort p ∨ n ≠ q.delaySeq then s else
      let sm := rx - (t + q.utcOffset * 1000000000)
      let delay := (d + sm) / 2
      ({ s with dpx.ptp := { q with delaySent := none, delayInterval := i } }).measured (delay - d) delay
    | _, _ => s

/-- PTP_MESSAGE_RX (R257): the oldest waiting PTP message on the PTP port. -/
def execPtpMessageRx (p : Port) (s : State) : Host.Outcome State Fault Refusal :=
  match s.takeInbox p FrameBody.isPtp with
  | some (.ptp _ dom m, s) => if s.isPtpPort p && dom == s.num 0x1002 0 then .next (s.ptpMessage p m) else .next s
  | some (_, s) => .next s
  | none => .next s

/-- The port the follower clock runs on. -/
def State.ptpPort (s : State) : Option Port :=
  match s.num 0x1001 0 with
  | 1 => some .a
  | 2 => some .b
  | _ => none

/-- DELAY_REQ_DUE (R257): a Delay_Req from RESPONDER_QUEUE at the interval the leader gives. -/
def execDelayReqDue (s : State) : Host.Outcome State Fault Refusal :=
  match s.ptpPort with
  | some p =>
    if 2 ≤ s.dpx.ptp.state ∧ s.due s.dpx.ptp.delayDue then
      let q := s.dpx.ptp
      let n := (q.delaySeq + 1) % 65536
      .next ({ s with dpx.ptp := { q with delaySeq := n, delaySent := none, delayDue := s.now + max 1 q.delayInterval } }.respond
        p (.delayReq n))
    else .next s
  | none => .next s

/-- PTP_ANNOUNCE_TIMEOUT (R258): three announce intervals without an Announce. -/
def execPtpAnnounceTimeout (s : State) : Host.Outcome State Fault Refusal :=
  if 2 ≤ s.dpx.ptp.state ∧ s.due (s.dpx.ptp.lastAnnounce + 3 * s.dpx.ptp.intervalUs) then
    .next { s with dpx.ptp.state := 1 }
  else .next s

/-! ## Capture -/

/-- CAPTURE_FREEZE_EXPIRY (R244): a freeze ends by itself 10 s after it was set. -/
def execCaptureFreezeExpiry (p : Port) (s : State) : Host.Outcome State Fault Refusal :=
  if (s.port p).captureFrozenAt.any (fun t => decide (t + 10000000 ≤ s.now)) then
    .next ((s.putNum (p.base + 0x20) 0 0).mapPort p fun x => { x with captureFrozenAt := none })
  else .next s

/-! ## FRAME_TRANSMIT -/

/-- Queue `q` may send its head frame at `t` ns of device time (R245, R247, R251). -/
def State.maySend (s : State) (p : Port) (q t : Nat) : Bool :=
  match ((s.port p).txq.getD q []) with
  | [] => false
  | (_, len) :: _ =>
    !((s.port p).pausedUntil.getD q none).any (fun c => decide (s.cqc.cycle < c)) && s.gateFits p q len t

/-- The queue that sends at `t`: the highest-numbered that may. -/
def State.sender (s : State) (p : Port) (t : Nat) : Option Nat := [7, 6, 5, 4, 3, 2, 1, 0].find? fun q => s.maySend p q t

/-- First instant of the running tick at which the transmitter is free. -/
def State.freeAt (s : State) (p : Port) : Nat := max s.nowNs (s.port p).txFreeAt

/-- The first instant of the running tick from which on a queue may send, with the queue: now, or where a window begins. -/
def State.nextSend (s : State) (p : Port) : Option (Nat × Nat) :=
  let t0 := s.freeAt p
  (t0 :: (s.port p).gating.starts t0).foldl (fun (b : Option (Nat × Nat)) t =>
    if s.nowNs + 1000 ≤ t ∨ b.any (fun c => decide (c.1 ≤ t)) then b
    else match s.sender p t with
      | some q => some (t, q)
      | none => b) none

/-- Octets of the frame on the wire for a frame that bypasses the queues. -/
def bypassLen : Nat := 64

/-- The first byte of a measured response leaves the port at `t` ns of device time (R279): the longest of its kind, and a
trace entry due (R600). -/
def State.takeMeasure (s : State) (m : Timing) (t : Nat) : State :=
  let ns := max s.cqc.cycle (s.cqc.tickBase + (t - s.nowNs)) - m.rx
  let sub := if m.media then 2 else 1
  let s := if s.num 0x4008 sub < ns then s.putNum 0x4008 sub (clampU 32 ns) else s
  s.traced 9 (if m.media then 1 else 0) (some m.task) ns

/-- A frame leaves the port at `t`: counted, a Delay_Req time-stamped (R258), a measured response measured (R279). -/
def State.sendOut (s : State) (p : Port) (queue : Option Nat) (f : TxFrame) (len t : Nat) : State :=
  let s := s.mapPort p fun x => { x with idleSince := s.now, txFreeAt := t + frameNs len (rateOf x.linkState) }
  let s := match f with
    | .delayReq n => if n = s.dpx.ptp.delaySeq then { s with dpx.ptp.delaySent := some (t + s.pch.wallOffset) } else s
    | .fragment g _ => match g.timed with
      | some m => s.takeMeasure m t
      | none => s
    | _ => s
  ((s.pbump p 0x02 1).pbump p 0x04 len).emit (.frame p queue f (s.wire p f) (lanesOf (s.port p).linkState))

/-- What a port sends from Doze: its periodic LLDPDU (R255, R256). -/
def TxFrame.fromDoze : TxFrame → Bool
  | .lldp _ _ _ _ => true
  | _ => false

/-- FRAME_TRANSMIT (R245): pause frames first, then the highest-numbered queue that may send. -/
def execFrameTransmit (p : Port) (s : State) : Host.Outcome State Fault Refusal :=
  let x := s.port p
  if !x.up || x.lpiTx || decide (s.now < x.lpiWakeAt) then .next s
  else match x.bypass with
    | f :: rest =>
      if s.pch.power = .doze ∨ s.nowNs + 1000 ≤ x.txFreeAt then .next s
      else .next ((s.mapPort p fun x => { x with bypass := rest }).sendOut p none f bypassLen (s.freeAt p))
    | [] =>
      match s.nextSend p with
      | none => .next s
      | some (t, q) =>
        match x.txq.getD q [] with
        | [] => .next s
        | (f, len) :: rest =>
          if s.pch.power = .doze ∧ !f.fromDoze then .next s
          else .next ((s.mapPort p fun x => { x with txq := x.txq.set q rest }).sendOut p (some q) f len t)

end Sys2Proof.Machine
end

