-- ==== Sys2Proof/Machine/Tasks.lean ====
section
/-!
DEFINITION. What the queue, the transport and the operations share: error fields, key-lock chains, freeing a task,
posting a completion with its flags, its metering and its replay-cache entry (R122, R153, R202 to R210, R525, R527).
-/
namespace Sys2Proof.Machine

/-! ## Opcodes -/

def opGet : Nat := 0x01
def opPut : Nat := 0x02
def opPutIf : Nat := 0x03
def opDelete : Nat := 0x04
def opPunch : Nat := 0x05
def opHead : Nat := 0x06
def opAppend : Nat := 0x07
def opBatch : Nat := 0x08
def opScan : Nat := 0x09
def opLock : Nat := 0x0A
def opUnlock : Nat := 0x0B
def opFlush : Nat := 0x0C
def opOdRead : Nat := 0x40
def opOdWrite : Nat := 0x41
def opOpen : Nat := 0x50
def opConfirm : Nat := 0x51
def opClose : Nat := 0x52
def opAttest : Nat := 0x53
def opQueueReset : Nat := 0x60
def opSanitize : Nat := 0x61
def opFormat : Nat := 0x62
def opPower : Nat := 0x63

/-- Opcodes of R146. -/
def listedOpcode (o : Nat) : Bool :=
  decide ((1 ≤ o ∧ o ≤ 0x0C) ∨ o = 0x40 ∨ o = 0x41 ∨ (0x50 ≤ o ∧ o ≤ 0x53) ∨ (0x60 ≤ o ∧ o ≤ 0x63))

/-- Opcodes whose completions enter the replay cache (R122, R146). -/
def cachedOpcode (o : Nat) : Bool :=
  decide ((2 ≤ o ∧ o ≤ 5) ∨ o = 7 ∨ o = 8 ∨ (0x0A ≤ o ∧ o ≤ 0x0C) ∨ o = 0x41 ∨ (0x60 ≤ o ∧ o ≤ 0x63))

/-- Opcodes that write keys (R87). -/
def writeOpcode (o : Nat) : Bool := decide ((2 ≤ o ∧ o ≤ 5) ∨ o = 7 ∨ o = 8)

/-- Opcodes with one key in their fields (R149). -/
def keyOpcode (o : Nat) : Bool := decide ((1 ≤ o ∧ o ≤ 7) ∨ o = 0x0A ∨ o = 0x0B)

/-- Opcodes that a rule classifies (R151). -/
def classifiedOpcode (o : Nat) : Bool := keyOpcode o || o == opBatch || o == opScan

/-! ## Error fields (R153) -/

/-- The error fields: sub-code, element, reserved, detail. -/
def errorFields (sub element detail : Nat) : Bytes :=
  natBytes 2 sub ++ natBytes 2 element ++ zeros 4 ++ natBytes 8 detail

/-- Error fields of a status with a detail and no element. -/
def plainError (detail : Nat) : Bytes := errorFields 0 0xFFFF detail

/-! ## Operation fields: byte `o` of the lead block is byte `o - 24` of the fields -/

/-- `n` bytes at lead-block offset `o` as a number. -/
def field (f : Bytes) (o n : Nat) : Nat := numAt f (o - 24) n

/-- Lead-block offset of the key (R149, R157, R160, R170). -/
def keyOffset (op : Nat) : Nat :=
  match op with
  | 0x01 => 48
  | 0x03 => 40
  | 0x05 => 48
  | 0x0A => 40
  | _ => 32

/-- The key of a key operation (R149). -/
def keyOf (op : Nat) (f : Bytes) : Bytes := slice f (keyOffset op - 24) (field f 26 2)

/-- One element of a BATCH's table (R164): where its descriptor begins and what it says. -/
structure Element where
  at_     : Nat
  op      : Nat
  res1    : Nat
  flags   : Nat
  keyLen  : Nat
  res2    : Nat
  version : Nat
  length  : Nat
  key     : Bytes
  deriving DecidableEq, Repr

/-- The first `n` descriptors of an element table, and where the table ends; none where the data stops short. -/
def elementsOf (data : Bytes) : (n off : Nat) → Option (List Element × Nat)
  | 0, off => some ([], off)
  | n + 1, off =>
    let keyLen := numAt data (off + 4) 2
    let next := off + roundUp (24 + keyLen) 8
    if data.length < next then none
    else
      let e : Element := { at_ := off, op := numAt data off 1, res1 := numAt data (off + 1) 1,
                           flags := numAt data (off + 2) 2, keyLen := keyLen, res2 := numAt data (off + 6) 2,
                           version := numAt data (off + 8) 8, length := numAt data (off + 16) 8,
                           key := slice data (off + 24) keyLen }
      (elementsOf data n next).map fun (l, e') => (e :: l, e')

/-! ## Key-lock table -/

/-- Key-lock entries an opcode takes (R202). -/
def lockEntries (op : Nat) (fields : Bytes) : Nat :=
  if op = opBatch then field fields 26 2
  else if (2 ≤ op ∧ op ≤ 5) ∨ op = opAppend ∨ op = opLock then 1
  else 0

/-- Entries the task holds. -/
def Trs.locks (t : Trs) : Nat := if t.unlocked then 0 else lockEntries t.opcode t.fields

/-- KEYLOCK_IN_USE (3002). -/
def State.locksInUse (s : State) : Nat := (s.cqc.trs.map Trs.locks).foldl (· + ·) 0

/-- Entries held by commands of an admission class other than Express/0 (R203). -/
def State.locksNonExpress (s : State) : Nat :=
  ((s.cqc.trs.filter fun t => t.admitCls != 0).map Trs.locks).foldl (· + ·) 0

/-- Chains without a task, empty chains left out (R207). -/
def dropFromChains (idx : Nat) (l : List (Nat × Nat × List Nat)) : List (Nat × Nat × List Nat) :=
  (l.map fun c => (c.1, c.2.1, c.2.2.filter (· != idx))).filter fun c => !c.2.2.isEmpty

/-- The task heads every chain it is in (R205). -/
def State.headsAll (s : State) (idx : Nat) : Bool :=
  s.cqc.chains.all fun c => !c.2.2.contains idx || c.2.2.head? == some idx

/-- Join the chain of a tenant and fingerprint at its tail; a task joins one chain once. -/
def joinChain (idx tenant print : Nat) : List (Nat × Nat × List Nat) → List (Nat × Nat × List Nat)
  | [] => [(tenant, print, [idx])]
  | c :: t => if c.1 = tenant ∧ c.2.1 = print then (c.1, c.2.1, if c.2.2.contains idx then c.2.2 else c.2.2 ++ [idx]) :: t
              else c :: joinChain idx tenant print t

/-- The walk of a SCAN page ends with its task: the engine it runs on is released with its image (R329). -/
def State.dropRun (s : State) (task : Nat) : State :=
  { s with pae.engines := s.pae.engines.map fun (e : Engine) => if e.task = some task then { e with state := 0, task := none } else e,
           pae.runs := s.pae.runs.filter fun r => r.task != task }

/-- The TRS becomes FREE and its key-lock entries are released (R207, R209). -/
def State.freeTrs (s : State) (idx : Nat) : State :=
  { s.dropRun idx with
           cqc.trs := s.cqc.trs.filter fun t => t.idx != idx, cqc.chains := dropFromChains idx s.cqc.chains,
           plc.sanitizeTask := s.plc.sanitizeTask.filter fun i => i != idx }

/-! ## Results and posting -/

/-- The units report a status, flags, response fields and data into the task (word 6): COMMITTED. -/
def State.finish (s : State) (idx status flags : Nat) (fields data : Bytes) : State :=
  s.mapTrs idx fun t => { t with state := .committed, status := status, flags := t.flags ||| flags, result := true,
                                 respFields := fields, respData := data }

/-- The acting tenant of a command. -/
def actingTenant (x : Session) (op : Nat) (f : Bytes) : Nat :=
  if x.tenant ≠ 0 then x.tenant
  else if keyOpcode op ∨ op = opBatch ∨ op = opScan then field f 24 2 else 0

/-- A task ends with an error status and a detail. -/
def State.fail (s : State) (idx status detail : Nat) : State := s.finish idx status 0 (plainError detail) []

/-- OVER_QUOTA of a tenant (R525). -/
def State.overQuota (s : State) (t : Nat) : Bool :=
  t != 0 && (decide (s.num (0x3400 + t) 1 < (s.account t).usageBytes)
    || decide (s.num (0x3400 + t) 2 < (s.account t).usageKeys))

/-- The flags that a response takes in the cycle of posting (R191, R525, R538). -/
def State.postFlags (s : State) (op tenant : Nat) : Nat :=
  flagIf (classifiedOpcode op && s.overQuota tenant) flOverQuota
    + flagIf (decide (1 ≤ op ∧ op ≤ 0x0C) && bit s.cqc.epoch.flags 0) flTimeStepped

/-- Metering at posting (R527). -/
def State.meter (s : State) (op tenant status bytes : Nat) : State :=
  if 1 ≤ op ∧ op ≤ 0x0C ∧ 1 ≤ tenant ∧ tenant ≤ 1023 then
    s.mapAccount tenant fun a => { a with
      operations := a.operations + 1,
      bytesRead := if op = opGet ∧ status = stOk then a.bytesRead + bytes else a.bytesRead }
  else s

/-- A replay cache with an entry made (R122): the oldest goes when a 65th is made. -/
def addReplay (e : ReplayEntry) (l : List ReplayEntry) : List ReplayEntry :=
  let l := l ++ [e]
  if 64 < l.length then l.drop 1 else l

/-- The completion enters the replay cache (R122). -/
def replayable (op status : Nat) : Bool :=
  cachedOpcode op && status != stRetryLater && status != stAborted && status != stSanitizing

/-- A response message for WTE to cut (R117). -/
def Response.message (r : Response) (p : Port) (spans : List Span) (closes : Bool) : TxMessage :=
  { resp := r, port := p, todo := [(0, r.data.length)], cur := none, nextLeg := 0, cutAt := none, cutSent := false,
    spans := spans, closes := closes }

/-- Fragment 0 of leg 0 has come. -/
def Message.led (m : Message) : Bool := m.legs.any fun l => l.1 == 0

/-- The further fragments of a request are discarded (R103, R116). -/
def Session.dropRequest (x : Session) (reqId : Nat) (lead : Bool) : Session :=
  { x with messages := x.messages.filter fun m => m.reqId != reqId,
           discard := { reqId := reqId, lead := lead, after := none } :: x.discard.filter fun d => d.reqId != reqId }

/-- A response message is handed to the session's sender; a session that has ended sends nothing (R65). Further fragments of
a request answered before its message is whole are discarded from then on (R116), and so are those of one whose answer the
replay cache keeps. -/
def State.respondWith (s : State) (r : Response) (spans : List Span) : State :=
  s.mapSession r.session fun y =>
    let y := match y.messages.find? fun m => m.reqId == r.reqId with
      | some m => if m.done && !replayable r.opcode r.status then { y with messages := y.messages.filter fun n => n.reqId != r.reqId }
                  else y.dropRequest r.reqId m.led
      | none => y
    { y with outgoing := y.outgoing ++ [r.message y.port spans (r.opcode == opClose)] }

/-- The session whose cache stands for that of `sess`: itself while it is known, and otherwise the successor that has
inherited its cache for good, or that one's successor (R144). -/
def Wte.heir (w : Wte) : (fuel sess : Nat) → Nat
  | 0, sess => sess
  | n + 1, sess =>
    if w.sessions.any fun x => x.id == sess then sess
    else match w.kept.find? fun k => k.session == sess with
      | some k => match k.final, k.claimedBy with
        | true, some id => w.heir n id
        | _, _ => sess
      | none => sess

/-- A completion enters the replay cache of its session, of the successor that has inherited it, or the kept cache of a
session that has ended (R122, R125, R144). -/
def State.remember (s : State) (sess : Nat) (e : ReplayEntry) : State :=
  if !replayable e.opcode e.status then s
  else
    let sess := s.wte.heir (s.wte.kept.length + 1) sess
    if (s.session? sess).isSome then s.mapSession sess fun y => { y with replay := addReplay e y.replay }
    else { s with wte.kept := s.wte.kept.map fun (k : KeptCache) =>
      if k.session = sess ∧ s.now ≤ k.endedAt + 30000000 then { k with entries := addReplay e k.entries } else k }

/-- The COMPLETE event of a task, 0 of a request answered without one (R600). -/
def State.tracedDone (s : State) (task status flags : Nat) : State :=
  s.traced 8 0 (some task) (status % 256 * 2 ^ 24 + flags / 8 % 128 * 2 ^ 16)

/-- Post a completion of a task, 0 for none: flags, metering, QUOTA count, response message, replay cache. -/
def State.post (s : State) (task sess reqId op status flags : Nat) (fields data : Bytes) (cls : Cls) (tenant : Nat) (media : Bool)
    (timed : Option Timing) (spans : List Span) : State :=
  let flags := flags ||| s.postFlags op tenant
  let s := (s.tracedDone task status flags).meter op tenant status data.length
  let s := if status = stQuota ∧ tenant ≠ 0 then s.bump (0x3400 + tenant) 0x0D 1 else s
  let s := s.remember sess { reqId := reqId, opcode := op, status := status, flags := flags, fields := fields,
                             postedAt := s.now }
  let r : Response := { session := sess, reqId := reqId, opcode := op, status := status, flags := flags,
                        fields := fields, data := data, cls := cls, tenant := tenant, media := media, timed := timed }
  s.respondWith r spans

/-- Answer a request with an error status. -/
def State.answer (s : State) (sess reqId op status : Nat) (fields : Bytes) (cls : Cls) (tenant : Nat) : State :=
  s.post 0 sess reqId op status 0 fields [] cls tenant false none []

/-- The session's tenant as a dictionary requester (R483). -/
def Session.requester (x : Session) : Requester := .session x.tenant

/-- Suggested wait of a RETRY_LATER during a drain (R220). -/
def State.drainWait (s : State) : Nat :=
  match s.cqc.drain with
  | some d => match d.cause with
    | .prepareHold _ => 0
    | _ => (d.start + s.num 0x3004 0 * 1000 - s.now) + 4000000
  | none => 0

end Sys2Proof.Machine
end

