-- ==== Sys2Proof/Machine/Transport.lean ====
section
/-!
DEFINITION. What the rows of Wombe transport share: sequence numbers, keys and nonces, the cutting and sending of
fragments, acknowledgement, the ends of sessions (R99 to R120, R134 to R144).
-/
namespace Sys2Proof.Machine

/-! ## Sequence numbers (R104) -/

/-- `a` is earlier than `b` by serial-number arithmetic modulo 2^32. -/
def seqLt (a b : Nat) : Bool :=
  let d := (b + 2 ^ 32 - a) % 2 ^ 32
  decide (1 ≤ d ∧ d ≤ 2 ^ 31 - 1)

/-- The later of two sequence numbers. -/
def seqMax (a b : Nat) : Nat := if seqLt a b then b else a

def seqAdd (a n : Nat) : Nat := (a + n) % 2 ^ 32

/-- The fragment has been received: at or before the cumulative number, or listed beyond it. -/
def Session.received (x : Session) (seq : Nat) : Bool := !seqLt x.rxCum seq || x.rxSeen.contains seq

/-- Advance the cumulative number over the listed numbers that follow it. -/
def advanceCum : (fuel : Nat) → Nat → List Nat → Nat × List Nat
  | 0, c, l => (c, l)
  | n + 1, c, l => if l.contains (seqAdd c 1) then advanceCum n (seqAdd c 1) (l.filter (· != seqAdd c 1)) else (c, l)

/-- A fragment is taken as received. -/
def Session.take (x : Session) (seq : Nat) : Session :=
  let (c, l) := advanceCum (x.rxSeen.length + 1) x.rxCum (seq :: x.rxSeen)
  { x with rxCum := c, rxSeen := l }

/-- The selective-ack bitmap the module sends (R94). -/
def Session.sackOut (x : Session) : Nat :=
  (List.range 32).foldl (fun n i => n + bitOf (x.rxSeen.contains (seqAdd x.rxCum (2 + i))) i) 0

/-! ## Keys and nonces (R130, R134 to R139) -/

def cmacBytes (key msg : Bytes) : Bytes := natBytes 16 (cmac key msg).toNat

/-- `n` blocks of the SP 800-108 counter-mode KDF as R130 and R138 write it out. -/
def kdf (key : Bytes) (label : String) (context : Bytes) (bits n : Nat) : Bytes :=
  cat ((List.range n).map fun i => cmacBytes key (natBytes 4 (i + 1) ++ ascii label ++ [0] ++ context ++ natBytes 4 bits))

/-- Client-to-module and module-to-client keys of an epoch (R130, R138). -/
def Session.keys (x : Session) (epoch : Nat) : Bytes × Bytes :=
  if epoch = 0 then (x.keyCm, x.keyMc)
  else
    let k := kdf x.keyR "WOMBE1 REKEY" (x.hashH ++ natBytes 4 epoch) 512 4
    (slice k 0 32, slice k 32 32)

/-- The last counter of an epoch. -/
def counterMax : Nat := 2 ^ 40

/-- The next nonce of the module and whether it rekeys; none when epoch 2^31 would be needed (R136, R138). -/
def Session.nextNonce (x : Session) : Option (Nonce × Bool) :=
  if x.txCounter < counterMax then some ({ toClient := true, epoch := x.txEpoch, counter := x.txCounter + 1 }, false)
  else if x.txEpoch + 1 < 2 ^ 31 then some ({ toClient := true, epoch := x.txEpoch + 1, counter := 1 }, true)
  else none

/-! ## Cutting responses (R100, R101, R117 to R120) -/

/-- Bytes of the IP header for the client's address family. -/
def Session.ipHead (x : Session) : Nat := if x.src.v6 then 40 else 20

/-- What the module sends on the session is encrypted: not before its keys are derived (R128, R130, R148). -/
def Session.sealed (x : Session) : Bool := x.enc && !x.half

/-- Nonce and tag. -/
def Session.encLen (x : Session) : Nat := if x.sealed then 28 else 0

/-- How a datagram of the session is carried (R89, R234). -/
def Session.carriage (x : Session) : Carriage :=
  { dstMac := x.srcMac, vid := x.tag.map (·.vid), src := x.modAddr, dst := x.src, dstPort := x.srcPort }

/-- How a datagram that answers a received one is carried. -/
def answerTo (f : Frag) : Carriage :=
  { dstMac := f.srcMac, vid := f.tag.map (·.vid), src := f.dst, dst := f.src, dstPort := f.srcPort }

/-- Largest multiple of 128 up to 8,960 that leaves room for the overhead (R101). -/
def bestUnit (limit overhead : Nat) : Nat := max 128 (min 8960 ((limit - overhead) / 128 * 128))

/-- Lead length of a leg of a response (R152). -/
def TxMessage.leadLen (m : TxMessage) (leg : Nat) : Nat := if leg = 0 then 24 + m.resp.fields.length else 24

/-- There is something of the message left to send for the first time. -/
def TxMessage.hasWork (m : TxMessage) : Bool := !m.cutSent && (m.cur.isSome || !m.todo.isEmpty || m.cutAt.isSome)

/-- Give up the running leg: its data not yet numbered goes to a new leg (R120). -/
def TxMessage.releg (m : TxMessage) : TxMessage :=
  match m.cur with
  | none => m
  | some g =>
    let a := g.off + g.index * g.unit
    { m with cur := none, todo := (a, g.off + g.len - a) :: m.todo }

/-- Begin a leg where none runs. `overhead` is what a datagram carries beside lead block and data. -/
def TxMessage.begin (m : TxMessage) (limit overhead : Nat) : TxMessage :=
  match m.cur, m.todo with
  | none, (o, l) :: rest =>
    let d := bestUnit limit (overhead + m.leadLen m.nextLeg)
    let n := min l (16384 * d)
    { m with cur := some { num := m.nextLeg, unit := d, off := o, len := n, index := 0 }, nextLeg := m.nextLeg + 1,
             todo := if n < l then (o + n, l - n) :: rest else rest }
  | _, _ => m

/-- A running leg whose next datagram would pass the limit is given up. -/
def TxMessage.fit (m : TxMessage) (limit overhead : Nat) : TxMessage :=
  match m.cur with
  | some g => if limit < overhead + (if g.index = 0 then m.leadLen g.num else 0) + g.unit ∧ 128 < g.unit then m.releg else m
  | none => m

/-- A fragment as cut: leg, D, leg length, leg offset, index, count, data, and whether it is the CUT fragment. -/
structure Piece where
  leg    : Nat
  unit   : Nat
  legLen : Nat
  legOff : Nat
  index  : Nat
  count  : Nat
  data   : Bytes
  cut    : Option Nat
  deriving DecidableEq, Repr

/-- The next fragment of the running leg. -/
def TxMessage.piece (m : TxMessage) (g : TxLeg) : Piece × TxMessage :=
  let a := g.off + g.index * g.unit
  let count := max 1 (ceilDiv g.len g.unit)
  ({ leg := g.num, unit := g.unit, legLen := g.len, legOff := g.off, index := g.index, count := count,
     data := slice m.resp.data a (min g.unit (g.off + g.len - a)), cut := none },
   { m with cur := if g.index + 1 < count then some { g with index := g.index + 1 } else none })

/-- The CUT fragment: the next unused leg, no data, the final status (R119). -/
def TxMessage.cutPiece (m : TxMessage) (unit status : Nat) : Piece × TxMessage :=
  ({ leg := m.nextLeg, unit := unit, legLen := 0, legOff := m.resp.data.length, index := 0, count := 1, data := [],
     cut := some status }, { m with cur := none, todo := [], cutSent := true })

/-- The next fragment of the message and the message after it: the CUT fragment in the place of the first fragment whose
data cannot be had, and at once where every fragment has been sent before that was known. -/
def TxMessage.next (m : TxMessage) (limit overhead : Nat) : Option (Piece × TxMessage) :=
  let m0 := m.fit limit overhead
  let m := m0.begin limit overhead
  match m.cur, m.cutAt with
  | some g, some (c, st) =>
    let a := g.off + g.index * g.unit
    if c < a + min g.unit (g.off + g.len - a) then some (m0.cutPiece g.unit st) else some (m.piece g)
  | some g, none => some (m.piece g)
  | none, some (_, st) => if m.cutSent then none else some (m.cutPiece (bestUnit limit (overhead + 24)) st)
  | none, none => none

/-- Transmit queue of a class (R93). -/
def State.classQueue (s : State) (c : Cls) : Nat := s.num 0x2005 (c.val + 1)

/-- What limits a datagram of the session in a class: M, and the gate window of its queue (R101). -/
def State.txLimit (s : State) (x : Session) (c : Cls) : Nat := min x.size (s.datagramLimit x.port (s.classQueue c))

/-! ## Sending -/

/-- Credit offered with a fragment: the spec leaves its amount open from 0 to 256, and lowers it when staging is short: no more
than the fragments it has room for (R23, R106). -/
def State.creditNow (s : State) : Nat := min (Config.freeValue 2 s.now % 257) s.stagingRoom

/-- Frame bytes of a fragment of the session: Ethernet header, tag, FCS, and the IP datagram. -/
def Session.frameLen (x : Session) (f : TxFrag) : Nat :=
  18 + (if x.tag.isSome then 4 else 0) + x.ipHead + 48 + x.encLen + f.data.length
    + (if f.index = 0 ∧ f.count ≠ 0 then 24 + f.fields.length else 0)

/-- The fragment with the session's current acknowledgement fields, a credit, a fresh nonce and its tag. -/
def TxFrag.seal (f : TxFrag) (x : Session) (edge : Nat) (nonce : Option Nonce) : TxFrag :=
  let f := { f with cumAck := x.rxCum, sack := x.sackOut, credit := (edge + 2 ^ 32 - x.rxCum) % 2 ^ 32, nonce := nonce,
                    port := x.port, cipher := [], gcm := 0 }
  match nonce with
  | none => f
  | some n =>
    { f with cipher := gcmStream (x.keys n.epoch).2 (nonceBytes n) f.plain,
             gcm := gcmTag (x.keys n.epoch).2 (nonceBytes n) f.header f.plain }

/-- Fragment 0 of leg 0, with which the lead transfers of its command end (R270). -/
def TxFrag.leads (f : TxFrag) : Bool := f.leg == 0 && f.index == 0 && f.count != 0

/-- A fragment on its way from the buffers to its port: through a pipeline bound to the session's tenant where it is sealed,
and the bytes of a value through one bound to the tenant of the key. The two are one pass where the tenants are one and the
bytes come from the buffers as stored (R266, R338, R340). -/
def State.carryOut (s : State) (x : Session) (f : TxFrag) (value : Option Nat) : State :=
  let b := bufferLane f.seq
  let w := wteLane x.id
  let n := f.plain.length
  let cmd := (x.id, f.reqId)
  let s := match value with
    | some tenant => if x.sealed ∧ tenant = x.tenant then s else s.crypt .xtsD tenant b b f.cls f.leads noTask f.data.length cmd
    | none => s
  let s := if x.sealed then s.crypt (if value = some x.tenant then .xg else .gcmE) x.tenant b w f.cls f.leads noTask (40 + n) cmd
    else s.transfer b w f.cls f.leads noTask (40 + n)
  s.transfer w (portLane x.port) f.cls f.leads noTask (48 + x.encLen + n)

/-- Hand a fragment of the session to DPX: acknowledgement fields, nonce, transmit queue of its class (R93, R136). `value`
is the tenant of value bytes in it that are still as they are stored. The session's state without the fragment's own
bookkeeping; none when the nonces are used up (R138). -/
def State.dispatch (s : State) (x : Session) (f : TxFrag) (value : Option Nat) : Option (TxFrag × State) :=
  let edge := seqMax x.edge (seqAdd x.rxCum s.creditNow)
  let nonce := if x.sealed then x.nextNonce else some ({ toClient := true, epoch := 0, counter := 0 }, false)
  match nonce with
  | none => none
  | some (n, rekey) =>
    let f := f.seal x edge (if x.sealed then some n else none)
    let s := s.mapSession x.id fun y => { y with
      edge := edge, ackDue := none,
      txEpoch := if x.sealed then n.epoch else y.txEpoch, txCounter := if x.sealed then n.counter else y.txCounter }
    let s := if rekey then (s.bump 0x2012 0x0F 1).macBlocks x.id x.tenant 16 else s
    let s := (if x.sealed then s.bump 0x7030 0x02 f.plain.length else s).carryOut x f value
    let s := s.enqueue x.port (s.classQueue f.cls) (.fragment f x.carriage) (x.frameLen f)
    some (f, s.bump 0x2012 0x02 1)

/-- A fragment with nothing in it: ACK_ONLY (R113). -/
def Session.ackOnly (x : Session) (req : Bool) : TxFrag :=
  { session := x.id, port := x.port, seq := x.txNext, cumAck := 0, sack := 0, reqId := 0, opcode := 0, status := 0,
    flags := flRsp + flAckOnly + flagIf req flAckReq + flagIf x.sealed flEnc, cls := 0, index := 0, count := 0, credit := 0,
    leg := 0, unit := 0, legLen := 0, msgLen := 0, legOff := 0, fields := [], data := [], nonce := none,
    cipher := [], gcm := 0, timed := none }

/-- The fragment of a piece of a message. -/
def Session.fragment (x : Session) (m : TxMessage) (p : Piece) (seq : Nat) : TxFrag :=
  { session := x.id, port := x.port, seq := seq, cumAck := 0, sack := 0, reqId := m.resp.reqId, opcode := m.resp.opcode,
    status := p.cut.getD m.resp.status,
    flags := flRsp + flagIf x.sealed flEnc + flagIf p.cut.isSome flCut + m.resp.flags,
    cls := m.resp.cls, index := p.index, count := p.count, credit := 0, leg := p.leg, unit := p.unit, legLen := p.legLen,
    msgLen := m.resp.data.length, legOff := p.legOff, fields := if p.leg = 0 then m.resp.fields else [], data := p.data,
    nonce := none, cipher := [], gcm := 0, timed := if p.leg = 0 ∧ p.index = 0 then m.resp.timed else none }

/-- The tenant under whose page the value bytes of a piece are still encrypted: those of a GET that are read from the buffers
as they are stored. Bytes read from a tile have been through XTS on their way into staging (R266). -/
def Response.valueOf (r : Response) (p : Piece) : Option Nat :=
  if r.opcode = opGet ∧ !r.media ∧ !p.data.isEmpty then some r.tenant else none

/-! ## Ends of sessions (R65, R141 to R144) -/

/-- Frames of the session leave the transmit queues. -/
def PortS.dropSession (x : PortS) (id : Nat) : PortS :=
  { x with txq := x.txq.map fun q => q.filter fun e => match e.1 with
      | .fragment f _ => f.session != id
      | _ => true }

/-- A command of an ended session that cannot run to completion: not started, or its message never came whole. DESIGN CHOICE
(log 123): R65 lets every started write run on, R76 stops a BATCH of a session that held a lease. -/
def Trs.endsWith (t : Trs) (id : Nat) : Bool :=
  t.session == id && (!t.started || (t.data.isNone && !t.result && t.msgLen != 0))

/-- A BATCH of a session that ends while it holds a lease, not past its commit point (R76). -/
def Trs.losesLease (t : Trs) (id : Nat) : Bool := t.session == id && t.opcode == opBatch && !t.committed && !t.result

/-- The session's cursors, leases, unstarted commands, queued descriptors and fragments end; its replay cache is kept
30 s and its id rests 60 s. -/
def State.endSession (s : State) (id : Nat) : State :=
  match s.session? id with
  | none => s
  | some x =>
    let s := s.dropSession id
    let holder := s.cqc.leases.any fun l => l.session == id
    let s := (s.cqc.trs.filter fun t => t.endsWith id || (holder && t.losesLease id)).foldl (fun s t => s.freeTrs t.idx) s
    let s := { s with
      cqc.lanes := s.cqc.lanes.map fun (l : List Desc) => l.filter fun d => d.session != id,
      cqc.aborting := s.cqc.aborting.filter fun e => e.2.session != id,
      cqc.leases := s.cqc.leases.filter fun l => l.session != id,
      cqc.posted := s.cqc.posted.filter fun e => e.1 != id,
      pae.cursors := s.pae.cursors.filter fun c => c.session != id,
      dpx.portA := s.dpx.portA.dropSession id,
      dpx.portB := s.dpx.portB.dropSession id,
      wte.resting := (id, s.now + 60000000) :: s.wte.resting }
    if x.half then
      { s with wte.kept := s.wte.kept.map fun (k : KeptCache) => if k.claimedBy = some id then { k with claimedBy := none } else k }
    else
      { s with wte.kept := { session := id, tenant := x.tenant, endedAt := s.now, entries := x.replay, claimedBy := none,
                             final := false } :: s.wte.kept }

/-- Every session that meets a condition ends. -/
def State.endSessions (s : State) (p : Session → Bool) : State :=
  (s.wte.sessions.filter p).foldl (fun s x => s.endSession x.id) s

/-- The module needs epoch 2^31: the session ends as by SESSION_CLOSE (R138). -/
def State.exhausted (s : State) (x : Session) : State :=
  (s.endSession x.id).raise 0x2402 (wholeUnit 2) x.id x.tenant 0

/-- Send an ACK_ONLY fragment of the session. -/
def State.sendAck (s : State) (id : Nat) (req : Bool) : State :=
  match s.session? id with
  | none => s
  | some x => match s.dispatch x (x.ackOnly req) none with
    | some (_, s) => s
    | none => s.exhausted x

/-- Send the next new fragment of the first outgoing message that qualifies, when the client's window allows it
(R106); none when there is nothing to send or no room. -/
def State.sendFrom (s : State) (id : Nat) (pick : TxMessage → Bool) : Option State :=
  match s.session? id with
  | none => none
  | some x =>
    if seqLt x.peerEdge x.txNext then none
    else match x.outgoing.find? fun m => pick m && m.hasWork with
      | none => none
      | some m =>
        match m.next (s.txLimit x m.resp.cls) (x.ipHead + 48 + x.encLen) with
        | none => none
        | some (p, m') =>
          match (s.bufferRead (.outbound id x.txNext)).2.dispatch x (x.fragment m p x.txNext) (m.resp.valueOf p) with
          | none => some (s.exhausted x)
          | some (f, s) =>
            some (s.mapSession id fun y => { y with
              txNext := seqAdd y.txNext 1, outgoing := y.outgoing.map fun n => if n = m then m' else n,
              unacked := y.unacked ++ [{ frag := { f with timed := none }, firstSent := s.cqc.cycle, retries := 0, resent := false, fastAt := none }],
              rtoFrom := if y.unacked.isEmpty then some s.cqc.cycle else some (y.rtoFrom.getD s.cqc.cycle) })

/-- Send the next new fragment of the session. -/
def State.sendNext (s : State) (id : Nat) : Option State := s.sendFrom id fun _ => true

/-! ## Sending again, and re-legging (R120, R136, R249) -/

/-- A fragment of the session as a datagram passes the limit that its class has now. -/
def State.tooLong (s : State) (x : Session) (f : TxFrag) : Bool :=
  decide (s.txLimit x f.cls < x.ipHead + 48 + x.encLen + f.plain.length) && !f.data.isEmpty

/-- A numbered fragment becomes VOID and its data goes to a new leg. DESIGN CHOICE (log 133): each voided fragment's range is a leg of
its own, the one voided last goes first. -/
def Session.void (x : Session) (f : TxFrag) : Session :=
  { x with
    outgoing := x.outgoing.map fun m =>
      if m.resp.reqId = f.reqId then
        { m.releg with todo := (f.legOff + f.index * f.unit, f.data.length) :: m.releg.todo } else m,
    unacked := x.unacked.map fun u =>
      if u.frag.seq = f.seq then { u with frag := { u.frag with flags := u.frag.flags ||| flVoid, data := [] } } else u }

/-- Send a fragment again under its sequence number, with a new nonce and the current acknowledgement fields: as a VOID
fragment where it is longer than its queue now admits. DESIGN CHOICE (log 133): its DEGRADED flag stays as it was first sent. -/
def State.resend (s : State) (id seq : Nat) (mark : Unacked → Unacked) : State :=
  match s.session? id with
  | none => s
  | some x => match x.unacked.find? fun u => u.frag.seq == seq with
    | none => s
    | some u =>
      let long := s.tooLong x u.frag
      let s := if long then s.mapSession id fun y => y.void u.frag else s
      let f := if long then { u.frag with flags := u.frag.flags ||| flVoid, data := [] } else u.frag
      match (s.bufferRead (.outbound id seq)).2.dispatch x f none with
      | none => s.exhausted x
      | some (f, s) =>
        s.mapSession id fun y => { y with
          unacked := y.unacked.map fun w => if w.frag.seq = seq then mark { w with frag := f, resent := true } else w }

/-- The fragment has data that the client has not acknowledged and that no other leg has taken over (R120). -/
def Session.carries (x : Session) (f : TxFrag) : Bool := x.unacked.any fun u => u.frag.seq == f.seq && !u.frag.data.isEmpty

/-- A fragment whose frame a gate switch has dropped is sent again as VOID, its data in a new leg (R249). One that has been
acknowledged, or that is VOID already, is left as it is. -/
def State.voidFragment (s : State) (f : TxFrag) : State :=
  if (s.session? f.session).any fun x => x.carries f then (s.mapSession f.session fun x => x.void f).resend f.session f.seq id else s

/-! ## Acknowledgement of the module's fragments (R105, R108, R109) -/

/-- The client acknowledges the module's fragment. -/
def acked (cum sack seq : Nat) : Bool :=
  !seqLt cum seq || (List.range 32).any fun i => bit sack i && seqAdd cum (2 + i) == seq

/-- Acknowledged fragments later than one that is not. -/
def laterAcked (cum sack seq : Nat) : Nat :=
  ((List.range 32).filter fun i => bit sack i && seqLt seq (seqAdd cum (2 + i))).length

/-- SRTT and RTTVAR after a sample, in ns (R108). -/
def rttSample (r : Nat) : Option (Nat × Nat) → Nat × Nat
  | none => (r, r / 2)
  | some (srtt, var) =>
    let d := if srtt ≤ r then r - srtt else srtt - r
    (7 * srtt / 8 + r / 8, 3 * var / 4 + d / 4)

/-- The RTO base in ns of a pair. -/
def rtoBaseOf (p : Nat × Nat) : Nat := min 50000000 (max 80000 (p.1 + 4 * p.2))

/-- Acknowledgement and credit fields of an authenticated fragment act on the session. -/
def Session.applyAck (x : Session) (cum sack credit cycle : Nat) : Session :=
  let done := x.unacked.filter fun u => acked cum sack u.frag.seq
  let left := x.unacked.filter fun u => !acked cum sack u.frag.seq
  let srtt := (done.filter fun u => !u.resent).foldl (fun p u => some (rttSample (cycle - u.firstSent) p)) x.srtt
  let base := match srtt with
    | some p => rtoBaseOf p
    | none => x.rtoBase
  let advanced := seqLt x.txCum cum
  { x with
    unacked := left, srtt := srtt, rtoBase := base, txCum := seqMax x.txCum cum,
    peerEdge := seqMax x.peerEdge (seqAdd cum (min credit 256)),
    rto := if advanced then base else x.rto, retries := if advanced then 0 else x.retries,
    rtoFrom := if left.isEmpty ∨ advanced then some cycle else x.rtoFrom,
    outgoing := x.outgoing.filter fun m => m.hasWork || left.any fun u => u.frag.reqId == m.resp.reqId }

/-- The response whose acknowledgement ends the session has been acknowledged (R141). -/
def Session.closeDone (x : Session) : Bool :=
  (match x.phase with
    | .closing => true
    | _ => false) && x.outgoing.all fun m => !m.closes

/-- Fragments to send again without waiting for the RTO (R109). -/
def Session.fastList (x : Session) (cum sack cycle : Nat) : List Nat :=
  (x.unacked.filter fun u => decide (3 ≤ laterAcked cum sack u.frag.seq)
    && (u.fastAt.all fun t => decide (t + x.rto ≤ cycle))).map fun u => u.frag.seq

/-- The acknowledgement fields act, lost fragments are sent again, and a closed session ends. -/
def State.ackFields (s : State) (id cum sack credit : Nat) : State :=
  let s := s.mapSession id fun x => x.applyAck cum sack credit s.cqc.cycle
  match s.session? id with
  | none => s
  | some x =>
    if x.closeDone then s.endSession id
    else (x.fastList cum sack s.cqc.cycle).foldl (fun s q =>
      (s.resend id q fun u => { u with fastAt := some s.cqc.cycle }).bump 0x2012 0x04 1) s

end Sys2Proof.Machine
end

