-- ==== Sys2Proof/Machine/Fragments.lean ====
section
/-!
DEFINITION. The rows of Wombe transport: fragments received and sent, timers, the gate lists that re-leg responses
(R92, R98 to R125, R134 to R144, R201, R246 to R249).
-/
namespace Sys2Proof

open Sys2Proof.Machine

/-- The 40-byte header of a received fragment (R94). -/
def Frag.header (f : Frag) : Bytes :=
  natBytes 2 (16 * f.magic + f.version) ++ natBytes 2 f.flags ++ natBytes 4 f.session ++ natBytes 4 f.seq ++ natBytes 4 f.cumAck
    ++ natBytes 4 f.sack ++ natBytes 8 f.reqId ++ natBytes 1 f.opcode ++ natBytes 1 f.status ++ natBytes 2 (2 ^ 14 * f.cls + f.index)
    ++ natBytes 2 f.count ++ natBytes 2 f.payloadLen ++ natBytes 2 f.credit ++ natBytes 2 f.leg

def Lead.bytes (l : Lead) : Bytes :=
  natBytes 2 l.leadLen ++ natBytes 2 l.unit ++ natBytes 4 l.legLen ++ natBytes 8 l.msgLen ++ natBytes 8 l.legOff ++ l.fields

def Frag.plain (f : Frag) : Bytes :=
  (match f.lead with
    | some l => l.bytes
    | none => []) ++ f.data

def Frag.has (f : Frag) (flag : Nat) : Bool := f.flags &&& flag != 0

/-- What is wrong with a fragment on its own: BAD_REQUEST sub-code and detail (step 13 of R114, R642). DESIGN CHOICE
(log 39): a fault in the lead block of a leg other than leg 0 has its byte offset within that leg's own lead block as
detail; R642 names leg 0's alone. -/
def Frag.fault (f : Frag) : Option (Nat × Nat) :=
  if f.flags &&& 0x03FF ≠ 0 ∨ f.status ≠ 0 then some (subReserved, noField)
  else if f.count = 0 ∨ f.count > 16384 ∨ f.count ≤ f.index then some (subLeadBlock, noField)
  else if f.index = 0 then
    match f.lead with
    | none => some (subLeadBlock, 0)
    | some l =>
      if l.leadLen ≠ 24 + l.fields.length ∨ 1024 < l.leadLen ∨ (f.leg ≠ 0 ∧ l.leadLen ≠ 24) then some (subLeadBlock, 0)
      else if l.unit % 128 ≠ 0 ∨ l.unit < 128 ∨ 8960 < l.unit then some (subLeadBlock, 2)
      else if 146800640 < l.legLen then some (subLeadBlock, 4)
      else if f.leg = 0 ∧ l.legOff ≠ 0 then some (subLeadBlock, 16)
      else if l.msgLen < l.legOff + l.legLen then some (subLeadBlock, noField)
      else if f.count ≠ max 1 (ceilDiv l.legLen l.unit) then some (subLeadBlock, noField)
      else if f.payloadLen ≠ l.leadLen + f.data.length then some (subLeadBlock, noField)
      else none
  else if f.lead.isSome ∨ f.payloadLen ≠ f.data.length then some (subLeadBlock, noField)
  else none

end Sys2Proof

namespace Sys2Proof.Machine

/-! ## Lane commands answered together -/

/-- Descriptors not completed, and not in a TRS: those of the lanes, and those in the scope of a QUEUE_RESET whose answer is
still to be posted. -/
def State.descs (s : State) : List Desc := s.cqc.lanes.flatMap id ++ s.cqc.aborting.map (·.2)

/-- Answer commands that have no TRS. -/
def State.answerDescs (s : State) (l : List Desc) (status detail : Nat) : State :=
  l.foldl (fun s d => match s.session? d.session with
    | some x => s.answer d.session d.reqId d.opcode status (plainError detail) d.cls (actingTenant x d.opcode d.fields)
    | none => s) s

/-- Descriptors of the lanes that meet a condition, in arrival order. -/
def State.inLanes (s : State) (pick : Desc → Bool) : List Desc :=
  ((s.cqc.lanes.flatMap id).filter pick).mergeSort fun a b => decide (a.arrival ≤ b.arrival)

/-- Take descriptors out of the lanes. -/
def State.clearLanes (s : State) (pick : Desc → Bool) : State :=
  { s with cqc.lanes := s.cqc.lanes.map fun (q : List Desc) => q.filter fun d => !pick d }

/-- Answer the commands in the lanes and empty them. -/
def State.answerLanes (s : State) (status detail : Nat) : State :=
  (s.clearLanes fun _ => true).answerDescs (s.inLanes fun _ => true) status detail

/-! ## Commands that start in their admission cycle (R200) -/

/-- QUEUE_RESET, SANITIZE, FORMAT and POWER_STATE: all others are started by COMMAND_START. -/
def startsHere (op : Nat) : Bool := !decide (0x60 ≤ op ∧ op ≤ 0x63)

/-- A session lies in the scope of a QUEUE_RESET. -/
def Trs.inScope (t : Trs) (x : Session) : Bool :=
  match field t.fields 24 1 with
  | 0 => x.id == (if field t.fields 28 4 = 0 then t.session else field t.fields 28 4)
  | 1 => x.tenant == field t.fields 26 2
  | _ => true

/-- What the events of a QUEUE_RESET call its target. -/
def Trs.resetTarget (t : Trs) : Nat :=
  match field t.fields 24 1 with
  | 0 => if field t.fields 28 4 = 0 then t.session else field t.fields 28 4
  | 1 => field t.fields 26 2
  | _ => 0

/-- The effect cycle of a QUEUE_RESET (R214 to R216): commands of the scope that have not started never will, those of the
lanes take no TRS, leases and cursors of the scope end, and the two counts of R180 are taken. -/
def State.resetEffect (s : State) (t : Trs) : State :=
  let ids := (s.wte.sessions.filter t.inScope).map (·.id)
  let mine : Trs → Bool := fun u => u.idx != t.idx && ids.contains u.session && u.abortedBy.isNone
  let stopped := (s.cqc.trs.filter fun u => mine u && !u.started).length
  let running := (s.cqc.trs.filter fun u => mine u && u.started).length
  let waiting := s.inLanes fun d => ids.contains d.session
  let s := s.clearLanes fun d => ids.contains d.session
  let s := { s with
    cqc.trs := s.cqc.trs.map fun (u : Trs) => if mine u ∧ !u.started then { u with abortedBy := some t.idx } else u,
    cqc.aborting := s.cqc.aborting ++ waiting.map fun d => (t.idx, d),
    cqc.leases := s.cqc.leases.filter fun l => !ids.contains l.session,
    pae.cursors := s.pae.cursors.filter fun c => !ids.contains c.session }
  let s := (s.bump 0x3010 0x09 1).raise 0x3001 (wholeUnit 3) (field t.fields 24 1) t.resetTarget (stopped + waiting.length)
  s.mapTrs t.idx fun u => { u with respFields := natBytes 4 (stopped + waiting.length) ++ natBytes 4 running }

/-- Phase 1 of a drain (R218): admission closes, and the commands of the lanes are answered. -/
def State.beginDrain (s : State) (cause : DrainCause) : State :=
  let s := { s with cqc.drain := some { cause := cause, phase := 2, start := s.now, grace := none } }.bump 0x3010 0x0A 1
  s.answerLanes stRetryLater s.drainWait

/-- The START event of a command that has started and whose final class is known (R600, R200). -/
def State.traceStart (s : State) (t : Trs) : State :=
  match s.trs? t.idx with
  | some u => if u.state = .classifying ∧ u.ready.isNone then s else s.traced 2 0 (some u.task) (u.cls.val * 2 ^ 16)
  | none => s

/-- An administrative command starts: a QUEUE_RESET has its effect cycle, and a PREPARE_HOLD begins the drain. -/
def State.startAdmin (s : State) (t : Trs) : State :=
  let s := (s.mapTrs t.idx fun u => { u with started := true, state := .running }).traceStart t
  if t.opcode = opQueueReset then s.resetEffect t
  else if t.opcode = opPower ∧ field t.fields 24 1 = 4 ∧ s.cqc.drain.isNone then
    { s with cqc.policyBefore := s.cqc.policy }.beginDrain (.prepareHold t.idx)
  else s

/-! ## ORDERED holds (R201) -/

/-- Commands of the session not yet completed whose fragment 0 is earlier. -/
def State.earlierOpen (s : State) (sess seq0 : Nat) : Nat :=
  (s.cqc.trs.filter fun t => t.session == sess && seqLt t.seq0 seq0).length
    + (s.descs.filter fun d => d.session == sess && seqLt d.seq0 seq0).length

/-- An ORDERED command of the session with an earlier fragment 0 has not completed. -/
def State.orderedBefore (s : State) (sess seq0 : Nat) : Bool :=
  (s.cqc.trs.any fun t => t.session == sess && t.ordered && seqLt t.seq0 seq0)
    || s.descs.any fun d => d.session == sess && d.ordered && seqLt d.seq0 seq0

/-- The command is held under R201. -/
def State.isHeld (s : State) (sess seq0 : Nat) (ordered : Bool) : Bool :=
  s.orderedBefore sess seq0 || (ordered && (s.earlierOpen sess seq0 != 0
    || (match s.session? sess with
      | some x => seqLt x.rxCum (seqAdd seq0 (2 ^ 32 - 1))
      | none => false)))

/-- A HELD command leaves its hold: WAITING, or started at once (R200). -/
def State.releaseTask (s : State) (t : Trs) : State :=
  if startsHere t.opcode then s.mapTrs t.idx fun u => { u with state := .waiting } else s.startAdmin t

/-- Release HELD commands whose conditions are met, in the order of admission. -/
def State.releaseSome : (fuel : Nat) → State → State
  | 0, s => s
  | n + 1, s => match s.cqc.trs.find? fun t => t.state == .held && t.abortedBy.isNone && !s.isHeld t.session t.seq0 t.ordered with
    | none => s
    | some t => (s.releaseTask t).releaseSome n

/-- Every HELD command whose conditions are met leaves its hold. -/
def State.releaseHeld (s : State) : State := s.releaseSome s.cqc.trs.length

/-! ## Receive checks, steps 1 to 10 of R114 -/

/-- Where the checks send a datagram. -/
inductive Gate where
  | drop (counter : Nat)
  | otherVersion
  | open
  | unknown
  | session (x : Session)
  deriving DecidableEq, Repr

/-- The six things a session is bound to agree (R91). -/
def Session.bound (x : Session) (p : Port) (f : Frag) : Bool :=
  x.port == p && x.src == f.src && x.srcPort == f.srcPort && x.modAddr == f.dst
    && x.tag.map (·.vid) == f.tag.map (·.vid)

/-- Window of an epoch: counter above h − 1,024 and not yet accepted (R137). -/
def counterOk (h : Nat) (l : List Nat) (c : Nat) : Bool :=
  decide (1 ≤ c ∧ c ≤ counterMax ∧ h < c + 1024) && !l.contains c

/-- The nonce is acceptable (R137, R139). -/
def Session.nonceOk (x : Session) (n : Nonce) (now : Nat) : Bool :=
  !n.toClient && (
    if n.epoch = x.rxEpoch then counterOk x.rxHigh x.rxCounters n.counter
    else if n.epoch = x.rxEpoch + 1 then counterOk 0 [] n.counter
    else match x.prevEpoch with
      | some (e, h, l, t) => n.epoch == e && decide (now ≤ t) && counterOk h l n.counter
      | none => false)

/-- Accepted counters that still matter for the window. -/
def pruneCounters (h : Nat) (l : List Nat) : List Nat := l.filter fun c => decide (h < c + 1024)

/-- The accepted nonce is recorded; the first of the next epoch makes that epoch current (R137, R139). -/
def Session.takeNonce (x : Session) (n : Nonce) (now : Nat) : Session :=
  if n.epoch = x.rxEpoch then
    let h := max x.rxHigh n.counter
    { x with rxHigh := h, rxCounters := pruneCounters h (n.counter :: x.rxCounters) }
  else if n.epoch = x.rxEpoch + 1 then
    { x with rxEpoch := n.epoch, rxHigh := n.counter, rxCounters := [n.counter],
             prevEpoch := some (x.rxEpoch, x.rxHigh, x.rxCounters, now + 100000) }
  else match x.prevEpoch with
    | some (e, h, l, t) => { x with prevEpoch := some (e, max h n.counter, pruneCounters (max h n.counter) (n.counter :: l), t) }
    | none => x

/-- The tag of a fragment with ENC is valid under the session's key of the nonce's epoch (R134, R348). -/
def Session.tagOk (x : Session) (f : Frag) (n : Nonce) : Bool :=
  !x.half && f.gcmTag == gcmTag (x.keys n.epoch).1 (nonceBytes n) f.header f.plain

/-- Steps 1 to 10 (R95, R114). -/
def State.rxGate (s : State) (p : Port) (f : Frag) : Gate :=
  if f.ipFragment ∨ f.dstPort ≠ s.wte.udpPort then .drop 0x0C
  else if f.udpLen < 48 ∨ f.magic ≠ 0xB0E then .drop 0x0C
  else if f.version ≠ 1 then (if f.opcode = opOpen then .otherVersion else .drop 0x0C)
  else if f.has flRsp then .drop 0x0C
  else if f.session = 0 then
    if f.opcode ≠ opOpen ∨ f.has flEnc then .drop 0x0C
    else if f.udpLen ≠ 48 + f.payloadLen then .drop 0x0C
    else .open
  else match s.session? f.session with
    | none => .unknown
    | some x =>
      if !x.bound p f then .drop 0x0B
      else if f.has flEnc != x.enc && !(x.half && !f.has flEnc && f.opcode == opConfirm) then .drop 0x10
      else if f.udpLen ≠ 48 + f.payloadLen + (if f.has flEnc then 28 else 0) then .drop 0x0C
      else if f.has flEnc then
        match f.nonce with
        | none => .drop 0x08
        | some n => if !x.nonceOk n s.now then .drop 0x08 else if !x.tagOk f n then .drop 0x07 else .session x
      else .session x

/-- The NO_SESSION fragment of R121. -/
def noSessionFrag (p : Port) (f : Frag) : TxFrag :=
  { session := f.session, port := p, seq := 0, cumAck := 0, sack := 0, reqId := f.reqId, opcode := f.opcode,
    status := stNoSession, flags := flRsp, cls := 0, index := 0, count := 1, credit := 0, leg := 0, unit := 0, legLen := 0,
    msgLen := 0, legOff := 0, fields := [], data := [], nonce := none, cipher := [], gcm := 0, timed := none }

/-- One NO_SESSION for an unknown id, within the limits of R121; a SESSION_CONFIRM so refused counts (R131). -/
def State.noSession (s : State) (p : Port) (f : Frag) : State :=
  let s := s.bump 0x2012 0x0A 1
  let recent := s.wte.noSession.filter fun e => decide (s.now < e.2.2 + 1000000)
  let bySource := recent.any fun e => e.2.1 == f.src && decide (s.now < e.2.2 + 1000)
  let byPort := (recent.filter fun e => e.1 == p).length
  if bySource ∨ 100000 ≤ byPort then { s with wte.noSession := recent }
  else
    let s := { s with wte.noSession := (p, f.src, s.now) :: recent }
    let s := (s.respond p (.noSession (noSessionFrag p f) (answerTo f))).bump 0x2012 0x02 1
    if f.opcode = opConfirm then s.bump 0x2012 0x0E 1 else s

/-- A class number as a class. -/
def clsOf (n : Nat) : Cls := Fin.ofNat 4 n

/-- Admission class of the fragment in hand: the larger of the Class field and the class its marking had when it was received
(R145, R193). -/
def State.admitClass (s : State) (f : Frag) : Cls := clsOf (min 3 (max f.cls s.wte.mark))

/-- A single-fragment answer to a datagram, without ENC, in the class of what it answers (R93, R127, R131, R148). Its D fits
the session's datagram size `m`, where there is a session (R101). -/
def State.replyFrag (s : State) (p : Port) (f : Frag) (c : Cls) (m session seq cumAck credit status flags : Nat)
    (fields : Bytes) : TxFrag :=
  { session := session, port := p, seq := seq, cumAck := cumAck, sack := 0, reqId := f.reqId, opcode := f.opcode,
    status := status, flags := flRsp + flags, cls := c, index := 0, count := 1, credit := credit, leg := 0,
    unit := bestUnit (min m (s.datagramLimit p (s.classQueue c))) ((if f.src.v6 then 40 else 20) + 48 + 24 + fields.length),
    legLen := 0, msgLen := 0, legOff := 0, fields := fields, data := [], nonce := none, cipher := [], gcm := 0, timed := none }

/-- Such an answer joins the queue of its class. -/
def State.sendReply (s : State) (p : Port) (t : TxFrag) (c : Carriage) : State :=
  let len := 18 + (if c.vid.isSome then 4 else 0) + (if c.src.v6 then 40 else 20) + 48 + 24 + t.fields.length
  (s.enqueue p (s.classQueue t.cls) (.handshake t c) len).bump 0x2012 0x02 1

/-- A refusal of R131: session id 0, sequence 0 for a SESSION_OPEN and 1 for a SESSION_CONFIRM, error fields,
HANDSHAKE_FAILURES. -/
def State.refuseHandshake (s : State) (p : Port) (f : Frag) (c : Cls) (status sub detail : Nat) : State :=
  let n := if f.opcode = opConfirm then 1 else 0
  (s.sendReply p (s.replyFrag p f c 9216 0 n n 0 status 0 (errorFields sub 0xFFFF detail)) (answerTo f)).bump 0x2012 0x0E 1

/-! ## Messages under reassembly (R99 to R103) -/

/-- Data bytes that fragment `i` of a leg carries (R100). -/
def legBytes (unit len count i : Nat) : Nat := if i + 1 < count then unit else len - unit * (count - 1)

/-- Parts with one more, in the order of arrival. -/
def insertPart (p : Nat × Nat × Bytes) : List (Nat × Nat × Bytes) → List (Nat × Nat × Bytes)
  | [] => [p]
  | q :: l => if p.1 < q.1 then p :: q :: l else q :: insertPart p l

/-- Place the fragment that arrived as number `n` where its leg is known; none when its count or its length disagrees. -/
def Message.place (m : Message) (n : Nat) (f : Frag) : Option Message :=
  match m.legs.find? fun l => l.1 == f.leg with
  | none => some { m with held := m.held ++ [(n, f)] }
  | some (_, unit, len, off, count) =>
    if f.count ≠ count then none
    else if f.has flVoid then (if f.data.isEmpty then some m else none)
    else if f.data.length ≠ legBytes unit len count f.index then none
    else some { m with parts := insertPart (n, off + f.index * unit, f.data) m.parts }

/-- Place the fragments held for a leg once its fragment 0 has come. -/
def Message.placeAll : Message → List (Nat × Frag) → Option Message
  | m, [] => some m
  | m, (n, f) :: l => match m.place n f with
    | some m => m.placeAll l
    | none => none

/-- A valid fragment joins its message; none when they disagree (R103): in opcode, class, ORDERED or message data length,
or in what two lead blocks say of one leg. -/
def Message.join (m : Message) (f : Frag) : Option Message :=
  if m.opcode ≠ f.opcode ∨ m.cls.val ≠ f.cls ∨ m.ordered ≠ f.has flOrdered then none
  else
    let n := m.arrived
    let m := { m with arrived := n + 1 }
    match f.lead with
    | none => m.place n f
    | some l =>
      let g := (f.leg, l.unit, l.legLen, l.legOff, f.count)
      if !m.legs.isEmpty ∧ m.msgLen ≠ l.msgLen then none
      else if m.legs.any fun h => h.1 == f.leg && h != g then none
      else
        let m := { m with msgLen := l.msgLen, legs := if m.legs.contains g then m.legs else m.legs ++ [g] }
        match m.place n f with
        | none => none
        | some m =>
          let mine := m.held.filter fun h => h.2.leg == f.leg
          { m with held := m.held.filter fun h => h.2.leg != f.leg }.placeAll mine

/-- A message of which only this fragment is known. -/
def Message.fresh (f : Frag) : Message :=
  { reqId := f.reqId, opcode := f.opcode, cls := clsOf f.cls, ordered := f.has flOrdered, msgLen := 0, legs := [],
    arrived := 0, held := [], parts := [], done := false }

/-- The message data from byte `pos` on, the first copy of each byte kept; none where a byte is missing (R102). -/
def gather (parts : List (Nat × Bytes)) (len : Nat) : (fuel pos : Nat) → Option Bytes
  | 0, pos => if len ≤ pos then some [] else none
  | n + 1, pos =>
    if len ≤ pos then some []
    else match parts.find? fun p => decide (p.1 ≤ pos ∧ pos < p.1 + p.2.length) with
      | none => none
      | some (o, b) =>
        let before := (parts.takeWhile fun p => !decide (p.1 ≤ pos ∧ pos < p.1 + p.2.length))
        let stop := before.foldl (fun e p => if pos < p.1 then min e p.1 else e) (o + b.length)
        (gather parts len n stop).map fun r => slice b (pos - o) (min stop len - pos) ++ r

/-- The record of a message whose data has gone to its command. -/
def Message.spent (m : Message) : Message := { m with held := [], parts := [], done := true }

/-- The whole message, once every byte has arrived and fragment 0 of leg 0 with it. -/
def Message.whole (m : Message) : Option Bytes :=
  if m.led && !m.done then gather (m.parts.map (·.2)) m.msgLen (2 * m.parts.length + 1) 0 else none

/-! ## FRAGMENT_RX past step 10 -/

/-- A command of the session with the request id is in flight. -/
def State.inFlight (s : State) (sess reqId : Nat) : Bool :=
  (s.cqc.trs.any fun t => t.session == sess && t.reqId == reqId)
    || s.descs.any fun d => d.session == sess && d.reqId == reqId

/-- A command of the predecessor still runs under the request id: its response goes to the successor (R144). -/
def State.adopt (s : State) (sess reqId : Nat) : State :=
  match s.wte.kept.find? fun k => k.claimedBy == some sess && k.final with
  | none => s
  | some k => { s with cqc.trs := s.cqc.trs.map fun (t : Trs) =>
      if t.session = k.session ∧ t.reqId = reqId then { t with session := sess } else t }

/-- The fragment is fragment 0 of leg 0. -/
def leadsFrag (f : Frag) : Bool := f.leg == 0 && f.index == 0

/-- Class of the command that a fragment belongs to: its task's, final once classified, its descriptor's, or the one at
admission (R92, R93, R274). -/
def State.commandClass (s : State) (x : Session) (f : Frag) : Cls :=
  match s.cqc.trs.find? fun t => t.session == x.id && t.reqId == f.reqId with
  | some t => t.cls
  | none => match s.descs.find? fun d => d.session == x.id && d.reqId == f.reqId with
    | some d => d.cls
    | none => s.admitClass f

/-- Tenant of that command: its task's, or the one its operation fields name. -/
def State.commandTenant (s : State) (x : Session) (f : Frag) : Nat :=
  match s.cqc.trs.find? fun t => t.session == x.id && t.reqId == f.reqId with
  | some t => t.tenant
  | none => match s.descs.find? fun d => d.session == x.id && d.reqId == f.reqId with
    | some d => actingTenant x d.opcode d.fields
    | none => match leadsFrag f, f.lead with
      | true, some l => actingTenant x f.opcode l.fields
      | _, _ => x.tenant

/-- A command in flight is abandoned with BAD_REQUEST and without effect, its key-lock entries freed; being ORDERED, it
posts after every earlier command of its session (R60, R103). -/
def State.abandon (s : State) (t : Trs) (fields : Bytes) : State :=
  let s := s.dropRun t.idx
  let s := { s with cqc.chains := dropFromChains t.idx s.cqc.chains }
  (s.mapTrs t.idx fun u => { u with changes := [], headed := false, bytesReserved := 0, keysReserved := 0, started := true, unlocked := true }).finish t.idx
    stBadRequest 0 fields []

/-- A request is found bad: a command in flight is abandoned, BAD_REQUEST is its answer, and its further fragments are
discarded (R103). -/
def State.badRequest (s : State) (x : Session) (f : Frag) (sub detail : Nat) : State :=
  let tasks := s.cqc.trs.filter fun t => t.session == x.id && t.reqId == f.reqId
  if tasks.any fun t => t.committed then s
  else
    let cls := s.commandClass x f
    let tenant := s.commandTenant x f
    let led := leadsFrag f || x.messages.any fun m => m.reqId == f.reqId && m.led
    let fields := errorFields sub 0xFFFF detail
    match tasks.find? fun t => t.ordered && s.earlierOpen t.session t.seq0 != 0 with
    | some t => (s.abandon t fields).mapSession x.id fun y => y.dropRequest f.reqId led
    | none =>
      let s := tasks.foldl (fun s t => s.freeTrs t.idx) s
      let mine : Desc → Bool := fun d => d.session == x.id && d.reqId == f.reqId
      let s := { s.clearLanes mine with cqc.aborting := s.cqc.aborting.filter fun e => !mine e.2 }
      let s := s.mapSession x.id fun y => y.dropRequest f.reqId led
      s.answer x.id f.reqId f.opcode stBadRequest fields cls tenant

/-- Fragment 0 of leg 0 presents the command to CQC: a descriptor enters its lane (R192, R193). -/
def State.present (s : State) (x : Session) (p : Port) (f : Frag) (l : Lead) : State :=
  let c := s.admitClass f
  let d : Desc := { opcode := f.opcode, cls := c, ordered := f.has flOrdered || f.opcode == opClose, orderedFlag := f.has flOrdered,
                    port := p, session := x.id, seq0 := f.seq, reqId := f.reqId, msgLen := l.msgLen, leadLen := l.leadLen,
                    fields := l.fields, arrival := s.cqc.nextArrival, rxAt := s.wte.inHand, noTrs := false, noLock := false }
  { s with cqc.lanes := s.cqc.lanes.modify (p.num * 4 + c.val) (· ++ [d]), cqc.nextArrival := s.cqc.nextArrival + 1 }.transfer
    (wteLane x.id) cqcLane c true noTask 64

/-- The fragment is of a request whose fragments are discarded, and the session after it: a fragment 0 of leg 0 that
comes where that of the discarded request has come begins a new request (R103, R115, R116). -/
def Session.screen (x : Session) (f : Frag) : Bool × Session :=
  match x.discard.find? fun d => d.reqId == f.reqId with
  | none => (false, x)
  | some d =>
    let others := x.discard.filter fun e => e.reqId != f.reqId
    match leadsFrag f, d.after with
    | true, some _ => (false, { x with discard := others })
    | true, none =>
      if d.lead then (false, { x with discard := others }) else (true, { x with discard := { d with lead := true } :: others })
    | false, some q => (seqLt q f.seq, x)
    | false, none => (true, x)

/-- The message data of a fragment goes into staging (R23, R262). -/
def State.stageData (s : State) (x : Session) (f : Frag) : State :=
  if f.data.isEmpty then s
  else s.transfer (wteLane x.id) (bufferLane f.seq) (s.commandClass x f) (leadsFrag f) noTask f.data.length

/-- The message of a request has gone to its command. -/
def Session.spend (x : Session) (reqId : Nat) : Session :=
  { x with messages := x.messages.map fun m => if m.reqId = reqId then m.spent else m }

/-- The fragment joins its message; the command is presented and its message data delivered when whole. -/
def State.place (s : State) (x : Session) (p : Port) (f : Frag) : State :=
  let s := s.stageData x f
  let m := (x.messages.find? fun m => m.reqId == f.reqId).getD (.fresh f)
  match m.join f with
  | none => s.badRequest x f subMismatch noField
  | some m =>
    let m := if m.done then m.spent else m
    let s := s.mapSession x.id fun y => { y with messages := y.messages.filter (fun n => n.reqId != f.reqId) ++ [m] }
    let s := match leadsFrag f, f.lead with
      | true, some l => s.present x p f l
      | _, _ => s
    match m.whole with
    | none => s
    | some b =>
      let s := { s with cqc.trs := s.cqc.trs.map fun (t : Trs) =>
        if t.session = x.id ∧ t.reqId = f.reqId then { t with data := some b } else t }
      if s.cqc.trs.any fun t => t.session == x.id && t.reqId == f.reqId then
        s.mapSession x.id fun y => y.spend f.reqId
      else s

/-- A fragment past step 12: of a duplicate of a request in flight (R115), of a request whose fragments are discarded, at
fault (step 13), or to be placed. -/
def State.accept (s : State) (x : Session) (p : Port) (f : Frag) : State :=
  let s := if leadsFrag f then s.adopt x.id f.reqId else s
  if leadsFrag f && s.inFlight x.id f.reqId then
    s.mapSession x.id fun y => { y with
      discard := { reqId := f.reqId, lead := true, after := some f.seq } :: y.discard.filter fun d => d.reqId != f.reqId }
  else
    let (drop, x) := x.screen f
    let s := s.mapSession x.id fun y => { y with discard := x.discard }
    if drop then s
    else match f.fault with
      | some (sub, d) => s.badRequest x f sub d
      | none => s.place x p f

/-- Acknowledge within 20 µs, or at once (R107). -/
def State.ackLater (s : State) (id : Nat) (atOnce : Bool) : State :=
  if atOnce then s.sendAck id false
  else s.mapSession id fun y => { y with ackDue := some (y.ackDue.getD (s.now + 20)) }

/-- The fragment's data are bytes of a value of the session's own tenant (R338). -/
def State.arrivesAsValue (s : State) (x : Session) (f : Frag) : Bool :=
  (f.opcode == opPut || f.opcode == opPutIf || f.opcode == opAppend || f.opcode == opBatch) && !f.data.isEmpty
    && s.commandTenant x f == x.tenant

/-- A sealed fragment goes through a pipeline bound to the page of its session's tenant, from WTE and back; the bytes of an
arriving value pass both of its functions at once (R266, R338, R340). -/
def State.openSeal (s : State) (x : Session) (f : Frag) : State :=
  (s.crypt (if s.arrivesAsValue x f then .gx else .gcmD) x.tenant (wteLane x.id) (wteLane x.id) (s.commandClass x f) (leadsFrag f)
    noTask (40 + f.plain.length) (x.id, f.reqId)).bump 0x7030 0x02 f.plain.length

/-- An authenticated fragment: its nonce, time and acknowledgement fields act (R105, R112, R137). -/
def State.authentic (s : State) (x : Session) (f : Frag) : State :=
  let s := match f.nonce with
    | some n =>
      let s := if f.has flEnc ∧ n.epoch = x.rxEpoch + 1 then (s.bump 0x2012 0x0F 1).macBlocks x.id x.tenant 16 else s
      if f.has flEnc then (s.mapSession x.id fun y => y.takeNonce n s.now).openSeal x f else s
    | none => s
  let s := s.mapSession x.id fun y => { y with
    lastAuth := s.now,
    retries := if y.unacked.isEmpty then 0 else y.retries, rto := if y.unacked.isEmpty then y.rtoBase else y.rto,
    rtoFrom := if y.unacked.isEmpty then some s.cqc.cycle else y.rtoFrom }
  s.ackFields x.id f.cumAck f.sack f.credit

/-- Steps 11 to 13 in a half-open session: a SESSION_CONFIRM waits for its row; a request of another opcode is answered
once, by its fragment 0 of leg 0, and the session is left as it was (R98, R114, R148). -/
def State.halfOpenFragment (s : State) (x : Session) (p : Port) (f : Frag) : State :=
  if seqLt x.edge f.seq then s.bump 0x2012 0x09 1
  else if x.received f.seq then s.ackLater x.id true
  else if f.opcode = 0 then s.bump 0x2012 0x0C 1
  else
    let s := s.bump 0x2012 0x01 1
    if f.opcode = opConfirm then { s with wte.handshakes := s.wte.handshakes ++ [{ port := p, frag := f, at_ := s.now, cls := s.admitClass f }] }
    else if !leadsFrag f then s
    else
      let (sub, d) := f.fault.getD (subContext, noField)
      s.sendReply p (s.replyFrag p f (s.admitClass f) x.size x.id 0 0 x.edge stBadRequest (s.postFlags f.opcode (s.commandTenant x f))
        (errorFields sub 0xFFFF d)) (answerTo f)

/-- Steps 11 to 13 for a fragment that carries a message (R98, R103, R114). -/
def State.message (s : State) (x : Session) (p : Port) (f : Frag) : State :=
  if seqLt x.edge f.seq then s.bump 0x2012 0x09 1
  else
    let s := s.mapSession x.id fun y => { y with srcMac := f.srcMac }
    if x.received f.seq then s.ackLater x.id true
    else if f.opcode = 0 then s.bump 0x2012 0x0C 1
    else
      let gap := f.seq != seqAdd x.rxCum 1
      let s := (s.mapSession x.id fun y => y.take f.seq).bump 0x2012 0x01 1
      ((s.accept x p f).ackLater x.id (f.has flAckReq || gap)).releaseHeld

/-- The client has used its last nonce: it would need epoch 2^31 next, and the session ends (R138). -/
def State.spent (s : State) (x : Session) (f : Frag) : State :=
  match f.nonce with
  | some n => if f.has flEnc && n.epoch == 2 ^ 31 - 1 && n.counter == counterMax && (s.session? x.id).isSome then s.exhausted x
              else s
  | none => s

/-- A datagram dropped by a receive check is counted; one whose tag failed has been through GCM (R114, R349). -/
def State.dropped (s : State) (f : Frag) (c : Nat) : State :=
  let s := s.bump 0x2012 c 1
  if c = 0x07 then match s.session? f.session with
    | some x => (s.bump 0x7030 0x03 1).openSeal x f
    | none => s
  else s

/-- A datagram that is no ACK_ONLY fragment (R114). One with an uncorrectable error in staging is discarded and not
acknowledged (R24). -/
def State.fragment (s : State) (p : Port) (f : Frag) : State :=
  match s.rxGate p f with
  | .drop c => s.dropped f c
  | .otherVersion => s.refuseHandshake p f (s.admitClass f) stUnsupported 0 0
  | .open =>
    let s := s.bump 0x2012 0x01 1
    { s with wte.handshakes := s.wte.handshakes ++ [{ port := p, frag := f, at_ := s.now, cls := s.admitClass f }] }
  | .unknown => s.noSession p f
  | .session x => match s.bufferRead (.inbound x.id f.seq) with
    | (true, s) => s
    | (false, s) =>
      let s := s.authentic x f
      match s.session? x.id with
      | none => s
      | some x => (if x.half then s.halfOpenFragment x p f else s.message x p f).spent x f

/-- An ACK_ONLY fragment: its acknowledgement and credit act; it passes steps 11 to 13, and ACK_REQ is answered at once
(R98, R105, R107, R113, R114). Its sequence number is the next that the client will assign, so one beyond the right edge
where the client has used its whole credit (R111). DESIGN CHOICE (log 133): one with ORDERED or VOID set is malformed. -/
def State.ackFragment (s : State) (p : Port) (f : Frag) : State :=
  match s.rxGate p f with
  | .drop c => s.dropped f c
  | .otherVersion => s.refuseHandshake p f (s.admitClass f) stUnsupported 0 0
  | .open => s.bump 0x2012 0x0C 1
  | .unknown => s.noSession p f
  | .session x =>
    let s := s.authentic x f
    match s.session? x.id with
    | none => s
    | some x =>
      let s := if seqLt (seqAdd x.edge 1) f.seq then s.bump 0x2012 0x09 1
        else if x.received f.seq then s.sendAck x.id false
        else
          let s := s.mapSession x.id fun y => { y with srcMac := f.srcMac }
          if f.opcode ≠ 0 ∨ f.flags &&& 0x0FFF ≠ 0 ∨ f.status ≠ 0 ∨ f.reqId ≠ 0 ∨ f.cls ≠ 0 ∨ f.index ≠ 0 ∨ f.count ≠ 0
              ∨ f.payloadLen ≠ 0 ∨ f.leg ≠ 0 then s.bump 0x2012 0x0C 1
          else
            let s := s.bump 0x2012 0x01 1
            if f.has flAckReq then s.sendAck x.id false else s
      s.spent x f

/-- WTE takes datagrams while the module is neither in Doze nor entering or leaving it (R223). -/
def State.wteAwake (s : State) : Bool :=
  match s.pch.power with
  | .active | .ready | .readyWt => s.pch.dozeStep == 0
  | _ => false

/-- A datagram goes from its port to WTE (R266, R279). -/
def State.takeIn (s : State) (p : Port) (d : Datagram) : State :=
  let s := { s with wte.inHand := d.rx, wte.mark := d.mark }
  let c := match s.session? d.frag.session with
    | some x => s.commandClass x d.frag
    | none => s.admitClass d.frag
  s.transfer (portLane p) (wteLane d.frag.session) c (leadsFrag d.frag) noTask d.frag.udpLen

/-- FRAGMENT_RX (R114): the oldest datagram that waits at the port, when it is no ACK_ONLY fragment. -/
def execFragmentRx (p : Port) (s : State) : Host.Outcome State Fault Refusal :=
  match (s.port p).toWte with
  | [] => .next s
  | d :: rest =>
    if !s.wteAwake || d.frag.has flAckOnly then .next s
    else .next ((((s.mapPort p fun x => { x with toWte := rest }).takeIn p d).fragment p d.frag).release p d.part d.len)

/-- ACK_ONLY (R113): the oldest datagram that waits at the port, when it is an ACK_ONLY fragment. -/
def execAckOnly (p : Port) (s : State) : Host.Outcome State Fault Refusal :=
  match (s.port p).toWte with
  | [] => .next s
  | d :: rest =>
    if !s.wteAwake || !d.frag.has flAckOnly then .next s
    else .next ((((s.mapPort p fun x => { x with toWte := rest }).takeIn p d).ackFragment p d.frag).release p d.part d.len)

/-! ## Timers and sending -/

/-- ACK_DUE (R107, R113): an acknowledgement that no fragment has carried is sent alone. -/
def execAckDue (session : Nat) (s : State) : Host.Outcome State Fault Refusal :=
  match s.session? session with
  | none => .next s
  | some x => if s.wteAwake && x.ackDue.any (fun t => decide (t ≤ s.now)) then .next (s.sendAck session false) else .next s

/-- FRAGMENT_SEND (R136): one fragment of a response. -/
def execFragmentSend (session : Nat) (s : State) : Host.Outcome State Fault Refusal :=
  if !s.wteAwake then .next s
  else match s.sendNext session with
    | some s => .next s
    | none => .next s

/-- An incomplete request is held and nothing of the module's own is outstanding (R112). -/
def Session.probing (x : Session) : Bool := (x.messages.any fun m => !m.done && m.whole.isNone) && x.unacked.isEmpty

/-- Nothing outstanding, something to send, and no room in the client's window: the module probes then (R111). DESIGN CHOICE (log
133): not while a fragment is unacknowledged, whose own timer runs, nor while nothing waits to be sent. -/
def Session.stuck (x : Session) : Bool :=
  x.unacked.isEmpty && x.outgoing.any TxMessage.hasWork && seqLt x.peerEdge x.txNext

/-- The session dies (R110, R141, R142): by close it counts and records nothing. -/
def State.sessionDies (s : State) (x : Session) (idle : Bool) : State :=
  match x.phase with
  | .closing => s.endSession x.id
  | _ => ((s.endSession x.id).bump 0x2012 (if idle then 0x06 else 0x05) 1).raise 0x2001 (wholeUnit 2) x.id x.tenant
      (if idle then 2 else 1)

/-- RTO_EXPIRY (R108, R110 to R112): retransmit, or probe, or end the session after the eighth. -/
def execRtoExpiry (session : Nat) (s : State) : Host.Outcome State Fault Refusal :=
  match s.session? session with
  | none => .next s
  | some x =>
    if !s.wteAwake || !x.rtoFrom.any (fun t => decide (t + x.rto ≤ s.cqc.cycle)) then .next s
    else if x.unacked.isEmpty && !x.probing && !x.stuck then .next s
    else if 8 ≤ x.retries then .next (s.sessionDies x false)
    else
      let s := s.mapSession session fun y => { y with retries := y.retries + 1, rto := min 50000000 (2 * y.rto),
                                                      rtoFrom := some s.cqc.cycle }
      match x.unacked with
      | u :: _ => .next ((s.resend session u.frag.seq fun w => { w with retries := w.retries + 1 }).bump 0x2012 0x03 1)
      | [] => .next (s.sendAck session true)

/-- SESSION_IDLE_EXPIRY (R142): no authenticated fragment for SESSION_IDLE_LIMIT. -/
def execSessionIdleExpiry (session : Nat) (s : State) : Host.Outcome State Fault Refusal :=
  match s.session? session with
  | none => .next s
  | some x =>
    if !x.half && s.due (x.lastAuth + s.num 0x2001 0 * 1000) then .next (s.sessionDies x true) else .next s

/-- A SESSION_CONFIRM with the right Mc has been received and its ECDH is waiting or running. -/
def State.confirming (s : State) (id : Nat) : Bool :=
  (s.cpx.pkWaiting ++ s.cpx.ladders.filterMap fun l => l.map (·.1)).any fun j => match j.kind with
    | .handshakeConfirm h => h.frag.session == id
    | _ => false

/-- HALF_OPEN_EXPIRY (R132): a half-open session without a valid SESSION_CONFIRM for 100 ms is discarded. -/
def execHalfOpenExpiry (session : Nat) (s : State) : Host.Outcome State Fault Refusal :=
  match s.session? session with
  | none => .next s
  | some x => match x.phase with
    | .halfOpen t => if s.due (t + 100000) && !s.confirming session then .next (s.endSession session) else .next s
    | _ => .next s

/-- EPOCH_GRACE_EXPIRY (R139): the previous epoch's 100 ms are over. -/
def execEpochGraceExpiry (session : Nat) (s : State) : Host.Outcome State Fault Refusal :=
  .next (s.mapSession session fun x => { x with prevEpoch := x.prevEpoch.filter fun e => decide (s.now ≤ e.2.2.2) })

/-- REPLAY_ENTRY_EXPIRY (R122): an entry goes 30 s after its completion was posted. -/
def execReplayEntryExpiry (session reqId : Nat) (s : State) : Host.Outcome State Fault Refusal :=
  let keep : List ReplayEntry → List ReplayEntry := fun l =>
    l.filter fun e => !(e.reqId == reqId && decide (e.postedAt + 30000000 ≤ s.now))
  let s := s.mapSession session fun x => { x with replay := keep x.replay }
  .next { s with wte.kept := s.wte.kept.map fun (k : KeptCache) =>
    if k.session = session then { k with entries := keep k.entries } else k }

/-- The cache is claimed by a half-open session, or it has been inherited and commands of its session still run, whose
retries the successor answers (R144). -/
def State.inherited (s : State) (k : KeptCache) : Bool :=
  k.claimedBy.isSome && (!k.final || s.cqc.trs.any fun t => t.session == k.session)

/-- SESSION_ID_RELEASE (R143): an ended session's id may be used again after 60 s; its kept cache goes after 30 s, unless
it is claimed, or inherited while commands of the session still run. -/
def execSessionIdRelease (session : Nat) (s : State) : Host.Outcome State Fault Refusal :=
  .next { s with
    wte.resting := s.wte.resting.filter fun e => !(e.1 == session && decide (e.2 ≤ s.now)),
    wte.kept := s.wte.kept.filter fun k => !(k.session == session && decide (k.endedAt + 30000000 ≤ s.now) && !s.inherited k) }

/-! ## Gate lists: GATE_COMMIT, GATE_SWITCH -/

/-- The administrative list of the port (R246). -/
def State.adminList (s : State) (p : Port) : GateList :=
  { enable := s.pflag p 0x11 0, cycle := s.pnum p 0x12 0, phase := s.pnum p 0x13 0, start := 0,
    entries := (gateEntries (s.pblob p 0x14 1) (s.pnum p 0x14 0)).map fun e => (e.1, e.2.2) }

/-- The conditions of R246 for a commit. -/
def State.commitOk (s : State) (p : Port) : Bool :=
  let n := s.pnum p 0x14 0
  let es := gateEntries (s.pblob p 0x14 1) n
  let g := s.adminList p
  decide (1 ≤ n ∧ n ≤ 256) && es.all (fun e => e.2.1 == 0 && e.2.2 % 8 == 0 && decide (8 ≤ e.2.2))
    && (es.map fun e => e.2.2).foldl (· + ·) 0 == g.cycle
    && g.cycle % 8 == 0 && decide (1000 ≤ g.cycle ∧ g.cycle ≤ 10000000 ∧ g.phase < g.cycle)
    && (s.smallQueues p g (s.portRate p)).isEmpty

/-- The first wall-aligned instant at or after the tick plus 1 µs, in device ns (R248). -/
def State.alignedInstant (s : State) (g : GateList) : Nat :=
  let t := s.nowNs + 1000
  if s.num 0xD101 0 = 0 then t
  else
    let w := ((t : Int) + s.pch.wallOffset - g.phase).emod g.cycle
    if w = 0 then t else t + (g.cycle - w.toNat)

/-- The switch instant of a commit in the running tick (R248). DESIGN CHOICE (log 125): a suspended list counts as gating
disabled. -/
def State.switchInstant (s : State) (p : Port) (g : GateList) : Nat :=
  let o := (s.port p).gating
  if o.enable && o.cycle != 0 then o.start + ((s.nowNs - o.start) / o.cycle + 2) * o.cycle
  else s.alignedInstant g

/-- The write of GATE_COMMIT (R246, R248). -/
def gateCommitEffect (p : Port) : WriteEffect := fun _ _ _ _ s =>
  if !s.commitOk p then (s, stRange)
  else
    let g := s.adminList p
    let t := s.switchInstant p g
    ((s.mapPort p fun x => { x with gatePending := some ({ g with start := t }, t) }).putNum (p.base + 0x15) 0 1, stOk)

def execGateCommit (p : Port) (r : Requester) (v : OdVal) (s : State) : Host.Outcome State Fault Refusal :=
  .next (s.ownWrite (gateCommitEffect p) r (p.base + 0x15) 0 v)

/-- The frame fits some window of its queue under the list (R249). -/
def GateList.holds (g : GateList) (q len rate : Nat) : Bool :=
  g.alwaysOpen q || (g.windows q).any fun w => decide (frameNs len rate ≤ w)

/-- GATE_SWITCH (R248, R249): at the switch instant the pending list becomes operational; frames that no window of
theirs can hold are dropped, counted, and their data sent again in smaller fragments. -/
def execGateSwitch (p : Port) (s : State) : Host.Outcome State Fault Refusal :=
  match (s.port p).gatePending with
  | none => .next s
  | some (g, t) =>
    if s.nowNs < t then .next s
    else
      let rate := s.portRate p
      let x := s.port p
      let late := (List.range 8).flatMap fun q => (x.txq.getD q []).filter fun e => !g.holds q e.2 rate
      let s := s.setPort p { x with
        gatePending := none, oper := g, gateState := if g.enable then 1 else 0,
        txq := (List.range 8).map fun q => (x.txq.getD q []).filter fun e => g.holds q e.2 rate }
      let s := (s.putNum (p.base + 0x15) 0 0).pbump p 0x0E late.length
      .next (late.foldl (fun s e => match e.1 with
        | .fragment f _ => s.voidFragment f
        | _ => s) s)

end Sys2Proof.Machine
end

