-- ==== Sys2Proof/Machine/Units.lean ====
section
/-!
DEFINITION. Units: their endpoints on the Turnpike and their isolation (R31, R263, R576, R597).
-/
namespace Sys2Proof

/-- Endpoint id of a unit that has a lane of its own (R263). -/
def UnitId.endpoint (u : UnitId) : Option Nat :=
  match u.subsystem with
  | 1 => if u.number < 2 then some u.number else none
  | 6 => if u.number < 8 then some (0x0B + u.number) else none
  | 7 => if u.number < 16 then some (0x13 + u.number) else none
  | 0xA => if u.number < 2048 then some (0x40 + u.number / 32) else none
  | 0xB => if u.number < 2 then some (0x2C + u.number) else none
  | _ => none

/-- The unit is a replicated unit of UNIT_HEALTH (R588). -/
def UnitId.replicated (u : UnitId) : Bool := Machine.healthUnits.contains u

def bankUnit (n : Nat) : UnitId := ⟨5, n⟩
def engineUnit (n : Nat) : UnitId := ⟨6, n⟩
def pipelineUnit (n : Nat) : UnitId := ⟨7, n⟩
def tileUnit (t : Nat) : UnitId := ⟨0xA, t * 32 + 15⟩

end Sys2Proof

namespace Sys2Proof.Machine

/-- The unit's lane is to be masked, or unmasked, at the next revolution boundary (R268). -/
def State.wantMask (s : State) (u : UnitId) (on : Bool) : State :=
  match u.endpoint with
  | none => s
  | some e =>
    let rest := s.tpk.maskWanted.filter (· != e)
    { s with tpk.maskWanted := if on then e :: rest else rest }

/-- A shard that was on its way to a tile that goes out of service waits again: in the dirty buffer, or for the rebuild
(R408). -/
def Stripe.recall (p : Stripe) (tile : Nat) : Stripe :=
  { p with shards := p.shards.map fun h =>
      if h.tile = tile ∧ h.phase = .sent then { h with phase := if p.dirty then .dirty else .lost } else h }

/-- Operations that a die holds: waiting, in progress and suspended. -/
def Die.all (d : Die) : List DieOp := d.queue ++ (d.doing.map (·.1)).toList ++ (d.suspended.map (·.1)).toList

/-- Stripes with a read in flight to the tile. -/
def Tile.readingStripes (t : Tile) : List Nat := (t.dies.flatMap Die.all).filterMap fun o => match o with
  | .read _ _ id .. => some id
  | _ => none

/-- Frames of some responses that wait in the port's queues lose their measure. -/
def PortS.untimed (x : PortS) (of : TxFrag → Bool) : PortS :=
  { x with txq := x.txq.map fun q => q.map fun (e : TxFrame × Nat) => match e.1 with
      | .fragment f c => if of f then (.fragment { f with timed := none } c, e.2) else e
      | _ => e }

/-- Responses of the session that meet a condition lose their measure. -/
def Session.untimed (x : Session) (hit : List Span → Bool) : Session :=
  { x with outgoing := x.outgoing.map fun m => if hit m.spans then { m with resp.timed := none } else m }

/-- Responses that need a shard whose read is in flight to a tile that fails are not measured (R279). -/
def State.unmeasure (s : State) (hit : List Span → Bool) : State :=
  let of : TxFrag → Bool := fun f => s.wte.sessions.any fun x => x.id == f.session
    && x.outgoing.any fun m => m.resp.reqId == f.reqId && hit m.spans
  { s with
    cqc.trs := s.cqc.trs.map fun (t : Trs) => if hit t.reading then { t with unmeasured := true } else t,
    wte.sessions := s.wte.sessions.map fun (x : Session) => x.untimed hit,
    dpx.portA := s.dpx.portA.untimed of, dpx.portB := s.dpx.portB.untimed of }

/-- Ranges of the message data that no fragment has carried yet. -/
def TxMessage.unsent (m : TxMessage) : List (Nat × Nat) :=
  (match m.cur with
    | some g => [(g.off + g.index * g.unit, g.off + g.len - (g.off + g.index * g.unit))]
    | none => []) ++ m.todo

/-- Some of the message data that no fragment has carried yet lies in a range of a stripe that meets a condition. -/
def TxMessage.unsentIn (m : TxMessage) (hit : Nat → Nat → Nat → Bool) : Bool :=
  m.spans.any fun e => m.unsent.any fun r =>
    let lo := max r.1 e.pos
    let hi := min (r.1 + r.2) (e.pos + e.len)
    decide (lo < hi) && hit e.stripe (e.off + (lo - e.pos)) (hi - lo)

/-- A GET's fragments still to be sent carry DEGRADED where they are served through reconstruction (R97, R158). -/
def TxMessage.degrade (m : TxMessage) (hit : Nat → Nat → Nat → Bool) : TxMessage :=
  if m.resp.opcode = opGet ∧ m.unsentIn hit then { m with resp := { m.resp with flags := m.resp.flags ||| flDegraded } } else m

/-- Reconstruction is found to serve ranges of stripes (R158): responses being sent carry DEGRADED from their next fragment
on, those not yet begun in every fragment. -/
def State.degradeReads (s : State) (hit : Nat → Nat → Nat → Bool) : State :=
  { s with
    cqc.trs := s.cqc.trs.map fun (t : Trs) =>
      if t.opcode = opGet ∧ t.reading.any (fun e => hit e.stripe e.off e.len) then { t with degraded := true } else t,
    wte.sessions := s.wte.sessions.map fun (x : Session) => { x with outgoing := x.outgoing.map fun m => m.degrade hit } }

/-- A range of stripe data has bytes in a data shard that meets a condition. -/
def Stripe.dataIn (p : Stripe) (off len : Nat) (hit : Shard → Bool) : Bool :=
  (List.range p.k).any fun i => decide (i * shardBytes < off + len ∧ off < (i + 1) * shardBytes) && p.shards[i]?.any hit

/-- A tile leaves service (R31): it takes no new work; what is queued for it is handed back at the end of the revolution. -/
def State.tileOut (s : State) (tile : Nat) : State :=
  let l := (s.tile tile).readingStripes
  ((s.unmeasure fun spans => spans.any fun e => l.contains e.stripe).degradeReads fun id off len =>
    s.plc.stripes.any fun p => p.id == id && !p.dirty && p.dataIn off len fun h => h.tile == tile).mapTile tile fun t =>
      { t with isolated := true }

/-- What isolation does in the unit's own subsystem. -/
def State.unitOut (s : State) (u : UnitId) (code : Nat) : State :=
  match u.subsystem with
  | 1 => s.linkFalls (if u.number = 0 then .a else .b)
  | 5 => { s with asu.banks := s.asu.banks.modify u.number fun b => { b with state := code } }
  | 6 =>
    { s with
      pae.engines := s.pae.engines.modify u.number fun e => { e with state := code, image := none, task := none },
      pae.runs := s.pae.runs.map fun (r : ScanRun) => if r.engine = some u.number then { r with engine := none } else r }
  | 7 => s.pipelineOut u.number code
  | 0xA => s.tileOut (u.number / 32)
  | _ => s

/-- A unit agent isolates its unit (R31): it leaves service, its lane is masked from the next revolution on, and a
targeted test becomes due. Reason 1 error, 2 request, 3 power-up (R587). -/
def State.isolate (s : State) (u : UnitId) (reason : Nat) : State :=
  let s := (s.unitOut u 2).wantMask u true
  let s := s.mapHealth u fun h => { h with state := 1 }
  let s := s.raise 0xE003 u.word reason 0 0
  if reason = 1 then { s with msv.kiln.due := s.msv.kiln.due ++ [(u, s.now)] } else s

/-- The unit is in service: neither isolated, under test, waiting for limits nor retired. -/
def State.inService (s : State) (u : UnitId) : Bool := (s.health u).state == 0

end Sys2Proof.Machine
end

