-- ==== Sys2Proof/Machine/Index.lean ====
section
/-!
DEFINITION. The Key CAM and the key index: fingerprints, searches, verification, pages, directories, retention, and
the rows that work on them (R283 to R305, R384, R385, R390).
-/
namespace Sys2Proof.Machine

/-! ## The fingerprint (R283, R284) -/

/-- Fingerprint of a key: the first 8 bytes of AES-CMAC under K_fp. -/
def State.print (s : State) (tenant : Nat) (key : Bytes) : Nat :=
  (cmac (natBytes 32 (Config.draw (s.asu.printKey.getD 0))) (natBytes 2 tenant ++ natBytes 2 key.length ++ key)).toNat / 2 ^ 64

/-! ## Pages -/

def State.page? (s : State) (n : Nat) : Option Page := s.asu.pages.find? fun p => p.number == n

def State.mapPage (s : State) (n : Nat) (f : Page → Page) : State :=
  { s with asu.pages := s.asu.pages.map fun p => if p.number = n then f p else p }

/-- The page is in a cache frame and can be read. -/
def State.pageReady (s : State) (n : Nat) : Bool :=
  match s.page? n with
  | some p => p.cached && !p.unreadable
  | none => true

/-- The page was detached by a FORMAT (R423). -/
def State.pageDetached (s : State) (n : Nat) : Bool := s.asu.pages.any fun p => p.number == n && p.detached

/-- A command waits for the page (R304). -/
def State.wantPage (s : State) (n : Nat) : State := s.mapPage n fun p => { p with wanted := true }

/-- A use of the page, for least-recently-used order. -/
def State.touchPage (s : State) (n : Nat) : State :=
  { (s.mapPage n fun p => { p with lru := s.asu.lruClock + 1 }) with asu.lruClock := s.asu.lruClock + 1 }

/-- Frames of the index cache: 16 GiB of 16 KiB (R23, R304). -/
def cacheFrames : Nat := 1048576

/-- Frames of the pinned directory, which is always resident (R300). -/
def pinnedDirFrames : Nat := 8192

/-- A page of the pinned directory. -/
def Page.pinnedDir (p : Page) : Bool := p.kind == 3 && p.pinned

/-- Frames taken: the pinned directory's, and those of the other pages. -/
def State.framesTaken (s : State) : Nat := pinnedDirFrames + (s.asu.pages.filter fun p => p.cached && !p.pinnedDir).length

/-- A change would take more frames than the cache has: it waits until pages have been written and can leave. -/
def State.framesFull (after : State) : Bool := decide (cacheFrames < after.framesTaken)

/-- When every frame is taken, the least recently used page that is neither pinned nor unwritten leaves (R304). -/
def State.evict (s : State) : State :=
  if s.framesTaken < cacheFrames then s
  else
    let free := s.asu.pages.filter fun p => p.cached && !p.pinned && p.clean
    match free.foldl (fun (b : Option Page) p => match b with
      | none => some p
      | some q => if p.lru < q.lru then some p else b) none with
    | none => s
    | some p => (s.mapPage p.number fun q => { q with cached := false }).bump 0x5030 0x0D 1

/-- A new page in a frame. -/
def State.newPage (s : State) (kind tenant version : Nat) (pinned : Bool) : Nat × State :=
  let s := s.evict
  let n := s.asu.nextPage
  let p : Page := { number := n, kind := kind, pinned := pinned, tenant := tenant, version := version, cached := true,
                    lru := s.asu.lruClock, wanted := false, unreadable := false, clean := false, detached := false, home := none, dir := none }
  (n, { s with asu.pages := s.asu.pages ++ [p], asu.nextPage := n + 1 })

/-- A page in the index cache is read: with an uncorrectable error its frame is given up, and it must be read from flash
again (R24). -/
def State.readPage (s : State) (n : Nat) : State :=
  match s.bufferRead (.page n) with
  | (true, s) => s.mapPage n fun p => { p with cached := false }
  | (false, s) => s

/-- Pages are read in turn. -/
def State.readPages (s : State) (l : List Nat) : State := if s.bfc.faults.isEmpty then s else l.foldl State.readPage s

/-! ## Pages of the directories (R300) -/

/-- Bucket of the main directory: depth used and bucket number, with the split pointer (R300). -/
def Asu.bucket (a : Asu) (print : Nat) : Nat × Nat :=
  let b := print / 2 ^ (64 - a.depth)
  match a.split with
  | some p => if b < p then (a.depth + 1, print / 2 ^ (63 - a.depth)) else (a.depth, b)
  | none => (a.depth, b)

/-- Depth and place of the directory page that holds the bucket of a fingerprint: 256 buckets to a page. -/
def Asu.dirPlace (a : Asu) (print : Nat) : Nat × Nat :=
  let (d, b) := a.bucket print
  (d, b / 256)

/-- The page of a directory at a place; none while no bucket of it has held an entry. -/
def State.dirAt (s : State) (pinned : Bool) (place : Nat × Nat) : Option Page :=
  s.asu.pages.find? fun p => p.kind == 3 && p.pinned == pinned && p.dir == some place

/-- The main directory's page for a fingerprint. -/
def State.dirPage (s : State) (print : Nat) : Option Page := s.dirAt false (s.asu.dirPlace print)

/-- Place of the page of an overflow bucket. -/
def overflowPlace (number : Nat) : Nat × Nat := (64, number / 256)

/-- The overflow chain of a main bucket. -/
def Asu.chain (a : Asu) (bucket : Nat × Nat) : List Overflow := a.overflows.filter fun o => (o.depth, o.bucket) == bucket

/-- The pages that a lookup reads a main bucket from: its own and those of its overflow chain. -/
def State.bucketPages (s : State) (print : Nat) : List Nat :=
  (s.dirPage print).toList.map (·.number)
    ++ (s.asu.chain (s.asu.bucket print)).filterMap fun o => (s.dirAt false (overflowPlace o.number)).map (·.number)

/-- A page changes under a version. -/
def State.changePage (s : State) (n version : Nat) : State :=
  s.mapPage n fun q => { q with clean := false, version := max q.version version }

/-- A directory page changes; its first use takes a frame. -/
def State.touchDirAt (s : State) (pinned : Bool) (place : Nat × Nat) (version : Nat) : State :=
  match s.dirAt pinned place with
  | some p => s.changePage p.number version
  | none =>
    let (n, s) := s.newPage 3 0 version pinned
    s.mapPage n fun q => { q with dir := some place }

/-- The directory slot of an entry changes: in the pinned directory of 2^21 buckets, or in its main bucket, with the chain. -/
def State.touchDir (s : State) (pinned : Bool) (print version : Nat) : State :=
  if pinned then s.touchDirAt true (21, print / 2 ^ 51) version
  else (s.asu.chain (s.asu.bucket print)).foldl (fun s o => s.touchDirAt false (overflowPlace o.number) version)
    (s.touchDirAt false (s.asu.dirPlace print) version)

/-- PINNED_BYTES (5022): the pinned directory and the pinned leaf and interior pages (R303). -/
def State.pinnedBytes (s : State) : Nat :=
  134217728 + 16384 * (s.asu.pages.filter fun p => p.pinned && (p.kind == 1 || p.kind == 2)).length

/-- PINNED_MAP_BYTES (9006). -/
def State.pinnedMapBytes (s : State) : Nat := 16384 * (s.asu.pages.filter fun p => p.pinned && p.kind == 5).length

/-! ## Index entries in their pages (R296 to R303) -/

/-- Bytes of the key's index entry (R298). -/
def entryBytes (key : Bytes) : Nat := roundUp (48 + key.length) 8

/-- Entries of an index page, in key order. -/
def State.pageKeys (s : State) (n : Nat) : List KeyRec := s.asu.keys.filter fun k => k.page == n

def keysBytes (l : List KeyRec) : Nat := (l.map fun k => entryBytes k.key).foldl (· + ·) 0

/-- Room for entries in an index page (R297). -/
def pageRoom : Nat := 15808

/-- The lowest free entry id. -/
def freeId (l : List KeyRec) : Nat := ((List.range 256).find? fun i => !l.any fun k => k.entryId == i).getD 256

/-- CAM addresses of a bank whose index slot names an entry. -/
def CamBank.pointing (b : CamBank) (page id : Nat) : List Nat :=
  (b.entries.filter fun e => e.page == page && e.entry == id).map (·.addr)

/-- Queue the invalidation of whatever CAM entry names an index entry (R292). -/
def State.invalidate (s : State) (page id : Nat) : State :=
  { s with asu.banks := s.asu.banks.map fun (b : CamBank) =>
      { b with invalid := b.invalid ++ (b.pointing page id).filter fun a => !b.invalid.contains a } }

/-! ## Interior pages (R296)

DESIGN CHOICE (log 33): the spec lays out no interior page. Each has at most a free number of children, those of a level follow
one another in key order, and a change of a tree's leaves changes the pages above them. -/

/-- Most children of an interior page. -/
def interiorFan : Nat := 2 + Config.freeValue 24 0 % 1023

/-- The leaves of a tree in key order. -/
def State.leaves (s : State) (tenant : Nat) (pinned : Bool) : List Nat :=
  (s.asu.keys.filter fun k => k.tenant == tenant && k.pinned == pinned).foldl
    (fun (l : List Nat) k => if l.contains k.page then l else l ++ [k.page]) []

/-- Interior pages of each level over `n` pages, the lowest level first. -/
def interiorLevels : (fuel n : Nat) → List Nat
  | 0, _ => []
  | f + 1, n => if n ≤ 1 then [] else ceilDiv n interiorFan :: interiorLevels f (ceilDiv n interiorFan)

/-- Levels and places of the interior pages over `n` leaves. -/
def interiorPlaces (n : Nat) : List (Nat × Nat) :=
  (interiorLevels 30 n).zipIdx.flatMap fun e => (List.range e.1).map fun i => (e.2, i)

/-- The interior pages of a tree. -/
def State.interiors (s : State) (tenant : Nat) (pinned : Bool) : List Page :=
  s.asu.pages.filter fun p => p.kind == 2 && p.tenant == tenant && p.pinned == pinned && !p.detached

/-- The interior pages above a leaf. -/
def State.above (s : State) (tenant : Nat) (pinned : Bool) (leaf : Nat) : List Nat :=
  ((s.interiors tenant pinned).filter fun p => match p.dir with
    | some (level, i) => ((s.leaves tenant pinned).findIdx (· == leaf)) / interiorFan ^ (level + 1) == i
    | none => false).map (·.number)

/-- A leaf joins or leaves its tree: the pages above it change. -/
def State.changeAbove (s : State) (tenant : Nat) (pinned : Bool) (leaf version : Nat) : State :=
  (s.above tenant pinned leaf).foldl (fun s n => s.changePage n version) s

/-- A tree has the interior pages that its leaves ask for. -/
def State.fitTree (s : State) (tenant : Nat) (pinned : Bool) (version : Nat) : State :=
  let places := interiorPlaces (s.leaves tenant pinned).length
  let has := (s.interiors tenant pinned).map (·.dir)
  let s := { s with asu.pages := s.asu.pages.filter fun p =>
    !(p.kind == 2 && p.tenant == tenant && p.pinned == pinned && !p.detached && !places.any fun e => p.dir == some e) }
  (places.filter fun e => !has.contains (some e)).foldl (fun s e =>
    let (n, s) := s.newPage 2 tenant version pinned
    s.mapPage n fun q => { q with dir := some e }) s

/-- Every tree has the interior pages that its leaves ask for. -/
def State.fitTrees (s : State) : State :=
  let trees := (s.asu.pages.filter fun p => (p.kind == 1 || p.kind == 2) && !p.detached).foldl (fun (l : List (Nat × Bool × Nat)) p =>
    if l.any fun e => e.1 == p.tenant && e.2.1 == p.pinned
      then l.map fun e => if e.1 == p.tenant && e.2.1 == p.pinned then (e.1, e.2.1, max e.2.2 p.version) else e
      else l ++ [(p.tenant, p.pinned, p.version)]) []
  trees.foldl (fun s e => s.fitTree e.1 e.2.1 e.2.2) s

/-! ## Overflow buckets (R300) -/

/-- Entries of a main bucket, in the order of its slots: that of the keys (log 33). -/
def Asu.inBucket (a : Asu) (bucket : Nat × Nat) : List KeyRec := a.keys.filter fun k => !k.pinned && a.bucket k.print == bucket

/-- Overflow buckets of a main bucket of `n` entries: slot 7 of every bucket but the last of the chain names the next one. -/
def overflowsFor (n : Nat) : Nat := if n ≤ 8 then 0 else ceilDiv (n - 8) 7

/-- An overflow bucket more for a main bucket: the lowest free number. -/
def State.chainBucket (s : State) (bucket : Nat × Nat) (version : Nat) : State :=
  let used := s.asu.overflows.map (·.number)
  let n := ((List.range (used.length + 1)).find? fun i => !used.contains i).getD 0
  let o : Overflow := { depth := bucket.1, bucket := bucket.2, link := (s.asu.chain bucket).length, number := n }
  { s with asu.overflows := s.asu.overflows ++ [o] }.touchDirAt false (overflowPlace n) version

/-- Every main bucket has the overflow buckets that its entries ask for. -/
def State.fitChains (s : State) : State :=
  let s := { s with asu.overflows := s.asu.overflows.filter fun o => decide (o.link < overflowsFor (s.asu.inBucket (o.depth, o.bucket)).length) }
  (s.asu.keys.filter fun k => !k.pinned).foldl (fun s k =>
    let b := s.asu.bucket k.print
    (List.range (overflowsFor (s.asu.inBucket b).length - (s.asu.chain b).length)).foldl (fun s _ => s.chainBucket b k.version) s) s

/-! ## Splits and joins (R302) -/

/-- Entries from the middle byte of a page on (R302). -/
def upperHalf (half : Nat) : (sofar : Nat) → List KeyRec → List KeyRec
  | _, [] => []
  | n, k :: t => if half ≤ n then k :: t else upperHalf half (n + entryBytes k.key) t

/-- Move entries to a page under new entry ids; their CAM entries are invalidated, and their directory slots change. -/
def State.moveEntries (s : State) (dest version : Nat) (l : List KeyRec) : State :=
  l.foldl (fun s k =>
    let id := freeId (s.pageKeys dest)
    ((s.invalidate k.page k.entryId).touchDir k.pinned k.print version).mapKey k.tenant k.key fun r => { r with page := dest, entryId := id }) s

/-- The state after a change differs from the one before by invalidations that a bank's queue, not empty, has no room for
(R292): the change waits. -/
def State.invalidationsFull (s after : State) : Bool :=
  (s.asu.banks.zip after.asu.banks).any fun p => !p.1.invalid.isEmpty && decide (1024 < p.2.invalid.length) && decide (p.1.invalid.length < p.2.invalid.length)

/-- Split an index page at its middle byte; its version becomes that of the write (R297, R302). -/
def State.splitPage (s : State) (n version : Nat) : State :=
  match s.page? n with
  | none => s
  | some p =>
    let l := s.pageKeys n
    let (m, s) := s.newPage 1 p.tenant version p.pinned
    ((s.changePage n version).changeAbove p.tenant p.pinned n version).moveEntries m version (upperHalf (keysBytes l / 2) 0 l)

/-- The page of a tree in which a key belongs: that of the greatest smaller key, else of the next key. -/
def State.treePage (s : State) (tenant : Nat) (pinned : Bool) (key : Bytes) : Option Nat :=
  let l := s.asu.keys.filter fun k => k.tenant == tenant && k.pinned == pinned
  match (l.filter fun k => keyLt k.key key).getLast? with
  | some k => some k.page
  | none => l.head?.map (·.page)

/-- An entry of this length fits the page. -/
def State.entryFits (s : State) (n : Nat) (key : Bytes) : Bool :=
  let l := s.pageKeys n
  decide (keysBytes l + entryBytes key ≤ pageRoom ∧ l.length < 256)

/-- The page and entry id for a new entry, splitting its page where it does not fit. -/
def State.seat (s : State) (tenant : Nat) (pinned : Bool) (key : Bytes) (version : Nat) : Nat × Nat × State :=
  match s.treePage tenant pinned key with
  | none =>
    let (n, s) := s.newPage 1 tenant version pinned
    (n, 0, s)
  | some n =>
    let s := if s.entryFits n key then s else s.splitPage n version
    let n := (s.treePage tenant pinned key).getD n
    (n, freeId (s.pageKeys n), s)

/-- A pinned entry of the fingerprint would meet a full bucket of the pinned directory, or a new pinned page would
pass 4 GiB (R303). -/
def State.pinFull (s : State) (tenant : Nat) (key : Bytes) (print : Nat) : Bool :=
  let bucket := (s.asu.keys.filter fun k => k.pinned && k.print / 2 ^ 43 == print / 2 ^ 43).length
  let newPage := match s.treePage tenant true key with
    | none => true
    | some n => !s.entryFits n key
  let leaves := (s.leaves tenant true).length
  decide (8 ≤ bucket) || (newPage && decide (4294967296 < s.pinnedBytes
    + 16384 * (1 + (interiorPlaces (leaves + 1)).length - (interiorPlaces leaves).length)))

/-- The pages a change of the key needs in the cache: of the index, the map, the main directory; for an entry that is new to
its tree, the interior pages above its leaf too (R296). -/
def State.pagesFor (s : State) (tenant : Nat) (key : Bytes) (pinned : Bool) (print : Nat) : List Nat :=
  let held := match s.key? tenant key with
    | some k => [k.page] ++ k.mapPages
    | none => []
  let path := if (s.key? tenant key).any fun k => k.pinned == pinned then []
    else (s.treePage tenant pinned key).toList.flatMap fun n => s.above tenant pinned n
  held ++ (s.treePage tenant pinned key).toList ++ path ++ s.bucketPages print

/-- The first of them that is not there. -/
def State.missingPage (s : State) (tenant : Nat) (key : Bytes) (pinned : Bool) (print : Nat) : Option Nat :=
  (s.pagesFor tenant key pinned print).find? fun n => !s.pageReady n

/-- Empty index pages leave their tree; trees and buckets keep the interior pages and overflow buckets they need. -/
def State.dropEmpty (s : State) : State :=
  { s with asu.pages := s.asu.pages.filter fun p => p.kind != 1 || p.detached || s.asu.keys.any fun k => k.page == p.number
    }.fitTrees.fitChains

/-! ## Key CAM (R285 to R295) -/

/-- Entries of a row group at a width (R287). -/
def groupSize (w : Nat) : Nat := 256 / w

/-- Key bytes that an entry holds at a width (R286). -/
def camKeyBytes (w : Nat) : Nat := if w = 1 then 0 else if w = 2 then 8 else 28

/-- The entry agrees with a search word in the layout of its bank's width. -/
def CamEntry.agrees (e : CamEntry) (w print tenant : Nat) (key : Bytes) : Bool :=
  e.print == print && e.tenant == tenant
    && (w == 1 || (e.keyLen == key.length && e.key == key.take (camKeyBytes w)))

/-- The lowest-addressed entry of a bank in service that matches. -/
def CamBank.search (b : CamBank) (print tenant : Nat) (key : Bytes) : Option CamEntry :=
  if b.state ≠ 0 then none
  else (b.entries.filter fun e => e.agrees b.width print tenant key).foldl (fun m e => match m with
    | none => some e
    | some x => if e.addr < x.addr then some e else m) none

/-- The first bank with a match (R287), with its number. -/
def camSearch (print tenant : Nat) (key : Bytes) : List CamBank → (n : Nat) → Option (Nat × CamEntry)
  | [], _ => none
  | b :: t, n => match b.search print tenant key with
    | some e => some (n, e)
    | none => camSearch print tenant key t (n + 1)

def State.mapBank (s : State) (n : Nat) (f : CamBank → CamBank) : State :=
  { s with asu.banks := s.asu.banks.modify n f }

/-- The index entry that a CAM entry names. -/
def State.named (s : State) (e : CamEntry) : Option KeyRec :=
  s.asu.keys.find? fun k => k.page == e.page && k.entryId == e.entry && k.pinned == e.pinned

/-- A fault hit (R293, R294): the entry is cleared, the event recorded, and the fourth within 1 s isolates the bank. -/
def State.camFault (s : State) (bank : Nat) (e : CamEntry) : State :=
  let s := (s.bump 0x5030 0x08 1).raise 0x5801 (bankUnit bank).word e.addr (e.print / 2 ^ 32) 0
  let recent (b : CamBank) : List Nat := (s.now :: b.faults).filter fun t => decide (s.now < t + 1000000)
  let s := s.mapBank bank fun b => { b with clears := b.clears ++ [e.addr], faults := recent b }
  if 4 ≤ ((s.asu.banks.getD bank .reset).faults).length then s.isolate (bankUnit bank) 1 else s

/-- What a lookup finds. -/
inductive Found where
  | entry (k : KeyRec)
  | absent
  /-- An index page must be read first; the search of the Key CAM has ended. -/
  | paging (page : Nat) (searched : Bool)
  deriving DecidableEq, Repr

/-- Entries of one tree whose directory slot shares the key's bucket and tag. -/
def State.slots (s : State) (print : Nat) (pinned : Bool) : List KeyRec :=
  s.asu.keys.filter fun k => k.pinned == pinned && k.print % 2 ^ 16 == print % 2 ^ 16
    && (if pinned then k.print / 2 ^ 43 == print / 2 ^ 43 else s.asu.bucket k.print == s.asu.bucket print)

/-- Read the slots of one directory in order. -/
def State.walkSlots (s : State) (tenant : Nat) (key : Bytes) : List KeyRec → Found
  | [] => .absent
  | k :: l => if !s.pageReady k.page then .paging k.page true
              else if k.tenant = tenant ∧ k.key = key then .entry k
              else s.walkSlots tenant key l

/-- Read a directory: in the main one the pages of the bucket and of its overflow chain, then the slots in order (R301). -/
def State.walkDir (s : State) (tenant : Nat) (key : Bytes) (print : Nat) (pinned : Bool) : Found :=
  match if pinned then none else (s.bucketPages print).find? fun n => !s.pageReady n with
  | some n => .paging n true
  | none => s.walkSlots tenant key (s.slots print pinned)

/-- The page version that an insertion carries (R291). -/
def State.pageVersion (s : State) (n : Nat) : Nat := ((s.page? n).map (·.version)).getD 0

/-- The bank after another among those in service (R290). -/
def nextBank (banks : List CamBank) (last : Nat) : Option Nat :=
  ((List.range 32).map fun i => (last + 1 + i) % 32).find? fun n => (banks.getD n .reset).state == 0

/-- An insertion of an index entry for a bank. -/
def State.queueInsert (s : State) (k : KeyRec) (bank : Nat) : State :=
  let w := (s.asu.banks.getD bank .reset).width
  let e : CamEntry := { addr := 0, ref := false, tenant := k.tenant, print := k.print, keyLen := k.key.length,
                        key := k.key.take (camKeyBytes w), page := k.page, entry := k.entryId, pinned := k.pinned }
  { s with asu.inserts := s.asu.inserts ++ [{ bank := bank, entry := e, pageVersion := s.pageVersion k.page }],
           asu.lastBank := bank }

/-- Queue an insertion after the walker found the key (R290). -/
def State.camInsert (s : State) (k : KeyRec) : State :=
  match nextBank s.asu.banks s.asu.lastBank with
  | none => s
  | some n => s.queueInsert k n

/-- The walker's part of a lookup (R301), with the insertion it queues. -/
def State.walker (s : State) (tenant : Nat) (key : Bytes) (print : Nat) (pinFirst insert : Bool) : Found × State :=
  let first := s.walkDir tenant key print pinFirst
  let s := if !pinFirst || first == .absent then (s.bucketPages print).foldl (fun s n => s.touchPage n) s else s
  match if first = .absent then s.walkDir tenant key print !pinFirst else first with
  | .entry k => (.entry k, if insert then (s.touchPage k.page).camInsert k else s.touchPage k.page)
  | .absent => (.absent, s)
  | .paging n b => (.paging n b, s.wantPage n)

/-- A false hit is classed and counted (R293). -/
def State.falseHit (s : State) (tenant print n : Nat) (e : CamEntry) (named : Option KeyRec) : State :=
  if named.any fun k => k.tenant == tenant && k.print == print then s.bump 0x5030 0x07 1
  else if ((s.asu.banks.getD n .reset).invalid).contains e.addr ∨ s.asu.sweeping.contains e.tenant then s.bump 0x5030 0x09 1
  else s.camFault n e

/-- The reference bit of a hit entry is set (R290). -/
def CamBank.refer (b : CamBank) (addr : Nat) : CamBank :=
  { b with entries := b.entries.map fun x => if x.addr = addr then { x with ref := true } else x }

/-- A lookup (R293, R301): Key CAM, verification, then the walker. `past` says how far an earlier try has come that had to
wait for a page: the search is made once, and once the entry has been found it is only read again. -/
def State.lookup (s : State) (tenant : Nat) (key : Bytes) (print : Nat) (pinFirst : Bool) (past : Option Bool)
    (task : Nat) : Found × State :=
  match past with
  | some found => s.walker tenant key print pinFirst !found
  | none => match camSearch print tenant key s.asu.banks 0 with
    | none => ((s.bump 0x5030 0x05 1).traced 4 0 (some task) 0).walker tenant key print pinFirst true
    | some (n, e) =>
      if s.pageDetached e.page then ((s.bump 0x5030 0x05 1).traced 4 n (some task) 0).walker tenant key print pinFirst true
      else if !s.pageReady e.page then (.paging e.page false, s.wantPage e.page)
      else
        let s := ((s.bump 0x5030 0x05 1).bump 0x5030 0x06 1).mapBank n fun b => b.refer e.addr
        match s.named e with
        | some k =>
          if k.tenant = tenant ∧ k.key = key ∧ k.print = print then (.entry k, (s.touchPage k.page).traced 4 n (some task) 3)
          else ((s.falseHit tenant print n e (some k)).traced 4 n (some task) 5).walker tenant key print pinFirst true
        | none => ((s.falseHit tenant print n e none).traced 4 n (some task) 5).walker tenant key print pinFirst true

/-- A found entry that is stored: a tombstone is absent for every read point (R299). -/
def Found.stored : Found → Option KeyRec
  | .entry k => if k.tombstone then none else some k
  | _ => none

/-! ### Update cycles (R288 to R292) -/

/-- Clock search of a full row group: the first clear reference bit from the hand on; bits passed over are cleared. -/
def clockTake (group size hand : Nat) (l : List CamEntry) : Nat × List Nat :=
  let order := (List.range size).map fun i => group * size + (hand - group * size + i) % size
  let clear : Nat → Bool := fun a => !l.any fun e => e.addr == a && e.ref
  match order.find? clear with
  | some a => (a, order.takeWhile fun x => !clear x)
  | none => (hand, order)

/-- Put an entry into a bank (R290). DESIGN CHOICE (log 111): the free entry taken is the one with the lowest address of the
row group; the hand starts at the group's base and moves past the entry taken. -/
def CamBank.place (b : CamBank) (e : CamEntry) : CamBank :=
  let size := groupSize b.width
  let g := e.print / 2 ^ 56
  let free := ((List.range size).map (g * size + ·)).find? fun a => !b.entries.any fun x => x.addr == a
  match free with
  | some a => { b with entries := b.entries ++ [{ e with addr := a }] }
  | none =>
    let hand := ((b.hands.find? fun h => h.1 == g).map (·.2)).getD (g * size)
    let (a, passed) := clockTake g size hand b.entries
    let next := g * size + (a + 1 - g * size) % size
    { b with
      entries := (b.entries.filter fun x => x.addr != a).map (fun (x : CamEntry) =>
        if passed.contains x.addr then { x with ref := false } else x) ++ [{ e with addr := a }],
      invalid := b.invalid.filter (· != a),
      clears := b.clears.filter (· != a),
      hands := (g, next) :: b.hands.filter fun h => h.1 != g }

/-- One entry of a tenant being swept out (R292). -/
def CamBank.sweep (b : CamBank) (tenants : List Nat) : CamBank :=
  match b.entries.find? fun e => tenants.contains e.tenant with
  | some e => { b with entries := b.entries.filter fun x => x.addr != e.addr }
  | none => b

/-- The one write of a bank in an update cycle that removes an entry; none when nothing waits to be removed. Entries to clear
after a fault hit go first (R293). DESIGN CHOICE (log 111): then invalidations, the sweep, and insertions last. -/
def CamBank.remove (b : CamBank) (sweeping : List Nat) : Option CamBank :=
  match b.clears, b.invalid with
  | a :: rest, _ => some { b with entries := b.entries.filter fun x => x.addr != a, clears := rest, invalid := b.invalid.filter (· != a) }
  | [], a :: rest => some { b with entries := b.entries.filter fun x => x.addr != a, invalid := rest }
  | [], [] => if b.entries.any fun e => sweeping.contains e.tenant then some (b.sweep sweeping) else none

/-- An insertion is dropped (R291): page changed, the entry it names no longer there, entry there already, or bank out of
service. -/
def State.insertStale (s : State) (i : CamInsert) : Bool :=
  let b := s.asu.banks.getD i.bank .reset
  b.state != 0 || s.pageVersion i.entry.page != i.pageVersion || s.pageDetached i.entry.page
    || (match s.named i.entry with
      | some k => k.tenant != i.entry.tenant || k.print != i.entry.print
          || s.asu.banks.any fun c => c.entries.any fun e => e.agrees c.width k.print k.tenant k.key
      | none => true)

/-- The write of bank `n` in an update cycle. -/
def State.bankWrite (s : State) (n : Nat) : State :=
  match (s.asu.banks.getD n .reset).remove s.asu.sweeping with
  | some b => s.mapBank n fun _ => b
  | none =>
    match s.asu.inserts.find? fun i => i.bank == n with
    | none => s
    | some i =>
      let s := { s with asu.inserts := s.asu.inserts.erase i }
      if s.insertStale i then s.bump 0x5030 0x0B 1
      else (s.mapBank n fun b => b.place i.entry).bump 0x5030 0x0A 1

/-- CAM_UPDATE_CYCLE (R288): each bank writes at most one entry. -/
def execCamUpdateCycle (s : State) : Host.Outcome State Fault Refusal :=
  let s := (List.range 32).foldl (fun s n => s.bankWrite n) s
  .next { s with asu.sweeping := s.asu.sweeping.filter fun t => s.asu.banks.any fun b => b.entries.any fun e => e.tenant == t }

/-- The Warden loads the pinned tree's entries that the Key CAM does not hold into a bank in service: the first at or after the
one that the page number names (R295, log 57). -/
def State.preload (s : State) (bank : Nat) : State :=
  if (s.asu.banks.getD bank .reset).state ≠ 0 then s
  else (s.asu.keys.filter fun k => k.pinned && !k.tombstone && nextBank s.asu.banks (k.page % 32 + 31) == some bank
      && !s.asu.banks.any fun b => !(b.pointing k.page k.entryId).isEmpty).foldl (fun s k => s.queueInsert k bank) s

/-- Every bank is loaded after start-up (R295). -/
def State.preloadAll (s : State) : State := (List.range 32).foldl (fun s n => s.preload n) s

/-- How long a bank's reinitialisation takes, in µs: at most 80 (R295), else free (log 57). -/
def reinitUs (now : Nat) : Nat := Config.freeValue 23 now % 80 + 1

/-- A bank whose reinitialisation is over returns to service and is loaded (R295). -/
def State.bankReturns (s : State) (n : Nat) : State :=
  match (s.asu.banks.getD n .reset).returnAt with
  | some t => if t ≤ s.now then (s.mapBank n fun b => { b with returnAt := none, state := if b.state = 1 then 0 else b.state }).preload n else s
  | none => s

/-- Banks that are due return. -/
def State.banksReturn (s : State) : State := (List.range 32).foldl (fun s n => s.bankReturns n) s

/-- The write of CAM_BANK_WIDTH (R295): the bank is out of service while it is cleared, and returns at its new width. -/
def camWidthEffect (bank : Nat) : WriteEffect := fun _ index sub v s =>
  let s := s.mapBank bank fun b => { CamBank.reset with
    state := if b.state = 0 then 1 else b.state, width := valNum v, returnAt := if b.state ≤ 1 then some (s.now + reinitUs s.now) else none }
  (s.put index sub v, stOk)

/-- CAM_BANK_WIDTH (R295). -/
def execCamBankWidth (bank : Nat) (r : Requester) (v : OdVal) (s : State) : Host.Outcome State Fault Refusal :=
  if 32 ≤ bank then .fault .noSuchUnit else .next (s.ownWrite (camWidthEffect bank) r 0x5010 (bank + 1) v)

/-! ## Directory, pages, pin walk -/

/-- The pages of a bucket that splits in two: the new buckets lie in a page of the next depth, and a page whose last bucket has
split goes. -/
def State.splitBucket (s : State) (b : Nat) : State :=
  match s.dirAt false (s.asu.depth, b / 256) with
  | none => s
  | some p =>
    let s := s.touchDirAt false (s.asu.depth + 1, 2 * b / 256) p.version
    if b % 256 = 255 then { s with asu.pages := s.asu.pages.filter fun q => q.number != p.number } else s

/-- DIRECTORY_SPLIT (R300): d rises when the load passes 6 keys a bucket, and buckets split in order. -/
def execDirectorySplit (s : State) : Host.Outcome State Fault Refusal :=
  match s.asu.split with
  | none =>
    if 6 * 2 ^ s.asu.depth < (s.asu.keys.filter fun k => !k.pinned).length ∧ s.asu.depth < 30 then
      .next { s with asu.split := some 0 }
    else .next s
  | some b =>
    let pages := ((s.dirAt false (s.asu.depth, b / 256)).toList.map (·.number))
      ++ (s.asu.chain (s.asu.depth, b)).filterMap fun o => (s.dirAt false (overflowPlace o.number)).map (·.number)
    let s := s.readPages pages
    match pages.find? fun n => !s.pageReady n with
    | some n => .next (s.wantPage n)
    | none =>
      let u := s.splitBucket b
      let u := if b + 1 < 2 ^ u.asu.depth then { u with asu.split := some (b + 1) }
        else { u with asu.split := none, asu.depth := u.asu.depth + 1 }
      .next (if u.fitChains.framesFull then s else u.fitChains)

/-- Two index pages are neighbours of one tree. -/
def State.neighbours (s : State) (a b : Page) : Bool :=
  a.kind == 1 && b.kind == 1 && a.tenant == b.tenant && a.pinned == b.pinned && a.number != b.number
    && (let l := (s.asu.keys.filter fun k => k.tenant == a.tenant && k.pinned == a.pinned).map (·.page)
        (l.zip (l.drop 1)).any fun e => (e.1 == a.number && e.2 == b.number) || (e.1 == b.number && e.2 == a.number))

/-- PAGE_JOIN (R302): a page below a quarter full is joined with a neighbour that has room. -/
def execPageJoin (page neighbour : Nat) (s : State) : Host.Outcome State Fault Refusal :=
  match s.page? page, s.page? neighbour with
  | some a, some b =>
    let s := s.readPages [page, neighbour]
    let la := s.pageKeys page
    let lb := s.pageKeys neighbour
    if s.neighbours a b ∧ 4 * keysBytes la < pageRoom ∧ keysBytes la + keysBytes lb ≤ pageRoom ∧ la.length + lb.length ≤ 256
        ∧ s.pageReady page ∧ s.pageReady neighbour then
      let v := max a.version b.version
      let done := (((s.changeAbove a.tenant a.pinned page v).moveEntries neighbour v la).changePage neighbour v).dropEmpty
      if s.invalidationsFull done then .next s else .next done
    else .next s
  | _, _ => .next s

/-- The write of PIN_REEVALUATE: a walk over every index entry starts (R303). -/
def pinReevaluateEffect : WriteEffect := fun _ _ _ v s =>
  if valNum v = 1 then
    (match s.asu.reevaluate with
      | some _ => s
      | none => { s with asu.reevaluate := some (s.asu.keys.map fun k => (k.tenant, k.key)) }, stOk)
  else (s, stRange)

/-- PIN_REEVALUATE (R303). -/
def execPinReevaluate (r : Requester) (v : OdVal) (s : State) : Host.Outcome State Fault Refusal :=
  .next (s.ownWrite pinReevaluateEffect r 0x5024 0 v)

/-! ## Map records in their pages (R384, R385, R390) -/

/-- Stripes that a value's extents name, each once, holes left out. -/
def extentStripes (l : List Extent) : List Nat :=
  (l.filter fun e => e.stripe != 0).foldl (fun a e => if a.contains e.stripe then a else a ++ [e.stripe]) []

/-- Bytes of the descriptors and extents of a run of extents (R386, R388). -/
def runBytes (l : List Extent) : Nat := 144 * (extentStripes l).length + 16 * l.length

/-- The runs of extents that continuation pages hold: as many extents in each as its page has room for (R385). -/
def mapRuns : (run rest : List Extent) → List (List Extent)
  | [], [] => []
  | run, [] => [run]
  | run, e :: rest =>
    if 16 + runBytes (run ++ [e]) ≤ 16320 then mapRuns (run ++ [e]) rest else run :: mapRuns [e] rest

/-- The runs of a key's map record: none where the head holds all extents. -/
def KeyRec.mapRuns (k : KeyRec) : List (List Extent) :=
  if 32 + roundUp k.key.length 8 + runBytes k.extents ≤ 16320 then [] else Machine.mapRuns [] k.extents

/-- Bytes of a key's map record head and its number of continuation pages; none for a value of 0 bytes (R385). -/
def KeyRec.mapSize (k : KeyRec) : Nat × Nat :=
  if k.extents.isEmpty then (0, 0)
  else if k.mapRuns.isEmpty then (32 + roundUp k.key.length 8 + runBytes k.extents, 0)
  else (32 + roundUp k.key.length 8 + 16 * k.mapRuns.length, k.mapRuns.length)

/-- Records before a key's in a head page, and their bytes: the heads lie in key order from offset 64 on. -/
def State.mapOffset (s : State) (k : KeyRec) (page : Nat) : Nat :=
  let heads := s.asu.keys.filter fun r => r.mapPages.head? == some page
  64 + ((heads.takeWhile fun r => !(r.tenant == k.tenant && r.key == k.key)).map fun r => r.mapSize.1).foldl (· + ·) 0

/-- The map pointer of an entry (R383): KIND map record, the page of the record head and its offset there. An entry of a
value of 0 bytes has KIND none. -/
def State.mapPointer (s : State) (k : KeyRec) : Nat :=
  match k.mapPages with
  | [] => 0
  | n :: _ => 2 ^ 62 + n % 2 ^ 30 * 2 ^ 32 + s.mapOffset k n / 8 % 2 ^ 14 * 2 ^ 18

/-- Bytes of record heads in a map page. -/
def State.mapUsed (s : State) (n : Nat) : Nat :=
  ((s.asu.keys.filter fun k => k.mapPages.head? == some n).map fun k => k.mapSize.1).foldl (· + ·) 0

/-- A map page of the tenant with room for a record head. -/
def State.mapRoom (s : State) (tenant : Nat) (pinned : Bool) (bytes : Nat) : Option Page :=
  s.asu.pages.find? fun p => p.kind == 5 && p.tenant == tenant && p.pinned == pinned && !p.detached && p.cached
    && !s.asu.keys.any (fun k => (k.mapPages.drop 1).contains p.number) && decide (s.mapUsed p.number + bytes ≤ 16320)

/-- Pages for a map record (R390): pinned ones where asked and where 1 GiB leaves room. -/
def State.seatMap (s : State) (tenant version : Nat) (pinned : Bool) (size : Nat × Nat) : List Nat × Bool × State :=
  if size.1 = 0 then ([], false, s)
  else
    let room := s.mapRoom tenant pinned size.1
    let fresh := size.2 + (if room.isSome then 0 else 1)
    let pastLimit := pinned && decide (1073741824 < s.pinnedMapBytes + 16384 * fresh)
    let s := if pastLimit then (s.bump 0x9060 0x0E 1).raise 0x9402 (wholeUnit 9) tenant 0 0 else s
    let pin := pinned && !pastLimit
    let (head, s) := match s.mapRoom tenant pin size.1 with
      | some p => (p.number, s.mapPage p.number fun q => { q with version := version, clean := false })
      | none => s.newPage 5 tenant version pin
    let (more, s) := (List.range size.2).foldl (fun (a : List Nat × State) _ =>
      let (n, s) := a.2.newPage 5 tenant version pin
      (a.1 ++ [n], s)) ([], s)
    (head :: more, pin, s)

/-- Map pages that no record uses any more leave the region. -/
def State.dropMapPages (s : State) : State :=
  { s with asu.pages := s.asu.pages.filter fun p =>
      p.kind != 5 || p.detached || s.asu.keys.any fun k => k.mapPages.contains p.number }

/-- The map record of a key whose extents were moved stays in its pages where they still hold it, and is seated anew where
they do not (R385, R396). -/
def State.reseatMap (s : State) (k : KeyRec) : State :=
  match k.mapPages with
  | [] => s
  | head :: more =>
    if more.length = k.mapSize.2 ∧ s.mapUsed head ≤ 16320 then s
    else
      let s := s.mapKey k.tenant k.key fun r => { r with mapPages := [], pinnedMap := false }
      let (maps, pinnedMap, s) := s.seatMap k.tenant k.version k.pinnedMap k.mapSize
      (s.mapKey k.tenant k.key fun r => { r with mapPages := maps, pinnedMap := pinnedMap }).dropMapPages

/-! ## Snapshots and retention (R68, R305) -/

/-- Snapshot generations open on a tenant: those of its cursors, and of pages still in the making. -/
def State.snapshots (s : State) (tenant : Nat) : List Nat :=
  (s.pae.cursors.filter fun c => c.tenant == tenant).map (·.snapshot)
    ++ (s.pae.runs.filter fun r => r.tenant == tenant && !r.done).map (·.snapshot)

/-- The retained versions that some open snapshot needs: the newest at or below it. -/
def neededOlder (snaps : List Nat) : (newer : Nat) → List Older → List Older
  | _, [] => []
  | v, o :: t => if snaps.any (fun g => decide (o.version ≤ g ∧ g < v)) then o :: neededOlder snaps o.version t
                 else neededOlder snaps o.version t

/-- Records that a retention page has room for: 24 bytes each behind the header. -/
def retentionRoom : Nat := 680

/-- Retention records in a page. -/
def State.retained (s : State) (n : Nat) : Nat := ((s.asu.keys.flatMap (·.older)).filter fun o => o.page == n).length

/-- A place for a retention record: a page of the tenant with room, or a new one. -/
def State.seatRetention (s : State) (tenant version : Nat) : Nat × State :=
  match s.asu.pages.find? fun p => p.kind == 4 && p.tenant == tenant && !p.detached && p.cached && decide (s.retained p.number < retentionRoom) with
  | some p => (p.number, s.mapPage p.number fun q => { q with version := max q.version version, clean := false })
  | none => s.newPage 4 tenant version false

/-- Retention pages without a record are freed. -/
def State.dropRetention (s : State) : State :=
  { s with asu.pages := s.asu.pages.filter fun p => p.kind != 4 || p.detached || s.retained p.number != 0 }

/-- Retention records that no open snapshot needs are freed, and tombstones kept only for them go (R305), as far as the banks'
queues have room for their invalidations (R292). -/
def State.pruneOlder (s : State) : State :=
  let keys := s.asu.keys.map fun (k : KeyRec) => { k with older := neededOlder (s.snapshots k.tenant) k.version k.older }
  let u := (keys.filter fun k => k.tombstone && k.older.isEmpty).foldl (fun s k =>
    let u := ((s.invalidate k.page k.entryId).changePage k.page 0).touchDir k.pinned k.print 0
    if s.invalidationsFull u then s
    else { u with asu.keys := u.asu.keys.filter fun r => !(r.tenant == k.tenant && r.key == k.key) }) { s with asu.keys := keys }
  u.dropEmpty.dropRetention

/-- The version of a key that a snapshot shows: version and length, unless it is a DELETE. -/
def KeyRec.at (k : KeyRec) (g : Nat) : Option (Nat × Nat) :=
  if k.version ≤ g then (if k.tombstone then none else some (k.version, k.length))
  else match k.older.find? fun o => decide (o.version ≤ g) with
    | some o => if o.present then some (o.version, o.length) else none
    | none => none

/-! ## Page reads -/

/-- Keys whose map record has a part in the page (R391). -/
def State.mapped (s : State) (n : Nat) : List KeyRec := s.asu.keys.filter fun k => k.mapPages.contains n

end Sys2Proof.Machine
end

