-- ==== Sys2Proof/Machine/Stripes.lean ====
section
/-!
DEFINITION. Building stripes: regions and slots, tile sets, value and packed stripes, the dirty write buffer, the
completion mode (R23, R25, R371 to R382, R395, R405, R561, R563).
-/
namespace Sys2Proof.Machine

/-! ## Completion mode and dirty limit -/

/-- A Kiln test of the hold-up path is in progress. -/
def State.holdUpTest (s : State) : Bool :=
  match s.msv.kiln.test with
  | some (_, code, _, _) => code == 4
  | none => false

/-- Completion is write-back (R563); write-through otherwise. -/
def State.writeBack (s : State) : Bool :=
  (s.pch.power == .ready || s.pch.power == .active) && s.pch.testPassed && !s.holdUpTest

/-- DIRTY_LIMIT (R25, R561, R562, R564). -/
def State.dirtyLimit (s : State) : Nat :=
  let ceiling := s.num 0x8000 0
  if s.pch.wtDrain then s.pch.dirtyLimit
  else
    let e := if s.writeBack then min ceiling s.pch.energyLimit else ceiling
    match s.pch.testLimit with
    | some t => min e t
    | none => e

/-- DIRTY_LIMIT has changed with a step (8010:04). -/
def State.limitFrom (s : State) (before : Nat) : State := if s.dirtyLimit = before then s else s.bump 0x8010 0x04 1

/-! ## Slots (R377, R387, R427) -/

/-- Bytes of a full stripe's data. -/
def stripeBytes : Nat := 917504

/-- Slots that a region of one tile has: 64 KiB units of its share of the tile's 5 TiB (R377). -/
def regionSlots (region : Nat) : Nat :=
  match region with
  | 0 => 72886991
  | 1 => 838860
  | 2 => 32768
  | _ => 524288

/-- Width and rows of a superblock of a region (R427). -/
def superWidth (region : Nat) : Nat := if region = 2 then 16 else 20
def superRows (region : Nat) : Nat := if region = 0 then 4096 else 1024

def State.slotsUsed (s : State) (tile region : Nat) : Nat :=
  (s.plc.usedSlots.filter fun u => u.1 == tile && u.2.1 == region).length

def State.slotsFree (s : State) (tile region : Nat) : Nat := regionSlots region - s.slotsUsed tile region

/-- The lowest slot of a region of a tile that is not taken. -/
def State.freeSlot (s : State) (tile region : Nat) : Nat :=
  let used := (s.plc.usedSlots.filter fun u => u.1 == tile && u.2.1 == region).map fun u => u.2.2
  ((List.range (used.length + 1)).find? fun n => !used.contains n).getD 0

def State.takeSlot (s : State) (tile region slot : Nat) : State :=
  { s with plc.usedSlots := (tile, region, slot) :: s.plc.usedSlots }

/-! ## Tile sets (R378) -/

/-- The tile takes new shards: in service, not isolated, not closed for writes. -/
def Tile.opens (t : Tile) : Bool := t.state != 3 && !t.isolated && !t.closed

/-- Numbers of the tiles open for writes. -/
def State.openTiles (s : State) : List Nat := (List.range 64).filter fun t => (s.tile t).opens

/-- Hub of a tile (R13). -/
def hubOf (t : Nat) : Nat := t / 16

/-- Hubs that have tiles open for writes. -/
def State.openHubs (s : State) : Nat := ((List.range 4).filter fun h => s.openTiles.any fun t => hubOf t == h).length

/-- The tile with the most free slots, ties to the first at or after the pointer. -/
def bestTile (free : Nat → Nat) (pointer : Nat) (l : List Nat) : Option Nat :=
  l.foldl (fun b t => match b with
    | none => some t
    | some c => if free c < free t ∨ (free c = free t ∧ (t + 64 - pointer) % 64 < (c + 64 - pointer) % 64) then some t
                else some c) none

/-- Draw `n` further tiles beside those drawn, under a limit for each hub. -/
def drawTiles (free : Nat → Nat) (pointer cap : Nat) (tiles : List Nat) : (n : Nat) → List Nat → Option (List Nat)
  | 0, drawn => some drawn
  | n + 1, drawn =>
    let fit := tiles.filter fun t => !drawn.contains t && decide (0 < free t)
      && decide ((drawn.filter fun d => hubOf d == hubOf t).length < cap)
    match bestTile free pointer fit with
    | none => none
    | some t => drawTiles free pointer cap tiles n (drawn ++ [t])

/-- A tile set of `n` shards in a region; none when no valid set exists. -/
def State.drawSet (s : State) (region n : Nat) : Option (List Nat) :=
  drawTiles (fun t => s.slotsFree t region) s.plc.pointer (ceilDiv n (max 1 s.openHubs)) s.openTiles n []

/-- The set for a stripe: a valid one; in Charcoal, where none is left, tiles without the hub rule, so that what was committed
before it reaches the medium (R86). -/
def State.drawFor (s : State) (region n : Nat) : Option (List Nat) :=
  match s.drawSet region n with
  | some l => some l
  | none => if s.plc.charcoal = 0 then none
    else drawTiles (fun t => s.slotsFree t region) s.plc.pointer n s.openTiles n []

/-! ## The dirty write buffer (R25, R381, R405) -/

/-- Stored bytes of shards: whole 4 KiB codewords (R376). -/
def shardsStored (l : List Shard) : Nat := (l.map fun h => roundUp h.len 4096).foldl (· + ·) 0

/-- What a stripe counts in the dirty buffer: an open packed stripe as a full one. -/
def Stripe.dirtySize (p : Stripe) : Nat :=
  if !p.dirty then 0 else if p.kind = 2 ∧ !p.sealed then 1048576 else shardsStored p.shards

/-- DIRTY_BYTES (8002). -/
def State.dirtyBytes (s : State) : Nat := (s.plc.stripes.map Stripe.dirtySize).foldl (· + ·) 0

/-- Shards of a tile in the dirty write buffer. -/
def State.dirtyShards (s : State) (tile : Nat) : Nat :=
  (s.plc.stripes.map fun p => if p.dirty then (p.shards.filter fun h => h.tile == tile && h.phase != .programmed).length
    else 0).foldl (· + ·) 0

/-- Open packed stripes, each of which may yet put a shard on any tile. -/
def State.openStripes (s : State) : Nat := (s.plc.stripes.filter fun p => p.kind == 2 && !p.sealed && !p.detached).length

/-- Each tile's share would stay within its flush region with one shard more, an open packed stripe counted on every tile
(R405). -/
def State.flushRoom (s : State) (set : List Nat) : Bool := set.all fun t => decide (s.dirtyShards t + s.openStripes < regionSlots 2)

def State.stripe? (s : State) (id : Nat) : Option Stripe := s.plc.stripes.find? fun p => p.id == id

def State.mapStripe (s : State) (id : Nat) (f : Stripe → Stripe) : State :=
  { s with plc.stripes := s.plc.stripes.map fun p => if p.id = id then f p else p }

/-- Lengths of the data shards of `r` bytes (R371). -/
def shardLens (r : Nat) : List Nat :=
  (List.range (ceilDiv r shardBytes)).map fun i => min shardBytes (r - i * shardBytes)

/-- The shards of a set: data shards, then P and Q as long as data shard 0. -/
def State.seatShards (s : State) (region : Nat) (set lens : List Nat) : List Shard × State :=
  let all := lens ++ List.replicate 2 (lens.headD 0)
  (set.zip all).foldl (fun (a : List Shard × State) e =>
    let slot := a.2.freeSlot e.1 region
    (a.1 ++ [{ tile := e.1, region := region, slot := slot, len := e.2, phase := .dirty }], a.2.takeSlot e.1 region slot))
    ([], s)

/-- The region of a stripe: FAST stripes go to the data area when no FAST set can be drawn (R379). -/
def State.regionFor (s : State) (kind n : Nat) (fast : Bool) : Nat :=
  if kind = 3 then 3 else if fast && (s.drawSet 1 n).isSome then 1 else 0

/-- A stripe record with the next stripe id and no shards yet (R375). -/
def State.newStripe (s : State) (tenant kind : Nat) (fast : Bool) (cls : Cls) : Nat × State :=
  let id := s.plc.stripeCounter
  let p : Stripe :=
    { id := id, tenant := tenant, kind := kind, k := 0, fast := fast, filled := 0, sealed := false, openedAt := s.now,
      shards := [], degraded := false, lost := false, cls := cls, order := none, dirty := true, flushed := false,
      detached := false }
  (id, { s with plc.stripes := s.plc.stripes ++ [p], plc.stripeCounter := id + 1,
                plc.pointer := (s.plc.pointer + 1) % 64 }.bump 0x9060 0x01 1)

/-- Give a stripe its tile set and shards; none when no set can be drawn or a flush region is full. -/
def State.giveShards (s : State) (id filled : Nat) : Option State :=
  match s.stripe? id with
  | none => none
  | some p =>
    let lens := if p.kind = 3 then List.replicate 14 16384 else shardLens filled
    let region := s.regionFor p.kind (lens.length + 2) p.fast
    match s.drawFor region (lens.length + 2) with
    | none => none
    | some set =>
      if !(s.mapStripe id fun q => { q with sealed := true }).flushRoom set then none
      else
        let (shards, s) := s.seatShards region set lens
        some (s.mapStripe id fun q => { q with k := lens.length, filled := filled, sealed := true, shards := shards })

/-- Seal a packed stripe (R381). -/
def State.seal (s : State) (id : Nat) : Option State :=
  match s.stripe? id with
  | none => none
  | some p => if p.sealed ∨ p.kind ≠ 2 then none else (s.giveShards id p.filled).map fun s => s.bump 0x9060 0x02 1

/-- Build a value or metadata stripe of `r` bytes. -/
def State.buildStripe (s : State) (tenant kind r : Nat) (fast : Bool) (cls : Cls) : Option (Nat × State) :=
  let (id, s) := s.newStripe tenant kind fast cls
  (s.giveShards id r).map fun s => (id, s)

/-- The tenant's open packed stripe of a placement (R380). -/
def State.openPacked (s : State) (tenant : Nat) (fast : Bool) : Option Stripe :=
  s.plc.stripes.find? fun p => p.kind == 2 && !p.sealed && p.tenant == tenant && p.fast == fast && !p.detached

/-- Stored bytes of a value stripe of `r` bytes, parity included. -/
def storedSize (r : Nat) : Nat :=
  ((shardLens r).map fun n => roundUp n 4096).foldl (· + ·) 0 + 2 * roundUp (min r shardBytes) 4096

/-- The dirty buffer has room for `n` bytes more (R25). -/
def State.dirtyRoom (s : State) (n : Nat) : Bool := decide (s.dirtyBytes + n ≤ s.dirtyLimit)

/-- Data-area slots of a tile beyond its share, which stand in the rebuild reserve (R410, R416). -/
def State.overUsed (s : State) (tile : Nat) : Nat := s.slotsUsed tile 0 - regionSlots 0

/-- The whole rebuild reserve: three tiles' data area (R377, R411, R416). -/
def fullReserve : Nat := 3 * regionSlots 0 * shardBytes

/-- Raw bytes that the reserve holds, or that stand in it beyond the tiles' shares: what it lacks of `fullReserve` new stripes may
take in its place, and what passes it is taken from the data area's free space (R416). -/
def State.reserveHeld (s : State) : Nat := s.plc.reserve + (((List.range 64).map s.overUsed).foldl (· + ·) 0) * shardBytes

/-- Data-area slots of a tile for new stripes: free ones, those that hold nothing valid, and spare die blocks (R417). -/
def State.roomOf (s : State) (tile : Nat) : Nat :=
  s.slotsFree tile 0 + (s.plc.garbage.filter fun u => u.1 == tile && u.2.1 == 0).length + 4096 * (s.tile tile).spares

/-- Room for `n` full stripes on the tiles open for writes, sixteen shards each under the hub rule, beside the reserve. -/
def State.roomForStripes (s : State) (n : Nat) : Bool :=
  let l := s.openTiles
  let cap := ceilDiv 16 (max 1 s.openHubs)
  let hub : Nat → Nat := fun h => min (cap * n) (((l.filter fun t => hubOf t == h).map fun t => min n (s.roomOf t)).foldl (· + ·) 0)
  decide (16 * n * shardBytes + s.reserveHeld ≤ ((l.map s.roomOf).foldl (· + ·) 0) * shardBytes + fullReserve)
    && decide (16 * n ≤ ((List.range 4).map hub).foldl (· + ·) 0)

/-- Free space and spare die blocks of the data area hold the dirty ceiling, every open packed stripe, and `more` stripes
besides (R417). FAST stripes that their region cannot take go there too (R379). -/
def State.roomHeld (s : State) (more : Nat := 0) : Bool :=
  s.roomForStripes (ceilDiv (s.num 0x8000 0) 1048576 + (s.plc.stripes.filter fun p => p.kind == 2 && !p.sealed).length + more)

/-- Place one extent of at most 65,536 bytes in the tenant's packed stripe (R380); none while there is no room. -/
def State.packExtent (s : State) (tenant n : Nat) (fast : Bool) (cls : Cls) : Option (Extent × State) :=
  let fresh : State → Option (Extent × State) := fun s =>
    if s.dirtyRoom 1048576 && s.roomHeld 1 then
      let (id, s) := s.newStripe tenant 2 fast cls
      some ({ stripe := id, off := 0, len := n }, s.mapStripe id fun p => { p with filled := n })
    else none
  match s.openPacked tenant fast with
  | none => fresh s
  | some p =>
    let off := roundUp p.filled 16
    if off + n ≤ stripeBytes then
      some ({ stripe := p.id, off := off, len := n }, s.mapStripe p.id fun q => { q with filled := off + n, cls := if q.cls ≤ cls then q.cls else cls })
    else match s.seal p.id with
      | none => none
      | some s => fresh s

/-- The tenant's open packed stripe is sealed when the next extent does not fit, even while there is no room to open a new one
(R380, R381). -/
def State.sealFull (s : State) (tenant n : Nat) (fast : Bool) : State :=
  match s.openPacked tenant fast with
  | none => s
  | some p => if stripeBytes < roundUp p.filled 16 + n then (s.seal p.id).getD s else s

/-- Place the rest of a value of `n` bytes, of which `done` bytes are placed, in value stripes (R373). Stops where
there is no room yet. -/
def State.placeStripes (s : State) (tenant n : Nat) (fast : Bool) (cls : Cls) : (fuel done : Nat) → List Extent → List Extent × State
  | 0, _, l => (l, s)
  | f + 1, done, l =>
    let r := min stripeBytes (n - done)
    if r = 0 ∨ !s.dirtyRoom (storedSize r) ∨ !s.roomHeld 1 then (l, s)
    else match s.buildStripe tenant 1 r fast cls with
      | none => (l, s)
      | some (id, s) => s.placeStripes tenant n fast cls f (done + r) (l ++ [{ stripe := id, off := 0, len := r }])

/-- Bytes that extents cover. -/
def extentBytes (l : List Extent) : Nat := (l.map (·.len)).foldl (· + ·) 0

/-- Go on placing a payload of `n` bytes (R373, R380, R382); an extent whose FAST set cannot be drawn goes into the open packed
stripe of the data area (R379). -/
def State.placeMore (s : State) (tenant n : Nat) (fast : Bool) (cls : Cls) (l : List Extent) : List Extent × State :=
  let done := extentBytes l
  if n ≤ done then (l, s)
  else if n ≤ shardBytes then
    let fast := fast && (s.drawSet 1 16).isSome
    match s.packExtent tenant n fast cls with
    | none => (l, s.sealFull tenant n fast)
    | some (e, s) => (l ++ [e], s)
  else s.placeStripes tenant n fast cls (ceilDiv n stripeBytes) done l

/-! ## Module state as work goes (R545) -/

/-- Work in hand: a TRS not FREE, dirty bytes, Background/3 work, or a drain. -/
def State.working (s : State) : Bool :=
  !s.cqc.trs.isEmpty || s.dirtyBytes != 0 || s.cqc.drain.isSome || s.plc.longOp.isSome || !s.plc.reclaims.isEmpty
    || s.plc.rebuild.state == 1 || s.asu.reevaluate.isSome || s.asu.split.isSome || !s.plc.moves.isEmpty || !s.plc.repacks.isEmpty
    || (s.mta.tiles.any fun t => t.blocks.any fun b => b.queued != 0)
    || s.mta.tiles.any fun t => t.dies.any fun d => !d.all.isEmpty

/-- The module moves between Ready and Active as work conditions change (R545). -/
def State.readyActive (s : State) : State :=
  match s.pch.power with
  | .ready => if s.working then { s with pch.power := .active } else s
  | .active => if s.working then s else { s with pch.power := .ready, pch.idleSince := s.now }
  | _ => s

/-! ## Stripes and the keys that own them -/

/-- Every shard is programmed (R84). -/
def Stripe.programmed (p : Stripe) : Bool := p.sealed && p.shards.all fun h => h.phase == .programmed

/-- The bytes lie outside the FAST region (R379). -/
def State.outsideFast (s : State) (l : List Extent) : Bool :=
  l.any fun e => match s.stripe? e.stripe with
    | some p => !p.fast || (p.sealed && p.shards.any fun h => h.region != 1)
    | none => false

/-- The stripe counts as on the medium for a FLUSH or a DURABLE: programmed, or no longer there (R212). -/
def State.onMedium (s : State) (id : Nat) : Bool :=
  match s.stripe? id with
  | some p => p.programmed || p.detached
  | none => true

/-- A current map record names the stripe. -/
def State.owned (s : State) (id : Nat) : Bool := s.asu.keys.any fun k => k.extents.any fun e => e.stripe == id

/-- A write in progress, or a repacking not yet applied, has built the stripe. -/
def State.building (s : State) (id : Nat) : Bool :=
  s.cqc.trs.any (fun t => t.changes.any fun c => c.extents.any fun e => e.stripe == id)
    || s.plc.repacks.any fun r => r.extents.any fun e => e.stripe == id

/-- A response still being sent reads the stripe (R56, R401). -/
def State.beingRead (s : State) (id : Nat) : Bool :=
  s.wte.sessions.any (fun x => x.outgoing.any fun m => m.spans.any fun e => e.stripe == id)
    || s.cqc.trs.any fun t => t.reading.any fun e => e.stripe == id

/-- A metadata stripe is live while it holds a page (R391). -/
def State.holdsPages (s : State) (id : Nat) : Bool := s.asu.pages.any fun p => (p.home.map (·.1)) == some id

/-- The stripe is live (R400). -/
def State.live (s : State) (p : Stripe) : Bool :=
  s.holdsPages p.id || s.owned p.id || s.building p.id || s.beingRead p.id || (p.kind == 2 && !p.sealed && !p.detached)

/-- Release the stripes that nothing names (R400): their slots become invalid. -/
def State.releaseStripes (s : State) : State :=
  let dead := s.plc.stripes.filter fun p => !s.live p && !p.detached
  let slots := (dead.filter fun p => !p.lost).flatMap fun p => p.shards.map fun h => (h.tile, h.region, h.slot)
  { s with plc.stripes := s.plc.stripes.filter fun p => s.live p || p.detached,
           plc.garbage := s.plc.garbage ++ slots }

/-- Bytes of extents that lie in lost stripes (R158, R162). -/
def State.lostExtent (s : State) (e : Extent) : Bool :=
  e.stripe != 0 && (match s.stripe? e.stripe with
    | some p => p.lost
    | none => false)

/-- The shards of a stripe that cannot be read directly now (R389, R408). -/
def State.missingShards (s : State) (p : Stripe) : List Nat :=
  (List.range p.shards.length).filter fun i => match p.shards[i]? with
    | some h => (s.tile h.tile).down || h.phase == .lost || (!p.dirty && h.phase != .programmed)
    | none => false

/-- Reading a range of a stripe goes through reconstruction (R158, R389). -/
def State.degradedRange (s : State) (p : Stripe) (off len : Nat) : Bool :=
  !p.dirty && (p.degraded || (s.missingShards p).any fun i =>
    decide (i < p.k ∧ i * shardBytes < off + len ∧ off < (i + 1) * shardBytes))

/-- Capacity limit (R409). -/
def State.capacity (s : State) : Nat :=
  256000000000000 * (64 - (s.mta.tiles.filter fun t => t.state == 3).length) / 64

/-- STORED_BYTES (9001) and KEYS_STORED (5021). -/
def State.storedBytes (s : State) : Nat := ((s.asu.keys.filter fun k => !k.tombstone).map KeyRec.length).foldl (· + ·) 0

def State.keysStored (s : State) : Nat := (s.asu.keys.filter fun k => !k.tombstone).length

end Sys2Proof.Machine
end

