-- ==== Sys2Proof/Machine/Queue.lean ====
section
/-!
DEFINITION. The command queue: the checks of R156 at admission, admission, start, key-lock chains, the checks at the
head of the chains, completion, leases and cursors (R192 to R213, R146 to R151, R156, R523, R524).
-/
namespace Sys2Proof.Machine

/-! ## Message data as it arrives -/

/-- The contiguous bytes from `pos` on that have arrived. -/
def prefixOf (parts : List (Nat × Bytes)) : (fuel pos : Nat) → Bytes
  | 0, _ => []
  | n + 1, pos => match parts.find? fun p => decide (p.1 ≤ pos ∧ pos < p.1 + p.2.length) with
    | none => []
    | some (o, b) => b.drop (pos - o) ++ prefixOf parts n (o + b.length)

/-- The message of a request that its session is reassembling. -/
def State.incoming (s : State) (sess reqId : Nat) : Option Message :=
  match s.session? sess with
  | some x => x.messages.find? fun m => m.reqId == reqId
  | none => none

/-- The request's data once every byte is there; a message without data is whole at once. -/
def State.wholeData (s : State) (sess reqId msgLen : Nat) : Option Bytes :=
  if msgLen = 0 then some [] else match s.incoming sess reqId with
    | some m => m.whole
    | none => none

/-- The leading bytes of the request's data that are there. -/
def State.someData (s : State) (sess reqId : Nat) : Bytes :=
  match s.incoming sess reqId with
  | some m => prefixOf (m.parts.map (·.2)) (m.parts.length + 1) 0
  | none => []

/-- Data of a task, whole or as far as it is there. -/
def State.taskData (s : State) (t : Trs) : Bytes := t.data.getD (s.someData t.session t.reqId)

/-! ## Field checks, step 4 of R156: sub-code, element and detail -/

/-- The first check of a list that fails. -/
def firstBad : List (Bool × Nat × Nat) → Option (Nat × Nat × Nat)
  | [] => none
  | (c, sub, d) :: l => if c then some (sub, 0xFFFF, d) else firstBad l

/-- Length of a lead block's fixed part. -/
def fixedLead (op : Nat) : Nat :=
  if keyOpcode op then keyOffset op
  else match op with
    | 0x09 => 40
    | 0x0C | 0x52 => 24
    | 0x40 => 36
    | 0x53 => 56
    | _ => 32

/-- The target tenant rule (R150). -/
def tenantBad (sessTenant f : Nat) : Bool := if sessTenant = 0 then !decide (1 ≤ f ∧ f ≤ 1023) else f != 0

/-- Field checks of a key operation (R149, R160, R170). -/
def keyOpBad (op tenant : Nat) (f : Bytes) (leadLen msgLen : Nat) : Option (Nat × Nat × Nat) :=
  let fl := field f 28 2
  let n := field f 26 2
  firstBad [
    (if op = opPut then 4 ≤ fl else fl != 0, subReserved, 28),
    (field f 30 2 != 0, subReserved, 30),
    (op == opLock && field f 36 4 != 0, subReserved, 36),
    (n == 0 || decide (512 < n), subKeyLength, 26),
    (tenantBad tenant (field f 24 2), subTenant, 24),
    (op == opPut && fl == 3, subFlags, 28),
    (!(op == opPut || op == opPutIf || op == opAppend) && msgLen != 0, subDataLength, 8),
    (leadLen != keyOffset op + n, subLeadBlock, 0)]

/-- Field checks of the other opcodes, BATCH tables and images apart (R163 to R186). -/
def otherBad (op tenant : Nat) (f : Bytes) (leadLen msgLen : Nat) : Option (Nat × Nat × Nat) :=
  let code := field f 24 1
  let noData := (msgLen != 0, subDataLength, 8)
  let exact := (leadLen != fixedLead op, subLeadBlock, 0)
  match op with
  | 0x08 => firstBad [(field f 28 4 != 0, subReserved, 28), (tenantBad tenant (field f 24 2), subTenant, 24),
      (field f 26 2 == 0, subBatchEmpty, 26), exact]
  | 0x09 => firstBad [(field f 28 4 != 0, subReserved, 28), (tenantBad tenant (field f 24 2), subTenant, 24),
      (field f 32 8 != 0 && msgLen != 0, subDataLength, 8), exact]
  | 0x40 => firstBad [(field f 27 1 != 0, subReserved, 27), noData, exact]
  | 0x41 => firstBad [(field f 27 5 != 0, subReserved, 27), exact]
  | 0x60 => firstBad [(field f 25 1 != 0, subReserved, 25), (decide (2 < code), subEnum, 24),
      (if code = 1 then tenantBad 0 (field f 26 2) else field f 26 2 != 0, subTenant, 26),
      (code != 0 && field f 28 4 != 0, subTenant, 28), noData, exact]
  | 0x61 => firstBad [(field f 25 3 != 0, subReserved, 25), (code != 3 && field f 28 4 != 0, subReserved, 28),
      (code == 0 || decide (3 < code), subEnum, 24), noData, exact]
  | 0x62 => firstBad [(field f 25 1 != 0, subReserved, 25), (field f 28 4 != 0, subReserved, 28),
      (code == 0 || decide (2 < code), subEnum, 24),
      (if code = 1 then tenantBad 0 (field f 26 2) else field f 26 2 != 0, subTenant, 26), noData, exact]
  | 0x63 => firstBad [(field f 25 7 != 0, subReserved, 25), (decide (4 < code), subEnum, 24), noData, exact]
  | _ => firstBad [noData, exact]

/-- Detail of a field of the message data (R642). -/
def inData (off : Nat) : Nat := 2 ^ 63 + off

/-- What is wrong with one descriptor of an element table (R164). -/
def elementBad (data : Bytes) (i : Nat) (e : Element) : Option (Nat × Nat × Nat) :=
  let pad := roundUp (24 + e.keyLen) 8
  (firstBad [
    (e.res1 != 0, subReserved, inData (e.at_ + 1)),
    (if e.op = opPut then 4 ≤ e.flags else e.flags != 0, subReserved, inData (e.at_ + 2)),
    (e.res2 != 0, subReserved, inData (e.at_ + 6)),
    (e.op != opPutIf && e.version != 0, subReserved, inData (e.at_ + 8)),
    (!(e.op == opPut || e.op == opPutIf || e.op == opDelete || e.op == opAppend), subEnum, inData e.at_),
    (e.keyLen == 0 || decide (512 < e.keyLen), subKeyLength, inData (e.at_ + 4)),
    (e.op == opPut && e.flags == 3, subFlags, inData (e.at_ + 2)),
    (e.op == opDelete && e.length != 0, subBatchLayout, inData (e.at_ + 16)),
    ((slice data (e.at_ + 24 + e.keyLen) (pad - 24 - e.keyLen)).any (· != 0), subBatchLayout,
      inData (e.at_ + 24 + e.keyLen))]).map fun b => (b.1, i, b.2.2)

/-- The later of two descriptors that name one key (R153). -/
def duplicateKey : (i : Nat) → (seen : List Bytes) → List Element → Option (Nat × Nat × Nat)
  | _, _, [] => none
  | i, seen, e :: l => if seen.contains e.key then some (subBatchDup, i, inData (e.at_ + 24))
                       else duplicateKey (i + 1) (e.key :: seen) l

def payloadSum (l : List Element) : Nat := (l.map (·.length)).foldl (· + ·) 0

/-- The first descriptor that fails. -/
def firstElementBad (data : Bytes) : (i : Nat) → List Element → Option (Nat × Nat × Nat)
  | _, [] => none
  | i, e :: l => elementBad data i e <|> firstElementBad data (i + 1) l

/-- What is wrong with an element table that has arrived (R164, R165). -/
def tableBad (data : Bytes) (msgLen : Nat) (l : List Element) (size : Nat) : Option (Nat × Nat × Nat) :=
  firstElementBad data 0 l <|> duplicateKey 0 [] l
    <|> (if msgLen ≠ size + payloadSum l then some (subBatchLayout, 0xFFFF, noField) else none)

/-- How far a BATCH's element table is known. -/
inductive Table where
  | unknown
  | bad (sub element detail : Nat)
  | tooLarge
  | ok (l : List Element) (size : Nat)
  deriving DecidableEq, Repr

/-- Read and check the element table of a BATCH of `count` elements. -/
def readTable (count msgLen : Nat) (data : Bytes) : Table :=
  match elementsOf data count 0 with
  | none => if msgLen ≤ data.length then .bad subBatchLayout 0xFFFF noField else .unknown
  | some (l, size) => match tableBad data msgLen l size with
    | some (a, b, c) => .bad a b c
    | none => if 268435456 < payloadSum l then .tooLarge else .ok l size

/-! ## The checks at admission, steps 2 to 6 of R156 -/

/-- BAD_REQUEST with its error fields. -/
def badFields (b : Nat × Nat × Nat) : Nat × Bytes := (stBadRequest, errorFields b.1 b.2.1 b.2.2)

/-- The cursor that a SCAN's value names for this session and tenant (R168). -/
def State.cursor? (s : State) (sess tenant value : Nat) : Option Cursor :=
  s.pae.cursors.find? fun c => c.session == sess && c.tenant == tenant
    && (c.value == value || (c.prevValue == value && value != 0)) && decide (s.now < c.lastAdmit + 60000000)

/-- Issuer and context (step 3; R98, R146 to R148). -/
def issuerBad (x : Session) (d : Desc) : Option (Nat × Bytes) :=
  let wide := d.opcode == opQueueReset
    && (field d.fields 24 1 != 0 || (field d.fields 28 4 != 0 && field d.fields 28 4 != x.id))
  if !listedOpcode d.opcode then some (stUnsupported, plainError 0)
  else if d.opcode = opOpen ∨ d.opcode = opConfirm then some (badFields (subContext, 0xFFFF, noField))
  else if x.tenant ≠ 0 ∧ (d.opcode = opOdWrite ∨ (0x53 ≤ d.opcode ∧ d.opcode ≤ 0x63 ∧ d.opcode ≠ opQueueReset) ∨ wide) then
    some (stAuthFailed, plainError 0)
  else none

/-- Step 4. -/
def State.fieldBad (s : State) (x : Session) (d : Desc) : Option (Nat × Bytes) :=
  if d.leadLen < fixedLead d.opcode then some (badFields (subLeadBlock, 0xFFFF, 0))
  else
    let f := d.fields
    let base := if keyOpcode d.opcode then keyOpBad d.opcode x.tenant f d.leadLen d.msgLen
      else otherBad d.opcode x.tenant f d.leadLen d.msgLen
    let more : Option (Nat × Nat × Nat) :=
      if d.opcode = opBatch ∧ field f 26 2 ≤ 64 then
        match readTable (field f 26 2) d.msgLen (s.someData d.session d.reqId) with
        | .bad a b c => some (a, b, c)
        | _ => none
      else if d.opcode = opScan then
        if field f 32 8 ≠ 0 then
          (if (s.cursor? x.id (actingTenant x d.opcode f) (field f 32 8)).isNone then some (subCursor, 0xFFFF, 32) else none)
        else if d.msgLen = 0 then some (subImage, 0xFFFF, inData 20)
        else if 2098496 < d.msgLen then none
        else match s.wholeData d.session d.reqId d.msgLen with
          | some b => (imageFault b).map fun o => (subImage, 0xFFFF, inData o)
          | none => none
      else none
    (base <|> more).map badFields

/-- Step 5: size limits, then field ranges; then the live session that a QUEUE_RESET names (R179). -/
def State.sizeBad (s : State) (d : Desc) : Option (Nat × Bytes) :=
  let f := d.fields
  let large := decide (4294967296 < d.msgLen)
    || (d.opcode == opBatch && (decide (64 < field f 26 2)
        || readTable (field f 26 2) d.msgLen (s.someData d.session d.reqId) == .tooLarge))
    || (d.opcode == opScan && decide (2098496 < d.msgLen)) || (d.opcode == opOdWrite && decide (65536 < d.msgLen))
  let range := (d.opcode == opLock && decide (60000 < field f 32 4)) || (d.opcode == opScan && decide (1024 < field f 26 2))
    || (d.opcode == opOdRead && decide (1048576 < field f 32 4))
  let target := field f 28 4
  if large then some (stTooLarge, plainError 0)
  else if range then some (stRange, plainError 0)
  else if d.opcode = opQueueReset ∧ field f 24 1 = 0 ∧ target ≠ 0 ∧ (s.session? target).all Session.half then
    some (stNoSession, plainError 0)
  else none

/-- SANITIZING's detail: mode and progress (R154). -/
def State.sanitizeDetail (s : State) : Nat :=
  let admitted := match s.plc.sanitizeTask.bind s.trs? with
    | some t => field t.fields 24 1 * 2 ^ 56
    | none => 0
  match s.plc.longOp with
  | some o => if o.op = 1 then admitted else (o.op - 1) * 2 ^ 56 + min 65535 (if o.total = 0 then 0 else o.done * 65536 / o.total)
  | none => admitted

/-- Requests that a SANITIZE refuses (R183). -/
def sanitizeRefuses (op : Nat) (f : Bytes) : Bool :=
  decide (1 ≤ op ∧ op ≤ 0x0C) || op == opSanitize || op == opFormat || (op == opPower && decide (3 ≤ field f 24 1))

/-- Requests that Charcoal refuses (R87). -/
def charcoalRefuses (op : Nat) (f : Bytes) : Bool :=
  writeOpcode op || op == opFormat || (op == opSanitize && decide (2 ≤ field f 24 1))

/-- A pending Hold lets only these through (R187). -/
def holdAllows (op : Nat) : Bool := op == opPower || op == opOdRead || op == opClose

/-- Step 6: module state. -/
def State.stateBad (s : State) (d : Desc) : Option (Nat × Bytes) :=
  if s.sanitizing ∧ sanitizeRefuses d.opcode d.fields then some (stSanitizing, plainError s.sanitizeDetail)
  else if s.plc.charcoal ≠ 0 ∧ charcoalRefuses d.opcode d.fields then some (stReadOnly, plainError 0)
  else if s.cqc.drain.isSome then some (stRetryLater, plainError s.drainWait)
  else if s.cqc.policy = 3 ∧ !holdAllows d.opcode then some (stRetryLater, plainError 0)
  else none

/-- Room reserved at admission for images that have not been checked yet (R330). -/
def State.imageReserved (s : State) : Nat :=
  ((s.cqc.trs.filter fun t => t.opcode == opScan && s.pae.cursors.any fun c => c.id == t.cursor && c.image.isEmpty).map
    (·.msgLen)).foldl (· + ·) 0

/-- IMAGE_STORE_USED (6003): images of open cursors, identical ones once, and what is reserved for others (R330). -/
def State.imageStore (s : State) : Nat :=
  ((s.pae.cursors.foldl (fun (l : List Bytes) c => if l.contains c.image then l else c.image :: l) []).map List.length).foldl
    (· + ·) s.imageReserved

/-- A first page request finds no cursor place or no room for its image (R71, R330): it takes a TRS without a cursor, and
step 8 of R156 answers it. -/
def State.scanFull (s : State) (x : Session) (d : Desc) : Bool :=
  d.opcode == opScan && field d.fields 32 8 == 0
    && (decide (16 ≤ (s.pae.cursors.filter fun c => c.session == x.id).length) || decide (4096 ≤ s.pae.cursors.length)
      || decide (268435456 < s.imageStore + d.msgLen))

/-- What the checks at admission answer, when they answer. -/
def State.admissionStatus (s : State) (x : Session) (d : Desc) : Option (Nat × Bytes) :=
  issuerBad x d <|> s.fieldBad x d <|> s.sizeBad d <|> s.stateBad d

/-- The replay entry of a request in its session's cache, inherited entries among them (R123, R144). -/
def Session.replayed (x : Session) (reqId : Nat) : Option ReplayEntry := x.replay.find? fun e => e.reqId == reqId

/-! ## ADMIT -/

/-- Free TRS for an admission class (R196): the lowest of the Express pool, then of the shared pool. -/
def State.freeTrsFor (s : State) (c : Cls) : Option Nat :=
  let used := s.cqc.trs.map (·.idx)
  let r := s.cqc.expressReserve
  let lowest (a n : Nat) : Option Nat :=
    ((List.range (min n (used.length + 1))).map (a + ·)).find? fun i => !used.contains i
  let shared := lowest r (65536 - r)
  if c = 0 then (lowest 0 r) <|> shared else shared

/-- The key-lock entries a descriptor needs are free (R203). -/
def State.locksFree (s : State) (d : Desc) : Bool :=
  let n := lockEntries d.opcode d.fields
  decide (s.locksInUse + n ≤ 16384)
    && (d.cls == 0 || n == 0 || decide (s.locksNonExpress + n ≤ 16384 - s.num 0x3003 0))

/-- How a lane head stands in this cycle. -/
inductive HeadState where
  | replay (e : ReplayEntry)
  | answer (status : Nat) (fields : Bytes)
  | take (trs : Nat)
  | noTrs
  | noLock
  | gone
  deriving DecidableEq, Repr

/-- Judge a lane head (R194, R195). -/
def State.judge (s : State) (d : Desc) : HeadState :=
  match s.session? d.session with
  | none => .gone
  | some x =>
    match x.replayed d.reqId with
    | some e => if e.opcode = d.opcode then .replay e
                else .answer stBadRequest (errorFields subReuse 0xFFFF noField)
    | none => match s.admissionStatus x d with
      | some (st, f) => .answer st f
      | none => match s.freeTrsFor d.cls with
        | none => .noTrs
        | some i => if s.locksFree d then .take i else .noLock

def HeadState.admissible : HeadState → Bool
  | .noTrs | .noLock => false
  | _ => true

/-- Count an Express/0 request that reached admission (R277). -/
def State.expressArrival (s : State) (c : Cls) : State :=
  if c ≠ 0 then s
  else
    let n := if s.cqc.expressSeen.1 = s.now then s.cqc.expressSeen.2 + 1 else 1
    let s := { s with cqc.expressSeen := (s.now, n) }
    if n = 3 then s.bump 0x4010 0x0A 1 else s

/-- Generation of a TRS as it is allocated (R197). -/
def State.nextGen (s : State) (i : Nat) : Nat := (((s.cqc.gens.find? fun g => g.1 == i).map (·.2)).getD 0 + 1) % 65536

/-- A cursor for a first page request, with the snapshot generation of its admission (R68, R330). -/
def State.openCursor (s : State) (x : Session) (tenant : Nat) (image : Bytes) (c : Cls) : Nat × State :=
  let id := s.pae.nextCursor
  let k : Cursor := { id := id, session := x.id, tenant := tenant, snapshot := s.plc.lastVersion, image := image,
                      cls := c, lastAdmit := s.now, value := 0, position := none, prevValue := 0, prevPosition := none }
  (id, { s with pae.cursors := s.pae.cursors ++ [k], pae.nextCursor := id + 1 })

/-- The cursor of an admitted SCAN: a new one, or the one its value names; presenting the newer value ends the older
(R168). -/
def State.scanCursor (s : State) (x : Session) (d : Desc) (tenant : Nat) : Nat × State :=
  let value := field d.fields 32 8
  if value = 0 then
    if s.scanFull x d then (0, s) else s.openCursor x tenant ((s.wholeData d.session d.reqId d.msgLen).getD []) d.cls
  else match s.cursor? x.id tenant value with
    | none => (0, s)
    | some c =>
      (c.id, { s with pae.cursors := s.pae.cursors.map fun (k : Cursor) =>
        if k.id ≠ c.id then k
        else if k.value = value then { k with lastAdmit := s.now, prevValue := value, prevPosition := k.position }
        else { k with lastAdmit := s.now } })

/-- Writes posted with OK that a FLUSH of the session covers (R211). -/
def State.coveredNow (s : State) (sess : Nat) : List Nat :=
  (s.cqc.posted.filter fun e => e.1 == sess).flatMap (·.2)

/-- Give a descriptor its TRS (R195 to R198, R201). -/
def State.allocate (s : State) (x : Session) (d : Desc) (i : Nat) : State :=
  let tenant := actingTenant x d.opcode d.fields
  let (cur, s) := if d.opcode = opScan then s.scanCursor x d tenant else (0, s)
  let gen := s.nextGen i
  let held := s.isHeld d.session d.seq0 d.ordered
  let whole := s.wholeData d.session d.reqId d.msgLen
  let t : Trs :=
    { idx := i, gen := gen, state := if held then .held else .waiting, opcode := d.opcode, admitCls := d.cls, cls := d.cls,
      ordered := d.ordered, orderedFlag := d.orderedFlag, port := d.port, tenant := tenant, session := d.session, seq0 := d.seq0, reqId := d.reqId,
      admitTime := s.cqc.cycle, admitDev := s.now, order := s.cqc.nextOrder,
      earlierOpen := min 65535 (s.earlierOpen d.session d.seq0), started := false, abortedBy := none, late := false,
      ready := none, rxAt := d.rxAt, unmeasured := false, media := false, classes := [], prints := [], keys := [],
      looked := [], joined := false, headed := false, keysReserved := 0, bytesReserved := 0, version := 0, status := 0, flags := 0,
      msgLen := d.msgLen, fields := d.fields, data := whole, result := false, respFields := [], respData := [],
      changes := [], place := none, committed := false, unlocked := false, stripes := [],
      covered := if d.opcode = opFlush ∧ !d.ordered then s.coveredNow d.session else [], reading := [], parked := false,
      degraded := false, cursor := cur, atOnce := d.opcode == opFlush && !s.writeBack }
  let s := if held then s.bump 0x3010 0x07 1 else s
  let s := { s with cqc.trs := s.cqc.trs ++ [t], cqc.nextOrder := s.cqc.nextOrder + 1,
                    cqc.gens := (i, gen) :: s.cqc.gens.filter fun g => g.1 != i,
                    plc.sanitizeTask := if d.opcode = opSanitize then some i else s.plc.sanitizeTask }
  let s := if whole.isSome then s.mapSession d.session fun y => y.spend d.reqId else s
  let s := (s.bump 0x3010 0x01 1).traced 1 d.port.num (some t.task) (d.opcode * 2 ^ 24 + d.cls.val * 2 ^ 16)
  if held ∨ startsHere d.opcode then s else s.startAdmin t

/-- Answer a head from the replay cache (R123). -/
def State.replayAnswer (s : State) (x : Session) (d : Desc) (e : ReplayEntry) : State :=
  let s := (s.tracedDone 0 e.status (e.flags ||| flReplayed)).meter d.opcode (actingTenant x d.opcode d.fields) e.status 0
  s.respondWith { session := d.session, reqId := d.reqId, opcode := d.opcode, status := e.status,
                  flags := e.flags ||| flReplayed, fields := e.fields, data := [], cls := d.cls, tenant := x.tenant, media := false,
                  timed := none } []

/-- An answer that no TRS holds is posted at once: fragment 0 of its response goes to DPX, where the client's window is open
(R118, R195, R216). None while it is not. -/
def State.handOver (s : State) (sess reqId : Nat) : Option State :=
  if (s.session? sess).isNone then some s else s.sendFrom sess fun m => m.resp.reqId == reqId && m.nextLeg == 0

/-- Admit a judged head (R194, R195). -/
def State.admitHead (s : State) (d : Desc) (h : HeadState) : State :=
  match s.session? d.session with
  | none => s
  | some x =>
    let s := s.expressArrival d.cls
    match h with
    | .replay e =>
      let s := ((s.replayAnswer x d e).bump 0x3010 0x02 1).bump 0x2012 0x0D 1
      ((s.handOver d.session d.reqId).getD s).releaseHeld
    | .answer st f =>
      let s := (s.answer d.session d.reqId d.opcode st f d.cls (actingTenant x d.opcode d.fields)).bump 0x3010 0x02 1
      ((s.handOver d.session d.reqId).getD s).releaseHeld
    | .take i => (s.allocate x d i).releaseHeld
    | _ => s

/-- Remember that a head waits for a TRS or for key-lock entries, once each (R225). -/
def State.stall (s : State) (lane : Nat) (d : Desc) (h : HeadState) : State :=
  let mark (f : Desc → Desc) : State :=
    { s with cqc.lanes := s.cqc.lanes.modify lane fun l => match l with
        | [] => []
        | a :: t => f a :: t }
  match h with
  | .noTrs => if d.noTrs then s else (mark fun a => { a with noTrs := true }).bump 0x3010 0x03 1
  | .noLock => if d.noLock then s else (mark fun a => { a with noLock := true }).bump 0x3010 0x04 1
  | _ => s

/-- Lanes in the order in which a cycle tries them (R194). -/
def laneOrder (cycle : Nat) : List Nat :=
  if cycle % 2 = 0 then [0, 1, 2, 3, 4, 5, 6, 7] else [4, 5, 6, 7, 0, 1, 2, 3]

def State.laneHead (s : State) (i : Nat) : Option Desc := (s.cqc.lanes.getD i []).head?

/-- The lane has an admissible head. -/
def State.laneReady (s : State) (i : Nat) : Bool :=
  match s.laneHead i with
  | some d => (s.judge d).admissible
  | none => false

/-- Try the lanes in order; heads passed over are marked as stalled. -/
def State.tryLanes (s : State) : List Nat → State
  | [] => s
  | i :: rest => match s.laneHead i with
    | none => s.tryLanes rest
    | some d =>
      let h := s.judge d
      if h.admissible then { s with cqc.lanes := s.cqc.lanes.modify i (·.drop 1) }.admitHead d h
      else (s.stall i d h).tryLanes rest

/-- The core cycle counter counts while the core clock runs: from step 2 of a start-up on, and not from step 2 of an entry
to Doze until the wake (R194, R548). -/
def State.cycleRuns (s : State) : Bool :=
  match s.pch.power with
  | .hold | .off | .doze => false
  | .startUp => decide (2 ≤ s.pch.step)
  | _ => decide (s.pch.dozeStep < 2)

/-- ADMIT (R194): one core cycle of admission. -/
def execAdmission (s : State) : Host.Outcome State Fault Refusal :=
  if !s.cycleRuns then .next s
  else if !s.wteAwake then .next { s with cqc.cycle := s.cqc.cycle + 1 }
  else
    let ties := ([0, 1, 2, 3].any s.laneReady) && ([4, 5, 6, 7].any s.laneReady)
    let s := if ties then s.bump 0x3010 0x06 1 else s
    let t := (s.tryLanes (laneOrder s.cqc.cycle)).readyActive
    .next { t with cqc.cycle := t.cqc.cycle + 1 }

/-! ## COMMAND_START -/

/-- The tenant's key page is LOADED (R151, R358). -/
def State.tenantReady (s : State) (t : Nat) : Bool := s.cpx.pages.any fun p => p.page == t && p.state == 2

/-- Tenants that a FORMAT names (R184). -/
def formatScope (f : Bytes) : List Nat := if field f 24 1 = 1 then [field f 26 2] else (List.range 1023).map (· + 1)

/-- The tenant's earlier FORMAT is still reclaiming space. -/
def State.reclaiming (s : State) (t : Nat) : Bool :=
  s.plc.reclaims.any (·.1 == t) || (match s.plc.longOp with
    | some o => o.op == 1 && o.tenant == t
    | none => false)

/-- A FORMAT of the tenant has started and not completed its work (R185). -/
def State.formatting (s : State) (t : Nat) : Bool :=
  s.cqc.trs.any fun u => u.opcode == opFormat && u.started && !u.result && (formatScope u.fields).contains t && !s.reclaiming t

/-- A WAITING command may start: no QUEUE_RESET has aborted it, no ORDERED command with an earlier fragment 0 is open (R59),
and no SANITIZE that refuses it has been admitted (R182). -/
def State.mayStart (s : State) (t : Trs) : Bool :=
  t.state == .waiting && startsHere t.opcode && t.abortedBy.isNone && !s.orderedBefore t.session t.seq0
    && !(s.sanitizing && sanitizeRefuses t.opcode t.fields)

/-- The WAITING command that starts next: lowest admission class, then earliest admitted (R200). -/
def State.nextStart (s : State) : Option Trs :=
  (s.cqc.trs.filter s.mayStart).foldl (fun b t => match b with
    | none => some t
    | some c => if t.admitCls < c.admitCls ∨ (t.admitCls = c.admitCls ∧ t.order < c.order) then some t else some c) none

/-- A cursor ends; retention kept only for it goes. -/
def State.dropCursor (s : State) (id : Nat) : State :=
  { s with pae.cursors := s.pae.cursors.filter fun c => c.id != id }.pruneOlder

/-- Classify a list of keys one by one (R151, R310). -/
def classifyAll (s : State) (tenant task : Nat) : List Bytes → List Classification → List Classification × State
  | [], l => (l, s)
  | k :: ks, l =>
    let (c, s) := s.classify tenant k (some task)
    classifyAll s tenant task ks (l ++ [c])

/-- The larger of two classes by number. -/
def maxCls (a b : Cls) : Cls := if a ≤ b then b else a

/-- AUTH_FAILED at step 7 of R156: the tenant's keys are not at hand (R151, R185). A first page request gives its cursor place
and its image room back. -/
def State.refuseTenant (s : State) (t : Trs) : State :=
  let s := if t.opcode = opScan ∧ field t.fields 32 8 = 0 then s.dropCursor t.cursor else s
  s.finish t.idx stAuthFailed 0 (errorFields 0 (if t.opcode = opBatch then 0 else 0xFFFF) 0) []

/-- The lane of the engine that takes a predicate run: the first in service (R334). -/
def State.predicateLane (s : State) : Nat := engineLane ((s.pae.engines.findIdx? Engine.inService).getD 0)

/-- The predicate runs of a command's keys cross the Turnpike from ASU to an engine and back (R334). -/
def State.runPredicates (s : State) (t : Trs) (cls : Cls) (keys : List Bytes) : State :=
  keys.foldl (fun s k => (List.range (s.classWalk t.tenant k s.asu.rules 0 0 0).runs).foldl (fun s _ =>
    (s.transfer (asuLane t.idx) s.predicateLane cls true t.task k.length).transfer s.predicateLane (asuLane t.idx)
      cls true t.task 64) s) s

/-- Classify and fingerprint a command's keys (R151, R283, R309). A refused element of a BATCH is answered at the head of
the chains, where the lowest element that fails decides (R63, R156). -/
def State.classifyTask (s : State) (t : Trs) (keys : List Bytes) : State :=
  if !s.tenantReady t.tenant then s.refuseTenant t
  else
    let (cs, s) := classifyAll (s.runPredicates t t.admitCls keys) t.tenant t.task keys []
    if t.opcode ≠ opBatch ∧ cs.any fun c => !c.admitted then s.finish t.idx stAuthFailed 0 (errorFields 0 0xFFFF 0) []
    else
      let cls := (cs.filter (·.admitted)).foldl (fun c x => maxCls c x.cls) t.admitCls
      let s := s.bump 0x7030 0x04 ((keys.map fun k => ceilDiv (4 + k.length) 16).foldl (· + ·) 0)
      let s := keys.foldl (fun s k => s.crypt .cmac 1024 (asuLane t.idx) (asuLane t.idx) cls true t.task (4 + k.length)
        (t.session, t.reqId)) s
      let s := s.mapTrs t.idx fun u => { u with
        classes := cs, prints := keys.map (s.print t.tenant), keys := keys, cls := cls, ready := some s.cqc.nextReady,
        state := if lockEntries u.opcode u.fields = 0 then .running else .classifying }
      { s with cqc.nextReady := s.cqc.nextReady + 1 }

/-- Classify a BATCH once its element table is there (R151, R165). -/
def State.classifyBatch (s : State) (t : Trs) : State :=
  match readTable (field t.fields 26 2) t.msgLen (s.taskData t) with
  | .unknown => s
  | .bad a b c => s.finish t.idx stBadRequest 0 (errorFields a b c) []
  | .tooLarge => s.fail t.idx stTooLarge 0
  | .ok l _ => s.classifyTask t (l.map (·.key))

/-- Where the first transfer of a command goes: to ASU for classification, to PLC, MSV or PCH for their operations, and
otherwise to WTE. -/
def Trs.startLane (t : Trs) : Nat :=
  if classifiedOpcode t.opcode then asuLane t.idx
  else if t.opcode = opFlush then plcLane t.idx
  else if t.opcode = opOdRead ∨ t.opcode = opOdWrite then msvLane
  else wteLane t.session

/-- COMMAND_START (R200): the command issues its first Turnpike transfer. -/
def execCommandStart (s : State) : Host.Outcome State Fault Refusal :=
  match s.nextStart with
  | none => .next s
  | some t =>
    let s := s.mapTrs t.idx fun u => { u with
      started := true, state := if classifiedOpcode u.opcode then .classifying else .running,
      covered := if u.opcode = opFlush ∧ u.ordered then s.coveredNow u.session else u.covered }
    let s := s.transfer cqcLane t.startLane t.admitCls true t.task (24 + t.fields.length)
    if classifiedOpcode t.opcode ∧ s.formatting t.tenant then
      .next (((s.mapTrs t.idx fun u => { u with late := true }).refuseTenant t).traceStart t)
    else if keyOpcode t.opcode then .next ((s.classifyTask t [keyOf t.opcode t.fields]).traceStart t)
    else if t.opcode = opBatch then .next ((s.classifyBatch t).traceStart t)
    else .next (s.traceStart t)

/-! ## Key-lock chains -/

/-- A command that takes key-lock entries became ready to join before `t` and has not joined (R204). -/
def State.readyBefore (s : State) (t : Trs) : Bool :=
  s.cqc.trs.any fun u => u.state == .classifying && !u.joined && lockEntries u.opcode u.fields != 0
    && (match u.ready, t.ready with
      | some a, some b => decide (a < b)
      | _, _ => false)

/-- KEY_LOCK_JOIN (R204): the command joins the tail of the chain of each of its keys, in one step, once those that became
ready before it have. -/
def execKeyLockJoin (task : Nat) (s : State) : Host.Outcome State Fault Refusal :=
  match s.trs? task with
  | none => .next s
  | some t =>
    if t.state ≠ .classifying ∨ t.joined ∨ lockEntries t.opcode t.fields = 0 then .next s
    else if t.keys.isEmpty then .next ((s.classifyBatch t).traceStart t)
    else if s.readyBefore t then .next s
    else
      let s := { s with cqc.chains := t.prints.foldl (fun l p => joinChain task t.tenant p l) s.cqc.chains }
      let heads := s.headsAll task
      let s := s.mapTrs task fun u => { u with joined := true, state := if heads then .running else .keyWait }
      .next (if heads then s else s.bump 0x3010 0x05 1)

/-- The lease that another session holds on a key at an admission time (R74, R77). -/
def State.foreignLease (s : State) (tenant : Nat) (key : Bytes) (sess admitted : Nat) : Option Lease :=
  s.cqc.leases.find? fun l => l.tenant == tenant && l.key == key && l.session != sess && decide (admitted < l.endsAt)

/-- The session's own lease on a key. -/
def State.ownLease (s : State) (tenant : Nat) (key : Bytes) (sess at_ : Nat) : Option Lease :=
  s.cqc.leases.find? fun l => l.tenant == tenant && l.key == key && l.session == sess && decide (at_ < l.endsAt)

/-- One element as the checks at the head of the chains see it. -/
structure Wanted where
  op      : Nat
  key     : Bytes
  flags   : Nat
  version : Nat
  length  : Nat
  /-- PUNCH. -/
  off     : Nat
  deriving DecidableEq, Repr

/-- The elements of a write. -/
def State.wanted (s : State) (t : Trs) : List Wanted :=
  if t.opcode = opBatch then
    match elementsOf (s.taskData t) (field t.fields 26 2) 0 with
    | some (l, _) => l.map fun e => { op := e.op, key := e.key, flags := e.flags, version := e.version, length := e.length, off := 0 }
    | none => []
  else
    [{ op := t.opcode, key := keyOf t.opcode t.fields, flags := field t.fields 28 2, version := field t.fields 32 8,
       length := if t.opcode = opPunch then field t.fields 40 8 else t.msgLen, off := field t.fields 32 8 }]

/-- Step 10 for one element and the stored key: status and detail, 0 for none (R48, R50, R51). -/
def Wanted.keyState (w : Wanted) (k : Option KeyRec) : Nat × Nat :=
  match k with
  | none =>
    if w.op = opPut then (if bit w.flags 1 then (stNotFound, 0) else (0, 0))
    else if w.op = opPutIf then (if w.version = 0 then (0, 0) else (stNotFound, 0))
    else if w.op = opDelete ∨ w.op = opPunch then (stNotFound, 0)
    else (0, 0)
  | some r =>
    if w.op = opPut then (if bit w.flags 0 then (stExists, r.version) else (0, 0))
    else if w.op = opPutIf then (if w.version = r.version then (0, 0) else (stVersionMismatch, r.version))
    else if w.op = opPunch then (if w.length = 0 ∨ r.length < w.off + w.length then (stRange, r.length) else (0, 0))
    else if w.op = opAppend then (if 4294967296 < r.length + w.length then (stTooLarge, 0) else (0, 0))
    else (0, 0)

/-- Increase in bytes and keys of one element (R523). -/
def Wanted.increase (w : Wanted) (k : Option KeyRec) : Int × Int :=
  let old : Int := match k with
    | some r => r.length
    | none => 0
  let isNew : Int := if k.isNone then 1 else 0
  if w.op = opPut ∨ w.op = opPutIf then (w.length - old, isNew)
  else if w.op = opAppend then (w.length, isNew)
  else if w.op = opDelete then (-old, -1)
  else (0, 0)

/-- Reservations of writes in flight: bytes and keys, of one tenant or of all (R210). -/
def State.reserved (s : State) (tenant : Option Nat) : Nat × Nat :=
  let l := s.cqc.trs.filter fun t => tenant.all fun x => x == t.tenant
  ((l.map (·.bytesReserved)).foldl (· + ·) 0, (l.map (·.keysReserved)).foldl (· + ·) 0)

/-- A net increase passes a limit. -/
def passes (inc : Int) (used limit : Nat) : Bool := decide (0 < inc ∧ (limit : Int) < used + inc)

/-- A quota value; all ones is no limit (R523). -/
def noLimit : Nat := 2 ^ 64 - 1

/-- The increase passes a quota of the tenant or a limit of the module (R42, R523). -/
def State.quotaPassed (s : State) (tenant : Nat) (inc : Int × Int) : Bool :=
  let a := s.account tenant
  let (rb, rk) := s.reserved (some tenant)
  let (nb, nk) := s.reserved none
  let qb := s.num (0x3400 + tenant) 1
  let qk := s.num (0x3400 + tenant) 2
  (qb != noLimit && passes inc.1 (a.usageBytes + rb) qb) || (qk != noLimit && passes inc.2 (a.usageKeys + rk) qk)
    || passes inc.1 (s.storedBytes + nb) s.capacity || passes inc.2 (s.keysStored + nk) (2 ^ 32)

/-- The first element at which the running sum passes a quota (R524). -/
def State.quotaElement (s : State) (tenant : Nat) : (i : Nat) → (sum : Int × Int) → List (Int × Int) → Nat
  | i, _, [] => i
  | i, sum, d :: l =>
    let sum := (sum.1 + d.1, sum.2 + d.2)
    if s.quotaPassed tenant sum then i else s.quotaElement tenant (i + 1) sum l

/-- What the checks at the head of the chains conclude. -/
inductive HeadCheck where
  | paging
  | refuse (status element detail : Nat)
  | pass (keys : List (Option KeyRec))
  deriving DecidableEq, Repr

/-- The walker or the verification of a CAM hit reads an index entry from a buffer (R266). -/
def State.indexRead (s : State) (t : Trs) : State := s.fetch (asuLane t.idx) (bufferLane t.idx) t.cls true t.task 640

/-- How far a lookup has come, for the next try. -/
def Found.past : Found → Option Bool
  | .paging _ searched => if searched then some false else none
  | _ => some true

/-- The directory pages of the bucket, and the index pages of the slots, that a lookup reads. -/
def State.slotPages (s : State) (print : Nat) : List Nat :=
  (s.bucketPages print ++ (s.slots print true ++ s.slots print false).map (·.page)).eraseDups

/-- The lookup of element `i` of a command. -/
def State.lookFor (s : State) (t : Trs) (i : Nat) (key : Bytes) (pin : Bool) : Found × State :=
  let (f, s) := ((s.indexRead t).readPages (s.slotPages (t.prints.getD i 0))).lookup t.tenant key (t.prints.getD i 0) pin
    ((t.looked.find? fun e => e.1 == i).map (·.2)) t.task
  (f, match f.past with
    | some b => s.mapTrs t.idx fun u => { u with looked := (i, b) :: u.looked.filter fun e => e.1 != i }
    | none => s)

/-- Steps 7, 9 and 10 for the elements in order; the first that fails decides (R63, R156, R206). -/
def State.headChecks (s : State) (t : Trs) : (i : Nat) → List Wanted → List (Option KeyRec) → HeadCheck × State
  | _, [], l => (.pass l, s)
  | i, w :: ws, l =>
    let element := if t.opcode = opBatch then i else 0xFFFF
    let denied := match t.classes[i]? with
      | some c => !c.admitted
      | none => false
    if denied then (.refuse stAuthFailed element 0, s)
    else match s.foreignLease t.tenant w.key t.session t.admitDev with
    | some e => (.refuse stLocked element (e.endsAt - s.now), s)
    | none =>
      let pin := match t.classes[i]? with
        | some c => c.pin
        | none => false
      match s.lookFor t i w.key pin with
      | (.paging _ _, s) => (.paging, s)
      | (f, s) =>
        let (st, detail) := w.keyState f.stored
        if st ≠ 0 then (.refuse st element detail, s) else s.headChecks t (i + 1) ws (l ++ [f.stored])

/-- Steps 9 to 11 for a write: refused, waiting for a page, or reserved (R206, R210). -/
def State.headWrite (s : State) (t : Trs) : State :=
  let ws := s.wanted t
  match s.headChecks t 0 ws [] with
  | (.paging, s) => s
  | (.refuse st e d, s) => s.finish t.idx st 0 (errorFields 0 e d) []
  | (.pass ks, s) =>
    let incs := (ws.zip ks).map fun p => p.1.increase p.2
    let net := incs.foldl (fun (a : Int × Int) d => (a.1 + d.1, a.2 + d.2)) (0, 0)
    if s.quotaPassed t.tenant net then
      let e := if t.opcode = opBatch then s.quotaElement t.tenant 0 (0, 0) incs else 0xFFFF
      s.finish t.idx stQuota 0 (errorFields 0 e 0) []
    else s.mapTrs t.idx fun u => { u with headed := true, bytesReserved := net.1.toNat, keysReserved := net.2.toNat }

/-- The sessions of the leases other than the LOCK's own that count against the limits of R79: those in force at its
admission, and those that LOCKs past their heads are about to grant. DESIGN CHOICE (log 124): the spec names no time for the
count; the admission time is that of R77. -/
def State.otherLeases (s : State) (t : Trs) : List Nat :=
  let key := keyOf t.opcode t.fields
  let others := s.cqc.leases.filter fun l => decide (t.admitDev < l.endsAt) && !(l.tenant == t.tenant && l.key == key && l.session == t.session)
  let coming := s.cqc.trs.filter fun u => u.opcode == opLock && u.headed && !u.result && u.idx != t.idx
    && !others.any fun l => l.tenant == u.tenant && l.key == keyOf opLock u.fields && l.session == u.session
  others.map (·.session) ++ coming.map (·.session)

/-- Steps 8 and 9 for a LOCK: the lease limits, then a lease of another session (R74, R79, R206). -/
def State.headLock (s : State) (t : Trs) : State :=
  let key := keyOf t.opcode t.fields
  let others := s.otherLeases t
  if 65536 ≤ others.length ∨ 256 ≤ (others.filter (· == t.session)).length then s.fail t.idx stRetryLater 0
  else match s.foreignLease t.tenant key t.session t.admitDev with
    | some e => s.fail t.idx stLocked (e.endsAt - s.now)
    | none => s.mapTrs t.idx fun u => { u with headed := true }

/-- KEY_CHAIN_HEAD (R205, R206): the command heads all its chains, and the checks there are made. -/
def execKeyChainHead (task : Nat) (s : State) : Host.Outcome State Fault Refusal :=
  match s.trs? task with
  | none => .next s
  | some t =>
    if !t.joined ∨ t.headed ∨ t.result ∨ !s.headsAll task then .next s
    else
      let s := s.mapTrs task fun u => { u with state := .running }
      if t.opcode = opLock then .next (s.headLock t) else .next (s.headWrite t)

/-! ## POST_COMPLETION -/

/-- A write that succeeded and took stripes or none. -/
def Trs.wrote (t : Trs) : Bool := writeOpcode t.opcode && t.status == stOk

/-- Every stripe the write took is on its tiles (R81). -/
def State.durable (s : State) (t : Trs) : Bool := t.stripes.all s.onMedium

/-- The ABORTED completions of a QUEUE_RESET have been posted (R216). -/
def State.abortsPosted (s : State) (t : Trs) : Bool :=
  s.wte.sessions.all fun x => !t.inScope x || x.outgoing.all fun m => m.resp.status != stAborted || m.nextLeg != 0

/-- The responses of the session's earlier commands have been sent (R141). -/
def State.responsesSent (s : State) (sess : Nat) : Bool :=
  match s.session? sess with
  | some x => x.outgoing.all fun m => !m.hasWork
  | none => true

/-- The mode of completion lets the result be posted (R80, R82). -/
def State.modeMet (s : State) (t : Trs) : Bool := !t.wrote || s.writeBack || s.durable t

/-- The conditions of R209, and those of SESSION_CLOSE and QUEUE_RESET (R141, R216). -/
def State.postable (s : State) (t : Trs) : Bool :=
  t.result && s.modeMet t && (!t.ordered || s.earlierOpen t.session t.seq0 == 0)
    && (t.opcode != opClose || s.responsesSent t.session) && (t.opcode != opQueueReset || s.abortsPosted t)

/-- Flags of a completion beside those the operation gave (R81, R191). -/
def State.completionFlags (s : State) (t : Trs) : Nat :=
  t.flags ||| flagIf (t.wrote && s.durable t) flDurable ||| flagIf t.degraded flDegraded

/-- The measure of a response: an Express/0 GET or HEAD that ends with OK and is not excepted (R279). -/
def Trs.timing (t : Trs) : Option Timing :=
  if t.cls = 0 ∧ (t.opcode = opGet ∨ t.opcode = opHead) ∧ t.status = stOk ∧ !t.unmeasured then
    some { rx := t.rxAt, media := t.media, task := t.task }
  else none

/-- Post a task's completion and free its TRS (R207, R209). -/
def State.complete (s : State) (t : Trs) : State :=
  let s := s.transfer cqcLane (wteLane t.session) t.cls true t.task 64
  let s := s.post t.task t.session t.reqId t.opcode t.status (s.completionFlags t) t.respFields t.respData t.cls t.tenant t.media t.timing
    t.reading
  let s := if t.wrote && !s.durable t then { s with cqc.posted := s.cqc.posted ++ [(t.session, t.stripes)] } else s
  let s := if t.opcode = opClose ∧ t.status = stOk then s.mapSession t.session fun y => { y with phase := .closing } else s
  let s := if t.status = stAborted then s.bump 0x3010 0x08 1 else s
  ((s.freeTrs t.idx).releaseHeld).readyActive

/-- Post the completion of a task by its index. -/
def State.completeTask (s : State) (i : Nat) : State :=
  match s.trs? i with
  | some t => s.complete t
  | none => s

/-- Post a completion: fragment 0 of its response is handed to DPX with it (R118). None while the client's window is closed,
and while an answer of the session from before still waits for its own hand-over (R195). -/
def State.postNow (s : State) (t : Trs) : Option State :=
  match s.session? t.session with
  | none => some (s.complete t)
  | some x =>
    if x.outgoing.any fun m => m.nextLeg == 0 && m.hasWork then none
    else (s.complete t).sendFrom t.session fun m => m.resp.reqId == t.reqId && m.nextLeg == 0

/-- POST_COMPLETION (R118, R209): the completion is posted when fragment 0 of its response is handed to DPX, which
waits while the client's window is closed. -/
def execPostCompletion (task : Nat) (s : State) : Host.Outcome State Fault Refusal :=
  match s.trs? task with
  | none => .next s
  | some t => if s.postable t then .next ((s.postNow t).getD s) else .next s

/-! ## FLUSH_COMPLETE, CLIENT_LEASE_EXPIRY, CURSOR_EXPIRY, HOLD_PENDING_EXPIRY -/

/-- FLUSH_COMPLETE (R212): every covered stripe is programmed or gone. -/
def execFlushComplete (task : Nat) (s : State) : Host.Outcome State Fault Refusal :=
  match s.trs? task with
  | none => .next s
  | some t =>
    if t.state = .flushWait ∧ t.covered.all s.onMedium then
      .next ((s.finish task stOk flDurable [] []).bump 0x3010 0x0D 1)
    else .next s

/-- A command of the tenant admitted before the lease's end has yet to compare the two (R77, R206). -/
def State.leaseNeeded (s : State) (l : Lease) : Bool :=
  s.cqc.trs.any fun t => t.tenant == l.tenant && !t.result && decide (t.admitDev < l.endsAt) && (keyOpcode t.opcode || t.opcode == opBatch)

/-- CLIENT_LEASE_EXPIRY (R77): a lease whose end has come stops applying, once every command admitted before its end has
been checked against it. -/
def execClientLeaseExpiry (tenant : Nat) (key : Bytes) (s : State) : Host.Outcome State Fault Refusal :=
  .next { s with cqc.leases := s.cqc.leases.filter fun l =>
    !(l.tenant == tenant && l.key == key && decide (l.endsAt ≤ s.now) && !s.leaseNeeded l) }

/-- CURSOR_EXPIRY (R70): 60 s after the admission of its last page request a cursor ends. -/
def execCursorExpiry (cursor : Nat) (s : State) : Host.Outcome State Fault Refusal :=
  .next { s with pae.cursors := s.pae.cursors.filter fun c => !(c.id == cursor && decide (c.lastAdmit + 60000000 ≤ s.now)) }.pruneOlder

/-- HOLD_PENDING_EXPIRY (R187): 60 s without removal of main power cancel the pending Hold. -/
def execHoldPendingExpiry (s : State) : Host.Outcome State Fault Refusal :=
  match s.cqc.holdUntil with
  | some t =>
    if s.cqc.policy = 3 ∧ t ≤ s.now then
      .next ({ s with cqc.policy := 0, cqc.holdUntil := none }.raise 0x3403 (wholeUnit 3) 0 0 0)
    else .next s
  | none => .next s

/-! ## Drains (R218 to R221) -/

/-- A drain begins (R218), or a reset or an activation turns the drain of a PREPARE_HOLD into its own (R221). -/
def State.startDrain (s : State) (cause : DrainCause) : State :=
  match s.cqc.drain with
  | none => (s.beginDrain cause).releaseHeld
  | some d => match d.cause, cause with
    | .prepareHold task, .prepareHold _ => { s with cqc.drain := some { d with cause := .prepareHold task } }
    | .prepareHold task, c =>
      let s := { s with cqc.drain := some { d with cause := c }, cqc.policy := s.cqc.policyBefore, cqc.holdUntil := none }
      (s.finish task stRetryLater 0 (plainError s.drainWait) []).completeTask task
    | .reset, .activation => { s with cqc.drain := some { d with cause := .activation } }
    | _, _ => s

end Sys2Proof.Machine
end

