-- ==== Sys2Proof/Machine/Media.lean ====
section
/-!
DEFINITION. What placement and the tiles share: where a slot lies on the dies, die queues, tile work, waking, and the
marking of lost stripes (R413, R415, R427, R428, R430, R443, R445, R451).
-/
namespace Sys2Proof.Machine

/-! ## Dies and die blocks -/

/-- Channel C0 or C1, die D0 to D9, die block 0 to 1023 (R13, R425). -/
def dieExists (channel die : Nat) : Bool := decide (channel < 2 ∧ die < 10)

/-- A die that has had nothing to do. -/
def Die.fresh (c d : Nat) : Die :=
  { channel := c, die := d, queue := [], doing := none, suspended := none, temp := 0, sensorFailed := false }

/-- The die block of every die that holds parity pages (R426). -/
def parityBlock : Nat := 1023

/-- A die block as made: ERASED and free, the one of the die-parity area in SLC mode and of that area (R426, R441, R453). -/
def DieBlock.fresh (c d b : Nat) : DieBlock :=
  let parity := b = parityBlock
  { channel := c, die := d, block := b, state := if parity then 7 else 0, slc := parity, pointer := 0, qlcErases := 0, slcErases := 0,
    reads := 0, time := 0, tempSum := 0, region := if parity then 4 else 0xFF, superblock := 0xFFFF, verified := [], queued := 0 }

/-- Program temperature: the mean over the rows programmed, to 1 °C (R436). -/
def DieBlock.temp (b : DieBlock) : Int := if b.pointer = 0 then 0 else b.tempSum / b.pointer

def Tile.dieAt (t : Tile) (c d : Nat) : Die := (t.dies.find? fun x => x.channel == c && x.die == d).getD (.fresh c d)

def Tile.putDie (t : Tile) (x : Die) : Tile :=
  { t with dies := x :: t.dies.filter fun y => !(y.channel == x.channel && y.die == x.die) }

def Tile.blockAt (t : Tile) (c d b : Nat) : DieBlock :=
  (t.blocks.find? fun x => x.channel == c && x.die == d && x.block == b).getD (.fresh c d b)

def Tile.putBlock (t : Tile) (x : DieBlock) : Tile :=
  { t with blocks := x :: t.blocks.filter fun y => !(y.channel == x.channel && y.die == x.die && y.block == x.block) }

def Tile.mapBlock (t : Tile) (c d b : Nat) (f : DieBlock → DieBlock) : Tile := t.putBlock (f (t.blockAt c d b))

/-- Rows of a die block in its mode (R425). -/
def blockRows (slc : Bool) : Nat := if slc then 1024 else 4096

/-! ## Slots on the dies (R427, R428) -/

/-- Position, row and superblock of a slot. -/
def slotPlace (region slot : Nat) : Nat × Nat × Nat :=
  let w := superWidth region
  let r := superRows region
  (slot % w, (slot / w) % r, slot / (w * r))

/-- The slot at a position and row of a superblock. -/
def slotAt (region superblock pos row : Nat) : Nat := (superblock * superRows region + row) * superWidth region + pos

/-- The die block that serves a position of a superblock at a row: the latest one put there. -/
def Tile.place (t : Tile) (region superblock pos row : Nat) : Option SuperPlace :=
  (t.superblocks.filter fun e => e.region == region && e.superblock == superblock && e.pos == pos && decide (e.fromRow ≤ row)).foldl
    (fun b e => match b with
      | none => some e
      | some c => if c.fromRow ≤ e.fromRow then some e else b) none

/-- Channel, die, block and row of a slot; none while its superblock is not open. -/
def Tile.locate (t : Tile) (region slot : Nat) : Option (Nat × Nat × Nat × Nat) :=
  let (u, p, sb) := slotPlace region slot
  (t.place region sb u p).map fun e => (e.channel, e.die, e.block, p)

/-- Free die blocks of a die: ERASED and in no superblock. -/
def Tile.freeBlocks (t : Tile) (c d : Nat) : Nat :=
  1023 - (t.blocks.filter fun b => b.channel == c && b.die == d && b.block != parityBlock && (b.region != 0xFF || b.state != 0)).length

/-- The lowest free die block of a die. -/
def Tile.freeBlock (t : Tile) (c d : Nat) : Option Nat :=
  let used := (t.blocks.filter fun b => b.channel == c && b.die == d && (b.region != 0xFF || b.state != 0)).map (·.block)
  (List.range (min 1023 (used.length + 1))).find? fun b => !used.contains b

/-- The die for a position: its default die, else the die of the same channel with the most free die blocks. -/
def Tile.dieFor (t : Tile) (u : Nat) : Nat × Nat :=
  let c := u % 2
  if (t.freeBlock c (u / 2)).isSome then (c, u / 2)
  else (c, ((List.range 10).foldl (fun (b : Nat) d => if t.freeBlocks c b < t.freeBlocks c d then d else b) 0))

/-- Put a free die block at a position of a superblock from a row on. -/
def Tile.seatBlock (t : Tile) (region superblock u fromRow c d : Nat) : Tile :=
  match t.freeBlock c d with
  | none => t
  | some b =>
    let t := t.mapBlock c d b fun x => { x with region := region, superblock := superblock, slc := region != 0 }
    { t with superblocks := t.superblocks ++
        [{ region := region, superblock := superblock, pos := u, channel := c, die := d, block := b, fromRow := fromRow }] }

/-- Open the superblock of a slot when it is not open (R427); none opens on a tile closed for writes (R443). -/
def Tile.openFor (t : Tile) (region slot : Nat) : Tile :=
  let (_, _, sb) := slotPlace region slot
  if t.closed ∨ t.superblocks.any (fun e => e.region == region && e.superblock == sb) then t
  else (List.range (superWidth region)).foldl (fun t u =>
    let (c, d) := t.dieFor u
    t.seatBlock region sb u 0 c d) t

/-- Valid slots of a die block: stripe, shard number, region and row (R441). -/
def State.slotsIn (s : State) (t c d b : Nat) : List (Nat × Nat × Nat × Nat) :=
  s.plc.stripes.flatMap fun p =>
    (List.range p.shards.length).filterMap fun i => match p.shards[i]? with
      | some h => if h.tile ≠ t ∨ p.detached ∨ p.lost ∨ h.phase = .lost then none
        else match (s.tile t).locate h.region h.slot with
          | some (c', d', b', row) => if c' = c ∧ d' = d ∧ b' = b then some (p.id, i, h.region, row) else none
          | none => none
      | none => none

/-! ## Die parity (R445, R446) -/

/-- The die, as a position from a first one on, whose parity block has a free page. -/
def Tile.parityDie (t : Tile) : Option Nat :=
  ((List.range 20).map fun i => (t.parityNext + i) % 20).find? fun u =>
    decide ((t.blockAt (u % 2) (u / 2) parityBlock).pointer < 1024)

/-- Program the parity page of a row; none while the die-parity area has no free page. -/
def Tile.parityPut (t : Tile) (region superblock row : Nat) : Option Tile :=
  match t.parityDie with
  | none => none
  | some u =>
    let b := t.blockAt (u % 2) (u / 2) parityBlock
    let t := t.putBlock { b with pointer := b.pointer + 1 }
    some { t with parityNext := (u + 1) % 20,
                  parity := t.parity ++ [{ region := region, superblock := superblock, row := row, at_ := u, page := b.pointer }] }

/-- An erase of the die block is queued, in progress or suspended. -/
def Die.erases (x : Die) (b : Nat) : Bool :=
  x.queue.contains (.erase b) || (x.doing.map (·.1)) == some (.erase b) || (x.suspended.map (·.1)) == some (.erase b)

/-- A die block of the die-parity area all of whose pages have been released is erased (R446): the erase joins its die's queue. -/
def Tile.eraseParity (t : Tile) : Tile :=
  ((List.range 20).filter fun u =>
      decide (1024 ≤ (t.blockAt (u % 2) (u / 2) parityBlock).pointer) && !t.parity.any fun q => q.at_ == u).foldl
    (fun t u =>
      let x := t.dieAt (u % 2) (u / 2)
      if x.erases parityBlock then t else t.putDie { x with queue := x.queue ++ [.erase parityBlock] }) t

/-- Release the parity page of a row. -/
def Tile.parityDrop (t : Tile) (region superblock row : Nat) : Tile :=
  { t with parity := t.parity.filter fun q => !(q.region == region && q.superblock == superblock && q.row == row) }.eraseParity

/-- The row holds a parity page: programmed and not yet verified. -/
def Tile.hasParity (t : Tile) (region superblock row : Nat) : Bool :=
  t.parity.any fun q => q.region == region && q.superblock == superblock && q.row == row

/-- Program the parity page of a row over the pages programmed in it so far; one that covers fewer pages is released. DESIGN
CHOICE (log 66): a row has its parity page from its first programmed page on. -/
def Tile.putParity (t : Tile) (region superblock row : Nat) : Tile :=
  let u := t.parityDrop region superblock row
  (u.parityPut region superblock row).getD t

/-! ## Rows of a die block (R436, R445) -/

/-- The row at the write pointer is programmed: write pointer, state, program time and the temperatures (R436, R442). -/
def DieBlock.programmed (b : DieBlock) (now : Nat) (temp : Int) : DieBlock :=
  let n := b.pointer + 1
  { b with state := if n = blockRows b.slc then 2 else 1, pointer := n, time := now, tempSum := b.tempSum + temp }

/-- The row at the write pointer of a die block is programmed with the parity page of the superblock's row (R445). -/
def Tile.programRow (t : Tile) (c d b now : Nat) (temp : Int) : Tile :=
  let k := t.blockAt c d b
  (t.mapBlock c d b fun k => k.programmed now temp).putParity k.region k.superblock k.pointer

/-- A lower row of the die block has a shard still to come, a program queued or in progress, or a slot on its way there. -/
def State.rowPending (s : State) (tile c d b row : Nat) : Bool :=
  let x := (s.tile tile).dieAt c d
  let lower : DieOp → Bool := fun o => match o with
    | .program _ _ b' r _ => b' == b && decide (r < row)
    | .filler b' r _ => b' == b && decide (r < row)
    | _ => false
  x.queue.any lower || (x.doing.map (·.1)).any lower || (x.suspended.map (·.1)).any lower
    || (s.slotsIn tile c d b).any (fun e => decide (e.2.2.2 < row) && (match (s.stripe? e.1).bind fun p => p.shards[e.2.1]? with
      | some h => h.phase == .dirty || h.phase == .sent
      | none => false))
    || s.plc.moves.any fun m => m.tile == tile && !m.done && (match (s.tile tile).locate m.region m.to_ with
      | some (c', d', b', r) => c' == c && d' == d && b' == b && decide (r < row)
      | none => false)

/-! ## Verification reads (R446) -/

/-- A row of a die block is verifiable. -/
def DieBlock.verifiable (b : DieBlock) (row : Nat) : Bool :=
  decide (row < b.pointer ∧ (b.pointer = blockRows b.slc ∨ (if b.slc then row + 2 ≤ b.pointer else 4 * (row / 4) + 8 ≤ b.pointer)))

/-- The places of a row, by position. -/
def Tile.rowPlaces (t : Tile) (region superblock row : Nat) : List SuperPlace :=
  (List.range (superWidth region)).filterMap fun u => t.place region superblock u row

/-- The pages of a row that are read: die blocks out of service left out. -/
def Tile.rowPages (t : Tile) (region superblock row : Nat) : List SuperPlace :=
  (t.rowPlaces region superblock row).filter fun e =>
    let b := t.blockAt e.channel e.die e.block
    b.state != 5 && b.state != 6

/-- A row waits for its verification: it holds a parity page and every page of it is verifiable. -/
def Tile.verifies (t : Tile) (region superblock row : Nat) : Bool :=
  t.hasParity region superblock row
    && (t.rowPages region superblock row).all fun e => (t.blockAt e.channel e.die e.block).verifiable row

/-- The verification read of a row joins the queues of its pages' dies, once (R430). -/
def Tile.queueVerify (t : Tile) (region superblock row : Nat) : Tile :=
  let l := t.rowPages region superblock row
  if !t.verifies region superblock row ∨ l.any fun e => (t.dieAt e.channel e.die).queue.contains (.verify e.block row) then t
  else l.foldl (fun t e =>
    let x := t.dieAt e.channel e.die
    t.putDie { x with queue := x.queue ++ [.verify e.block row] }) t

/-- Every row that waits for its verification has its reads queued, and every parity block to be erased its erase. -/
def Tile.queueVerifies (t : Tile) : Tile := t.parity.foldl (fun t q => t.queueVerify q.region q.superblock q.row) t.eraseParity

/-- Verification reads of a row leave the queues of its dies. -/
def Tile.dropVerify (t : Tile) (region superblock row : Nat) : Tile :=
  (t.rowPlaces region superblock row).foldl (fun t e =>
    let x := t.dieAt e.channel e.die
    if x.queue.contains (.verify e.block row) then t.putDie { x with queue := x.queue.filter fun o => o != .verify e.block row } else t) t

/-- Verification reads of rows that do not wait for one any more are dropped. -/
def Tile.trimVerify (t : Tile) (region superblock : Nat) : Tile :=
  (t.parity.filter fun q => q.region == region && q.superblock == superblock).foldl (fun t q =>
    if t.verifies region superblock q.row then t else t.dropVerify region superblock q.row) t

/-! ## Work of a tile (R450, R451) -/

/-- No die operation queued or in progress and no transfer addressed to the tile. -/
def State.tileIdle (s : State) (t : Nat) : Bool :=
  (s.tile t).dies.all (fun d => d.queue.isEmpty && d.doing.isNone && d.suspended.isNone)
    && !s.tpk.queue.any fun x => x.dst == tileLane t

/-- Hand an operation to a die; the tile has work from now on. -/
def State.queueDie (s : State) (t c d : Nat) (op : DieOp) : State :=
  s.mapTile t fun x =>
    let y := x.dieAt c d
    { x.putDie { y with queue := y.queue ++ [op] } with idleSince := s.now }

/-- Express/0 reads waiting or in progress on a die. -/
def Die.expressReads (x : Die) : Nat :=
  let mine : DieOp → Bool := fun o => match o with
    | .read c rebuild .. => c == 0 && !rebuild
    | _ => false
  (x.queue.filter mine).length + (if (x.doing.map (·.1)).any mine then 1 else 0)

/-- The whole shard, for placement's own work. -/
def Shard.whole (h : Shard) : ReadPart := { off := 0, len := roundUp h.len 4096, around := true, lead := false }

/-- A read of a part of a shard's slot by the command that needs it (R389, R430); an Express/0 read that finds two or more
ahead of it counts (R431). -/
def State.queueRead (s : State) (cls : Cls) (rebuild : Bool) (p : Stripe) (i : Nat) (part : ReadPart) : State :=
  match p.shards[i]? with
  | none => s
  | some h => match (s.tile h.tile).locate h.region h.slot with
    | none => s
    | some (c, d, b, row) =>
      let s := if cls = 0 ∧ !rebuild ∧ 2 ≤ ((s.tile h.tile).dieAt c d).expressReads then s.bump (0xA400 + h.tile) 0x19 1 else s
      (s.transfer (plcLane p.id) (tileLane h.tile) cls part.lead noTask 64).queueDie h.tile c d
        (.read cls rebuild p.id i b row (h.region != 0) part)

/-- The program of a shard in its slot (R398): its superblock opens, the operation is queued. Where it cannot open, the
shard needs another slot (R399, R428). -/
def State.queueProgram (s : State) (id i : Nat) (h : Shard) : State :=
  let s := s.mapTile h.tile fun t => t.openFor h.region h.slot
  match (s.tile h.tile).locate h.region h.slot with
  | none => s.mapStripe id fun p => { p with shards := p.shards.modify i fun x => { x with phase := .failed } }
  | some (c, d, b, row) => s.queueDie h.tile c d (.program id i b row (h.region != 0))

/-- Change a shard of a stripe. -/
def State.mapShard (s : State) (id i : Nat) (f : Shard → Shard) : State :=
  s.mapStripe id fun p => { p with shards := p.shards.modify i f }

/-- A tile that is neither isolated nor retired. -/
def Tile.inUse (t : Tile) : Bool := !t.down

/-! ## Lost stripes and keys (R413, R415) -/

/-- A stripe id that stands for the bytes of a lost map record: every byte of the key counts as lost (R158, R391). -/
def lostMap : Nat := 2 ^ 64

/-- Bytes of the extent lie in a lost stripe or behind a lost map record. -/
def State.isLost (s : State) (e : Extent) : Bool := e.stripe == lostMap || s.lostExtent e

/-- A key enters the lost-key log (R415): the lowest free entry, or the overflow count. -/
def State.logLost (s : State) (k : KeyRec) : State :=
  if s.plc.lostLog.any fun e => e.tenant == k.tenant && e.key == k.key then s
  else if 65536 ≤ s.plc.lostLog.length then s.bump 0x9020 1 1
  else
    let used := s.plc.lostLog.map (·.index)
    let i := ((List.range (used.length + 1)).find? fun n => !used.contains n).getD 0
    let e : LostEntry := { index := i, tenant := k.tenant, key := k.key, version := k.version, time := s.now }
    { s with plc.lostLog := s.plc.lostLog ++ [e] }

/-- A key leaves the log (R162). -/
def State.unlogLost (s : State) (tenant : Nat) (key : Bytes) : State :=
  { s with plc.lostLog := s.plc.lostLog.filter fun e => !(e.tenant == tenant && e.key == key) }

/-- Mark keys LOST and log them; one event for the stripe, 0 for a map page (R587). -/
def State.loseKeys (s : State) (l : List KeyRec) (stripe : Nat) : State :=
  let s := l.foldl (fun s k => (s.mapKey k.tenant k.key fun r => { r with lost := true }).logLost k) s
  match l with
  | [] => s
  | k :: _ => s.raise 0x9805 (wholeUnit 9) k.tenant l.length stripe

/-- Where data of the stripe begins in what is still to be sent. -/
def TxMessage.unsentOf (m : TxMessage) (stripe : Nat) : List Nat :=
  (m.spans.filter fun e => e.stripe == stripe).flatMap fun e =>
    (m.unsent.filter fun r => decide (r.1 < e.pos + e.len ∧ e.pos < r.1 + r.2)).map fun r => max r.1 e.pos

/-- A response that reads the stripe ends with CUT (R119, R158). -/
def TxMessage.cutFor (m : TxMessage) (stripe : Nat) : TxMessage :=
  if m.cutAt.isSome ∨ m.cutSent then m
  else match m.unsentOf stripe with
    | [] => m
    | c :: l => { m with cutAt := some (l.foldl min c, stMediaError) }

/-- A GET with its result whose data is read from the stripe. -/
def Trs.readsFrom (t : Trs) (id : Nat) : Bool :=
  t.opcode == opGet && t.result && t.status == stOk && t.reading.any fun e => e.stripe == id && e.len != 0

/-- The loss is found before fragment 0 is sent: an ordinary error response (R158). -/
def Trs.loseData (t : Trs) : Trs :=
  { t with status := stMediaError, flags := 0, degraded := false, respFields := plainError 0, respData := [], reading := [] }

/-- A stripe has lost a third shard (R413): its descriptor is marked LOST, its keys are marked and logged, its remaining
shards are released, and responses still reading it are cut. -/
def State.loseStripe (s : State) (id : Nat) : State :=
  match s.stripe? id with
  | none => s
  | some p =>
    if p.lost then s
    else
      let s := s.mapStripe id fun q => { q with lost := true, dirty := false }
      let s := { s with plc.garbage := s.plc.garbage ++ p.shards.map fun (h : Shard) => (h.tile, h.region, h.slot) }
      let keys := s.asu.keys.filter fun k => k.extents.any fun e => e.stripe == id
      let s := s.loseKeys keys id
      { s with
        cqc.trs := s.cqc.trs.map fun (t : Trs) => if t.readsFrom id then t.loseData else t,
        wte.sessions := s.wte.sessions.map fun (x : Session) => { x with outgoing := x.outgoing.map fun m => m.cutFor id } }

/-- A shard that needs a new slot: its program failed or was refused, its stripe is still in the dirty buffer and its tile is
retired, or it is not yet committed and its tile is isolated (R65, R399, R408). -/
def State.needsSlot (s : State) (p : Stripe) (h : Shard) : Bool :=
  p.sealed && !p.lost && !p.detached && (h.phase == .failed
    || (p.dirty && ((s.tile h.tile).state == 3
      || (h.phase == .dirty && (s.tile h.tile).isolated && p.order.isNone && p.kind != 3))))

/-- Shards of the stripe are bound for a failed tile: they are re-striped before its write commits (R65). -/
def State.restripes (s : State) (id : Nat) : Bool := (s.stripe? id).any fun p => p.shards.any (s.needsSlot p)

/-! ## Shards in the dirty write buffer (R24) -/

/-- The shard of a stripe whose block has an error. -/
def BufFault.shardOf (f : BufFault) (id : Nat) : Option Nat :=
  match f.holds with
  | .shard n i => if n = id then some i else none
  | _ => none

/-- Shards of a stripe with an uncorrectable error in the dirty write buffer. -/
def State.badShards (s : State) (id : Nat) : List Nat :=
  ((s.bfc.faults.filter fun f => f.double && s.inRead f.holds f).filterMap fun f => f.shardOf id).eraseDups

/-- A shard in the dirty write buffer is read. With an uncorrectable error it is rebuilt from the other shards, which are
read too; with more than two shards of the stripe lost the stripe is. -/
def State.readDirtyShard (s : State) (id i : Nat) : State :=
  let bad := s.badShards id
  if !bad.contains i then (s.bufferRead (.shard id i)).2
  else
    let s := (List.range 16).foldl (fun s j => (s.bufferRead (.shard id j)).2) s
    if 2 < bad.length then s.loseStripe id else s

/-- Shards of a stripe in the dirty write buffer are read in turn. -/
def State.readDirty (s : State) (id : Nat) (shards : List Nat) : State :=
  if s.bfc.faults.isEmpty then s else shards.foldl (fun s i => s.readDirtyShard id i) s

/-! ## Charcoal (R86, R88, R418) -/

/-- The module enters Charcoal: writes not past their commit point complete with READ_ONLY. -/
def State.enterCharcoal (s : State) (reason : Nat) : State :=
  if s.plc.charcoal ≠ 0 then s
  else
    let s := { s with plc.charcoal := reason }.raise 0x9C06 (wholeUnit 9) reason 0 0
    let open_ := s.cqc.trs.filter fun t => writeOpcode t.opcode && !t.committed && !t.result
    (open_.foldl (fun s t => (s.mapTrs t.idx fun u => { u with changes := [], stripes := [] }).fail t.idx stReadOnly 0) s).releaseStripes

/-- Enough tiles are open for writes, on the hubs that the hub rule asks for, for a set of 16 (R418, reason 2). -/
def State.setsLeft (s : State) : Bool :=
  (drawTiles (fun _ => 1) s.plc.pointer (ceilDiv 16 (max 1 s.openHubs)) s.openTiles 16 []).isSome

/-- Too few tiles are open for a full stripe, or spare room cannot hold what R417 asks. -/
def State.checkCharcoal (s : State) : State :=
  if !s.setsLeft then s.enterCharcoal 2 else if !s.roomHeld then s.enterCharcoal 3 else s

end Sys2Proof.Machine
end

