-- ==== Sys2Proof/Machine/KeyOps.lean ====
section
/-!
DEFINITION. Reads, writes and locks of keys: GET, HEAD, PUT, PUT_IF, DELETE, PUNCH, APPEND, BATCH, LOCK, UNLOCK and
FLUSH (R48 to R51, R73 to R79, R157 to R171, R373, R380, R382, R388, R389, R402).
-/
namespace Sys2Proof.Machine

/-- The running task of an opcode that has no result yet. -/
def State.running (s : State) (task op : Nat) : Option Trs :=
  (s.trs? task).filter fun t => t.opcode == op && t.state == .running && !t.result

/-! ## Extents of a value (R388) -/

/-- The parts of extents that lie in value bytes `lo` up to `hi`, each cut to the range; `pos` is the value offset of
the first extent. -/
def valueParts (lo hi : Nat) : (pos : Nat) → List Extent → List Extent
  | _, [] => []
  | pos, e :: l =>
    let a := max lo pos
    let b := min hi (pos + e.len)
    let rest := valueParts lo hi (pos + e.len) l
    if a < b then { stripe := e.stripe, off := if e.stripe = 0 then 0 else e.off + (a - pos), len := b - a } :: rest
    else rest

/-- Adjacent holes become one, of at most 0xFFFF_FFFF bytes each (R388, R402). -/
def mergeHoles : List Extent → List Extent
  | [] => []
  | e :: l => match mergeHoles l with
    | [] => [e]
    | x :: r =>
      if e.stripe = 0 ∧ x.stripe = 0 then
        let n := e.len + x.len
        if n ≤ 0xFFFFFFFF then { e with len := n } :: r else { e with len := 0xFFFFFFFF } :: { x with len := n - 0xFFFFFFFF } :: r
      else e :: x :: r

/-- The extents of a value of `len` bytes after a PUNCH of bytes `o` up to `o + n`. -/
def punchExtents (l : List Extent) (len o n : Nat) : List Extent :=
  let hole (m : Nat) : List Extent :=
    if m ≤ 0xFFFFFFFF then [{ stripe := 0, off := 0, len := m }]
    else [{ stripe := 0, off := 0, len := 0xFFFFFFFF }, { stripe := 0, off := 0, len := m - 0xFFFFFFFF }]
  mergeHoles (valueParts 0 o 0 l ++ hole n ++ valueParts (o + n) len 0 l)

/-- The extents after an APPEND: an appended extent that follows the last one directly in one stripe merges (R382). -/
def appendExtents (l more : List Extent) : List Extent :=
  match l.getLast?, more with
  | some e, x :: r =>
    if e.stripe ≠ 0 ∧ e.stripe = x.stripe ∧ x.off = e.off + e.len then l.dropLast ++ { e with len := e.len + x.len } :: r
    else l ++ more
  | _, _ => l ++ more

/-! ## GET and HEAD -/

/-- Bytes of a value read under R49: from `o`, `n` bytes or to the end. -/
def readEnd (len o n : Nat) : Nat := if n = 0 then len else min (o + n) len

/-- Data shards that hold a range of stripe data. -/
def shardsOf (off len : Nat) : List Nat := (List.range ((off + len - 1) / shardBytes + 1)).filter fun i => decide (off / shardBytes ≤ i)

/-- The data units of shard `i` that hold a range of stripe data, `pos` bytes into a response whose fragment 0 has `first`
bytes of data (R270, R372, R389). -/
def unitsOf (off len i pos first : Nat) : ReadPart :=
  let lo := max off (i * shardBytes)
  let hi := min (off + len) ((i + 1) * shardBytes)
  let a := (lo - i * shardBytes) / 4096 * 4096
  { off := a, len := roundUp (hi - i * shardBytes) 4096 - a, around := false, lead := decide (pos + (lo - off) < first) }

/-- Read a range of a shard from the other shards of its stripe instead (R389): the same range of each goes to placement, which
recomputes the lost one and hands it to the buffer; a value's passes through the pipelines of its tenant's page (R346). -/
def State.readAround (s : State) (cls : Cls) (rebuild : Bool) (p : Stripe) (i : Nat) (part : ReadPart) : State :=
  let missing := s.missingShards p
  let others := ((List.range p.shards.length).filter fun j => j != i && !missing.contains j).take p.k
  let s := (others.foldl (fun s j => s.queueRead cls rebuild p j { part with around := true }) s).bump 0x9060 0x0B 1
  if rebuild then s
  else
    let s := s.transfer (plcLane p.id) (bufferLane p.id) cls part.lead noTask part.len
    if p.kind = 3 then s else s.crypt .xtsD p.tenant (bufferLane p.id) (bufferLane p.id) cls part.lead noTask part.len

/-- Read a part of a value from the tiles: directly, or from the other shards where one cannot be read (R389). Dirty
stripes are read from the buffer. `pos` is where the part stands in the response. -/
def State.fetchPart (s : State) (cls : Cls) (first pos : Nat) (e : Extent) : State :=
  match s.stripe? e.stripe with
  | none => s
  | some p =>
    if p.dirty ∨ e.len = 0 then s
    else
      let missing := s.missingShards p
      (shardsOf e.off e.len).foldl (fun s i =>
        let part := unitsOf e.off e.len i pos first
        if missing.contains i ∨ p.degraded then s.readAround cls false p i part else s.queueRead cls false p i part) s

/-- Read the parts of a value in turn. -/
def State.fetchParts (s : State) (cls : Cls) (first : Nat) : (pos : Nat) → List Extent → State
  | _, [] => s
  | pos, e :: l => (s.fetchPart cls first pos e).fetchParts cls first (pos + e.len) l

/-- Bytes of response data that fragment 0 of a GET's response carries (R101, R157). -/
def State.firstUnit (s : State) (t : Trs) : Nat :=
  match s.session? t.session with
  | some x => bestUnit (s.txLimit x t.cls) (x.ipHead + 48 + x.encLen + 48)
  | none => 0

/-- The lookup of a single-key read. -/
def State.find (s : State) (t : Trs) : Found × State :=
  s.lookFor t 0 (keyOf t.opcode t.fields) ((t.classes.head?.map (·.pin)).getD false)

/-- Where the bytes of the parts stand in the response: stripe, offset and length; holes have none. -/
def spansOf : (pos : Nat) → List Extent → List Span
  | _, [] => []
  | pos, e :: l => if e.stripe = 0 then spansOf (pos + e.len) l else { stripe := e.stripe, pos := pos, len := e.len, off := e.off } :: spansOf (pos + e.len) l

/-- What keeps the stripes of a version while its response is sent, whether or not it reads them (R56). -/
def holdSpans (l : List Extent) : List Span := (extentStripes l).map fun id => { stripe := id, pos := 0, len := 0, off := 0 }

/-- The shards of dirty stripes that a GET reads from the dirty write buffer. -/
def State.readDirtyOf (s : State) (t : Trs) (k : KeyRec) : State :=
  let o := field t.fields 32 8
  (valueParts o (readEnd k.length o (field t.fields 40 8)) 0 k.extents).foldl (fun s x => match s.stripe? x.stripe with
    | some p => if p.dirty ∧ x.len ≠ 0 then s.readDirty p.id (shardsOf x.off x.len) else s
    | none => s) s

/-- Answer a GET at its read point (R49, R157, R158). -/
def State.serveGet (s : State) (t : Trs) (k : KeyRec) : State :=
  let o := field t.fields 32 8
  if k.length < o then s.fail t.idx stRange k.length
  else
    let e := readEnd k.length o (field t.fields 40 8)
    let parts := valueParts o e 0 k.extents
    if k.lost ∧ parts.any s.isLost then s.fail t.idx stMediaError 0
    else
      let (cached, s) := s.readCached k o e
      let degraded := !cached && parts.any fun x => match s.stripe? x.stripe with
        | some p => s.degradedRange p x.off x.len
        | none => false
      let s := if cached then s else s.fetchParts t.cls (s.firstUnit t) 0 parts
      let s := if degraded then s.bump 0x9060 0x0A 1 else s
      let s := s.bump 0x7030 0x01 (extentBytes (parts.filter fun x => x.stripe != 0))
      let media := !cached && parts.any fun x => match s.stripe? x.stripe with
        | some p => !p.dirty && x.len != 0
        | none => false
      let s := if cached || media then s.cacheValue k o e else s
      let s := (s.transfer (asuLane t.idx) (plcLane t.idx) t.cls true t.task 64).fetch (plcLane t.idx) (bufferLane t.idx) t.cls true
        t.task 64
      let s := s.mapTrs t.idx fun u => { u with
        degraded := degraded, media := t.media || media, reading := (if cached then [] else spansOf 0 parts) ++ holdSpans k.extents }
      s.finish t.idx stOk 0 (natBytes 8 k.version ++ natBytes 8 k.length ++ natBytes 8 o) (slice k.value o (e - o))

/-- The command waits for a page, which is read from a tile (R279). -/
def State.fromTile (s : State) (task : Nat) : State := s.mapTrs task fun u => { u with media := true }

/-- GET (R49, R54, R157). -/
def execGet (task : Nat) (s : State) : Host.Outcome State Fault Refusal :=
  match s.running task opGet with
  | none => .next s
  | some t => match s.find t with
    | (.paging _ _, s) => .next (s.fromTile task)
    | (f, s) => match f.stored with
      | none => .next (s.fail task stNotFound 0)
      | some k =>
        let s := s.readPages k.mapPages
        match k.mapPages.find? fun n => !s.pageReady n with
        | some n => .next ((s.wantPage n).fromTile task)
        | none =>
          let s := s.readDirtyOf t k
          .next (s.serveGet t ((s.key? k.tenant k.key).getD k))

/-- The lease on a key as a HEAD reports it (R159). -/
def State.leaseState (s : State) (t : Trs) (key : Bytes) : Nat :=
  if (s.ownLease t.tenant key t.session t.admitDev).isSome then 1
  else if (s.foreignLease t.tenant key t.session t.admitDev).isSome then 2 else 0

/-- HEAD (R159). -/
def execHead (task : Nat) (s : State) : Host.Outcome State Fault Refusal :=
  match s.running task opHead with
  | none => .next s
  | some t => match s.find t with
    | (.paging _ _, s) => .next (s.fromTile task)
    | (f, s) => match f.stored with
      | none => .next (s.fail task stNotFound 0)
      | some k => .next (s.finish task stOk 0 (natBytes 8 k.version ++ natBytes 8 k.length ++ natBytes 1 (s.leaseState t k.key) ++ zeros 7) [])

/-! ## Writes -/

/-- A write to a key marked LOST that R162 refuses; R190 gives MEDIA_ERROR to no BATCH, whose APPEND goes on. -/
def State.mediaBad (s : State) (tenant : Nat) (w : Wanted) : Bool :=
  match s.live? tenant w.key with
  | none => false
  | some k =>
    k.lost && (if w.op = opAppend then (match k.extents.getLast? with
        | some e => s.isLost e
        | none => false)
      else if w.op = opPunch then (valueParts w.off (w.off + w.length) 0 k.extents).any fun e => e.stripe != 0 && !s.isLost e
      else false)

/-- Where the payloads of a BATCH begin. -/
def tableSize (count : Nat) (data : Bytes) : Nat :=
  match elementsOf data count 0 with
  | some (_, size) => size
  | none => 0

/-- An element writes payload bytes. -/
def placesBytes (op : Nat) : Bool := op == opPut || op == opPutIf || op == opAppend

/-- FAST placement of an element (R303, R379): a rewrite follows the classifying rule, an APPEND to a key its flag. -/
def State.fastOf (s : State) (tenant : Nat) (w : Wanted) (c : Option Classification) : Bool :=
  match s.live? tenant w.key with
  | some k => if w.op = opAppend ∨ w.op = opPunch then k.fast else (c.map (·.fast)).getD false
  | none => (c.map (·.fast)).getD false

/-- The changes of a write's elements, nothing placed yet; `off` is where the next payload begins. -/
def State.changesOf (s : State) (t : Trs) (data : Bytes) : (i off : Nat) → List Wanted → List Change
  | _, _, [] => []
  | i, off, w :: l =>
    let n := if placesBytes w.op then w.length else 0
    let c := t.classes[i]?
    { tenant := t.tenant, key := w.key, op := w.op, payload := slice data off n, off := w.off, len := w.length,
      pin := (c.map (·.pin)).getD false, fast := s.fastOf t.tenant w c, extents := [], overflow := false }
      :: s.changesOf t data (i + 1) (off + n) l

/-- Every payload byte of the change is placed. -/
def Change.placed (c : Change) : Bool := decide (c.payload.length ≤ extentBytes c.extents)

/-- New extents that placing the payload makes at most. -/
def Change.pieces (c : Change) : Nat := if c.payload.length ≤ shardBytes then 1 else ceilDiv c.payload.length stripeBytes

/-- An APPEND that would take the value above 16,384 extents waits for its repacking (R382). -/
def State.needsRepack (s : State) (c : Change) : Bool :=
  c.op == opAppend && (match s.live? c.tenant c.key with
    | some k => decide (16384 < k.extents.length + c.pieces)
    | none => false)

/-- Bytes of the command's message data that came with fragment 0: what follows them are no lead transfers (R270). -/
def State.leadBytes (s : State) (t : Trs) : Nat :=
  match (s.session? t.session).bind fun x => x.messages.find? fun m => m.reqId == t.reqId with
  | some m => ((m.legs.find? fun l => l.1 == 0).map fun l => l.2.1).getD 0
  | none => 0

/-- The command's value bytes passed XTS-E with GCM-D as they came (R338). -/
def State.cameAsValue (s : State) (t : Trs) : Bool :=
  match s.session? t.session with
  | some x => x.sealed && x.tenant == t.tenant
  | none => true

/-- Value bytes from `done` on, `n` of them, are encrypted under the tenant's page (R338, R345): those of `lead` first bytes are
lead transfers (R270), and those that came through GX have been. -/
def State.encryptValue (s : State) (t : Trs) (lane done n lead : Nat) : State :=
  let s := s.bump 0x7030 0x01 n
  if s.cameAsValue t then s
  else
    let first := min n (lead - done)
    let b := bufferLane lane
    (s.crypt .xtsE t.tenant b b t.cls true t.task first (t.session, t.reqId)).crypt .xtsE t.tenant b b t.cls false t.task
      (n - first) (t.session, t.reqId)

/-- Go on placing changes in order, as far as there is room; `lead` bytes of their payloads came with fragment 0. -/
def State.placeChanges (s : State) (t : Trs) (lead : Nat) : List Change → List Change × State
  | [] => ([], s)
  | c :: l =>
    if c.placed then
      let (m, s) := s.placeChanges t (lead - c.payload.length) l
      (c :: m, s)
    else if s.needsRepack c then (c :: l, s)
    else
      let (e, s) := s.placeMore c.tenant c.payload.length c.fast t.cls c.extents
      let n := extentBytes e - extentBytes c.extents
      let s := s.encryptValue t c.extents.length (extentBytes c.extents) n lead
      let c : Change := { c with extents := e, overflow := c.overflow || (c.fast && s.outsideFast (e.drop c.extents.length)) }
      if c.placed then
        let (m, s) := s.placeChanges t (lead - c.payload.length) l
        (c :: m, s)
      else (c :: l, s)

/-- Work on a write past the checks at the head of its chains: build its changes once, then place payload while the
dirty write buffer has room; a write that FAST placement finds no room for counts once (R379). COMMIT takes it from there. -/
def State.writeStep (s : State) (t : Trs) : State :=
  if !t.headed ∨ t.data.isNone then s
  else
    let ws := s.wanted t
    if t.changes.isEmpty ∧ t.opcode ≠ opBatch ∧ ws.any (s.mediaBad t.tenant) then s.fail t.idx stMediaError 0
    else
      let data := t.data.getD []
      let start := if t.opcode = opBatch then tableSize (field t.fields 26 2) data else 0
      let changes := if t.changes.isEmpty then s.changesOf t data 0 start ws else t.changes
      let outside := changes.any (·.overflow)
      let (changes, s) := s.placeChanges t (s.leadBytes t - start) changes
      let s := if !outside ∧ changes.any (·.overflow) then (s.bump 0x9060 0x0D 1).raise 0x9401 (wholeUnit 9) t.tenant 0 0 else s
      let waits := changes.any fun c => !c.placed && !s.needsRepack c
      let s := if waits ∧ !t.parked then s.bump 0x8010 0x03 1 else s
      s.mapTrs t.idx fun u => { u with
        changes := changes, stripes := extentStripes (changes.flatMap (·.extents)), parked := waits }

/-- A write row: the running task of the opcode takes a step. -/
def State.writeRow (s : State) (task op : Nat) : State :=
  match s.running task op with
  | none => s
  | some t => s.writeStep t

/-- PUT (R48, R160, R373, R380). -/
def execPut (task : Nat) (s : State) : Host.Outcome State Fault Refusal := .next (s.writeRow task opPut)

/-- PUT_IF (R48, R160). -/
def execPutIf (task : Nat) (s : State) : Host.Outcome State Fault Refusal := .next (s.writeRow task opPutIf)

/-- DELETE (R48, R160): it writes no stripe. -/
def execDelete (task : Nat) (s : State) : Host.Outcome State Fault Refusal := .next (s.writeRow task opDelete)

/-- PUNCH (R50, R160, R162): it writes no stripe. -/
def execPunch (task : Nat) (s : State) : Host.Outcome State Fault Refusal := .next (s.writeRow task opPunch)

/-- APPEND (R48, R160, R162, R382). -/
def execAppend (task : Nat) (s : State) : Host.Outcome State Fault Refusal := .next (s.writeRow task opAppend)

/-- BATCH (R62 to R64, R163 to R165). -/
def execBatch (task : Nat) (s : State) : Host.Outcome State Fault Refusal := .next (s.writeRow task opBatch)

/-! ## LOCK, UNLOCK, FLUSH -/

/-- The lease in ms that a request grants (R73). -/
def leaseMs (request : Nat) : Nat := if request = 0 then 5000 else request

/-- Grant or renew a lease from the LOCK's admission on (R75, R77). Another session's lease on the key that has ended stays
listed while a command admitted before its end has yet to see it; a session that has ended holds none (R76). -/
def State.grantLease (s : State) (t : Trs) (key : Bytes) (ms : Nat) : State :=
  let l : Lease := { tenant := t.tenant, key := key, session := t.session, endsAt := t.admitDev + ms * 1000 }
  if (s.session? t.session).isNone then s
  else { s with cqc.leases := s.cqc.leases.filter (fun x => !(x.tenant == t.tenant && x.key == key
    && (x.session == t.session || !s.leaseNeeded x))) ++ [l] }

/-- LOCK (R73 to R79, R170). -/
def execLock (task : Nat) (s : State) : Host.Outcome State Fault Refusal :=
  match s.running task opLock with
  | none => .next s
  | some t =>
    if !t.headed then .next s
    else
      let ms := leaseMs (field t.fields 32 4)
      let s := s.grantLease t (keyOf opLock t.fields) ms
      .next (s.finish task stOk 0 (natBytes 8 (t.admitDev + ms * 1000) ++ natBytes 4 ms ++ zeros 4) [])

/-- UNLOCK (R75, R170). -/
def execUnlock (task : Nat) (s : State) : Host.Outcome State Fault Refusal :=
  match s.running task opUnlock with
  | none => .next s
  | some t =>
    let key := keyOf opUnlock t.fields
    match s.foreignLease t.tenant key t.session t.admitDev with
    | some l => .next (s.fail task stLocked (l.endsAt - s.now))
    | none =>
      if (s.ownLease t.tenant key t.session t.admitDev).isNone then .next (s.fail task stNotFound 0)
      else
        let s := { s with cqc.leases := s.cqc.leases.filter fun x => !(x.tenant == t.tenant && x.key == key && x.session == t.session) }
        .next (s.finish task stOk 0 [] [])

/-- Seal the open packed stripes among some stripes (R381). -/
def State.sealThese (s : State) (ids : List Nat) : State :=
  ids.foldl (fun s id => match s.seal id with
    | some u => u
    | none => s) s

/-- FLUSH (R211, R212): its set is fixed, its packed stripes are sealed, and it waits. -/
def execFlush (task : Nat) (s : State) : Host.Outcome State Fault Refusal :=
  match s.running task opFlush with
  | none => .next s
  | some t =>
    let covered := if t.atOnce then [] else t.covered.filter fun id => !s.onMedium id
    let s := s.sealThese covered
    .next (s.mapTrs task fun u => { u with state := .flushWait, covered := covered })

end Sys2Proof.Machine
end

