-- ==== Sys2Proof/Machine/Commit.lean ====
section
/-!
DEFINITION. The commit of a write, its record in the commit journal, and what the record's elements do to the index,
the map, usage and metering (R43 to R46, R53, R64, R161, R166, R299, R302, R303, R305, R390 to R396, R522, R527).
-/
namespace Sys2Proof.Machine

/-! ## The commit journal (R392 to R394) -/

/-- Bytes of the ring, and of the records not yet trimmed (9008). -/
def journalRing : Nat := 268435456
def State.journalUsed (s : State) : Nat := (s.plc.journal.map (·.bytes)).foldl (· + ·) 0

/-- Bytes of a commit or relocation record for keys of these lengths. -/
def recordBytes (keyLens : List Nat) : Nat := 32 + (keyLens.map fun n => 40 + roundUp n 8).foldl (· + ·) 0

/-- The ring has room for a record of `n` bytes. -/
def State.journalRoom (s : State) (n : Nat) : Bool := decide (s.journalUsed + n ≤ journalRing)

/-- An append of the module's own finds the ring full and waits until trimming frees room; the wait counts once (R392). -/
def State.awaitJournal (s : State) : State :=
  if s.plc.journalWait then s else { s with plc.journalWait := true }.bump 0x9060 0x10 1

/-- Append a record (R392): a transfer to the Journal Store, of the class of its command, or Background/3 for the module's
own work; a command's record is a lead transfer (R33, R270, R274). -/
def State.journalAppend (s : State) (bytes : Nat) (body : JournalBody) (pages : List Nat) (cls : Cls := 3)
    (task : Nat := noTask) : State :=
  let s := s.transfer (plcLane s.plc.journalSeq) jsrLane cls (task != noTask) task bytes
  let r : JournalRec := { seq := s.plc.journalSeq, time := s.now, bytes := bytes, body := body, pages := pages }
  { s with plc.journal := s.plc.journal ++ [r], plc.journalSeq := s.plc.journalSeq + 1,
           plc.ringNext := (s.plc.ringNext + bytes) % journalRing }

/-- The place of an abandoned write is filled by a void record (R394). -/
def State.voidPlaces (s : State) : State :=
  { s with plc.journal := s.plc.journal.map fun (r : JournalRec) =>
      if r.body == .unmarked && !s.cqc.trs.any (fun t => t.place == some r.seq && !t.committed && !t.result)
      then { r with body := .void } else r }

/-- The readable journal: a record without its valid mark ends it (R392). Every record that the module writes has the check of
its bytes, and nothing in the model damages the Journal Store. -/
def State.readable (s : State) : List JournalRec := s.plc.journal.takeWhile fun r => r.body != .unmarked

/-! ## Relocation (R396) -/

/-- Pages a key's entry and map record lie in. -/
def KeyRec.pages (k : KeyRec) : List Nat := k.page :: k.mapPages

/-- Mark pages as changed since they were last written in a metadata stripe (R397). -/
def State.dirtyPages (s : State) (l : List Nat) (version : Nat) : State := l.foldl (fun s n => s.changePage n version) s

/-- The keys whose map records name a stripe. -/
def State.keysOf (s : State) (id : Nat) : List KeyRec := s.asu.keys.filter fun k => k.extents.any fun e => e.stripe == id

/-- Bytes of the relocation records of stripes. -/
def State.relocationBytes (s : State) (ids : List Nat) : Nat :=
  ((ids.flatMap s.keysOf).map fun k => recordBytes [k.key.length]).foldl (· + ·) 0

/-- Map pointer of a stored key (R383); KIND none for another. -/
def State.pointerOf (s : State) (tenant : Nat) (key : Bytes) : Nat := ((s.live? tenant key).map s.mapPointer).getD 0

/-- The element of a relocation record (R393, R396): the version that the key must still hold, and the pointer. -/
def State.relocElem (s : State) (tenant : Nat) (key : Bytes) (version : Nat) : JournalElem :=
  { tenant := tenant, op := 0, old := version, new := 0, len := ((s.live? tenant key).map KeyRec.length).getD 0,
    pointer := s.pointerOf tenant key, key := key }

/-- A relocation of the key, whose map record has changed, is written and counted. -/
def State.writeRelocation (s : State) (tenant : Nat) (key : Bytes) (version : Nat) : State :=
  let pages := ((s.key? tenant key).map KeyRec.pages).getD []
  ((s.journalAppend (recordBytes [key.length]) (.relocation [s.relocElem tenant key version]) pages).dirtyPages pages 0).bump 0x9060 0x05 1

/-- A relocation that names a version of the key is applied while the key holds that version, by `change`; one that a newer write
has superseded is discarded (R396). -/
def State.relocate (s : State) (tenant : Nat) (key : Bytes) (version : Nat) (change : State → State) : State :=
  if (s.live? tenant key).any fun k => k.version == version then (change s).writeRelocation tenant key version
  else s.bump 0x9060 0x06 1

/-- Relocation records for the keys whose map records name a stripe, one element each. -/
def State.relocateStripe (s : State) (id : Nat) : State :=
  (s.keysOf id).foldl (fun s k => s.writeRelocation k.tenant k.key k.version) s

/-! ## What a commit waits for (R395) -/

/-- The write is ready to commit: every payload is placed, on tiles in service (R65), and held as the completion mode asks. -/
def State.held (s : State) (t : Trs) : Bool :=
  t.headed && !t.result && !t.changes.isEmpty && t.changes.all Change.placed
    && (if s.writeBack then !t.stripes.any s.restripes else t.stripes.all s.onMedium)

/-- The pages of a write's changes are read (R24). -/
def State.readChanges (s : State) (t : Trs) : State :=
  (t.changes.zipIdx).foldl (fun s e => s.readPages (s.pagesFor e.1.tenant e.1.key e.1.pin (t.prints.getD e.2 0))) s

/-- A page that must be in the cache before the changes of a write can be made. -/
def State.changeMissing (s : State) (t : Trs) : Option Nat :=
  (t.changes.zipIdx).findSome? fun e => s.missingPage e.1.tenant e.1.key e.1.pin (t.prints.getD e.2 0)

/-! ## One element -/

/-- The value after the change. -/
def Change.valueAfter (c : Change) (old : Option KeyRec) : Bytes :=
  let v := (old.map (·.value)).getD []
  if c.op = opPut ∨ c.op = opPutIf then c.payload
  else if c.op = opAppend then v ++ c.payload
  else if c.op = opPunch then v.take c.off ++ zeros (min c.len (v.length - c.off)) ++ v.drop (c.off + c.len)
  else []

/-- The extents after the change. -/
def Change.extentsAfter (c : Change) (old : Option KeyRec) : List Extent :=
  let l := (old.map (·.extents)).getD []
  if c.op = opPut ∨ c.op = opPutIf then c.extents
  else if c.op = opAppend then appendExtents l c.extents
  else if c.op = opPunch then punchExtents l ((old.map KeyRec.length).getD 0) c.off c.len
  else []

/-- The key is LOST after the change: it stays so (R162), or its record names a lost stripe (R413). -/
def State.lostAfter (s : State) (c : Change) (old : Option KeyRec) : Bool :=
  (old.any fun k => k.lost && c.op == opAppend) || (c.extentsAfter old).any s.isLost

/-- Retention records after the change (R305): earlier states that an open snapshot needs; the one that the change replaces
gets a place in a retention page. -/
def State.olderAfter (s : State) (prior : Option KeyRec) (tenant version : Nat) : List Older × State :=
  match prior with
  | none => ([], s)
  | some k =>
    let l := neededOlder (s.snapshots tenant) version
      ({ version := k.version, length := k.length, present := !k.tombstone, page := 0 } :: k.older)
    if l.any fun o => o.version == k.version then
      let (n, s) := s.seatRetention tenant version
      (l.map fun o => if o.version = k.version then { o with page := n } else o, s)
    else (l, s)

/-- Remove a key's entry from the index (R302). -/
def State.removeEntry (s : State) (k : KeyRec) (version : Nat) : State :=
  { ((s.invalidate k.page k.entryId).changePage k.page version).touchDir k.pinned k.print version with asu.keys := s.asu.keys.filter fun x => !(x.tenant == k.tenant && x.key == k.key) }

/-- Where the entry goes (R303): the tree its rule names, or the main tree where the pinned one has no room. -/
def State.treeFor (s : State) (c : Change) (prior : Option KeyRec) (print : Nat) : Bool × State :=
  if !c.pin then (false, s)
  else if (prior.map (·.pinned)).getD false then (true, s)
  else if s.pinFull c.tenant c.key print then
    (false, (s.bump 0x5030 0x0E 1).raise 0x5402 (wholeUnit 5) c.tenant (s.pinnedBytes / 1048576) 0)
  else (true, s)

/-- Usage of the tenant after an element (R522) and its bytes written (R527). -/
def State.useAfter (s : State) (c : Change) (old : Option KeyRec) : State :=
  let before := (old.map KeyRec.length).getD 0
  let after := (c.valueAfter old).length
  let had := if old.isSome then 1 else 0
  let has := if c.op = opDelete then 0 else 1
  s.mapAccount c.tenant fun a => { a with
    usageBytes := a.usageBytes + after - before,
    usageKeys := a.usageKeys + has - had,
    bytesWritten := if placesBytes c.op then a.bytesWritten + c.payload.length else a.bytesWritten }

/-- Put the new entry of a changed key into its tree, page and map pages. -/
def State.writeEntry (s : State) (c : Change) (prior old : Option KeyRec) (print version : Nat) : State :=
  let lost := s.lostAfter c old
  let s := s.dirtyPages ((prior.map (·.mapPages)).getD []) version
  let (older, s) := s.olderAfter prior c.tenant version
  let (pinned, s) := s.treeFor c prior print
  let stay := (prior.filter fun k => k.pinned == pinned).map fun k => (k.page, k.entryId)
  let s := match prior with
    | some k => if stay.isSome then s else s.removeEntry k version
    | none => s
  let (page, id, s) := match stay with
    | some (p, i) => (p, i, s)
    | none => (s.touchDir pinned print version).seat c.tenant pinned c.key version
  let extents := c.extentsAfter old
  let packed := extents.any fun e => match s.stripe? e.stripe with
    | some p => p.kind == 2
    | none => false
  let r : KeyRec :=
    { tenant := c.tenant, key := c.key, version := version, value := c.valueAfter old, print := print, pinned := pinned,
      fast := c.fast, tombstone := false, lost := lost, packed := packed, extents := extents, pinnedMap := false,
      older := older, page := page, entryId := id, mapPages := [] }
  let s := (s.putKey r).dirtyPages [page] version
  let (maps, pinnedMap, s) := s.seatMap c.tenant version c.pin r.mapSize
  let s := s.mapKey c.tenant c.key fun k => { k with mapPages := maps, pinnedMap := pinnedMap }
  if lost then s.logLost r else s.unlogLost c.tenant c.key

/-- Take a deleted key out of the index, or leave its tombstone for open snapshots (R292, R305, R402). -/
def State.dropEntry (s : State) (prior : Option KeyRec) (tenant version : Nat) : State :=
  match prior with
  | none => s
  | some k =>
    let (older, s) := s.olderAfter prior tenant version
    let s := s.unlogLost tenant k.key
    let s := s.dirtyPages k.pages version
    if older.isEmpty then s.removeEntry k version
    else (s.invalidate k.page k.entryId).mapKey tenant k.key fun r => { r with
      version := version, value := [], tombstone := true, lost := false, packed := false, extents := [], mapPages := [],
      older := older }

/-- Carry out one element under its version: the state, the value length after it and the version it replaced. -/
def State.applyChange (s : State) (c : Change) (print version : Nat) : Nat × Nat × State :=
  let prior := s.key? c.tenant c.key
  let old := s.live? c.tenant c.key
  let s := s.useAfter c old
  let s := if c.op = opDelete then s.dropEntry prior c.tenant version else s.writeEntry c prior old print version
  ((c.valueAfter old).length, (old.map (·.version)).getD 0, s)

/-- The elements in order, under consecutive versions (R64). -/
def State.applyChanges (s : State) (version : Nat) (prints : List Nat) : (i : Nat) → List Change → List (Nat × Nat) × State
  | _, [] => ([], s)
  | i, c :: l =>
    let (len, prev, s) := s.applyChange c (prints.getD i 0) (version + i)
    let (m, s) := s.applyChanges version prints (i + 1) l
    ((len, prev) :: m, s)

/-! ## COMMIT -/

/-- Response fields of a committed write (R161, R166). -/
def writeFields (op version : Nat) (l : List (Nat × Nat)) : Bytes :=
  if op = opBatch then
    natBytes 8 version ++ natBytes 2 l.length ++ zeros 6 ++ (l.flatMap fun r => natBytes 8 r.1)
  else natBytes 8 version ++ natBytes 8 (l.headD (0, 0)).1 ++ natBytes 8 (l.headD (0, 0)).2

/-- Elements of the commit record (R393). -/
def State.commitElems (s : State) (version : Nat) : (i : Nat) → List Change → List (Nat × Nat) → List JournalElem
  | i, c :: l, r :: m =>
    let e : JournalElem :=
      { tenant := c.tenant, op := c.op, old := r.2, new := version + i, len := r.1, pointer := s.pointerOf c.tenant c.key, key := c.key }
    e :: s.commitElems version (i + 1) l m
  | _, _, _ => []

/-- Reserve the place of the commit record in the ring, and draw its versions with it (R394). Until its valid mark is
written the record is not readable; when the write is abandoned, a void record takes the place (R44). -/
def State.reserve (s : State) (t : Trs) : State :=
  let v := s.plc.versionCounter
  let place := s.plc.journalSeq
  let s := { s with plc.versionCounter := v + t.changes.length }
  let s := s.journalAppend (recordBytes (t.changes.map fun c => c.key.length)) .unmarked [] t.cls t.task
  s.mapTrs t.idx fun u => { u with version := v, place := some place }

/-- A write that reserved an earlier place has neither committed nor been abandoned (R394). -/
def State.reservedBefore (s : State) (place : Nat) : Bool :=
  s.cqc.trs.any fun u => !u.committed && !u.result && (match u.place with
    | some p => decide (p < place)
    | none => false)

/-- The commit point (R53, R394): the journal record's valid mark, index and map, usage, result. The pages that the write has
changed, those of splits and of the places that entries and records left among them, carry its versions (R302, R397). -/
def State.commit (s : State) (t : Trs) (place : Nat) : State :=
  let v := t.version
  let (res, s) := s.applyChanges v t.prints 0 t.changes
  let s := s.dropMapPages.dropEmpty
  let changed := (s.asu.pages.filter fun p => decide (v ≤ p.version)).map (·.number)
  let s := { s with plc.lastVersion := v + t.changes.length - 1, plc.journal := s.plc.journal.map fun (r : JournalRec) =>
    if r.seq = place then { r with body := .commit (s.commitElems v 0 t.changes res), pages := changed } else r }
  let s := t.stripes.foldl (fun s id => s.mapStripe id fun p => { p with order := some (p.order.getD place) }) s
  let s := s.mapTrs t.idx fun u => { u with committed := true, changes := [], keysReserved := 0, bytesReserved := 0 }
  (s.finish t.idx stOk 0 (writeFields t.opcode v res) []).releaseStripes

/-- COMMIT (R53, R392 to R395): the write's stripes are held, its pages are at hand and the ring has room: its place is
reserved. Then, once every place reserved before it is filled and the
banks' queues have room for its invalidations (R292) and the index cache for its pages (R23), it commits. -/
def execCommit (task : Nat) (s : State) : Host.Outcome State Fault Refusal :=
  match s.trs? task with
  | none => .next s
  | some t =>
    if t.state ≠ .running ∨ !s.held t then .next s
    else
      let s := s.readChanges t
      match s.changeMissing t with
      | some n => .next (s.wantPage n)
      | none =>
        match t.place with
          | some place =>
            let done := s.commit t place
            if s.reservedBefore place ∨ s.invalidationsFull done ∨ done.framesFull then .next s else .next done
          | none =>
            if 2 ^ 64 - 1 < s.plc.versionCounter + t.changes.length then .next (s.enterCharcoal 4)
            else if !s.journalRoom (recordBytes (t.changes.map fun c => c.key.length)) then
              .next (if t.parked then s else (s.mapTrs task fun u => { u with parked := true }).bump 0x9060 0x10 1)
            else .next (s.reserve t)

/-! ## PAGE_IN_COMPLETE and INDEX_PAGE_REBUILD (R304, R391) -/

/-- The pages' keys go LOST with a map page (R391): every byte counts as lost. -/
def State.loseMapPage (s : State) (n : Nat) : State :=
  let keys := s.mapped n
  let s := keys.foldl (fun s k => s.mapKey k.tenant k.key fun r => { r with
    extents := [{ stripe := lostMap, off := 0, len := r.length }], mapPages := [], packed := false }) s
  ((s.loseKeys keys 0).dropMapPages).releaseStripes

/-- Every open cursor of a tenant ends (R391). -/
def State.endTenantCursors (s : State) (tenant : Nat) : State :=
  { s with pae.cursors := s.pae.cursors.filter fun c => c.tenant != tenant }.pruneOlder

/-- The page comes from its tile into a buffer, in the most urgent class of a command that waits (R33, R274). -/
def State.pageTransfer (s : State) (p : Page) : State :=
  let c := (s.cqc.trs.filter fun t => t.started && !t.result && t.tenant == p.tenant).foldl (fun (c : Cls) t => if t.cls < c then t.cls else c) 3
  match p.home with
  | none => s
  | some (id, i) => match (s.stripe? id).bind fun q => q.shards[i]? with
    | some h => s.transfer (tileLane h.tile) (bufferLane p.number) c (c == 0) noTask 16384
    | none => s

/-- The metadata stripe and data shard that hold the page. -/
def State.homeShard (s : State) (p : Page) : Option (Stripe × Nat × Shard) :=
  p.home.bind fun e => (s.stripe? e.1).bind fun q => (q.shards[e.2]?).map fun h => (q, e.2, h)

/-- A page that cannot be read is handled by its kind (R391). -/
def State.losePage (s : State) (p : Page) : State :=
  if p.kind = 4 then { s with asu.pages := s.asu.pages.filter fun q => q.number != p.number }.endTenantCursors p.tenant
  else if p.kind = 5 then s.loseMapPage p.number
  else s.mapPage p.number fun q => { q with unreadable := true }

/-- The page takes a frame. -/
def State.framePage (s : State) (p : Page) : State :=
  let s := s.mapPage p.number fun q => { q with cached := true, unreadable := false, wanted := false, lru := s.asu.lruClock + 1 }
  ({ s with asu.lruClock := s.asu.lruClock + 1 }.bump 0x5030 0x0C 1).traced 5 0 none p.number

/-- A page that its shard does not give: it is reconstructed from the other shards of its metadata stripe and that shard is
written anew, or, with more than two of them missing, handled by its kind (R391). -/
def State.rebuildPage (s : State) (p : Page) : State :=
  match s.homeShard p with
  | none => s.losePage p
  | some (q, i, h) =>
    let missing := (s.missingShards q).filter (· != i)
    if q.lost ∨ 1 < missing.length then s.losePage p
    else
      let s := ((List.range q.shards.length).filter fun j => j != i && !missing.contains j).foldl (fun s j => s.queueRead 3 true q j h.whole) s
      ((s.mapShard q.id i fun h => { h with phase := .failed }).framePage p).bump 0x9060 0x0F 1

/-- A page is read into a frame; one that its shard does not give is rebuilt, or handled by its kind. While no frame can be freed it
waits (R23, R304, R391). -/
def State.pageIn (s : State) (p : Page) (readable : Bool) : State :=
  let u := (s.pageTransfer p).evict
  if cacheFrames ≤ u.framesTaken then s
  else if readable ∧ !((s.homeShard p).any fun e => e.1.lost || (s.missingShards e.1).contains e.2.1) then u.framePage p
  else u.rebuildPage p

/-- PAGE_IN_COMPLETE (R304, R391): a page that a command waits for arrives, or cannot be read. -/
def execPageInComplete (page : Nat) (readable : Bool) (s : State) : Host.Outcome State Fault Refusal :=
  match s.page? page with
  | none => .next s
  | some p =>
    if !p.wanted ∨ (p.cached ∧ !p.unreadable) then .next s else .next (s.pageIn p readable)

/-- INDEX_PAGE_REBUILD (R391): the page is rebuilt from map records in a frame, and lookups that wait for it go on. While no frame can
be freed it waits (R23). -/
def execIndexPageRebuild (page : Nat) (s : State) : Host.Outcome State Fault Refusal :=
  match s.page? page with
  | none => .next s
  | some p =>
    let u := s.evict
    if p.unreadable ∧ u.framesTaken < cacheFrames then
      .next ((u.mapPage page fun q => { q with unreadable := false, cached := true, wanted := false, clean := false }).bump 0x9060 0x0F 1)
    else .next s

end Sys2Proof.Machine
end

