-- ==== Sys2Proof/Machine/Scan.lean ====
section
/-!
DEFINITION. SCAN pages: the page request, the engine it takes, the walker's steps and an engine's memory errors
(R67 to R72, R167 to R169, R326 to R331).
-/
namespace Sys2Proof.Machine

/-! ## Engines and pages -/

def State.mapEngine (s : State) (n : Nat) (f : Engine → Engine) : State :=
  { s with pae.engines := s.pae.engines.modify n f }

def State.run? (s : State) (task : Nat) : Option ScanRun := s.pae.runs.find? fun r => r.task == task

def State.mapRun (s : State) (task : Nat) (f : ScanRun → ScanRun) : State :=
  { s with pae.runs := s.pae.runs.map fun r => if r.task = task then f r else r }

/-- The engine for a page (R329): the free one that holds the image, else the lowest free one in service. -/
def State.engineFor (s : State) (image : Bytes) : Option Nat :=
  let free := (List.range s.pae.engines.length).filter fun n => match s.pae.engines[n]? with
    | some e => e.state == 0
    | none => false
  (free.find? fun n => match s.pae.engines[n]? with
    | some e => e.image == some image
    | none => false) <|> free.head?

/-- Class and admission order of a page request, for the wait of R329. -/
def State.pageRank (s : State) (task : Nat) : Nat × Nat :=
  match s.trs? task with
  | some t => (t.cls.val, t.order)
  | none => (4, 0)

/-- A page is the first of those that wait for an engine (R329). -/
def State.firstWaiting (s : State) (task : Nat) : Bool :=
  let mine := s.pageRank task
  s.pae.runs.all fun r => r.engine.isSome || r.done || r.task == task
    || (let o := s.pageRank r.task
        decide (mine.1 < o.1) || (mine.1 == o.1 && decide (mine.2 < o.2)))

/-- Give a waiting page an engine: loaded unless it holds the image; a page moved from another engine resumes. -/
def State.takeEngine (s : State) (r : ScanRun) : State :=
  if r.engine.isSome ∨ !s.firstWaiting r.task then s
  else match s.engineFor r.image with
    | none => s
    | some n =>
      let holds := match s.pae.engines[n]? with
        | some e => e.image == some r.image
        | none => false
      let s := if holds then s.bump 0x6010 0x08 1
        else (s.bump 0x6010 0x07 1).transfer (bufferLane r.task) (engineLane n) (Fin.ofNat 4 (s.pageRank r.task).1) false noTask r.image.length
      let s := if r.loaded then s.bump 0x6010 0x0A 1 else s
      let s := s.mapEngine n fun e => { e with state := 1, image := some r.image, task := some r.task }
      s.mapRun r.task fun q => { q with engine := some n, loaded := true }

/-- The engine of a page is released with its image (R329). -/
def State.freeEngine (s : State) (r : ScanRun) : State :=
  match r.engine with
  | some n => s.mapEngine n fun e => if e.task = some r.task then { e with state := 0, task := none } else e
  | none => s

/-! ## SCAN -/

/-- A page request that is refused; a first one gives its cursor place and its image room back. -/
def State.refuseScan (s : State) (t : Trs) (status : Nat) (fields : Bytes) : State :=
  let s := if field t.fields 32 8 = 0 then s.dropCursor t.cursor else s
  s.finish t.idx status 0 fields []

/-- Keys that a page asks for (R167). -/
def pageKeysWanted (n : Nat) : Nat := if n = 0 then 1024 else n

/-- Start the walk of a page. -/
def State.startPage (s : State) (t : Trs) (c : Cursor) : State :=
  let repeated := field t.fields 32 8
  let r : ScanRun :=
    { task := t.idx, cursor := c.id, tenant := t.tenant, snapshot := c.snapshot, image := c.image, engine := none,
      loaded := false, position := if repeated = 0 then none else if c.value = repeated then c.position else c.prevPosition,
      maxKeys := pageKeysWanted (field t.fields 26 2), listed := [], done := false, more := false }
  let s := s.mapTrs t.idx fun u => { u with cls := maxCls u.admitCls c.cls, state := .running }
  ({ s with pae.runs := s.pae.runs ++ [r] }).takeEngine r

/-- The first page: image checks, classification of the prefix, the place it found at admission, and the cursor's class
(R71, R324, R326, R330). -/
def State.firstPage (s : State) (t : Trs) (image : Bytes) : State :=
  match imageFault image with
  | some o => s.refuseScan t stBadRequest (errorFields subImage 0xFFFF (inData o))
  | none =>
    let (c, s) := s.classifyScan t.tenant (imgPrefix image) t.task
    let s := s.mapTrs t.idx fun u => { u with classes := [c] }
    if !c.admitted then s.refuseScan t stAuthFailed (plainError 0)
    else if t.cursor = 0 then s.refuseScan t stRetryLater (plainError 0)
    else
      let s := { s with pae.cursors := s.pae.cursors.map fun (k : Cursor) =>
        if k.id = t.cursor then { k with image := image, cls := c.cls } else k }
      match s.pae.cursors.find? fun k => k.id == t.cursor with
      | some k => s.startPage t k
      | none => s.finish t.idx stBadRequest 0 (errorFields subCursor 0xFFFF 32) []

/-- The SCAN of a task that has started and is not classified. -/
def State.classifyingScan (s : State) (task : Nat) : Option Trs :=
  (s.trs? task).filter fun t => t.opcode == opScan && t.state == .classifying && !t.result

/-- SCAN (R167, R168, R326): classification of a page request that has started. -/
def execScan (task : Nat) (s : State) : Host.Outcome State Fault Refusal :=
  match s.classifyingScan task with
  | none => .next s
  | some t =>
    if !s.tenantReady t.tenant then .next ((s.refuseScan t stAuthFailed (plainError 0)).traceStart t)
    else if field t.fields 32 8 = 0 then
      match t.data with
      | some b => .next ((s.firstPage t b).traceStart t)
      | none => .next s
    else match s.pae.cursors.find? fun k => k.id == t.cursor with
      | some k => .next ((s.startPage t k).traceStart t)
      | none => .next ((s.finish task stBadRequest 0 (errorFields subCursor 0xFFFF 32) []).traceStart t)

/-! ## The walker (R327, R328) -/

/-- The key sorts above every key that begins with the prefix. -/
def abovePrefix (pre key : Bytes) : Bool := keyLt pre key && key.take pre.length != pre

/-- Entries of the tenant's two trees from a position on, in key order. -/
def State.scanEntries (s : State) (r : ScanRun) : List KeyRec :=
  (s.asu.keys.filter fun k => k.tenant == r.tenant
    && !keyLt k.key (imgPrefix r.image)
    && (match r.position with
      | some p => keyLt p k.key
      | none => true))

/-- What a step does with the entries it reads: matches in order, the last key examined, entries at stage 3. -/
structure WalkStep where
  s        : State
  listed   : List (Nat × Nat × Bytes)
  position : Option Bytes
  runs     : Nat
  full     : Bool
  ended    : Bool
  deriving DecidableEq, Repr

/-- Stages 1 to 4 of R327 for one entry. -/
def WalkStep.entry (w : WalkStep) (r : ScanRun) (k : KeyRec) : WalkStep :=
  let w : WalkStep := { w with s := w.s.bump 0x6010 0x02 1, position := some k.key }
  match k.at r.snapshot with
  | none => w
  | some (version, len) =>
    if !imgCandidate r.image k.key then w
    else
      let s := (w.s.bump 0x6010 0x03 1).bump 0x6010 0x06 (imageCycles r.image k.key)
      let w : WalkStep := { w with s := s, runs := w.runs + 1 }
      if !imageMatches r.image k.key then w
      else
        let s := match s.trs? r.task with
          | some t => s.runPredicates t t.cls [k.key]
          | none => s
        let (c, s) := s.classify r.tenant k.key ((s.trs? r.task).map Trs.task)
        if !c.admitted then { w with s := s.bump 0x6010 0x05 1 }
        else
          let listed := w.listed ++ [(version, len, k.key)]
          { w with s := s.bump 0x6010 0x04 1, listed := listed, full := decide (r.maxKeys ≤ r.listed.length + listed.length) }

/-- Read entries until the step or the page ends. -/
def WalkStep.walk (r : ScanRun) : WalkStep → List KeyRec → WalkStep
  | w, [] => w
  | w, k :: l =>
    if abovePrefix (imgPrefix r.image) k.key then { w with ended := true }
    else
      let w := w.entry r k
      if w.full ∨ 64 ≤ w.runs then w else WalkStep.walk r w l

/-- Bytes of the key entries of a page (R169). -/
def pageBytes (l : List (Nat × Nat × Bytes)) : Bytes :=
  l.flatMap fun e => natBytes 8 e.1 ++ natBytes 8 e.2.1 ++ natBytes 2 e.2.2.length ++ e.2.2

/-- A page is complete (R168, R169): its response, the cursor's new value or its end, and the engine. -/
def State.finishPage (s : State) (t : Trs) (r : ScanRun) : State :=
  let s := (s.freeEngine r).bump 0x6010 0x01 1
  let s := s.mapRun t.idx fun q => { q with done := true }
  let answer (s : State) (value flags : Nat) : State :=
    s.finish t.idx stOk flags (natBytes 8 r.snapshot ++ natBytes 8 value ++ natBytes 2 r.listed.length ++ zeros 6) (pageBytes r.listed)
  if !r.more then (answer s 0 0).dropCursor r.cursor
  else
    let asked := field t.fields 32 8
    let kept : Option Cursor := s.pae.cursors.find? fun c => c.id == r.cursor && c.position == r.position && c.value != asked && c.value != 0
    match kept with
    | some c => answer s c.value flContinues
    | none =>
      let v := s.pae.nextCursor
      let s := { s with pae.nextCursor := v + 1, pae.cursors := s.pae.cursors.map fun (c : Cursor) =>
        if c.id = r.cursor then { c with value := v, position := r.position } else c }
      answer s v flContinues

/-- One step of the walker over the entries at hand: it descends both trees through their interior pages (R328), reads the pages
(R24) and works on what they hold. -/
def State.walkStep (s : State) (t : Trs) (r : ScanRun) : State :=
  let l := s.scanEntries r
  let first (pinned : Bool) : Option Nat := (l.find? fun k => k.pinned == pinned).map (·.page)
  let pages := (first false).toList ++ (first true).toList
  let chunk := l.takeWhile fun k => pages.contains k.page
  let retained := (chunk.filter fun k => decide (r.snapshot < k.version)).flatMap fun k => k.older.map (·.page)
  let path := (first false).toList.flatMap (s.above r.tenant false) ++ (first true).toList.flatMap (s.above r.tenant true)
  let s := s.readPages (path ++ pages ++ retained)
  match (path ++ pages ++ retained).find? fun n => !s.pageReady n with
  | some n => s.wantPage n
  | none =>
    let w := WalkStep.walk r { s := s, listed := [], position := r.position, runs := 0, full := false, ended := false } chunk
    let ended := w.ended || (!w.full && (l.all fun k => (chunk.contains k) && (w.position == some k.key || (match w.position with
      | some p => keyLt k.key p
      | none => false))))
    let r : ScanRun := { r with listed := r.listed ++ w.listed, position := w.position, done := w.full || ended, more := w.full }
    let s := w.s.mapRun r.task fun _ => { r with done := false }
    if r.done then s.finishPage t r else s

/-- SCAN_STEP (R327, R328): a step of the walker, once the page has an engine. -/
def execScanStep (task : Nat) (s : State) : Host.Outcome State Fault Refusal :=
  match s.running task opScan, s.run? task with
  | some t, some r =>
    if r.done then .next s
    else
      let s := s.takeEngine r
      match s.run? task with
      | some q => match q.engine with
        | some e => .next (((s.indexRead t).transfer (asuLane t.idx) (engineLane e) t.cls false t.task 640).walkStep t q)
        | none => .next s
      | none => .next s
  | _, _ => .next s

/-- The engine loads the image of its page again and runs the current key again (R331). -/
def State.reloadImage (s : State) (engine : Nat) : State :=
  match s.pae.runs.find? fun r => r.engine == some engine && !r.done with
  | none => s
  | some r =>
    let s := (s.bump 0x6010 0x07 1).transfer (bufferLane r.task) (engineLane engine) (Fin.ofNat 4 (s.pageRank r.task).1) false noTask
      r.image.length
    match (s.scanEntries r).find? fun k => imgCandidate r.image k.key with
    | some k => s.bump 0x6010 0x06 (imageCycles r.image k.key)
    | none => s

/-- IMAGE_MEMORY_ERROR (R331, R597): recorded; the engine reloads its image and runs the key again, and is isolated: its page resumes
elsewhere. -/
def execImageMemoryError (engine address : Nat) (s : State) : Host.Outcome State Fault Refusal :=
  if 8 ≤ engine then .fault .noSuchUnit
  else if !((s.pae.engines.getD engine { state := 3, image := none, task := none }).inService) then .next s
  else
    let s := (s.bump 0x6010 0x09 1).raise 0x6801 (engineUnit engine).word address 0 0
    .next ((s.reloadImage engine).isolate (engineUnit engine) 1)

end Sys2Proof.Machine
end

