-- ==== Sys2Proof/Machine/Cipher.lean ====
section
/-!
DEFINITION. The cipher complex: key pages and their destruction, the random source, the pipelines, the public-key
engine and the answers of its jobs (R126 to R131, R177, R178, R337 to R370).
-/
namespace Sys2Proof.Machine

/-! ## Key pages (R357 to R363) -/

/-- A page with no key. -/
def KeyPage.empty (n : Nat) : KeyPage :=
  { page := n, xts1 := none, xts2 := none, access := none, copy1 := none, copy2 := none, copyA := none, transit := none,
    copyT := none, state := 0, before := 0, loadedAt := 0, loads := 0 }

def State.keyPage (s : State) (n : Nat) : KeyPage := (s.cpx.pages.find? fun p => p.page == n).getD (.empty n)

/-- Put a page back, recording a change of PAGE_STATE (R358). -/
def State.setPage (s : State) (p : KeyPage) : State :=
  let old := (s.keyPage p.page).state
  let s := { s with cpx.pages := p :: s.cpx.pages.filter fun q => q.page != p.page }
  if old = p.state then s else s.raise 0x7004 (wholeUnit 7) p.page old p.state

/-- Every key the page needs is there: page 0 has ACCESS_KEY only (R358, R362). -/
def KeyPage.complete (p : KeyPage) : Bool := p.access.isSome && (p.page == 0 || (p.xts1.isSome && p.xts2.isSome))

/-- Every key with a stored copy has been written back (R361). -/
def KeyPage.restored (p : KeyPage) : Bool :=
  (p.copy1.isNone || p.xts1.isSome) && (p.copy2.isNone || p.xts2.isSome) && (p.copyA.isNone || p.access.isSome)

/-- The nonce with which a stored copy is wrapped: the spec does not give it (R360, log 129). -/
def wrapNonce (page sub now : Nat) : Nat := Config.freeValue 26 (now * 4096 + 4 * page + sub) % 2 ^ 96

/-- The device wrap key as bytes. -/
def wrapKeyBytes : Bytes := natBytes 32 Config.wrapKey

/-- A key as its stored copy holds it: wrapped under the device wrap key with AES-256-GCM (R360). -/
def storedKey (nonce : Nat) (k : Bytes) : StoredKey :=
  { nonce := nonce, body := gcmStream wrapKeyBytes (natBytes 12 nonce) k,
    tag := natBytes 16 (gcmTag wrapKeyBytes (natBytes 12 nonce) [] k) }

/-- The key that a stored copy unwraps to; none where its tag is wrong. -/
def StoredKey.unwrap (c : StoredKey) : Option Bytes := gcmOpen wrapKeyBytes (natBytes 12 c.nonce) [] c.body c.tag

/-- A key of the page by its subindex: working key, and the key that its stored copy unwraps to. -/
def KeyPage.key (p : KeyPage) (sub : Nat) : Option Bytes × Option Bytes :=
  match sub with
  | 1 => (p.xts1, p.copy1.bind StoredKey.unwrap)
  | 2 => (p.xts2, p.copy2.bind StoredKey.unwrap)
  | _ => (p.access, p.copyA.bind StoredKey.unwrap)

/-- The page with a key and its stored copy written in the tick `now`. -/
def KeyPage.putKey (p : KeyPage) (sub : Nat) (k : Bytes) (now : Nat) : KeyPage :=
  let c := storedKey (wrapNonce p.page sub now) k
  match sub with
  | 1 => { p with xts1 := some k, copy1 := some c }
  | 2 => { p with xts2 := some k, copy2 := some c }
  | _ => { p with access := some k, copyA := some c }

/-- The pipelines bound to a page lose its key material, the page's keys being destroyed (R340, R360). -/
def State.clearRegisters (s : State) (page : Nat) : State :=
  { s with cpx.pipelines := s.cpx.pipelines.map fun (p : Pipeline) => if p.binding = page then { p with keys := [] } else p }

/-- The page becomes LOADED when all its keys are there and a transit key can be drawn; otherwise PARTIAL, or RESTORE
until its stored copies have been written back (R358, R361). Page 0 has no transit key. -/
def State.settlePage (s : State) (p : KeyPage) : State :=
  if p.complete ∧ (p.page = 0 ∨ s.cpx.rngState = 0) ∧ (p.state ≠ 3 ∨ p.restored) then
    let loads := if p.state = 3 ∧ p.before = 2 then p.loads else min (p.loads + 1) (maxU 32)
    if p.page = 0 then s.setPage { p with state := 2, transit := none, loadedAt := s.now, loads := loads }
    else
      let (k, s) := s.takeDraw 256
      (s.checkValue p.page).setPage { p with
        state := 2, transit := some k, copyT := some (storedKey (wrapNonce p.page 0 s.now) (natBytes 32 k)), loadedAt := s.now,
        loads := loads }
  else if p.state = 3 ∧ (!p.restored ∨ p.complete) then s.setPage p
  else s.setPage { p with state := 1 }

/-- The write of a key (R359), whose stored copy and check value are set. The locks of a LOADED page and of a key already present
come before it. -/
def keyWriteEffect : WriteEffect := fun _ index sub v s =>
  let p := s.keyPage (index - 0x7400)
  let k := window (valBytes v) 32 0 32
  if k.all (· == 0) then (s, stRange)
  else if (sub = 2 ∧ p.xts1 = some k) ∨ (sub = 1 ∧ p.xts2 = some k) then (s, stRange)
  else if p.state = 3 ∧ (p.key sub).2.any (fun c => c != k) then (s, stRange)
  else ((s.checkValue p.page).settlePage (p.putKey sub k s.now), stOk)

/-- KEY_PAGE_WRITE (R359): a key page is 0 to 1023, a key entry 1 to 3. -/
def execKeyPageWrite (page sub : Nat) (r : Requester) (v : OdVal) (s : State) : Host.Outcome State Fault Refusal :=
  if 1024 ≤ page ∨ sub = 0 ∨ 3 < sub then .fault .noSuchUnit else .next (s.ownWrite keyWriteEffect r (0x7400 + page) sub v)

/-- Destroy a page's working copy and stored copy (R360). -/
def State.clearPage (s : State) (n : Nat) : State :=
  let p := s.keyPage n
  (s.clearRegisters n).setPage { KeyPage.empty n with loadedAt := p.loadedAt, loads := p.loads }

/-- Destroy a page, and end the sessions of its tenant (R360). -/
def State.destroyPage (s : State) (n : Nat) : State := (s.clearPage n).endSessions fun x => x.tenant == n

/-- Destroy pages 1 to 1023. -/
def State.destroyTenantPages (s : State) : State :=
  ((s.cpx.pages.filter fun p => p.page != 0).map (·.page)).foldl (fun s n => s.clearPage n) s

/-- The write of ADMIN_PAGE_CLEAR (R360, R362); the entry goes on reading 0. -/
def adminClearEffect : WriteEffect := fun _ _ _ _ s => (s.destroyPage 0, stOk)

def execAdminPageClear (r : Requester) (v : OdVal) (s : State) : Host.Outcome State Fault Refusal :=
  .next (s.ownWrite adminClearEffect r 0x7002 0 v)

/-! ## Random source (R353) -/

/-- RNG_HEALTH_FAIL (R353): generation stops and both sources run the start-up test; a failure in that test leaves the
source stopped until a start-up test passes. Source 0 or 1, test 1 repetition count or 2 adaptive proportion. -/
def execRngHealthFail (source test : Nat) (s : State) : Host.Outcome State Fault Refusal :=
  if 2 ≤ source ∨ test = 0 ∨ 3 ≤ test then .fault .noSuchUnit
  else
    let s := { s with cpx.rngState := if s.cpx.rngState = 0 then 1 else 2 }
    .next ((s.bump 0x7030 0x0C 1).raise 0x7803 (wholeUnit 7) source test 0)

/-- RNG_STARTUP_TEST_DONE (R353): generation resumes, and pages that waited for a transit key become LOADED. -/
def execRngStartupTestDone (s : State) : Host.Outcome State Fault Refusal :=
  if s.cpx.rngState = 0 then .next s
  else
    let s := { s with cpx.rngState := 0 }
    let wait := s.cpx.pages.filter fun p => p.page != 0 && (p.state == 1 || (p.state == 3 && p.restored)) && p.complete
    .next (wait.foldl (fun s p => s.settlePage p) s)

/-- RNG_RESEED (R353): after 65,536 requests or 1 s. -/
def execRngReseed (s : State) : Host.Outcome State Fault Refusal :=
  if s.cpx.rngState = 0 ∧ (65536 ≤ s.cpx.requests ∨ s.cpx.reseedAt + 1000000 ≤ s.now) then
    .next ({ s with cpx.requests := 0, cpx.reseedAt := s.now }.bump 0x7030 0x0B 1)
  else .next s

/-- A draw of `bits` bits, redrawn while it does not satisfy `ok` (R354); none after `fuel` draws that do not. -/
def State.drawUntil (s : State) (bits : Nat) (ok : Nat → Bool) : (fuel : Nat) → Option Nat × State
  | 0 => (none, s)
  | f + 1 =>
    let (n, s') := s.takeDraw bits
    if ok n then (some n, s') else s'.drawUntil bits ok f

/-! ## Pipelines (R340 to R342) -/

/-- The transfer whose block carries page `m` is the one that the pipeline refuses, ahead of the others at its input (R340). -/
def State.putFirst (s : State) (pipeline m : Nat) : State :=
  { s with cpx.pipelines := s.cpx.pipelines.modify pipeline fun p =>
      { p with input := (p.input.filter fun x => x.job.page == m) ++ p.input.filter fun x => x.job.page != m } }

/-- PIPELINE_PARITY (R340, R342): a parity error, or a block of another page, in a pipeline in service. A transfer is redone
where one has blocks there. -/
def execPipelineParity (pipeline stage : Nat) (mismatchPage : Option Nat) (s : State) : Host.Outcome State Fault Refusal :=
  if 16 ≤ pipeline ∨ 16 ≤ stage then .fault .noSuchUnit
  else
    let p := s.pipeline pipeline
    if 2 ≤ p.state ∨ mismatchPage = some p.binding then .next s
    else
      let s := match mismatchPage with
        | some m => ((s.bump 0x7030 0x07 1).raise 0x7802 (unitId 7 pipeline) p.binding m 0).putFirst pipeline m
        | none => (s.bump 0x7030 0x06 1).raise 0x7801 (unitId 7 pipeline) stage p.binding 0
      .next ((s.bump 0x7030 0x08 (if p.input.isEmpty then 0 else 1)).isolate (pipelineUnit pipeline) 1)

/-- PIPELINE_REBIND (R340, R341): a pipeline in service with no block in it is cleared and bound to another page, and the
transfers that waited for one go on. -/
def execPipelineRebind (pipeline page : Nat) (s : State) : Host.Outcome State Fault Refusal :=
  if 16 ≤ pipeline ∨ 1024 < page then .fault .noSuchUnit
  else
    if (s.pipeline pipeline).binding = page ∨ !s.rebindable pipeline then .next s
    else .next ((s.bind pipeline page).dealWaiting)

/-! ## Jobs of the public-key engine (R364 to R368) -/

/-- Rank of a job among those waiting (R365). -/
def PkKind.rank : PkKind → Nat
  | .handshakeOpen _ | .handshakeConfirm _ => 0
  | .attest _ => 1
  | .dictionary .. => 2

/-- The job needs random bits (R353). -/
def PkKind.random : PkKind → Bool
  | .handshakeOpen _ | .attest _ => true
  | _ => false

/-- Fixed time of a job in µs (R364). -/
def PkKind.time : PkKind → Nat
  | .handshakeOpen _ | .handshakeConfirm _ => 34
  | .attest _ => 82
  | .dictionary job .. => match numAt job 0 1 with
    | 1 => 34
    | 2 => 78
    | 3 => 68
    | _ => 156

/-- A job joins the line. -/
def State.queueJob (s : State) (k : PkKind) : State :=
  { s with cpx.pkWaiting := s.cpx.pkWaiting ++ [{ kind := k, order := s.cpx.pkOrder }], cpx.pkOrder := s.cpx.pkOrder + 1 }

/-- Jobs running on the ladder units. -/
def State.runningJobs (s : State) : List PkJob := s.cpx.ladders.filterMap fun l => l.map (·.1)

/-- The job may start now: random bits are there, and ATTESTs and dictionary jobs run one at a time. -/
def State.jobReady (s : State) (j : PkJob) : Bool :=
  !(j.kind.random && s.cpx.rngState != 0)
    && (j.kind.rank == 0 || s.runningJobs.all fun r => r.kind.rank != j.kind.rank)

/-- The waiting job that starts next: lowest rank, then first come (R365). -/
def State.nextJob (s : State) : Option PkJob :=
  (s.cpx.pkWaiting.filter s.jobReady).foldl (fun (b : Option PkJob) j => match b with
    | none => some j
    | some c => if j.kind.rank < c.kind.rank then some j else some c) none

/-- A handshake that has waited longer than 100 ms. -/
def PkKind.stale (now : Nat) : PkKind → Bool
  | .handshakeOpen h => decide (h.at_ + 100000 < now)
  | _ => false

/-- A handshake that has waited longer than 100 ms is discarded, in the line or, while no random bits are drawn, on its ladder
unit (R132, R353). -/
def State.dropStaleJobs (s : State) : State :=
  { s with cpx.pkWaiting := s.cpx.pkWaiting.filter fun (j : PkJob) => !j.kind.stale s.now,
           cpx.ladders := s.cpx.ladders.map fun l => l.filter fun e => !(s.cpx.rngState != 0 && e.1.kind.stale s.now) }

/-- PK_JOB_START (R365): a free ladder unit takes the next job. -/
def execPkJobStart (s : State) : Host.Outcome State Fault Refusal :=
  let s := s.dropStaleJobs
  match s.cpx.ladders.findIdx? (·.isNone), s.nextJob with
  | some i, some j =>
    .next { s with cpx.ladders := s.cpx.ladders.set i (some (j, s.now)),
                   cpx.pkWaiting := s.cpx.pkWaiting.filter fun k => k.order != j.order }
  | _, _ => .next s

/-! ### Dictionary jobs (R366, R368) -/

/-- What a job ends with: sub-code and failing offset of a refusal, or verified and a result point. -/
inductive PkEnd where
  | refused (sub at_ : Nat)
  | done (verified : Bool) (point : Bytes)
  deriving DecidableEq, Repr

/-- A dictionary job carried out. -/
def pkRun (job : Bytes) : PkEnd :=
  let op := numAt job 0 1
  let c := if op = 1 ∨ op = 3 then p256 else p384
  let k := numAt job 8 48
  let t := numAt job 56 48
  let q := window job 256 104 (2 * c.size + 1)
  let scalars := if op ≤ 2 then [k] else [k, t]
  match c.scalarFault scalars, c.keyFault q with
  | some f, _ =>
    let bad : Nat → Bool := fun x => if f = subPkZero then x == 0 else decide (c.n ≤ x)
    .refused f (if bad k then 8 else 56)
  | none, some f => .refused f 104
  | none, none =>
    if op ≤ 2 then match c.mul k (c.decode q) with
      | none => .refused subPkInfinity 104
      | some r => .done false (c.encode (some r))
    else .done (c.verify (c.decode q) (numAt job 208 c.size) k t) []

/-- The bytes of a job with its reserved bytes as zeros (R11, R368). -/
def pkJobImage (b : Bytes) : Bytes :=
  let op := numAt b 0 1
  let n := if op = 1 ∨ op = 3 then 32 else 48
  let part (off len : Nat) : Bytes := window b 256 off len
  part 0 1 ++ zeros 7 ++ part 8 48 ++ (if op ≤ 2 then zeros 48 else part 56 48) ++ part 104 (2 * n + 1) ++ zeros (103 - 2 * n)
    ++ (if op ≤ 2 then zeros 48 else part 208 n ++ zeros (48 - n))

/-- PK_RESULT (R368). -/
def pkResult (seq : Nat) : PkEnd → Bytes
  | .refused sub _ => natBytes 1 stBadRequest ++ zeros 1 ++ natBytes 2 sub ++ zeros 4 ++ natBytes 8 seq
  | .done v p => zeros 4 ++ natBytes 1 (if v then 1 else 0) ++ zeros 3 ++ natBytes 8 seq ++ p

/-- The end of a dictionary job: PK_RESULT, and the answer to the OD_WRITE that waits for it. -/
def State.endDictJob (s : State) (job : Bytes) (tick : Nat) (who : JobAnswer) : State :=
  let e := pkRun job
  let n := s.cpx.jobSeq + 1
  let s := ({ s with cpx.jobSeq := n }).putBytes 0x7021 0 (pkResult n e)
  let (s, st, fields) := match e with
    | .refused sub at_ => (s.bump 0x7030 0x0A 1, stBadRequest, errorFields sub 0xFFFF (inData at_))
    | .done .. => (s, stOk, natBytes 8 tick)
  match who with
  | .nobody => s
  | .session tenant => s.emit (.dictAnswer (.session tenant) 0x7020 0 st (numAt fields 0 2) tick)
  | .task k => match s.trs? (k % 65536) with
    | some t => if t.task = k ∧ !t.result then s.finish t.idx st 0 fields [] else s
    | none => s

/-- Who is answered at the end of the job that a write queues (R368): the OD_WRITE of a session, however it came. -/
def jobAnswer (r : Requester) (task : Option Nat) : JobAnswer :=
  match task, r with
  | some k, _ => .task k
  | none, .session tenant => .session tenant
  | none, _ => .nobody

/-- The write of PK_JOB (R368): an operation of the table queues a job; any other answers BAD_REQUEST. -/
def pkJobEffect (task : Option Nat) : WriteEffect := fun r index sub v s =>
  let b := pkJobImage (valBytes v)
  if numAt b 0 1 = 0 ∨ 4 < numAt b 0 1 then (s, stBadRequest)
  else ((s.queueJob (.dictionary b s.now (jobAnswer r task))).put index sub (.bytes b), stOk)

/-- The row of one operation of PK_JOB: the write of a session that is accepted is answered when the job ends (R368). -/
def pkRow (op : Nat) (r : Requester) (v : OdVal) (s : State) : State :=
  if numAt (valBytes v) 0 1 ≠ op then s
  else match s.takeWrite (pkJobEffect none) r 0x7020 0 v with
    | (s', some a) =>
      if a.1 = stOk ∧ jobAnswer r none ≠ .nobody then s' else s'.emit (.dictAnswer r 0x7020 0 a.1 a.2 s.now)
    | (s', none) => s'

/-- PK_MULTIPLY_P256 (R368). -/
def execPkMultiplyP256 (r : Requester) (v : OdVal) (s : State) : Host.Outcome State Fault Refusal := .next (pkRow 1 r v s)

/-- PK_MULTIPLY_P384 (R368). -/
def execPkMultiplyP384 (r : Requester) (v : OdVal) (s : State) : Host.Outcome State Fault Refusal := .next (pkRow 2 r v s)

/-- PK_VERIFY_P256 (R368). -/
def execPkVerifyP256 (r : Requester) (v : OdVal) (s : State) : Host.Outcome State Fault Refusal := .next (pkRow 3 r v s)

/-- PK_VERIFY_P384 (R368). -/
def execPkVerifyP384 (r : Requester) (v : OdVal) (s : State) : Host.Outcome State Fault Refusal := .next (pkRow 4 r v s)

/-! ### ATTEST (R177, R178) -/

/-- The slot that runs, and the version of its image (F006). -/
def Msv.runningSlot (m : Msv) : Slot := if m.slot2.state = 3 then m.slot2 else m.slot1
def State.fwVersion (s : State) : Nat := s.msv.runningSlot.version

/-- FW_FLOOR_EFFECTIVE (R619). -/
def State.fwFloor (s : State) : Nat :=
  (List.range 32).foldl (fun (m : Nat) i => if s.isWritten1 0xE305 (i + 1) then max m (s.num 0xE305 (i + 1)) else m) 0

/-- Power-state code of R188. -/
def State.powerCode (s : State) : Nat :=
  match s.pch.power with
  | .active => 0
  | .ready => 1
  | _ => 2

/-- Bytes 0 to 199 of the identity statement (R177). -/
def State.statement (s : State) (challenge : Bytes) (session : Nat) : Bytes :=
  let code := s.blob 0xF002 0
  natBytes 2 1 ++ zeros 2 ++ (code ++ List.replicate (16 - code.length) 0x20) ++ s.full 0xF003 0 16
    ++ natBytes 4 s.fwVersion ++ natBytes 4 s.fwFloor ++ zeros 4 ++ natBytes 8 s.now ++ natBytes 1 s.powerCode
    ++ natBytes 1 (bitOf (s.plc.charcoal != 0) 0 + bitOf s.pch.testPassed 1 + bitOf (s.retired 0xB 0 1) 2) ++ zeros 2
    ++ challenge ++ natBytes 4 session ++ zeros 4 ++ s.full 0xF007 0 97 ++ zeros 3

/-- The signed statement; none where every nonce drawn must be redrawn (R178, R354). -/
def State.signedStatement (s : State) (t : Trs) : Option Bytes × State :=
  let body := s.statement (window t.fields 32 0 32) t.session
  let digest := (sha384 body).toNat
  let (k, s) := s.drawUntil 448 (fun n => (p384.sign Config.identityKey digest (n % p384.n)).isSome && n % p384.n != 0) 4
  (k.bind fun n => (p384.sign Config.identityKey digest (n % p384.n)).map fun g => body ++ natBytes 48 g.1 ++ natBytes 48 g.2, s)

/-- ATTEST (R177, R178): the statement is signed by a job of the public-key engine. -/
def execAttest (task : Nat) (s : State) : Host.Outcome State Fault Refusal :=
  match s.running task opAttest with
  | none => .next s
  | some t =>
    if t.parked then .next s
    else .next ((s.mapTrs task fun u => { u with parked := true }).queueJob (.attest t.task))

/-- The end of an ATTEST job; false where it must go on. -/
def State.endAttest (s : State) (task : Nat) : Bool × State :=
  match (s.trs? (task % 65536)).filter fun t => t.task == task && !t.result with
  | none => (true, s)
  | some t => match s.signedStatement t with
    | (some b, s) => (true, s.finish t.idx stOk 0 [] b)
    | (none, s) => (false, s)

/-! ### Handshake jobs (R126 to R132, R144) -/

/-- SESSION_OPEN's operation fields: bytes 24 to 123 of the lead block. -/
def Handshake.fields (h : Handshake) : Bytes :=
  match h.frag.lead with
  | some l => window l.fields 100 0 100
  | none => zeros 100

/-- The predecessor whose cache the session inherits, where it qualifies (R144). -/
def State.inherits (s : State) (tenant : Nat) (f : Bytes) : Option Nat :=
  if !bit (field f 28 2) 0 then none
  else (s.wte.kept.find? fun k => k.session == field f 32 4 && k.tenant == tenant && k.claimedBy.isNone
    && decide (s.now ≤ k.endedAt + 30000000)).map (·.session)

/-- Refuse a handshake request (R131). -/
def State.refuse (s : State) (h : Handshake) (status sub detail : Nat) : State :=
  s.refuseHandshake h.port h.frag h.cls status sub detail

/-- The half-open session of a checked SESSION_OPEN, with its response (R127, R129). -/
def State.openSession (s : State) (h : Handshake) (id scalar nm : Nat) (access : Bytes) : State :=
  let f := h.fields
  let tenant := field f 24 2
  let size := min (field f 26 2) (s.pnum h.port 0x03 0)
  let enc := tenant == 0 || !s.flag (0x2400 + tenant) 1
  let pred := s.inherits tenant f
  let reply := natBytes 2 size ++ natBytes 2 (bitOf pred.isSome 0 + bitOf enc 1) ++ zeros 12 ++ natBytes 16 nm
    ++ p256.encode (p256.mul scalar p256.base) ++ zeros 3
  let t := ascii "WOMBE1" ++ f ++ natBytes 4 id ++ reply
  let mm := cmac access (0x4D :: t)
  let edge := max 1 s.creditNow
  let r := s.replyFrag h.port h.frag h.cls size id 0 0 edge stOk 0 (reply ++ natBytes 16 mm.toNat)
  let x : Session :=
    { id := id, phase := .halfOpen s.now, tenant := tenant, port := h.port, src := h.frag.src, srcPort := h.frag.srcPort,
      modAddr := h.frag.dst, tag := h.frag.tag, srcMac := h.frag.srcMac, size := size, enc := enc,
      openReqId := h.frag.reqId, nc := field f 40 16, 
      opening := some { scalar := scalar, qc := slice f 32 65, transcript := t, mm := mm, reply := r }, keyCm := [], keyMc := [], keyR := [], hashH := [], claimed := pred, discard := [],
      rxCum := 0, rxSeen := [], edge := edge, ackDue := none, lastAuth := s.now, messages := [], txNext := 1, txCum := 0,
      peerEdge := seqAdd h.frag.cumAck (min h.frag.credit 256), unacked := [], outgoing := [], rto := 200000,
      rtoBase := 200000, srtt := none, rtoFrom := none, retries := 0, rxEpoch := 0, rxHigh := 0, rxCounters := [],
      prevEpoch := none, txEpoch := 0, txCounter := 0, replay := [] }
  let s := { s with
    wte.sessions := s.wte.sessions ++ [x],
    wte.kept := s.wte.kept.map fun (k : KeptCache) => if some k.session = pred then { k with claimedBy := some id } else k }
  (s.macBlocks id tenant 14).sendReply h.port r x.carriage

/-- The id may be drawn for a new session (R127, R143). -/
def State.idFree (s : State) (n : Nat) : Bool :=
  n != 0 && n != 0xFFFFFFFF && (s.session? n).isNone && !s.wte.resting.any fun e => e.1 == n

/-- The end of a handshake-open job (R131, R364); false where a draw must be taken again. -/
def State.endOpen (s : State) (h : Handshake) : Bool × State :=
  let f := h.fields
  match p256.keyFault (slice f 32 65) with
  | some sub => (true, (s.refuse h stBadRequest sub 56).bump 0x7030 0x0A 1)
  | none =>
    let p := s.keyPage (field f 24 2)
    match p.access with
    | none => (true, s.refuse h stAuthFailed 0 0)
    | some k =>
      if p.state ≠ 2 then (true, s.refuse h stAuthFailed 0 0)
      else
        let (d, s) := s.drawUntil 320 (fun n => n % p256.n != 0) 4
        let (id, s) := s.drawUntil 32 s.idFree 64
        let (nm, s) := s.takeDraw 128
        match d, id with
        | some d, some id => (true, s.openSession h id (d % p256.n) nm k)
        | _, _ => (false, s)

/-- Session keys from Z, T, Mm and Mc (R130): K_cm, K_mc, K_r and H. -/
def sessionKeys (z : Nat) (transcript mm mc : Bytes) : Bytes × Bytes × Bytes × Bytes :=
  let h := natBytes 32 (sha256 (transcript ++ mm ++ mc)).toNat
  let k := kdf (natBytes 32 z) "WOMBE1 SESSION KEYS" h 768 6
  (slice k 0 32, slice k 32 32, slice k 64 32, h)

/-- Mc as sent. -/
def Handshake.mc (h : Handshake) : Bytes :=
  match h.frag.lead with
  | some l => slice l.fields 0 16
  | none => []

/-- The session is confirmed, and its response is its first numbered fragment after sequence 0 (R104, R128, R144). -/
def State.confirmSession (s : State) (x : Session) (o : HalfOpen) (h : Handshake) (z : Nat) : State :=
  let (cm, mc, kr, hh) := sessionKeys z o.transcript (natBytes 16 o.mm.toNat) h.mc
  let s := s.mapSession x.id fun y => { y with
    phase := .confirmed, opening := none, keyCm := cm, keyMc := mc, keyR := kr, hashH := hh, rxCum := 1,
    replay := (s.wte.kept.filter fun k => k.claimedBy == some x.id).flatMap (·.entries),
    peerEdge := seqMax y.peerEdge (seqAdd h.frag.cumAck (min h.frag.credit 256)), lastAuth := s.now,
    srcMac := h.frag.srcMac }
  let s := { s with wte.kept := s.wte.kept.map fun (k : KeptCache) => if k.claimedBy = some x.id then { k with final := true, entries := [] } else k }
  let s := s.respondWith { session := x.id, reqId := h.frag.reqId, opcode := opConfirm, status := stOk, flags := 0, fields := [],
                           data := [], cls := h.cls, tenant := x.tenant, media := false, timed := none } []
  let s := s.macBlocks x.id x.tenant 24
  (s.sendNext x.id).getD s

/-- The end of a handshake-confirm job (R130, R366). -/
def State.endConfirm (s : State) (h : Handshake) : State :=
  match s.session? h.frag.session with
  | none => s
  | some x => match x.opening with
    | none => s
    | some o => match p256.mul o.scalar (p256.decode o.qc) with
      | none => ((s.refuse h stBadRequest subPkInfinity noField).bump 0x7030 0x0A 1).endSession x.id
      | some (z, _) => s.confirmSession x o h z

/-! ### PK_JOB_COMPLETE -/

/-- The end of a job by its kind; false where it must draw again. -/
def State.endJob (s : State) : PkKind → Bool × State
  | .handshakeOpen h => s.endOpen h
  | .handshakeConfirm h => (true, s.endConfirm h)
  | .attest task => s.endAttest task
  | .dictionary job tick task => (true, s.endDictJob job tick task)

/-- PK_JOB_COMPLETE (R364, R367): a job whose fixed time is over ends; one that needs random bits while none are drawn
stays on its unit. -/
def execPkJobComplete (ladder : Nat) (s : State) : Host.Outcome State Fault Refusal :=
  if 4 ≤ ladder then .fault .noSuchUnit
  else match s.cpx.ladders[ladder]? with
    | some (some (j, start)) =>
      if s.now < start + j.kind.time ∨ (j.kind.random ∧ s.cpx.rngState ≠ 0) then .next s
      else
        let (ended, s) := s.endJob j.kind
        if ended then .next ({ s with cpx.ladders := s.cpx.ladders.set ladder none }.bump 0x7030 0x09 1) else .next s
    | _ => .next s

end Sys2Proof.Machine
end

