-- ==== Sys2Proof/Machine/Handshake.lean ====
section
/-!
DEFINITION. The rows of the Wombe handshake: SESSION_OPEN, SESSION_CONFIRM and SESSION_CLOSE (R126 to R133, R141,
R144, R148, R176, R466).
-/
namespace Sys2Proof.Machine

/-- The first waiting handshake request of an opcode, and the others. -/
def State.takeHandshake (s : State) (op : Nat) : Option (Handshake × State) :=
  match s.wte.handshakes.findIdx? fun h => h.frag.opcode == op with
  | none => none
  | some i => match s.wte.handshakes[i]? with
    | none => none
    | some h => some (h, { s with wte.handshakes := s.wte.handshakes.eraseIdx i })

/-- Field checks on the lead block of a handshake request: sub-code and detail (R10, R99, R131, R148). DESIGN CHOICE
(log 108): the lengths are checked before the reserved fields, ORDERED and the parameters of step 3 of R131. -/
def Handshake.leadBad (h : Handshake) (leadLen : Nat) : Option (Nat × Nat) :=
  match h.frag.fault with
  | some b => some b
  | none => match h.frag.lead with
    | none => some (subLeadBlock, 0)
    | some l =>
      if l.leadLen ≠ leadLen then some (subLeadBlock, 0)
      else if l.msgLen ≠ 0 then some (subDataLength, 8)
      else none

/-- Step 3 of SESSION_OPEN: lead block, reserved fields, ORDERED, tenant and client datagram size (R131). -/
def Handshake.openBad (h : Handshake) : Option (Nat × Nat) :=
  let f := h.fields
  h.leadBad 124 <|> (firstBad [
    (decide (2 ≤ field f 28 2), subReserved, 28),
    (field f 30 2 != 0, subReserved, 30),
    (field f 36 4 != 0, subReserved, 36),
    (field f 121 3 != 0, subReserved, 121),
    (h.frag.has flOrdered, subFlags, noField),
    (decide (1024 ≤ field f 24 2), subSession, 24),
    (decide (field f 26 2 < 1280 ∨ 9216 < field f 26 2), subSession, 26)]).map fun b => (b.1, b.2.2)

/-- The half-open session that a SESSION_OPEN repeats (R132). -/
def State.repeated (s : State) (h : Handshake) : Option Session :=
  s.wte.sessions.find? fun x => x.half && x.src == h.frag.src && x.srcPort == h.frag.srcPort && x.openReqId == h.frag.reqId
    && x.nc == field h.fields 40 16

/-- A job of the same request is waiting or running. -/
def State.openPending (s : State) (h : Handshake) : Bool :=
  (s.cpx.pkWaiting ++ s.runningJobs).any fun j => match j.kind with
    | .handshakeOpen k => k.frag.src == h.frag.src && k.frag.srcPort == h.frag.srcPort && k.frag.reqId == h.frag.reqId
        && field k.fields 40 16 == field h.fields 40 16
    | _ => false

/-- Handshake jobs waiting for a ladder unit. -/
def State.handshakesWaiting (s : State) : Nat := (s.cpx.pkWaiting.filter fun j => j.kind.rank == 0).length

/-- No place for a further session or handshake job (R131, R365). -/
def State.sessionsFull (s : State) : Bool :=
  decide (262144 ≤ s.wte.sessions.length) || decide (4096 ≤ (s.wte.sessions.filter Session.half).length)
    || decide (4096 ≤ s.handshakesWaiting)

/-- The queue drains, or a Hold is pending: a new command gets RETRY_LATER (R187, R190, R218). -/
def State.queueClosed (s : State) : Bool := s.cqc.drain.isSome || s.cqc.policy == 3

/-- The first response to a SESSION_OPEN goes out again (R132). -/
def State.repeatReply (s : State) (x : Session) : State :=
  match x.opening with
  | some o => s.sendReply x.port o.reply x.carriage
  | none => s

/-- SESSION_OPEN (R127, R131, R132): the checks in order; a request that passes them waits for the public-key engine. -/
def execSessionOpen (s : State) : Host.Outcome State Fault Refusal :=
  if s.gap then .next s
  else match s.takeHandshake opOpen with
    | none => .next s
    | some (h, s) =>
      match s.repeated h with
      | some x => .next (s.repeatReply x)
      | none =>
        if s.openPending h then .next s
        else match h.openBad with
          | some (sub, d) => .next (s.refuse h stBadRequest sub d)
          | none =>
            if s.sessionsFull then .next (s.refuse h stRetryLater 0 0)
            else if s.queueClosed then .next (s.refuse h stRetryLater 0 s.drainWait)
            else if (s.keyPage (field h.fields 24 2)).state ≠ 2 then .next (s.refuse h stAuthFailed 0 0)
            else .next (s.queueJob (.handshakeOpen h))

/-- Field checks of a SESSION_CONFIRM. -/
def Handshake.confirmBad (h : Handshake) : Option (Nat × Nat) :=
  h.leadBad 40 <|> (if h.frag.has flOrdered then some (subFlags, noField) else none)

/-- Mc is right for the half-open session and the tenant's access key (R129). -/
def State.mcOk (s : State) (x : Session) (h : Handshake) : Bool :=
  match (s.keyPage x.tenant).access, x.opening with
  | some k, some o => h.mc == natBytes 16 (cmac k (0x43 :: o.transcript ++ natBytes 16 o.mm.toNat)).toNat
  | _, _ => false

/-- SESSION_CONFIRM (R128, R131): fields, the half-open session, Mc; the ECDH is a job of the public-key engine. -/
def execSessionConfirm (s : State) : Host.Outcome State Fault Refusal :=
  if s.gap then .next s
  else match s.takeHandshake opConfirm with
    | none => .next s
    | some (h, s) =>
      match h.confirmBad with
      | some (sub, d) => .next (s.refuse h stBadRequest sub d)
      | none => match (s.session? h.frag.session).filter Session.half with
        | none => .next (s.refuse h stNoSession 0 0)
        | some x =>
          if s.confirming x.id then .next s
          else if s.queueClosed then .next (s.refuse h stRetryLater 0 s.drainWait)
          else
            let s := s.macBlocks x.id x.tenant 15
            if s.mcOk x h then .next (s.queueJob (.handshakeConfirm h))
            else .next ((s.refuse h stAuthFailed 0 0).endSession x.id)

/-- SESSION_CLOSE (R141, R176): behind every earlier command of its session; the acknowledgement of its response ends
the session. -/
def execSessionClose (task : Nat) (s : State) : Host.Outcome State Fault Refusal :=
  match s.running task opClose with
  | none => .next s
  | some _ => .next (s.finish task stOk 0 [] [])

end Sys2Proof.Machine
end

