-- ==== Sys2Proof/Machine/Placement.lean ====
section
/-!
DEFINITION. The rows of placement: draining and its replacements, sealing, garbage collection, repacking, trimming of
the journal, rebuild and its reserve, long operations in steps (R84, R381, R391, R396 to R423).
-/
namespace Sys2Proof.Machine

/-! ## Draining (R84, R398, R564) -/

/-- The class of a waiting FLUSH that covers the stripe. -/
def State.flushCls (s : State) (id : Nat) : Option Cls :=
  (s.cqc.trs.filter fun t => t.state == .flushWait && t.covered.contains id).foldl (fun (b : Option Cls) t => match b with
    | none => some t.cls
    | some c => some (if t.cls < c then t.cls else c)) none

/-- A committed stripe in the drain of a failed Firewood test (R564). -/
def State.forced (s : State) (p : Stripe) : Bool := s.pch.wtDrain && p.order.isSome

/-- Class of a stripe's drain transfers. -/
def State.drainClass (s : State) (p : Stripe) : Cls :=
  match s.flushCls p.id with
  | some c => c
  | none => if s.forced p ∨ 3 * s.dirtyLimit ≤ 4 * s.dirtyBytes then p.cls else 3

/-- Rank of a stripe in the drain: R564's drain ahead of every other, then stripes a FLUSH covers. -/
def State.drainRank (s : State) (p : Stripe) : Nat :=
  if s.forced p then 0 else if (s.flushCls p.id).isSome then 1 else 2

/-- The shard can be sent to its tile now: tiles that are isolated or retired receive none (R408). -/
def State.sendable (s : State) (h : Shard) : Bool := h.phase == .dirty && (s.tile h.tile).inUse

/-- The stripe can be drained: sealed, dirty, and not waiting for flush verification. -/
def State.drainable (s : State) (p : Stripe) : Bool :=
  p.sealed && p.dirty && !p.detached && !p.lost && !s.plc.flushImage.contains p.id && p.shards.any s.sendable

/-- Commit order; stripes without a commit follow, in the order they were built. -/
def Stripe.drainOrder (p : Stripe) : Nat := p.order.getD (2 ^ 64 + p.id)

/-- Stripe `q` goes before `p` in the drain. -/
def State.drainsBefore (s : State) (q p : Stripe) : Bool :=
  decide (s.drainRank q < s.drainRank p)
    || (s.drainRank q == s.drainRank p && s.drainClass q == s.drainClass p && decide (q.drainOrder < p.drainOrder))

/-- Send one shard to its tile: a transfer in the class, and a program on its die. -/
def State.sendShard (s : State) (c : Cls) (id i : Nat) (h : Shard) : State :=
  ((s.mapShard id i fun x => { x with phase := .sent }).transfer (plcLane id) (tileLane h.tile) c false noTask h.len).queueProgram id i h

/-- STRIPE_DRAIN (R398): the stripe next in line in its class is sent to its tiles. -/
def execStripeDrain (stripe : Nat) (s : State) : Host.Outcome State Fault Refusal :=
  match s.stripe? stripe with
  | none => .next s
  | some p =>
    let first := !s.plc.stripes.any fun q => s.drainable q && s.drainsBefore q p
    let s := if s.drainable p && first then s.readDirty stripe (List.range p.shards.length) else s
    if !((s.stripe? stripe).any s.drainable && first) then .next s
    else
      let c := s.drainClass p
      .next ((List.range p.shards.length).foldl (fun s i => match p.shards[i]? with
        | some h => if s.sendable h then s.sendShard c stripe i h else s
        | none => s) s)

/-- A program of the shard is queued or in progress on its tile. -/
def State.programPending (s : State) (h : Shard) (id i : Nat) : Bool :=
  let mine : DieOp → Bool := fun o => match o with
    | .program id' i' .. => id' == id && i' == i
    | _ => false
  (s.tile h.tile).dies.any fun d => d.queue.any mine || (d.doing.map (·.1)).any mine || (d.suspended.map (·.1)).any mine

/-- The drain of R564 ends when no committed stripe is dirty. -/
def State.endForcedDrain (s : State) : State :=
  if s.pch.wtDrain ∧ !s.plc.stripes.any (fun p => p.dirty && p.order.isSome) then
    { s with pch.wtDrain := false }.limitFrom s.dirtyLimit
  else s

/-! ## Rebuild: bookkeeping (R408 to R413) -/

/-- A shard that is gone: its tile is retired, it was lost, or its rebuilt copy is not yet programmed. -/
def State.shardGone (s : State) (p : Stripe) (h : Shard) : Bool :=
  !p.dirty && ((s.tile h.tile).state == 3 || h.phase != .programmed)

def State.goneCount (s : State) (p : Stripe) : Nat := (p.shards.filter (s.shardGone p)).length

/-- A stripe that the rebuild has to work on: some shard gone, not lost, and not owned by detached records only. -/
def State.toRebuild (s : State) (p : Stripe) : Bool := !p.dirty && !p.lost && !p.detached && p.sealed && decide (0 < s.goneCount p)

/-- Every stripe with more than two shards gone is lost (R413). -/
def State.loseBroken (s : State) : State :=
  ((s.plc.stripes.filter fun p => s.toRebuild p && decide (2 < s.goneCount p)).map (·.id)).foldl (fun s id => s.loseStripe id) s

/-- The rebuild ends when no stripe is left to rebuild (R410). -/
def State.endRebuild (s : State) : State :=
  if s.plc.rebuild.state ≠ 0 ∧ !s.plc.stripes.any s.toRebuild then
    let r := s.plc.rebuild
    let s := { s with plc.rebuild.state := 0, plc.rebuild.tiles := [] }
    (s.raise 0x9004 (wholeUnit 9) (clampU 32 r.done) (clampU 32 ((s.now - r.start) / 1000000)) 0).readyActive
  else s

/-- Stripes with shards on these tiles are to be rebuilt: those with more than two shards gone are lost, and a rebuild starts,
which is recorded, or is joined (R409, R412). -/
def State.joinRebuild (s : State) (tiles : List Nat) : State :=
  let s := s.loseBroken
  let shards := ((s.plc.stripes.filter s.toRebuild).map s.goneCount).foldl (· + ·) 0
  let r := s.plc.rebuild
  if r.state = 0 then
    { s with plc.rebuild := { state := 1, tiles := tiles, total := shards, done := 0, start := s.now } }.raise 0x9003
      (wholeUnit 9) tiles.length (clampU 32 shards) 0
  else { s with plc.rebuild := { r with tiles := r.tiles ++ tiles.filter (fun t => !r.tiles.contains t), total := r.done + shards } }

/-- A tile has been retired. -/
def State.startRebuild (s : State) (tile : Nat) : State := (s.joinRebuild [tile]).checkCharcoal.endRebuild

/-- Every stripe of the flush image is on its tiles: the flush regions are released (R406). -/
def State.releaseFlush (s : State) : State :=
  if s.plc.flushHeld.isEmpty ∨ s.plc.stripes.any (fun p => p.dirty && p.flushed) then s
  else
    let slots := s.plc.flushHeld.flatMap fun e => e.slots.filterMap id
    { s with plc.flushHeld := [], plc.usedSlots := s.plc.usedSlots.filter fun u => !(u.2.1 == 2 && slots.contains (u.1, u.2.2)) }

/-- A stripe is on its tiles when each shard is programmed, or was skipped by a flush and is left to the rebuild (R407), and none
needs another slot. -/
def State.onTiles (s : State) (p : Stripe) : Bool :=
  p.sealed && p.shards.all (fun h => h.phase == .programmed || h.phase == .lost) && !p.shards.any (s.needsSlot p)

/-- Stripe `id` is on the tiles: no longer dirty, no part of the flush image, and counted (R398, R404). -/
def State.wroteOut (s : State) (id : Nat) : State :=
  let s := s.mapStripe id fun q => { q with dirty := false, flushed := false }
  { s with plc.flushImage := s.plc.flushImage.filter (· != id) }.bump 0x9060 0x03 1

/-- Posted writes with every byte on the tiles are waited for no more (R84). -/
def State.clearPosted (s : State) : State :=
  { s with cqc.posted := s.cqc.posted.filter fun e => !e.2.all s.onMedium }

/-- A stripe that is on its tiles leaves the dirty write buffer; one that has a shard gone goes to the rebuild (R407, R410). -/
def State.settleStripe (s : State) (id : Nat) : State :=
  match s.stripe? id with
  | none => s
  | some p =>
    if p.dirty ∧ s.onTiles p then
      let q : Stripe := { p with dirty := false }
      let s := (s.wroteOut id).mapStripe id fun r => { r with degraded := decide (0 < s.goneCount q) }
      let s := if s.goneCount q = 0 then s
        else s.joinRebuild ((p.shards.filter (s.shardGone q)).map (·.tile)).eraseDups
      s.clearPosted.releaseFlush.endForcedDrain.readyActive
    else s

/-- The row of a shard's slot counts as programmed: with its parity page, until it has been verified (R445). -/
def State.rowSafe (s : State) (h : Shard) : Bool :=
  let t := s.tile h.tile
  match t.locate h.region h.slot with
  | some (c, d, b, row) =>
    let k := t.blockAt c d b
    decide (row < k.pointer) && (t.hasParity k.region k.superblock row || k.verified.contains row)
  | none => false

/-- SHARD_PROGRAM_DONE (R84, R445): the tile reports the shard's program, and that of its row's parity page, successful. -/
def execShardProgramDone (stripe shard : Nat) (s : State) : Host.Outcome State Fault Refusal :=
  match s.stripe? stripe with
  | none => .next s
  | some p => match p.shards[shard]? with
    | none => .next s
    | some h =>
      if h.phase ≠ .sent ∨ s.programPending h stripe shard ∨ !(s.tile h.tile).inUse ∨ !s.rowSafe h then .next s
      else
        let s := s.mapShard stripe shard fun x => { x with phase := .programmed }
        if p.dirty then .next (s.settleStripe stripe)
        else
          let s := if s.plc.rebuild.state = 0 then s
            else { s with plc.rebuild.done := s.plc.rebuild.done + 1 }.bump 0x9060 0x0C 1
          let s := s.mapStripe stripe fun q => { q with degraded := decide (0 < s.goneCount q) }
          .next s.endRebuild

/-! ## Replacement (R399, R408) -/

/-- A tile for one shard of a stripe beside the tiles of its others (R378). -/
def State.drawOne (s : State) (p : Stripe) (i region : Nat) : Option Nat :=
  let others := ((List.range p.shards.length).filter (· != i)).filterMap fun j => (p.shards[j]?).map (·.tile)
  (drawTiles (fun t => s.slotsFree t region) s.plc.pointer (ceilDiv p.shards.length (max 1 s.openHubs)) s.openTiles 1 others).bind
    (·.getLast?)

/-- Give a shard a new slot and program it there. -/
def State.replaceShard (s : State) (p : Stripe) (i tile : Nat) (h : Shard) : State :=
  let slot := s.freeSlot tile h.region
  let n : Shard := { h with tile := tile, slot := slot, phase := .dirty }
  let s := { s with plc.garbage := s.plc.garbage ++ [(h.tile, h.region, h.slot)] }.takeSlot tile h.region slot
  let s := s.mapShard p.id i fun _ => n
  let s := if p.order.isSome then s.relocateStripe p.id else s
  (s.sendShard (s.drainClass p) p.id i n).checkCharcoal

/-- PROGRAM_REPLACEMENT (R399): on the same tile while it is in service, otherwise on a tile drawn under R378 whose flush region has
room for one more dirty shard (R405). -/
def execProgramReplacement (stripe shard : Nat) (s : State) : Host.Outcome State Fault Refusal :=
  match s.stripe? stripe with
  | none => .next s
  | some p => match p.shards[shard]? with
    | none => .next s
    | some h =>
      if !s.needsSlot p h then .next s
      else
        let t := s.tile h.tile
        let slot := s.freeSlot h.tile h.region
        let tile := if t.inUse ∧ 0 < s.slotsFree h.tile h.region ∧ (!t.closed ∨ (t.locate h.region slot).isSome) then some h.tile
          else s.drawOne p shard h.region
        match tile with
        | none => .next (s.enterCharcoal 3)
        | some t =>
          if p.order.isSome ∧ !s.journalRoom (s.relocationBytes [stripe]) then .next s.awaitJournal
          else if p.dirty ∧ t ≠ h.tile ∧ !s.flushRoom [t] then .next s
          else .next ((s.replaceShard p shard t h).bump 0x9060 0x04 1)

/-! ## Sealing (R381) -/

/-- PACK_SEAL_TIMEOUT (R381): PACK_SEAL_TIME, or 20 µs in write-through, since the first extent. -/
def execPackSealTimeout (stripe : Nat) (s : State) : Host.Outcome State Fault Refusal :=
  match s.stripe? stripe with
  | none => .next s
  | some p =>
    let wait := if s.writeBack then s.num 0x9004 0 else 20
    if p.kind = 2 ∧ !p.sealed ∧ p.openedAt + wait ≤ s.now then .next ((s.seal stripe).getD s) else .next s

/-! ## Moving valid slots on a tile (R400, R437) -/

/-- Where a move's new slot lies. -/
def State.moveTarget (s : State) (m : Move) : Option (Nat × Nat × Nat × Nat) := (s.tile m.tile).locate m.region m.to_

/-- A slot is on its way into the die block. -/
def State.movesInto (s : State) (t c d b : Nat) : Bool :=
  s.plc.moves.any fun m => m.tile == t && (s.moveTarget m).any fun e => e.1 == c && e.2.1 == d && e.2.2.1 == b

/-- The state of a die block as R442 has it: a block with programmed rows and no valid slot is STALE. -/
def State.blockCode (s : State) (t c d b : Nat) : Nat :=
  let x := (s.tile t).blockAt c d b
  if 1 ≤ x.state ∧ x.state ≤ 3 ∧ 0 < x.pointer ∧ (s.slotsIn t c d b).isEmpty ∧ !s.movesInto t c d b then 4 else x.state

/-- Where a valid slot of a die block can move on its tile (R400): the lowest free slot outside that die block whose row is the
next to be programmed; none while there is none, or while no parity page is free (R445). -/
def State.moveDest (s : State) (t region : Nat) (victim : Nat × Nat × Nat) : Option Nat :=
  let used := (s.plc.usedSlots.filter fun u => u.1 == t && u.2.1 == region).map fun u => u.2.2
  if (s.tile t).parityDie.isNone ∨ s.slotsFree t region = 0 then none
  else (List.range (used.length + 2)).find? fun n => !used.contains n && (match (s.tile t).locate region n with
    | none => !(s.tile t).closed
    | some (c, d, b, row) => (c, d, b) != victim && decide (s.blockCode t c d b ≤ 1) && !s.rowPending t c d b row)

/-- A valid slot gets a new place on its tile (R400). The keys that name its stripe are noted with their versions (R396). -/
def State.addMove (s : State) (t dest : Nat) (e : Nat × Nat × Nat × Nat) (source : Nat × Nat × Nat) (why : Nat) (read : Bool) : State :=
  match (s.stripe? e.1).bind fun p => p.shards[e.2.1]? with
  | none => s
  | some h =>
    let m : Move :=
      { tile := t, stripe := e.1, shard := e.2.1, region := e.2.2.1, from_ := h.slot, to_ := dest, source := source,
        names := (s.keysOf e.1).map fun k => (k.tenant, k.key, k.version), why := why, read := read, done := false }
    ({ s with plc.moves := s.plc.moves ++ [m] }.takeSlot t e.2.2.1 dest).mapTile t fun x => x.openFor e.2.2.1 dest

/-- The data of a move goes to its new place: from the tile to placement and back, in Background/3 (R274), and a program on the
die. -/
def State.programMove (s : State) (m : Move) : State :=
  match s.moveTarget m, (s.stripe? m.stripe).bind fun p => p.shards[m.shard]? with
  | some (c, d, b, row), some h =>
    let n := roundUp h.len 4096
    ((s.transfer (tileLane m.tile) (plcLane m.stripe) 3 false noTask n).transfer (plcLane m.stripe) (tileLane m.tile) 3 false noTask
      n).queueDie m.tile c d (.program m.stripe m.shard b row (m.region != 0))
  | _, _ => s

/-- The slot is on its way already. -/
def State.moving (s : State) (t : Nat) (e : Nat × Nat × Nat × Nat) : Bool :=
  s.plc.moves.any fun m => m.tile == t && m.stripe == e.1 && m.shard == e.2.1

/-- The valid slots of a die block begin to move, as far as the tile has places that are next to be programmed: each is read first
in Background/3 order (R430, R437). -/
def State.startMoves (s : State) (t c d b why : Nat) : State :=
  (s.slotsIn t c d b).foldl (fun s e =>
    if s.moving t e then s
    else match s.moveDest t e.2.2.1 (c, d, b) with
      | none => s
      | some dest => ((s.addMove t dest e (c, d, b) why false).transfer (plcLane e.1) (tileLane t) 3 false noTask 64).queueDie t c d
          (.background b e.2.2.2 (e.2.2.1 != 0))) s

/-- Moves end without effect: their new slots hold nothing valid. -/
def State.dropMoves (s : State) (pick : Move → Bool) : State :=
  { s with plc.moves := s.plc.moves.filter fun m => !pick m,
           plc.garbage := s.plc.garbage ++ (s.plc.moves.filter pick).map fun m => (m.tile, m.region, m.to_) }

/-- The die block has an erase queued or in progress. -/
def State.erasePending (s : State) (t c d b : Nat) : Bool :=
  ((s.tile t).dieAt c d).erases b

/-- Every valid slot of a die block is programmed: none is on its way there. -/
def State.settled (s : State) (t c d b : Nat) : Bool :=
  (s.slotsIn t c d b).all fun e => match (s.stripe? e.1).bind fun p => p.shards[e.2.1]? with
    | some h => h.phase == .programmed
    | none => true

/-- An emptied die block becomes STALE, SUSPECT and RETIRED blocks keep their state, and all but RETIRED go to erase. -/
def State.handForErase (s : State) (t c d b : Nat) : State :=
  let s := s.mapTile t fun x => x.mapBlock c d b fun k => if 1 ≤ k.state ∧ k.state ≤ 3 then { k with state := 4 } else k
  if ((s.tile t).blockAt c d b).state = 6 then s else s.queueDie t c d (.erase b)

/-- A die block whose valid slots have all moved is handed for erase and counted (R400, R437, R440). -/
def State.emptied (s : State) (t c d b why : Nat) : State :=
  let s := (s.handForErase t c d b).mapTile t fun x => x.mapBlock c d b fun k => { k with queued := 0 }
  if why = 1 then s.bump (0xA400 + t) 0x10 1 else if why = 2 then s.bump (0xA400 + t) 0x11 1 else s.bump 0x9060 0x07 1

/-- A move's program is done: relocation records move the map records of the keys that still hold the versions they name, and the
old slot is invalid. Where a newer write of a key names the stripe, or the stripe is gone, the move is discarded (R396). The last
slot that leaves a die block for garbage collection or a rewrite empties it. -/
def State.finishMove (s : State) (m : Move) : State :=
  let keys := s.keysOf m.stripe
  let held := (s.stripe? m.stripe).any fun p => !p.lost && (p.shards[m.shard]?).any fun h => h.slot == m.from_ && h.tile == m.tile
  let s := (m.names.filter fun e => !keys.any fun k => k.tenant == e.1 && k.key == e.2.1 && k.version == e.2.2).foldl
    (fun s _ => s.bump 0x9060 0x06 1) s
  if !held ∨ !keys.all fun k => m.names.contains (k.tenant, k.key, k.version) then s.dropMoves fun x => x == m
  else
    let s := { s with plc.moves := s.plc.moves.filter (· != m), plc.garbage := s.plc.garbage ++ [(m.tile, m.region, m.from_)] }
    let s := (s.mapShard m.stripe m.shard fun h => { h with slot := m.to_ }).relocateStripe m.stripe
    let s := if m.why = 0 then s.bump 0x9060 0x08 1 else s
    let (c, d, b) := m.source
    if m.why = 3 ∨ !(s.slotsIn m.tile c d b).isEmpty then s else s.emptied m.tile c d b m.why

/-- A move whose program is done, once the journal has room for its relocation records (R392). -/
def State.landMove (s : State) (m : Move) : State :=
  if s.journalRoom (s.relocationBytes [m.stripe]) then s.finishMove m
  else { s with plc.moves := s.plc.moves.map fun x => if x = m then { x with done := true } else x }.awaitJournal

/-- Moves that waited for room in the journal. -/
def State.landMoves (s : State) : State := (s.plc.moves.filter (·.done)).foldl (fun s m => s.landMove m) s

/-- The move whose new slot is a page of a die. -/
def State.moveAt (s : State) (t c d b row : Nat) (id i : Nat) : Option Move :=
  s.plc.moves.find? fun m => m.tile == t && m.stripe == id && m.shard == i && !m.done && s.moveTarget m == some (c, d, b, row)

/-- A die block is emptied: what is in it begins to move; an empty one is handed for erase. -/
def State.emptyBlock (s : State) (t c d b why : Nat) : State :=
  if (s.slotsIn t c d b).isEmpty then s.emptied t c d b why else s.startMoves t c d b why

/-- GC_STEP (R400): the valid slots of a victim block move, and the block is handed for erase. New victims wait while no
Warden holds the lease (R466). -/
def execGcStep (tile channel die block : Nat) (s : State) : Host.Outcome State Fault Refusal :=
  if 64 ≤ tile ∨ !dieExists channel die ∨ parityBlock ≤ block then .fault .noSuchUnit
  else
    let s := s.landMoves
    let code := s.blockCode tile channel die block
    if s.gap ∨ code = 0 ∨ s.erasePending tile channel die block ∨ !(s.tile tile).inUse ∨ !s.settled tile channel die block
        ∨ s.movesInto tile channel die block ∨ (code = 6 ∧ (s.slotsIn tile channel die block).isEmpty) then .next s
    else .next (s.emptyBlock tile channel die block 0)

/-! ## Repacking (R403) -/

/-- Live bytes of a packed stripe: those that current map records name. -/
def State.liveBytes (s : State) (id : Nat) : Nat :=
  ((s.asu.keys.flatMap (·.extents)).filter fun e => e.stripe == id).foldl (fun n e => n + e.len) 0

/-- A sealed packed stripe whose live bytes have fallen below PACK_MIN_LIVE of its data. -/
def State.sparse (s : State) (id : Nat) : Bool :=
  match s.stripe? id with
  | some p => p.kind == 2 && p.sealed && !p.dirty && decide (100 * s.liveBytes id < s.num 0x9005 0 * p.filled)
  | none => false

/-- A value with too many extents, or one that an APPEND would give too many (R382, R403). -/
def State.fragmented (s : State) (k : KeyRec) : Bool :=
  decide (16384 < k.extents.length) || decide (64 * k.length < k.extents.length * 1048576)
    || s.cqc.trs.any fun t => t.changes.any fun c => c.tenant == k.tenant && c.key == k.key && s.needsRepack c

/-- Runs of extents between holes. -/
def runsOf : List Extent → List (Bool × List Extent)
  | [] => []
  | e :: l => match runsOf l with
    | (h, r) :: t => if h = (e.stripe == 0) then (h, e :: r) :: t else (e.stripe == 0, [e]) :: (h, r) :: t
    | [] => [(e.stripe == 0, [e])]

/-- Place the runs of a value anew; none while there is no room. -/
def State.placeRuns (s : State) (k : KeyRec) (c : Cls) : List (Bool × List Extent) → Option (List Extent × State)
  | [] => some ([], s)
  | (hole, r) :: t =>
    let (e, s) := if hole then (r, s) else s.placeMore k.tenant (extentBytes r) k.fast c []
    if extentBytes e = extentBytes r then (s.placeRuns k c t).map fun a => (e ++ a.1, a.2) else none

/-- Move the extents of sparse packed stripes to the tenant's open packed stripe; none while there is no room. -/
def State.placeSparse (s : State) (k : KeyRec) (c : Cls) : List Extent → Option (List Extent × State)
  | [] => some ([], s)
  | e :: l =>
    if s.sparse e.stripe then match s.packExtent k.tenant e.len k.fast c with
      | none => none
      | some (n, s) => (s.placeSparse k c l).map fun a => (n :: a.1, a.2)
    else (s.placeSparse k c l).map fun a => (e :: a.1, a.2)

/-- The old stripes among some that are not on the medium: what waits for them waits for the new stripes too (R81, R83). -/
def State.unwritten (s : State) (ids : List Nat) : List Nat :=
  ids.filter fun id => match s.stripe? id with
    | some p => !p.programmed
    | none => false

/-- Writes, FLUSHes and the list of posted writes follow bytes that have moved to new stripes. -/
def State.followRepack (s : State) (old new : List Nat) : State :=
  let more : List Nat → List Nat := fun l => if l.any old.contains then l ++ new else l
  { s with cqc.trs := s.cqc.trs.map fun (t : Trs) => { t with stripes := more t.stripes, covered := more t.covered },
           cqc.posted := s.cqc.posted.map fun e => (e.1, more e.2) }

/-- The class of a repacking: that of an APPEND that waits for it, else Background/3 (R382, R403). -/
def State.repackClass (s : State) (k : KeyRec) : Cls :=
  (s.cqc.trs.filter fun t => t.changes.any fun c => c.tenant == k.tenant && c.key == k.key && s.needsRepack c).foldl
    (fun (c : Cls) t => if t.cls < c then t.cls else c) 3

/-- The value's bytes are read, pass through XTS-D and XTS-E, and are placed in new stripes (R403). -/
def State.beginRepack (s : State) (k : KeyRec) : State :=
  let c := s.repackClass k
  let placed := if s.fragmented k then s.placeRuns k c (runsOf k.extents)
    else if k.extents.any fun e => s.sparse e.stripe then s.placeSparse k c k.extents
    else none
  match placed with
  | none => s
  | some (l, s) =>
    let kept : Extent → Bool := fun e => l.contains e || e.stripe == 0
    let new := l.filter fun e => !k.extents.contains e && e.stripe != 0
    let s := s.fetchParts c 0 0 (k.extents.filter fun e => !kept e)
    let s := s.crypt .xtsE k.tenant (bufferLane k.version) (bufferLane k.version) c false noTask (extentBytes new)
    let r : Repack := { tenant := k.tenant, key := k.key, version := k.version, extents := l }
    ({ s with plc.repacks := s.plc.repacks ++ [r] }.bump 0x9060 0x09 1).bump 0x7030 0x01 (2 * extentBytes new)

/-- The new stripes of a repacking are held as the completion mode asks (R395). -/
def State.repackHeld (s : State) (r : Repack) : Bool := s.writeBack || (extentStripes r.extents).all s.onMedium

/-- The relocation of a repacked value is applied, or discarded where a write has overtaken it (R396, R403). -/
def State.endRepack (s : State) (r : Repack) : State :=
  let s := { s with plc.repacks := s.plc.repacks.filter (· != r) }
  (s.relocate r.tenant r.key r.version fun s => match s.live? r.tenant r.key with
    | none => s
    | some k =>
      let l := r.extents
      let order := s.plc.journalSeq
      let packed := l.any fun e => match s.stripe? e.stripe with
        | some p => p.kind == 2
        | none => false
      let s := s.followRepack (s.unwritten (extentStripes (k.extents.filter fun e => !l.contains e)))
        (extentStripes (l.filter fun e => !k.extents.contains e))
      let s := s.mapKey r.tenant r.key fun r => { r with extents := l, packed := packed }
      let s := s.reseatMap { k with extents := l, packed := packed }
      (extentStripes l).foldl (fun s id => s.mapStripe id fun p => { p with order := some (p.order.getD order) }) s).releaseStripes

/-- REPACK (R382, R396, R403): a value is read and placed in new stripes; then one relocation record moves its pointer, unless a
write has overtaken it. -/
def execRepack (tenant : Nat) (key : Bytes) (s : State) : Host.Outcome State Fault Refusal :=
  match s.plc.repacks.find? fun r => r.tenant == tenant && r.key == key with
  | some r =>
    if !s.repackHeld r then .next s
    else if !s.journalRoom (recordBytes [key.length]) then .next s.awaitJournal
    else .next (s.endRepack r)
  | none => match s.live? tenant key with
    | none => .next s
    | some k =>
      if k.lost ∨ !s.tenantReady tenant ∨ s.plc.longOp.any (fun o => decide (2 ≤ o.op)) then .next s
      else .next (s.beginRepack k)

/-! ## Metadata stripes and trimming (R391, R397) -/

/-- Pages not written in a metadata stripe since their last change, in the order of the journal. -/
def State.uncleanPages (s : State) : List Nat :=
  let journal := s.plc.journal.flatMap (·.pages)
  let all := journal ++ s.asu.pages.map (·.number)
  (all.foldl (fun (a : List Nat) n => if a.contains n then a else a ++ [n]) []).filter fun n => s.asu.pages.any fun p =>
    p.number == n && !p.clean && p.cached && !p.detached

/-- Stored bytes of a metadata stripe (R391). -/
def metadataBytes : Nat := 16 * 16384

/-- Bytes of the next map-root record: the spec leaves its body open. -/
def State.mapRootBytes (s : State) : Nat := 32 + 8 * (Config.freeValue 3 s.plc.journalSeq % 64)

/-- What the map roots give now (R397): the root of a tree is its highest interior page, or its only leaf. -/
def State.mapRoots (s : State) : MapRoots :=
  let root : Nat → Bool → Option Nat := fun t pinned =>
    match (s.interiors t pinned).foldl (fun (b : Option (Nat × Nat)) p => match p.dir, b with
      | some (level, _), none => some (level, p.number)
      | some (level, _), some c => if c.1 < level then some (level, p.number) else some c
      | none, b => b) none with
    | some e => some e.2
    | none => (s.leaves t pinned).head?
  let pages := s.asu.pages.filter fun p => !p.detached
  let tenants := ((pages.filter fun p => p.kind == 1).map (·.tenant)).eraseDups
  { roots := tenants.map fun t => (t, root t false, root t true),
    dirs := (pages.filter fun p => p.kind == 3).map (·.number),
    alloc := pages.filterMap fun p => p.home.map fun e => (p.number, e.1, e.2) }

/-- A map-root record updates the map roots (R397). -/
def State.writeRoots (s : State) : State :=
  { s.journalAppend s.mapRootBytes (.mapRoot s.mapRoots) [] with plc.roots := s.mapRoots }

/-- Write up to 14 unclean pages in a metadata stripe (R391); none while there are none, or the dirty write buffer has no
room for it (R25). -/
def State.writeMetadata (s : State) : Option State :=
  let l := s.uncleanPages.take 14
  if l.isEmpty ∨ !s.dirtyRoom metadataBytes then none
  else (s.buildStripe 0 3 229376 false 3).map fun (id, s) =>
    (List.range l.length).foldl (fun s i => s.mapPage (l.getD i 0) fun p => { p with clean := true, home := some (id, i) }) s

/-- A record at the head of the journal may be trimmed (R397): a commit or relocation record whose pages are all
written, a Milestone that is not the running operation's latest, a manifest whose flush image is on its tiles, a
map-root record that a later one replaces. -/
def State.trimmable (s : State) (r : JournalRec) (later : List JournalRec) : Bool :=
  match r.body with
  | .commit _ | .relocation _ => r.pages.all fun n => match s.page? n with
    | some p => p.clean
    | none => true
  | .milestone .. => s.plc.longOp.isNone || later.any fun q => match q.body with
    | .milestone .. => true
    | _ => false
  | .flushManifest _ => s.plc.flushHeld.isEmpty
  | .mapRoot _ => later.any fun q => match q.body with
    | .mapRoot _ => true
    | _ => false
  | .unmarked => false
  | .void | .cleanMark => true

/-- Trim from the head of the journal. -/
def State.trim (s : State) : List JournalRec → List JournalRec
  | [] => []
  | r :: l => if s.trimmable r l then s.trim l else r :: l

/-- Trim the journal; an append that waits may find room again. -/
def State.trimJournal (s : State) : State :=
  let s := s.voidPlaces.releaseFlush
  { s with plc.journal := s.trim s.plc.journal, plc.journalWait := false }

/-- JOURNAL_TRIM (R391, R397): a metadata stripe takes up unclean pages, records whose pages are all written go, and a
map-root record names the stripe; where the ring has no room for that record, only what can go without it goes. -/
def execJournalTrim (s : State) : Host.Outcome State Fault Refusal :=
  match s.writeMetadata with
  | none => .next s.trimJournal.landMoves
  | some u =>
    let u := u.trimJournal
    if u.journalRoom u.mapRootBytes then .next u.writeRoots.releaseStripes.landMoves
    else .next s.trimJournal.awaitJournal

/-! ## Rebuild (R410 to R412, R416) -/

/-- Rank of a stripe in the rebuild (R410). -/
def State.rebuildRank (s : State) (p : Stripe) : Nat :=
  if s.goneCount p = 2 then 0 else if p.fast then 1 else if p.kind = 3 then 2 else 3

/-- Stripe `q` is rebuilt before `p`. -/
def State.rebuildsBefore (s : State) (q p : Stripe) : Bool :=
  decide (s.rebuildRank q < s.rebuildRank p) || (s.rebuildRank q == s.rebuildRank p && decide (q.drainOrder < p.drainOrder))

/-- Shards of a stripe that must be written anew: gone, and not already on their way to a new slot. -/
def State.toWrite (s : State) (p : Stripe) : List Nat :=
  (List.range p.shards.length).filter fun i => match p.shards[i]? with
    | some h => (s.tile h.tile).state == 3 || h.phase == .lost
    | none => false

/-- Raw QLC bytes that a shard of a region takes from the reserve: an SLC page has a quarter of the room. -/
def reserveCost (region : Nat) : Nat := if region = 0 then shardBytes else 4 * shardBytes

/-- The tile for a shard whose stripe's set admits no other: the open tile with the most unused
slots that holds no other shard of the stripe, whatever the hub (R385, R416). -/
def State.anyTile (s : State) (p : Stripe) (region : Nat) (others : List Nat) : Option Nat :=
  (drawTiles (fun t => 2 ^ 64 - s.slotsUsed t region) s.plc.pointer
    (ceilDiv p.shards.length (max 1 s.openHubs)) s.openTiles 1 others).bind (·.getLast?)

/-- A tile for a rebuilt shard out of the reserve, and the reserve it leaves (R416); none where the
reserve has not that much room. -/
def State.reserveTile (s : State) (p : Stripe) (i region : Nat) : Option (Nat × Nat) :=
  let others := ((List.range p.shards.length).filter (· != i)).filterMap fun j => (p.shards[j]?).map (·.tile)
  if s.plc.reserve < reserveCost region then none
  else (s.drawOne p i region <|> s.anyTile p region others).map fun t =>
    (t, s.plc.reserve - reserveCost region)

/-- Free space of its region that a rebuilt shard may take: as far as the room held back for
committed writes leaves it (R417); metadata is not held back. -/
def State.freeTile (s : State) (p : Stripe) (i region : Nat) : Option Nat :=
  if s.roomHeld 1 ∨ region = 3 then s.drawOne p i region else none

/-- A tile for a rebuilt shard, and the reserve after it (R410, R416, R417): free space of its region
first; then the reserve. -/
def State.rebuildTile (s : State) (p : Stripe) (i region : Nat) : Option (Nat × Nat) :=
  ((s.freeTile p i region).map fun t => (t, s.plc.reserve)) <|> s.reserveTile p i region

/-- Shard `i` of stripe `id` seated on tile `t`: a free slot there is taken, the shard is dirty in
it, the reserve is what the choice of the tile left, and the shard is sent out (R385, R410). -/
def State.seatRebuilt (s : State) (id i : Nat) (c : Cls) (h : Shard) (t reserve : Nat) : State :=
  let slot := s.freeSlot t h.region
  let n : Shard := { h with tile := t, slot := slot, phase := .dirty }
  let s := { s with plc.reserve := reserve }.takeSlot t h.region slot
  (s.mapShard id i fun _ => n).sendShard c id i n

/-- One step of `State.rebuildShards`: shard `i` of stripe `id` on the tile the rules choose, none
where no tile is left for it; a stripe that is gone has nothing to rebuild. -/
def State.rebuildShard (s : State) (id i : Nat) (c : Cls) : Option State :=
  match s.stripe? id with
  | none => some s
  | some p =>
    match p.shards[i]? with
    | none => some s
    | some h => (s.rebuildTile p i h.region).map fun e => s.seatRebuilt id i c h e.1 e.2

/-- Rebuild shards of a stripe one after the other; none where one finds no room. -/
def State.rebuildShards (s : State) (id : Nat) (c : Cls) : List Nat → Option State
  | [] => some s
  | i :: l =>
    match s.rebuildShard id i c with
    | none => none
    | some s => s.rebuildShards id c l

/-- REBUILD_STRIPE (R410): the first stripe in the rebuild's order has its missing shards recomputed from the others,
placed and relocated. In Charcoal a stripe that finds no room stays as it is and holds no other up (R419). New batches wait while no Warden holds the lease (R466). -/
def execRebuildStripe (stripe : Nat) (s : State) : Host.Outcome State Fault Refusal :=
  match s.stripe? stripe with
  | none => .next s
  | some p =>
    let open_ : Stripe → Bool := fun q => s.toRebuild q && !(s.toWrite q).isEmpty
    let placeable : Stripe → Bool := fun q => s.plc.charcoal = 0 || (s.rebuildShards q.id 3 (s.toWrite q)).isSome
    if s.gap ∨ s.plc.rebuild.state = 0 ∨ !open_ p
        ∨ s.plc.stripes.any (fun q => open_ q && s.rebuildsBefore q p && placeable q) then .next s
    else if !s.journalRoom (s.relocationBytes [stripe]) then .next s.awaitJournal
    else
      let c : Cls := if s.num 0x9011 0 = 2 then 2 else 3
      let others := ((List.range p.shards.length).filter fun j => !(s.missingShards p).contains j).take p.k
      let s := others.foldl (fun s j => match p.shards[j]? with
        | some h => s.queueRead c true p j h.whole
        | none => s) s
      match s.rebuildShards stripe c (s.toWrite p) with
      | none => .next ({ s with plc.rebuild.state := 2 }.enterCharcoal 1)
      | some s =>
        let s := s.mapStripe stripe fun q => { q with degraded := true }
        .next ({ s with plc.rebuild.state := 1 }.relocateStripe stripe).checkCharcoal

/-- Raw bytes of the data area that no slot takes. -/
def State.dataFree (s : State) : Nat :=
  ((List.range 64).map fun t => if (s.tile t).state = 3 then 0 else s.slotsFree t 0 * shardBytes).foldl (· + ·) 0

/-- RESERVE_REFILL (R416): free space that the reserve does not hold yet goes back to it, as far as user capacity still to be filled
leaves room (R409). -/
def execReserveRefill (bytes : Nat) (s : State) : Host.Outcome State Fault Refusal :=
  if s.plc.rebuild.state ≠ 0 then .next s
  else
    let room := s.dataFree + fullReserve - s.reserveHeld - (s.capacity - s.storedBytes) * 16 / 14
    .next { s with plc.reserve := s.plc.reserve + min bytes (min (fullReserve - s.plc.reserve) room) }

/-! ## Die blocks that leave service (R443) -/

/-- First index of a tile's own entries (R454). -/
def tileIndex (tile : Nat) : Nat := 0xA400 + tile

/-- Move the queued programs of a die block from a row on to the die block that replaced it. -/
def Tile.requeue (t : Tile) (c d b fromRow : Nat) (e : SuperPlace) : Tile :=
  let moves : DieOp → Bool := fun o => match o with
    | .program _ _ b' row _ => b' == b && decide (fromRow ≤ row)
    | _ => false
  let old := t.dieAt c d
  let gone := old.queue.filter moves
  let t := t.putDie { old with queue := old.queue.filter fun o => !moves o }
  let new := t.dieAt e.channel e.die
  t.putDie { new with queue := new.queue ++ gone.map fun o => match o with
    | .program i h _ row slc => .program i h e.block row slc
    | o => o }

/-- A free die block of the same channel takes over the rows of a superblock from `fromRow` on. -/
def Tile.replaceBlock (t : Tile) (c d b fromRow : Nat) : Tile :=
  let x := t.blockAt c d b
  match t.superblocks.find? fun e => e.channel == c && e.die == d && e.block == b with
  | none => t
  | some e =>
    if superRows e.region ≤ fromRow then t
    else
      let die := if (t.freeBlock c d).isSome then d
        else (List.range 10).foldl (fun (m : Nat) i => if t.freeBlocks c m < t.freeBlocks c i then i else m) 0
      let t := t.seatBlock x.region x.superblock e.pos fromRow c die
      match t.superblocks.getLast? with
      | some n => if n.fromRow = fromRow ∧ n.pos = e.pos then t.requeue c d b fromRow n else t
      | none => t

/-- SPARES_LEFT falls by 1; at 0 the tile is closed for writes. -/
def State.loseSpare (s : State) (tile : Nat) : State :=
  let n := (s.tile tile).spares - 1
  let open_ := !(s.tile tile).closed
  let s := s.mapTile tile fun t => { t with spares := n, closed := t.closed || n == 0 }
  (if n = 0 ∧ open_ then s.raise 0xA402 (tileUnit tile).word 0 0 0 else s).checkCharcoal

/-- A die block leaves service as SUSPECT or RETIRED: one already out only changes its state. -/
def State.blockOut (s : State) (tile c d b code fromRow : Nat) : State :=
  let old := ((s.tile tile).blockAt c d b).state
  if old = 6 ∨ old = 7 ∨ old = code then s
  else
    let s := s.mapTile tile fun t => t.mapBlock c d b fun x => { x with state := code }
    let s := if code = 6 then s.bump (tileIndex tile) 0x12 1 else s
    if old = 5 then s else (s.mapTile tile fun t => t.replaceBlock c d b fromRow).loseSpare tile

/-! ## Long operations (R420 to R423) -/

/-- Die blocks of the regions on tiles in service: all but the die-parity area's and those retired. -/
def State.regionBlocks (s : State) : Nat :=
  (s.mta.tiles.map fun t => if t.state = 3 then 0 else 20460 - (t.blocks.filter fun b => b.state == 6).length).foldl (· + ·) 0

/-- Pages of a die block in QLC mode. -/
def blockPages : Nat := 16384

/-- Work units of a phase of an operation (R420, R422). -/
def State.phaseWork (s : State) (op phase tenant : Nat) : Nat :=
  if op = 1 then (s.asu.pages.filter fun p => p.detached && p.tenant == tenant).length
  else if phase = 2 then s.asu.pages.length
  else if op = 4 ∧ phase ≤ 4 then s.regionBlocks * blockPages
  else s.regionBlocks

/-- The last phase of an operation. -/
def lastPhase (op : Nat) : Nat := if op = 1 then 2 else if op = 4 then 5 else 3

/-- BLOCKS_UNREACHED (R422). -/
def State.blocksUnreached (s : State) : Nat :=
  (s.mta.tiles.map fun t => if t.state = 3 then 20480 else (t.blocks.filter fun b => b.state == 6).length).foldl (· + ·) 0

/-- A long operation starts: its work units are counted, and LONG_OP_START is recorded. -/
def State.startLongOp (s : State) (op tenant pattern started : Nat) : State :=
  let phases := (List.range (lastPhase op - 1)).map fun i => s.phaseWork op (i + 2) tenant
  let o : LongOp := { op := op, phase := 2, tenant := tenant, pattern := pattern, step := 0, done := 0,
                      total := phases.foldl (· + ·) 0, position := 0, started := started, left := s.phaseWork op 2 tenant }
  ({ s with plc.longOp := some o }).raise 0x9007 (wholeUnit 9) op tenant 0

/-- PROGRESS (R420): units of 1/65,536 of the operation's work. -/
def LongOp.progress (o : LongOp) : Nat := if o.total = 0 then 0 else min 65535 (o.done * 65536 / o.total)

/-- PHASE as reported: a FORMAT reclaim's phase is not stated (R420, R422). -/
def LongOp.phaseCode (o : LongOp) : Nat := if o.op = 1 then 1 + Config.freeValue 4 o.tenant % 5 else o.phase

/-- The detached pages and stripes of a tenant are released (R423). -/
def State.reclaim (s : State) (tenant : Nat) : State :=
  let gone := s.plc.stripes.filter fun p => p.detached && p.tenant == tenant
  let s := { s with
    plc.garbage := s.plc.garbage ++ gone.flatMap fun (p : Stripe) => p.shards.map fun (h : Shard) => (h.tile, h.region, h.slot),
    plc.stripes := s.plc.stripes.filter fun p => !(p.detached && p.tenant == tenant),
    asu.pages := s.asu.pages.filter fun p => !(p.detached && p.tenant == tenant),
    plc.reclaims := s.plc.reclaims.filter (·.1 != tenant) }
  s.fitChains.releaseStripes

/-- Phase 2 of a SANITIZE: pages, packed stripes, lost-key log and records, the map roots' among them, are gone, and the roots are
reset (R422). -/
def State.wipe (s : State) : State :=
  let slots := s.plc.stripes.flatMap fun p => p.shards.map fun h => (h.tile, h.region, h.slot)
  { s with
    plc.moves := [], plc.repacks := [], plc.roots := { roots := [], dirs := [], alloc := [] },
    asu.keys := [], asu.pages := [], asu.overflows := [], asu.split := none, asu.depth := 20, asu.inserts := [], asu.reevaluate := none,
    asu.banks := s.asu.banks.map fun (b : CamBank) => { CamBank.reset with state := b.state, width := b.width },
    plc.garbage := s.plc.garbage ++ slots, plc.stripes := [], plc.lostLog := [],
    plc.journal := s.plc.journal.filter fun r => match r.body with
      | .commit _ | .relocation _ | .mapRoot _ => false
      | _ => true }.putNum 0x9020 1 0

/-- Every die block in use that has not been retired, changed. -/
def State.mapRegionBlocks (s : State) (f : DieBlock → DieBlock) : State :=
  { s with mta.tiles := s.mta.tiles.map fun (t : Tile) =>
      if t.state = 3 then t
      else { t with blocks := t.blocks.map fun b => if b.block = parityBlock ∨ b.state = 6 then b else f b } }

/-- A die block after its erase (R441): free again, with its erases counted and its reads cleared. -/
def DieBlock.erased (b : DieBlock) : DieBlock :=
  { DieBlock.fresh b.channel b.die b.block with
    qlcErases := if b.slc then b.qlcErases else b.qlcErases + 1, slcErases := if b.slc then b.slcErases + 1 else b.slcErases }

/-- A tile all of whose blocks are erased: SUSPECT blocks return (R443), superblocks go, and parity pages are released (R446). -/
def Tile.erasedAll (t : Tile) : Tile :=
  let back := (t.blocks.filter fun b => b.state == 5).length
  let t := t.parity.foldl (fun (t : Tile) q => t.parityDrop q.region q.superblock q.row) t
  { t with superblocks := [], spares := t.spares + back }

/-- Erase every block of the regions: slots, superblocks and parity pages go. -/
def State.eraseRegions (s : State) : State :=
  let s := { s with mta.tiles := s.mta.tiles.map fun (t : Tile) => if t.state = 3 then t else t.erasedAll }
  let s := s.mapRegionBlocks fun b => b.erased
  { s with
    plc.usedSlots := [], plc.garbage := [], plc.flushImage := [], plc.flushHeld := [], plc.moves := [] }

/-- What the end of a phase leaves on the medium (R422). -/
def State.endPhase (s : State) (o : LongOp) : State :=
  if o.op = 1 then s.reclaim o.tenant
  else if o.phase = 2 then s.wipe
  else if o.op = 2 then s.mapRegionBlocks fun b => if 1 ≤ b.state ∧ b.state ≤ 3 then { b with state := 4 } else b
  else if o.phase = lastPhase o.op then s.eraseRegions
  else s

/-- The end of a SANITIZE (R182, R284, R315, R332, R422, R521): the tenants' sessions end, K_fp is drawn, the return of the Rule
Table to the entry that admits all takes one update slot, the predicate store is empty, and every tenant's usage is 0. -/
def State.endSanitize (s : State) : State :=
  let n := s.cpx.draws
  let (_, s) := s.takeDraw 256
  let s := (s.endSessions fun x => x.tenant != 0).checkValue 1024
  { s with asu.printKey := n, bfc.cache := [], asu.rules := [.admitAll], asu.copy := [.admitAll], asu.accepted := [], asu.running := none,
           asu.ruleGen := (s.asu.ruleGen + 1) % 2 ^ 32, pae.preds := [],
           cqc.accounts := s.cqc.accounts.map fun (a : Account) =>
             if a.tenant = 0 then a else { a with usageBytes := 0, usageKeys := 0 } }

/-- The running phase is made of page changes (R420, R422). -/
def LongOp.onPages (o : LongOp) : Bool := o.op == 1 || o.phase == 2

/-- The pages that a phase of page changes covers. -/
def State.phasePages (s : State) (o : LongOp) : List Page :=
  s.asu.pages.filter fun p => o.op != 1 || (p.detached && p.tenant == o.tenant)

/-- Work units of a phase that take one die block: its pages where they are programmed or read. -/
def LongOp.perBlock (o : LongOp) : Nat := if o.op = 4 ∧ (o.phase = 3 ∨ o.phase = 4) then blockPages else 1

/-- Tiles in service, in order. -/
def State.tilesServing (s : State) : List Nat := (List.range s.mta.tiles.length).filter fun t => (s.tile t).state != 3

/-- The Milestone's Position (R420): the next page number, or the next tile and die block, numbered over the tile's blocks. -/
def State.positionOf (s : State) (o : LongOp) : Nat :=
  if o.onPages then ((s.phasePages o)[o.position]?.map (·.number)).getD s.asu.nextPage
  else
    let b := o.position / o.perBlock
    (s.tilesServing[b / 20460]?).getD 0 * 2 ^ 32 + b % 20460

/-- A Milestone ends a step (R420). -/
def State.milestone (s : State) (o : LongOp) : State :=
  s.journalAppend 64 (.milestone o.op o.phaseCode o.tenant o.pattern o.step o.progress (s.positionOf o)) []

/-- Most work units of one step (R420): 4,096 page changes; at 50 ms a die and the longest times of R429, 3 erases, 17 word lines of
16 pages programmed, or 588 senses of 4 pages read. Marking a die block is no tile work. -/
def State.stepBound (s : State) (o : LongOp) : Nat :=
  let dies := 20 * s.tilesServing.length
  if o.onPages then 4096
  else if o.op = 2 then o.left
  else if o.op = 4 ∧ o.phase = 3 then 272 * dies
  else if o.op = 4 ∧ o.phase = 4 then 2352 * dies
  else 3 * dies

/-- Die blocks that a step of tile work finds it cannot program, verify or erase are retired (R422). Which fail is open: a free
value (log 127). -/
def State.retireFailing (s : State) (o : LongOp) : State :=
  if o.onPages ∨ o.op = 2 then s
  else ((Config.sanitizeFails o.phase o.step).filter fun e => decide (e.1 < 64 ∧ (s.tile e.1).state ≠ 3 ∧ e.2.2.2 < parityBlock)
      && dieExists e.2.1 e.2.2.1).foldl (fun s e => s.blockOut e.1 e.2.1 e.2.2.1 e.2.2.2 6 0) s

/-- The operation ends: its entries stay for reading until the next one starts. -/
def State.endLongOp (s : State) (o : LongOp) : State :=
  let n := s.blocksUnreached
  let s := ({ s with plc.longOp := none }).putNum 0x9030 7 (if o.op = 1 then s.num 0x9030 7 else n)
  (s.raise 0x9008 (wholeUnit 9) o.op o.tenant (clampU 32 n)).readyActive

/-- One step of the running operation: `work` units of its phase, up to the bound of a step. -/
def State.longStep (s : State) (o : LongOp) (work : Nat) : State :=
  let w := min (min work (s.stepBound o)) o.left
  if w = 0 ∧ o.left ≠ 0 then s
  else
    let s := s.retireFailing o
    let at_ := o.position + w
    let o : LongOp := { o with step := o.step + 1, done := o.done + w, left := o.left - w, position := at_ }
    if o.left ≠ 0 then { s with plc.longOp := some o }.milestone o
    else
      let s := (s.endPhase o).milestone o
      if o.phase = lastPhase o.op then
        let s := if o.op = 1 then s else s.endSanitize
        s.endLongOp o
      else { s with plc.longOp := some { o with phase := o.phase + 1, position := 0, left := s.phaseWork o.op (o.phase + 1) o.tenant } }

/-- Long operations run once start-up has replayed the journal, before the ports come up (R421). -/
def State.longRuns (s : State) : Bool :=
  match s.pch.power with
  | .startUp => decide (5 ≤ s.pch.step)
  | .readyWt | .ready | .active => true
  | _ => false

/-- LONG_OP_STEP (R420 to R423): a step of the running operation, or the start of the first reclaim that waits. The last
step of a SANITIZE needs a random draw and waits for the random source (R353). -/
def execLongOpStep (work : Nat) (s : State) : Host.Outcome State Fault Refusal :=
  if !s.longRuns then .next s
  else match s.plc.longOp with
    | some o =>
      if o.op ≠ 1 ∧ o.phase = lastPhase o.op ∧ s.cpx.rngState ≠ 0 then .next s
      else if !s.journalRoom 64 then .next s.awaitJournal
      else .next (s.longStep o work)
    | none => match s.plc.reclaims with
      | [] => .next s
      | (t, at_) :: rest => .next ({ s with plc.reclaims := rest }.startLongOp 1 t 0 at_)

/-! ## Flush verification (R406) -/

/-- Shards of a flushed stripe that cannot be read: those that verification finds so, and those that the flush skipped (R407). -/
def Stripe.unreadable (p : Stripe) (found : List Nat) : List Nat :=
  (List.range p.shards.length).filter fun i => found.contains i || p.shards[i]?.any fun h => h.phase == .lost

/-- FLUSH_VERIFY (R406): a flushed stripe is checked against parity. With more than two shards unreadable it is lost; otherwise
they are reconstructed, and it drains as any other, but for the shards that the flush skipped, which the rebuild writes. -/
def execFlushVerify (stripe : Nat) (unreadable : List Nat) (s : State) : Host.Outcome State Fault Refusal :=
  match s.stripe? stripe with
  | none => .next s
  | some p =>
    if !s.plc.flushImage.contains stripe ∨ s.pch.power ≠ .readyWt then .next s
    else
      let s := { s with plc.flushImage := s.plc.flushImage.filter (· != stripe) }
      if 2 < (p.unreadable unreadable).length then .next (s.loseStripe stripe)
      else .next ((s.mapStripe stripe fun q => { q with
        shards := q.shards.map fun h => if h.phase = .programmed ∨ h.phase = .lost then h else { h with phase := .dirty } }).settleStripe stripe)

end Sys2Proof.Machine
end

