-- ==== Sys2Proof/Machine/Tiles.lean ====
section
/-!
DEFINITION. The rows of the media tiles: die queues, reads and the retry ladder, programs, erases, verification of rows
with die parity, rewrites, temperatures, power states and faults (R425 to R454).
-/
namespace Sys2Proof.Machine

/-- Unit id of a die (R576). -/
def dieUnit (tile channel die : Nat) : Nat := unitId 0xA (tile * 32 + channel * 16 + die)

/-- The tile and the die exist (R13, R425). -/
def unitsExist (tile channel die : Nat) : Bool := decide (tile < 64) && dieExists channel die

/-! ## The order of a die's queue (R430) -/

/-- Row of the table of R430, from 0. -/
def DieOp.rank : DieOp → Nat
  | .read c rebuild .. => if rebuild then 2 else c.val
  | .program .. | .filler .. => 3
  | .erase _ => 4
  | .background .. | .verify .. => 5

/-- Rank of a read of the background class: it goes after erases. -/
def DieOp.order (o : DieOp) : Nat :=
  match o with
  | .read 3 false .. => 5
  | _ => o.rank

/-- Operation `a` starts before a later arrival `b`: programs of one die block keep their row order by waiting. -/
def DieOp.goesFirst (a b : DieOp) : Bool := decide (a.order ≤ b.order)

def DieOp.isRead : DieOp → Bool
  | .read .. | .background .. => true
  | _ => false

/-- A verification read, which the dies of its row make together (R446). -/
def DieOp.isVerify : DieOp → Bool
  | .verify .. => true
  | _ => false

/-- Die block an operation is for. -/
def DieOp.target : DieOp → Nat
  | .read _ _ _ _ b .. => b
  | .program _ _ b .. => b
  | .filler b .. => b
  | .erase b => b
  | .background b .. => b
  | .verify b _ => b

/-- A program that must wait: a lower row of its die block has a shard still to come (R436), or no parity page is free
(R445). -/
def State.programWaits (s : State) (tile c d : Nat) (o : DieOp) : Bool :=
  match o with
  | .program _ _ b row _ => (s.tile tile).parityDie.isNone || s.rowPending tile c d b row
  | _ => false

/-- The operation that starts next among those queued, with its place. -/
def nextOp (ok : DieOp → Bool) (l : List DieOp) : Option (Nat × DieOp) :=
  ((List.range l.length).filterMap fun i => (l[i]?).map fun o => (i, o)).foldl (fun b e =>
    if !ok e.2 then b
    else match b with
      | none => some e
      | some f => if f.2.goesFirst e.2 then b else some e) none

/-- Longest time of an operation on the die, µs (R429). -/
def DieOp.time : DieOp → Nat
  | .program _ _ _ _ slc | .filler _ _ slc => if slc then 200 else 2800
  | .erase _ => 15000
  | .read _ _ _ _ _ _ slc _ | .background _ _ slc => if slc then 11 else 85
  | .verify .. => 85

/-! ## Programs refused (R399, R444) -/

/-- A shard is given back to PLC for another slot (R399). -/
def State.failShard (s : State) (id i : Nat) : State := s.mapShard id i fun h => { h with phase := .failed }

/-! ## DIE_OP_START (R430, R444) -/

/-- The check before every program: ERASED or OPEN, at the write pointer, and in the mode of the die block. -/
def State.programAllowed (s : State) (tile c d b row : Nat) (slc : Bool) : Bool :=
  let x := (s.tile tile).blockAt c d b
  decide (s.blockCode tile c d b ≤ 1) && decide (x.pointer = row) && x.slc == slc

/-- The row at the write pointer that no shard comes for: it is programmed ahead of a higher one, so that rows stay in order (R436).
DESIGN CHOICE (log 101). -/
def State.fillerFor (s : State) (tile c d b row : Nat) (slc : Bool) : Option DieOp :=
  let x := (s.tile tile).blockAt c d b
  if s.blockCode tile c d b ≤ 1 ∧ x.slc = slc ∧ x.pointer < row ∧ row < blockRows slc then some (.filler b x.pointer slc) else none

/-- A program failed or was refused: PLC gives the shard another slot (R399); the slot of a move is given up. -/
def State.programLost (s : State) (tile c d b row id i : Nat) : State :=
  match s.moveAt tile c d b row id i with
  | some m => s.dropMoves fun x => x == m
  | none => s.failShard id i

/-- A program is refused without touching the die. -/
def State.refuseProgram (s : State) (tile c d b row id i : Nat) : State :=
  let code := s.blockCode tile c d b
  let s := (s.bump (tileIndex tile) 0x0D 1).raise 0xA805 (dieUnit tile c d) b row code
  (s.programLost tile c d b row id i).blockOut tile c d b 5 (row + 1)

/-- A die begins an operation. -/
def State.begin_ (s : State) (tile : Nat) (x : Die) (o : DieOp) : State :=
  match o with
  | .program id i b row slc =>
    match s.fillerFor tile x.channel x.die b row slc with
    | some f => s.mapTile tile fun t => t.putDie { x with queue := o :: x.queue, doing := some (f, s.now, 0) }
    | none =>
    if s.programAllowed tile x.channel x.die b row slc then s.mapTile tile fun t => t.putDie { x with doing := some (o, s.now, 0) }
    else (s.mapTile tile fun t => t.putDie x).refuseProgram tile x.channel x.die b row id i
  | _ =>
    let s := if o.isRead then s.traced 7 (tileLane tile) none 1 else s
    s.mapTile tile fun t => t.putDie { x with doing := some (o, s.now, 0) }

/-- The die starts its next operation when it is free; it waits for the others of a row whose verification is next. -/
def State.startFree (s : State) (tile : Nat) (x : Die) : State :=
  let ok : DieOp → Bool := fun o =>
    !s.programWaits tile x.channel x.die o && (x.suspended.isNone || o.isRead)
  match (nextOp ok x.queue).filter fun e => !e.2.isVerify, x.suspended with
  | none, none => s
  | none, some (o, ran, n) => s.mapTile tile fun t => t.putDie { x with doing := some (o, s.now - ran, n), suspended := none }
  | some (i, o), none => s.begin_ tile { x with queue := x.queue.eraseIdx i } o
  | some (i, o), some (p, ran, n) =>
    if o.order < p.order then s.begin_ tile { x with queue := x.queue.eraseIdx i } o
    else s.mapTile tile fun t => t.putDie { x with doing := some (p, s.now - ran, n), suspended := none }

/-- The die stops what it does for a read that may interrupt it, and starts the read. -/
def State.interrupt (s : State) (tile : Nat) (x : Die) (i : Nat) (o p : DieOp) (started n : Nat) : State :=
  let x := { x with queue := x.queue.eraseIdx i }
  if p.isRead then s.begin_ tile { x with queue := p :: x.queue, doing := none } o
  else s.begin_ tile { x with doing := none, suspended := some (p, s.now - started, if o.order = 0 then n else n + 1) } o

/-- A waiting read may interrupt the operation in progress: an Express/0 read suspends a program or erase and stops a QLC
sense of another class; a Standard/1 read suspends one with more than 100 µs to go, at most four times. -/
def State.mayInterrupt (s : State) (o p : DieOp) (started n : Nat) : Bool :=
  if o.order = 0 then (match p with
    | .read _ _ _ _ _ _ slc _ => !slc && p.order != 0
    | .background _ _ slc => !slc
    | _ => true)
  else o.order == 1 && !p.isRead && decide (s.now + 100 < started + p.time ∧ n < 4)

/-- DIE_OP_START (R430): the tile runs and the die's sequencer starts, resumes, suspends or stops an operation. -/
def execDieOpStart (tile channel die : Nat) (s : State) : Host.Outcome State Fault Refusal :=
  if !unitsExist tile channel die then .fault .noSuchUnit
  else
    let t := s.tile tile
    if !t.inUse ∨ t.state ≠ 0 then .next s
    else
      let x := t.dieAt channel die
      match x.doing with
      | none => .next (s.startFree tile x)
      | some (p, started, n) => match nextOp (fun o => o.isRead && (x.suspended.isNone || p.isRead)) x.queue with
        | none => .next s
        | some (i, o) => if s.mayInterrupt o p started n then .next (s.interrupt tile x i o p started n) else .next s

/-! ## READ_DONE (R432 to R435, R438 to R440) -/

/-- Days and smaller spans in µs. -/
def minuteUs : Nat := 60000000
def dayUs : Nat := 86400000000

/-- The upper edges of the age buckets 0 to 14. -/
def ageEdges : List Nat :=
  [10 * minuteUs, 60 * minuteUs, 240 * minuteUs, 720 * minuteUs, dayUs, 3 * dayUs, 7 * dayUs, 14 * dayUs, 30 * dayUs,
   60 * dayUs, 90 * dayUs, 182 * dayUs, 365 * dayUs, 730 * dayUs, 1095 * dayUs]

/-- Age bucket of a read (R438). -/
def ageBucket (us : Nat) : Nat := (ageEdges.filter fun e => decide (e ≤ us)).length

/-- Temperature bucket of a difference in °C (R438). -/
def tempBucket (dt : Int) : Nat := (([-34, -24, -14, -4, 6, 16, 26] : List Int).filter fun e => decide (e ≤ dt)).length

/-- Byte offset of a threshold entry (R439). -/
def thresholdOffset (slc : Bool) (a d : Nat) : Nat := 16 * ((if slc then 128 else 0) + 8 * a + d)

/-- The threshold entry that a read of a die block uses now. -/
def State.thresholds (s : State) (tile c d b : Nat) : Bytes :=
  let x := (s.tile tile).blockAt c d b
  window (s.blob 0xA000 0x10) 4096
    (thresholdOffset x.slc (ageBucket (s.now - x.time)) (tempBucket (((s.tile tile).dieAt c d).temp - x.temp))) 16

/-- A codeword as it was decoded: ladder step 1 to 5 and corrected bits, from the operand `1024 * (step - 1) + bits`; step 6 stands
for an uncorrectable one that die parity could not recover either (R434). -/
def codeword (n : Nat) : Nat × Nat := (min 6 (n / 1024 + 1), n % 1024)

/-- Senses that a ladder of so many steps takes; step 2 is skipped in age bucket 15. -/
def senses (step : Nat) (oldest : Bool) : Nat :=
  let skip := if oldest ∧ 2 ≤ step then 1 else 0
  (match step with
    | 1 => 1
    | 2 => 2
    | 3 => 4
    | _ => 8) - skip

/-- The codeword calls for a rewrite of its die block (R435, R434). -/
def State.weak (s : State) (w : Nat × Nat) : Bool :=
  decide (3 ≤ w.1) || decide (120 * s.num 0xA000 0x06 < 100 * w.2)

/-- The read counter is active (R440). -/
def State.countsReads (s : State) : Bool :=
  s.num 0xA000 3 == 1 || (s.num 0xA000 3 == 0 && s.flag 0xA000 2)

/-- Queue a die block for rewrite, once. -/
def DieBlock.queueRewrite (b : DieBlock) (why : Nat) : DieBlock := if b.queued = 0 then { b with queued := why } else b

/-- Counters of a read (R432, R433, R454). -/
def State.countRead (s : State) (tile : Nat) (oldest : Bool) (l : List (Nat × Nat)) : State :=
  let at_ := fun (k : Nat) => (l.filter fun w => decide (k ≤ w.1)).length
  let i := tileIndex tile
  let s := s.bump i 0x06 (l.filter fun w => decide (w.1 ≤ 4)).length
  let s := s.bump i 0x07 (((l.filter fun w => decide (w.1 ≤ 4)).map (·.2)).foldl (· + ·) 0)
  let s := s.bump i 0x08 (if oldest then 0 else at_ 2)
  (s.bump i 0x09 (at_ 3 + at_ 4)).bump i 0x0A (at_ 5)

/-- The codewords of a sense include one that nothing on the tile recovers: the row is verified, or die parity fails (R434). -/
def State.unrecovered (s : State) (tile c d b row : Nat) (l : List (Nat × Nat)) : Bool :=
  let x := (s.tile tile).blockAt c d b
  l.any fun w => decide (5 ≤ w.1) && (w.1 == 6 || !(s.tile tile).hasParity x.region x.superblock row)

/-- A shard whose read stays uncorrectable: it is reconstructed, and written anew (R389, R413, R434); reads of the range that
`part` gives of it are degraded. With a third shard missing the stripe is lost. -/
def State.badShard (s : State) (id i : Nat) (part : ReadPart) : State :=
  let s := s.failShard id i
  match s.stripe? id with
  | some p =>
    if p.dirty then s
    else if 2 < s.goneCount p then s.loseStripe id
    else
      let at_ := i * shardBytes + part.off
      (s.mapStripe id fun q => { q with degraded := true }).degradeReads fun n off len =>
        n == id && decide (i < p.k ∧ at_ < off + len ∧ off < at_ + part.len)
  | none => s

/-- Data that a read of a shard brings (R262, R266): to the buffer, a value's through XTS-D, or to placement for a reconstruction. -/
def State.bringData (s : State) (tile : Nat) (cls : Cls) (rebuild : Bool) (id i : Nat) (part : ReadPart) : State :=
  match s.stripe? id with
  | none => s
  | some p =>
    if rebuild ∨ part.around then s.transfer (tileLane tile) (plcLane id) cls part.lead noTask part.len (some (id, i))
    else if p.kind = 3 then s.transfer (tileLane tile) (bufferLane id) cls part.lead noTask part.len (some (id, i))
    else s.crypt .xtsD p.tenant (tileLane tile) (bufferLane id) cls part.lead noTask part.len (back := some (id, i))

/-- The read of a shard's part ends: its data goes on, or is read from the other shards. -/
def State.readEnds (s : State) (tile c d b row : Nat) (cls : Cls) (rebuild : Bool) (id i : Nat) (part : ReadPart)
    (l : List (Nat × Nat)) : State :=
  let x := (s.tile tile).blockAt c d b
  if s.unrecovered tile c d b row l then
    let s := s.badShard id i part
    match s.stripe? id with
    | some p => if p.lost then s else s.readAround cls rebuild p i part
    | none => s
  else
    let s := if l.any (fun w => w.1 == 5) && (s.tile tile).hasParity x.region x.superblock row then s.bump (tileIndex tile) 0x0F 1 else s
    s.bringData tile cls rebuild id i part

/-- A page is placed again on its tile with the data that PLC has of it, or, where the tile has no place for it, as a shard whose
program failed is (R399, R447). -/
def State.placeAgain (s : State) (tile : Nat) (source : Nat × Nat × Nat) (v : Nat × Nat × Nat × Nat) : State :=
  if s.moving tile v then s
  else
    let s := s.bump 0x9060 0x04 1
    match s.moveDest tile v.2.2.1 source with
    | some dest =>
      let s := s.addMove tile dest v source 3 true
      match s.plc.moves.getLast? with
      | some m => s.programMove m
      | none => s
    | none => s.failShard v.1 v.2.1

/-- A Background read of a row ends (R430, R437, R447): the slot that moves goes to its new place; a page that cannot be read is
recovered from die parity, or its shard is reconstructed; a page recovered that no move asked for is placed again. -/
def State.backgroundEnds (s : State) (tile c d b row : Nat) (l : List (Nat × Nat)) : State :=
  let x := (s.tile tile).blockAt c d b
  match (s.slotsIn tile c d b).find? fun v => v.2.2.2 == row with
  | none => s.dropMoves fun m => m.tile == tile && m.source == (c, d, b) && !m.read && (match (s.tile tile).locate m.region m.from_ with
      | some e => e.2.2.2 == row
      | none => true)
  | some v =>
    let move := s.plc.moves.find? fun m => m.tile == tile && m.stripe == v.1 && m.shard == v.2.1 && m.source == (c, d, b) && !m.read
    if s.unrecovered tile c d b row l then
      (s.dropMoves fun m => some m == move).badShard v.1 v.2.1 { off := 0, len := shardBytes, around := true, lead := false }
    else
      let bad := l.any fun w => w.1 == 5
      let s := if bad then s.bump (tileIndex tile) 0x0F 1 else s
      match move with
      | some m =>
        let n : Move := { m with read := true }
        { s with plc.moves := s.plc.moves.map fun y => if y = m then n else y }.programMove n
      | none => if bad && x.state != 1 && x.state != 2 then s.placeAgain tile (c, d, b) v else s

/-- A sense of a die block ends with the given codewords. -/
def State.sensed (s : State) (tile c d b : Nat) (l : List (Nat × Nat)) : State :=
  let x := (s.tile tile).blockAt c d b
  let oldest := ageBucket (s.now - x.time) == 15
  let deepest := (l.map (·.1)).foldl max 1
  let s := s.countRead tile oldest l
  let reads := min (x.reads + senses deepest oldest) (maxU 32)
  let limit := if x.slc then s.num 0xA000 5 else s.num 0xA000 4
  let why := if l.any s.weak then 1 else if s.countsReads ∧ limit ≤ reads then 2 else 0
  s.mapTile tile fun t => t.mapBlock c d b fun k =>
    let k := { k with reads := reads }
    if why = 0 then k else k.queueRewrite why

/-- A read that the tile was told to make is done, at the deepest step that one of its codewords climbed to (R433, R600). -/
def State.sensedRead (s : State) (tile c d b : Nat) (l : List (Nat × Nat)) : State :=
  (s.sensed tile c d b l).traced 7 (tileLane tile) none (256 + (l.map (·.1)).foldl max 1)

/-- READ_DONE (R433): the sense in progress ends; each number of the outcome is a codeword of it. -/
def execReadDone (tile channel die : Nat) (outcome : List Nat) (s : State) : Host.Outcome State Fault Refusal :=
  if !unitsExist tile channel die then .fault .noSuchUnit
  else
    let x := (s.tile tile).dieAt channel die
    match x.doing with
    | some (o, _, _) =>
      if !o.isRead then .next s
      else
        let l := outcome.map codeword
        let s := s.mapTile tile fun t => { t.putDie { x with doing := none } with idleSince := s.now }
        let s := s.sensedRead tile channel die o.target l
        match o with
        | .read cls rebuild id i b row _ part => .next (s.readEnds tile channel die b row cls rebuild id i part l)
        | .background b row _ => .next (s.backgroundEnds tile channel die b row l)
        | _ => .next s
    | none => .next s

/-! ## Programs and erases (R442, R445, R447) -/

/-- A row of a die block has been programmed with its parity page, and what it makes verifiable joins the dies' queues (R445,
R446). -/
def State.rowProgrammed (s : State) (tile c d b : Nat) : State :=
  s.mapTile tile fun t => (t.programRow c d b s.now (t.dieAt c d).temp).queueVerifies

/-- PROGRAM_DONE (R442): the row in progress is programmed; a move ends with it (R400, R437). -/
def execProgramDone (tile channel die : Nat) (s : State) : Host.Outcome State Fault Refusal :=
  if !unitsExist tile channel die then .fault .noSuchUnit
  else
    let x := (s.tile tile).dieAt channel die
    let s' := s.mapTile tile fun t => { t.putDie { x with doing := none } with idleSince := s.now }
    match x.doing with
    | some (.filler b _ _, _, _) => .next (s'.rowProgrammed tile channel die b)
    | some (.program id i b row _, _, _) =>
      let s := s'.rowProgrammed tile channel die b
      match s.moveAt tile channel die b row id i with
      | some m => .next (s.landMove m)
      | none => .next s
    | _ => .next s

/-- PROGRAM_FAILED (R447): the die block is retired, its unverified rows are read, and PLC places the shard elsewhere. -/
def execProgramFailed (tile channel die : Nat) (s : State) : Host.Outcome State Fault Refusal :=
  if !unitsExist tile channel die then .fault .noSuchUnit
  else
    let x := (s.tile tile).dieAt channel die
    let failed : State → Nat → Nat → State := fun s b row =>
      let k := (s.tile tile).blockAt channel die b
      let reads := ((List.range k.pointer).filter fun r => !k.verified.contains r).map fun r => DieOp.background b r k.slc
      let s := s.mapTile tile fun t => { t.putDie { x with doing := none, queue := x.queue ++ reads } with idleSince := s.now }
      (s.bump (tileIndex tile) 0x0B 1).raise 0xA804 (dieUnit tile channel die) b row 0
    match x.doing with
    | some (.filler b row _, _, _) => .next ((failed s b row).blockOut tile channel die b 6 (row + 1))
    | some (.program id i b row _, _, _) =>
      .next (((failed s b row).programLost tile channel die b row id i).blockOut tile channel die b 6 (row + 1))
    | _ => .next s

/-- A superblock all of whose die blocks are erased is released: its die blocks are free (R428), and its parity pages are
released. A block RETIRED and not erased keeps its mode (R425). -/
def Tile.releaseSuper (t : Tile) (region superblock : Nat) : Tile :=
  let mine : SuperPlace → Bool := fun e => e.region == region && e.superblock == superblock
  let places := t.superblocks.filter mine
  let clear : SuperPlace → Bool := fun e =>
    let b := t.blockAt e.channel e.die e.block
    b.state == 6 || (b.state == 0 && b.pointer == 0)
  if !places.isEmpty ∧ places.all clear then
    let t := (t.parity.filter fun q => q.region == region && q.superblock == superblock).foldl
      (fun (t : Tile) q => t.parityDrop q.region q.superblock q.row) t
    let t : Tile := { t with superblocks := t.superblocks.filter fun e => !mine e }
    places.foldl (fun t e => t.mapBlock e.channel e.die e.block fun b =>
      { b with region := 0xFF, superblock := 0xFFFF, slc := b.slc && b.state == 6 }) t
  else t

/-- The slots of a die block without a valid shard are free once it is erased. -/
def State.freeSlots (s : State) (tile c d b : Nat) : State :=
  let t := s.tile tile
  let here : Nat × Nat × Nat → Bool := fun u => u.1 == tile && (match t.locate u.2.1 u.2.2 with
    | some (c', d', b', _) => c' == c && d' == d && b' == b
    | none => false)
  { s with plc.usedSlots := s.plc.usedSlots.filter fun u => !here u, plc.garbage := s.plc.garbage.filter fun u => !here u }

/-- ERASE_DONE (R442): a pass makes the die block ERASED, a failed erase or blank check RETIRED; one of the die-parity area is never
retired and is erased again. -/
def execEraseDone (tile channel die : Nat) (passed : Bool) (s : State) : Host.Outcome State Fault Refusal :=
  if !unitsExist tile channel die then .fault .noSuchUnit
  else
    let x := (s.tile tile).dieAt channel die
    match x.doing with
    | some (.erase b, _, _) =>
      let k := (s.tile tile).blockAt channel die b
      let s := s.mapTile tile fun t => { t.putDie { x with doing := none } with idleSince := s.now }
      let s := s.freeSlots tile channel die b
      if passed then
        let s := s.mapTile tile fun t => t.putBlock
          { k.erased with region := k.region, superblock := k.superblock, slc := k.slc }
        let s := if k.state = 5 then s.mapTile tile fun t => { t with spares := t.spares + 1 } else s
        .next (s.mapTile tile fun t => (t.trimVerify k.region k.superblock).releaseSuper k.region k.superblock)
      else
        let s := (s.bump (tileIndex tile) 0x0C 1).raise 0xA806 (dieUnit tile channel die) b 0 0
        .next ((s.blockOut tile channel die b 6 0).mapTile tile Tile.eraseParity)
    | _ => .next s

/-! ## ROW_VERIFY (R446, R447) -/

/-- A row of a die block has been verified; the last one makes it VERIFIED. -/
def DieBlock.verify (b : DieBlock) (row : Nat) : DieBlock :=
  let l := if b.verified.contains row then b.verified else row :: b.verified
  { b with verified := l, state := if (b.state = 1 ∨ b.state = 2) ∧ l.length = blockRows b.slc then 3 else b.state }

/-- A page that failed verification: counted, its die block SUSPECT, and its shard placed again when it can be recovered. -/
def State.failPage (s : State) (tile row : Nat) (recovered : Bool) (e : SuperPlace) : State :=
  let s := s.blockOut tile e.channel e.die e.block 5 (((s.tile tile).blockAt e.channel e.die e.block).pointer)
  if !recovered then s
  else
    let s := s.bump (tileIndex tile) 0x0F 1
    match (s.slotsIn tile e.channel e.die e.block).find? fun v => v.2.2.2 == row with
    | some v => s.placeAgain tile (e.channel, e.die, e.block) v
    | none => s

/-- The codewords of a page as a verification read decoded them: the outcome lists them by position of the page, one not
listed decodes at step 1 without a corrected bit (R425, R446). -/
def pageCodewords (outcome : List (List Nat)) (pos : Nat) : List (Nat × Nat) :=
  (List.range 16).map fun i => codeword (((outcome[pos]?.getD [])[i]?).getD 0)

/-- A page fails verification unless every codeword decodes at step 1 within the threshold of R435. -/
def State.pageFails (s : State) (l : List (Nat × Nat)) : Bool := l.any fun w => w.1 != 1 || s.weak w

/-- A die takes its verification read of a row: it does nothing else, and that read is the next of its queue (R430). -/
def State.verifyNext (s : State) (tile : Nat) (x : Die) (block row : Nat) : Bool :=
  x.doing.isNone && x.suspended.isNone
    && ((nextOp (fun o => !s.programWaits tile x.channel x.die o) x.queue).any fun e => e.2 == .verify block row)

/-- ROW_VERIFY (R446): a verifiable row is read; `outcome` gives each page's codewords by position. -/
def execRowVerify (tile channel die block row : Nat) (outcome : List (List Nat)) (s : State) : Host.Outcome State Fault Refusal :=
  if !unitsExist tile channel die ∨ parityBlock ≤ block then .fault .noSuchUnit
  else
    let t := s.tile tile
    let b := t.blockAt channel die block
    let pages := t.rowPages b.region b.superblock row
    if !t.inUse ∨ t.state ≠ 0 ∨ !t.verifies b.region b.superblock row
        ∨ pages.any (fun e => !s.verifyNext tile (t.dieAt e.channel e.die) e.block row) then .next s
    else
      let s := s.mapTile tile fun t => t.dropVerify b.region b.superblock row
      let bad := pages.filter fun e => s.pageFails (pageCodewords outcome e.pos)
      let s := pages.foldl (fun s e => s.sensed tile e.channel e.die e.block (pageCodewords outcome e.pos)) s
      match bad with
      | [] =>
        let s := s.mapTile tile fun t => t.parityDrop b.region b.superblock row
        .next (pages.foldl (fun s e => s.mapTile tile fun t => t.mapBlock e.channel e.die e.block fun k => k.verify row) s)
      | first :: more =>
        let s := (s.bump (tileIndex tile) 0x0E 1).raise 0xA803 (dieUnit tile first.channel first.die) first.block row 0
        .next (bad.foldl (fun s e => s.failPage tile row more.isEmpty e) s)

/-! ## REWRITE (R437, R440) -/

/-- REWRITE (R437): the valid slots of a queued die block move, each by a read, a program and relocation records, and the block
is handed for erase. -/
def execRewrite (tile channel die block : Nat) (s : State) : Host.Outcome State Fault Refusal :=
  if !unitsExist tile channel die ∨ parityBlock ≤ block then .fault .noSuchUnit
  else
    let s := s.landMoves
    let b := (s.tile tile).blockAt channel die block
    if b.queued = 0 ∨ s.gap ∨ !(s.tile tile).inUse ∨ s.erasePending tile channel die block
        ∨ !s.settled tile channel die block ∨ s.movesInto tile channel die block then .next s
    else .next (s.emptyBlock tile channel die block b.queued)

/-! ## Temperatures (R436, R454) -/

/-- Bucket of TEMP_HISTORY. -/
def historyBucket (celsius : Int) : Nat := if celsius < 0 then 0 else min 23 (celsius.toNat / 5 + 1)

/-- The hottest die of a tile. -/
def Tile.hottest (t : Tile) : Int :=
  match t.dies with
  | [] => 0
  | d :: l => l.foldl (fun m x => max m x.temp) d.temp

/-- A signed 32-bit entry as an integer. -/
def State.signed (s : State) (index sub : Nat) : Int :=
  let n := s.num index sub
  if 2147483648 ≤ n then (n : Int) - 4294967296 else n

/-- DIE_TEMP_SAMPLE (R436): a die's sensor, or the tile controller's in its stead, is sampled. -/
def execDieTempSample (tile channel die : Nat) (celsius : Int) (sensor : Bool) (s : State) : Host.Outcome State Fault Refusal :=
  if !unitsExist tile channel die then .fault .noSuchUnit
  else
    let t := s.tile tile
    let x := t.dieAt channel die
    let s := if sensor ∨ x.sensorFailed then s else s.raise 0xA401 (dieUnit tile channel die) 0 0 0
    let spent := s.now - t.tempAt
    let us := t.tempUs.modify (historyBucket t.hottest) (· + spent)
    let t := { t.putDie { x with temp := celsius, sensorFailed := !sensor } with tempUs := us, tempAt := s.now }
    let s := (s.mapTile tile fun _ => t).putNum (tileIndex tile) 0x15 (clampI 32 t.hottest)
    if s.signed (tileIndex tile) 0x16 < t.hottest then .next (s.putNum (tileIndex tile) 0x16 (clampI 32 t.hottest)) else .next s

/-! ## Power states of a tile (R276, R449 to R451) -/

/-- The tile holds a live FAST slot of a key whose index entry carries PIN. -/
def State.fastHolder (s : State) (tile : Nat) : Bool :=
  s.plc.stripes.any fun p => p.shards.any (fun h => h.tile == tile && h.region == 1)
    && s.asu.keys.any fun k => k.pinned && k.extents.any fun e => e.stripe == p.id

/-- TILE_EMBER_IDLE (R450). -/
def execTileEmberIdle (tile : Nat) (s : State) : Host.Outcome State Fault Refusal :=
  if 64 ≤ tile then .fault .noSuchUnit
  else
    let t := s.tile tile
    if t.state = 0 ∧ !t.isolated ∧ s.tileIdle tile ∧ t.idleSince + s.num 0xA000 0 ≤ s.now then
      .next (s.mapTile tile fun t => { t with state := 1, idleSince := s.now })
    else .next s

/-- TILE_PEAT_IDLE (R450, R451): one safe point of the entry to Peat is passed; the third ends in Peat. -/
def execTilePeatIdle (tile : Nat) (s : State) : Host.Outcome State Fault Refusal :=
  if 64 ≤ tile then .fault .noSuchUnit
  else
    let t := s.tile tile
    let wait := s.num 0xA000 1
    if t.state ≠ 1 ∨ !s.tileIdle tile ∨ (s.fastHolder tile ∧ s.num 0x4000 0 ≠ 0) then .next s
    else if t.peatStep = 0 ∧ (wait = 0 ∨ s.now < t.idleSince + wait * 1000) then .next s
    else if t.peatStep < 2 then .next (s.mapTile tile fun t => { t with peatStep := t.peatStep + 1 })
    else .next (s.mapTile tile fun t => { t with state := 2, peatStep := 0 })

/-- A tile goes to Run and counts the wake. -/
def State.wakeTile (s : State) (tile : Nat) : State :=
  let t := s.tile tile
  if t.state = 1 ∨ t.state = 2 then
    (s.mapTile tile fun t => { t with state := 0, peatStep := 0, idleSince := s.now }).bump (tileIndex tile)
      (if t.state = 1 then 0x13 else 0x14) 1
  else s

/-- TILE_WAKE (R451): work addressed to a tile in Ember or Peat, or on its way there, wakes it to Run. -/
def execTileWake (tile : Nat) (s : State) : Host.Outcome State Fault Refusal :=
  if 64 ≤ tile then .fault .noSuchUnit
  else if s.tileIdle tile then .next s
  else .next (s.wakeTile tile)

/-! ## TILE_FAULT (R412, R452) -/

/-- Tiles that a fault of a kind on a unit concerns; none when the kind does not fit the unit. -/
def faultTiles (u : UnitId) (kind : Nat) : Option (List Nat) :=
  if u.subsystem ≠ 0xA then none
  else
    let part := u.number % 16
    if u.number < 2048 then
      let ok := (kind = 1 ∧ part = 15 ∧ u.number % 32 = 15) ∨ (kind = 2 ∧ part = 14) ∨ (kind = 3 ∧ part < 10)
      if ok then some [u.number / 32] else none
    else if kind = 4 ∧ u.number < 2052 then some ((List.range 16).map fun i => (u.number - 2048) * 16 + i)
    else none

/-- TILE_FAULT (R452): the event is recorded, and each tile concerned is isolated for its targeted test. -/
def execTileFault (u : UnitId) (kind : Nat) (s : State) : Host.Outcome State Fault Refusal :=
  match faultTiles u kind with
  | none => .fault .noSuchUnit
  | some l =>
    let on := l.filter fun t => (s.tile t).inUse
    if on.isEmpty then .next s
    else .next (on.foldl (fun s t => s.isolate (tileUnit t) 1) (s.raise 0xA807 u.word kind 0 0))

end Sys2Proof.Machine
end

