-- ==== Sys2Proof/Machine/Admin.lean ====
section
/-!
DEFINITION. The administrative operations: QUEUE_RESET, SANITIZE, FORMAT and POWER_STATE (R179 to R188, R214 to R217,
R360, R422, R423).
-/
namespace Sys2Proof.Machine

/-! ## QUEUE_RESET (R179, R180, R214 to R217) -/

/-- End a task with a status and a detail; it posts as every completion does (R60, R209), at once where it may. -/
def State.endTask (s : State) (status detail : Nat) (u : Trs) : State :=
  let s := s.fail u.idx status detail
  match s.trs? u.idx with
  | some v => if s.postable v then (s.postNow v).getD s else s
  | none => s

/-- ABORTED is posted for tasks in the order of the list; true where every one of them has been. The first that a closed
window holds back holds those behind it (R216). -/
def State.abortTasks (s : State) : List Trs → Bool × State
  | [] => (true, s)
  | u :: l =>
    let a := s.fail u.idx stAborted 0
    match a.trs? u.idx with
    | none => s.abortTasks l
    | some v => match a.postNow v with
      | some s => s.abortTasks l
      | none => (false, s)

/-- Likewise for lane commands. -/
def State.abortDescs (s : State) : List (Nat × Desc) → Bool × State
  | [] => (true, s)
  | e :: l =>
    let a := { s with cqc.aborting := s.cqc.aborting.filter (· != e) }
    match ((a.answerDescs [e.2] stAborted 0).bump 0x3010 0x08 1).handOver e.2.session e.2.reqId with
    | some s => s.abortDescs l
    | none => (false, s)

/-- After the effect cycle: ABORTED is posted in TRS index order, then for the lane commands in arrival order; then the
QUEUE_RESET has its own result, with the counts of the effect cycle. -/
def State.queueReset (s : State) (t : Trs) : State :=
  match s.abortTasks ((s.cqc.trs.filter fun u => u.abortedBy == some t.idx).mergeSort fun a b => decide (a.idx ≤ b.idx)) with
  | (false, s) => s
  | (true, s) => match s.abortDescs (s.cqc.aborting.filter fun e => e.1 == t.idx) with
    | (false, s) => s
    | (true, s) => s.pruneOlder.releaseHeld.finish t.idx stOk 0 t.respFields []

/-- QUEUE_RESET (R179, R216): it has had its effect cycle when it started; its results follow. -/
def execQueueReset (task : Nat) (s : State) : Host.Outcome State Fault Refusal :=
  match s.running task opQueueReset with
  | none => .next s
  | some t => .next (s.queueReset t)

/-! ## SANITIZE (R181 to R183, R360, R422) -/

/-- A firmware slot that is STAGING becomes EMPTY (R615, R616). -/
def State.dropStaging (s : State) : State :=
  let clear : Slot → Slot := fun x => if x.state = 1 then { x with state := 0, image := [] } else x
  { s with msv.slot1 := clear s.msv.slot1, msv.slot2 := clear s.msv.slot2, msv.fwStaged := none }

/-- From the admission of a SANITIZE on, commands that it refuses and that have not started complete with SANITIZING
(R182). -/
def State.stopUnstarted (s : State) (t : Trs) : State :=
  (s.cqc.trs.filter fun u => u.idx != t.idx && sanitizeRefuses u.opcode u.fields && !u.started && u.abortedBy.isNone).foldl
    (State.endTask · stSanitizing s.sanitizeDetail ·) s

/-- Drop the stripes of the dirty write buffer that meet a condition: their slots are free again. -/
def State.dropDirty (s : State) (pick : Stripe → Bool) : State :=
  let gone := s.plc.stripes.filter fun p => p.dirty && pick p
  let slots := gone.flatMap fun (p : Stripe) => p.shards.map fun (h : Shard) => (h.tile, h.region, h.slot)
  { s with plc.stripes := s.plc.stripes.filter fun p => !(p.dirty && pick p),
           plc.flushImage := s.plc.flushImage.filter fun id => !gone.any fun p => p.id == id,
           plc.garbage := s.plc.garbage ++ slots }

/-- A started command still holds the stripe: it wrote it, or waits for it. -/
def State.stripeHeld (s : State) (id : Nat) : Bool :=
  s.cqc.trs.any fun t => t.started && !t.result && (t.stripes.contains id || t.covered.contains id)

/-- The start of a SANITIZE, once: cursors and leases end, the tenants' key pages and K_fp are destroyed, and with them their
half-open sessions (R360, R363, R422); the dirty buffer but for what started commands wrote, and the read cache, are discarded
(R422); reclaims that run or wait are superseded (R423). -/
def State.startSanitize (s : State) (t : Trs) : State :=
  let s := { s with cqc.leases := [], pae.cursors := [], bfc.cache := [],
                    plc.sanitizeTask := some t.idx, plc.reclaims := [], plc.longOp := none, plc.repacks := [],
                    asu.printKey := none }.pruneOlder.dropStaging
  let s := (s.dropDirty fun p => !s.stripeHeld p.id).clearRegisters 1024
  let s := s.destroyTenantPages.endSessions fun x => x.half && x.tenant != 0
  s.mapTrs t.idx fun u => { u with parked := true }

/-- No command that SANITIZE or FORMAT waits for is started. -/
def State.noneStarted (s : State) (self : Nat) (pick : Trs → Bool) : Bool :=
  !s.cqc.trs.any fun u => u.idx != self && pick u && u.started && !u.late

/-- The started commands have completed: the dirty buffer is discarded, the first Milestone is written, the SANITIZE
completes with OK; its work then runs in steps. -/
def State.runSanitize (s : State) (t : Trs) : State :=
  let mode := field t.fields 24 1
  let s := s.dropDirty fun _ => true
  let s := { s with plc.sanitizeTask := none, plc.reclaims := [], plc.longOp := none }
  let s := s.startLongOp (mode + 1) 0 (field t.fields 28 4) t.admitDev
  let s := match s.plc.longOp with
    | some o => s.milestone o
    | none => s
  s.finish t.idx stOk 0 (natBytes 1 mode ++ zeros 7) []

/-- A SANITIZE of one mode (R182): its admission, or its completion once the started commands are done. DESIGN CHOICE
(log 107): a block-erase or overwrite admitted before the entry into Charcoal runs on in it. -/
def State.sanitizeStep (s : State) (task mode : Nat) : State :=
  match s.trs? task with
  | none => s
  | some t =>
    if t.opcode ≠ opSanitize ∨ field t.fields 24 1 ≠ mode ∨ t.result ∨ t.abortedBy.isSome then s
    else
      let s := s.stopUnstarted t
      if t.state ≠ .running then s
      else
        let s := if t.parked then s else s.startSanitize t
        if !s.noneStarted task fun v => sanitizeRefuses v.opcode v.fields then s
        else if s.journalRoom 64 then s.runSanitize t else s.awaitJournal

def execSanitizeCrypto (task : Nat) (s : State) : Host.Outcome State Fault Refusal := .next (s.sanitizeStep task 1)

def execSanitizeBlockErase (task : Nat) (s : State) : Host.Outcome State Fault Refusal := .next (s.sanitizeStep task 2)

def execSanitizeOverwrite (task : Nat) (s : State) : Host.Outcome State Fault Refusal := .next (s.sanitizeStep task 3)

/-! ## FORMAT (R184, R185, R423) -/

/-- Step 1: sessions, cursors and leases of the tenants end; from now on they are not ready. -/
def State.startFormat (s : State) (t : Trs) (l : List Nat) : State :=
  let s := s.endSessions fun x => l.contains x.tenant
  let s := { s with
    cqc.leases := s.cqc.leases.filter fun e => !l.contains e.tenant,
    pae.cursors := s.pae.cursors.filter fun c => !l.contains c.tenant,
    plc.formats := s.plc.formats ++ [(t.idx, l)] }
  s.pruneOlder

/-- Steps 2 and 3 for the tenants: pages and stripes are detached, keys and lost-key entries go, usage is 0. -/
def State.detach (s : State) (l : List Nat) : State :=
  let s := s.dropDirty fun p => l.contains p.tenant
  { s with
    asu.keys := s.asu.keys.filter fun k => !l.contains k.tenant,
    asu.pages := s.asu.pages.map fun (p : Page) => if l.contains p.tenant then { p with detached := true } else p,
    asu.inserts := s.asu.inserts.filter fun e => !l.contains e.entry.tenant,
    asu.sweeping := s.asu.sweeping ++ l.filter fun t => !s.asu.sweeping.contains t,
    plc.stripes := s.plc.stripes.map fun (p : Stripe) => if l.contains p.tenant then { p with detached := true } else p,
    plc.lostLog := s.plc.lostLog.filter fun e => !l.contains e.tenant,
    cqc.accounts := s.cqc.accounts.map fun (a : Account) =>
      if l.contains a.tenant then { a with usageBytes := 0, usageKeys := 0 } else a }

/-- The started commands on the tenants have completed: the key pages go, and the space is reclaimed later. -/
def State.runFormat (s : State) (t : Trs) (l : List Nat) : State :=
  let s := ((s.cpx.pages.filter fun p => l.contains p.page).map (·.page)).foldl (fun s n => s.destroyPage n) s
  let s := s.detach l
  let s := { s with plc.formats := s.plc.formats.filter fun f => f.1 != t.idx,
                    plc.reclaims := s.plc.reclaims ++ l.map fun n => (n, t.admitDev) }
  s.finish t.idx stOk 0 [] []

/-- FORMAT (R184, R185): its start, or its completion once the started commands on its tenants are done. DESIGN CHOICE
(log 107): one admitted before the entry into Charcoal runs on in it; R88 speaks of writes in flight only. -/
def execFormat (task : Nat) (s : State) : Host.Outcome State Fault Refusal :=
  match s.running task opFormat with
  | none => .next s
  | some t =>
    let s := if s.plc.formats.any fun f => f.1 == task then s
      else s.startFormat t ((formatScope t.fields).filter fun n => !s.reclaiming n)
    match s.plc.formats.find? fun f => f.1 == task with
    | none => .next s
    | some f => if s.noneStarted task fun u => f.2.contains u.tenant then .next (s.runFormat t f.2) else .next s

/-! ## POWER_STATE (R186 to R189) -/

/-- Response fields: state and policy. -/
def State.powerFields (s : State) : Bytes := natBytes 1 s.powerCode ++ natBytes 1 s.cqc.policy ++ zeros 6

/-- A POWER_STATE with a request code that has started and has no result yet. -/
def State.powerTask (s : State) (task code : Nat) : Option Trs :=
  (s.running task opPower).filter fun t => field t.fields 24 1 == code

/-- Take a policy and answer OK. -/
def State.setPolicy (s : State) (task : Nat) (p : Nat) : State :=
  let s := { s with cqc.policy := p, cqc.holdUntil := if p = 3 then s.cqc.holdUntil else none }
  s.finish task stOk 0 s.powerFields []

def execQuery (task : Nat) (s : State) : Host.Outcome State Fault Refusal :=
  match s.powerTask task 0 with
  | some _ => .next (s.setPolicy task s.cqc.policy)
  | none => .next s

def execStayReady (task : Nat) (s : State) : Host.Outcome State Fault Refusal :=
  match s.powerTask task 1 with
  | some _ => .next (s.setPolicy task 1)
  | none => .next s

def execAuto (task : Nat) (s : State) : Host.Outcome State Fault Refusal :=
  match s.powerTask task 2 with
  | some _ => .next (s.setPolicy task 0)
  | none => .next s

/-- DOZE_NOW: a pending Hold, which only codes 0x01 and 0x02 cancel, stays. -/
def execDozeNow (task : Nat) (s : State) : Host.Outcome State Fault Refusal :=
  match s.powerTask task 3 with
  | some _ => .next (s.setPolicy task (if s.cqc.policy = 3 then 3 else 2))
  | none => .next s

/-- PREPARE_HOLD (R187): the queue drains from its start on; in the drain of a reset or an activation the request ends with RETRY_LATER. -/
def execPrepareHold (task : Nat) (s : State) : Host.Outcome State Fault Refusal :=
  match s.powerTask task 4 with
  | none => .next s
  | some _ =>
    match s.cqc.drain with
    | some d => match d.cause with
      | .prepareHold _ => .next s
      | _ => .next (s.fail task stRetryLater s.drainWait)
    | none => .next ({ s with cqc.policyBefore := s.cqc.policy }.startDrain (.prepareHold task))

end Sys2Proof.Machine
end

