-- ==== Sys2Proof/Machine/Turnpike.lean ====
section
/-!
DEFINITION. The Turnpike: the wheel, its slot table and mask, the filling of a slot, throttling by the case temperature
(R261 to R282, R636 to R638).
-/
namespace Sys2Proof.Machine

/-! ## The wheel (R261 to R266) -/

/-- Endpoint ids in use (R263). -/
def endpointUsed (e : Nat) : Bool := decide (e ≤ 0x2D ∨ (0x40 ≤ e ∧ e ≤ 0x7F))

/-- Hub of an endpoint that is a tile. -/
def endpointHub (e : Nat) : Option Nat := if 0x40 ≤ e ∧ e ≤ 0x7F then some ((e - 0x40) / 16) else none

/-- Two endpoints are tiles of one hub. -/
def sameHub (a b : Nat) : Bool := (endpointHub a).isSome && endpointHub a == endpointHub b

/-- A pair may join the pairs of a slot: no lane twice in one direction, at most two tiles of a hub each way (R261, R264). -/
def fitsSlot (pairs : List (Nat × Nat)) (src dst : Nat) : Bool :=
  pairs.all (fun p => p.1 != src && p.2 != dst) && decide ((pairs.filter fun p => sameHub p.1 src).length < 2)
    && decide ((pairs.filter fun p => sameHub p.2 dst).length < 2)

/-- A Background-first slot (R266). -/
def backgroundFirst (slot : Nat) : Bool := slot % 16 == 15

/-- G (R266, 4007). -/
def expressGap (share : Nat) : Nat := if share = 0 then 0 else if 128 ≤ share then (if share = 256 then 16 else 32) else if 64 ≤ share then 64 else 128

/-! ### The slot table (R266)

The Warden chooses a table that meets the conditions of R266; which one is left open, so the lanes of each reservation are
free values. Every Express route has one reservation at its own place in every G slots; further reservations on those routes
fill the rows as far as no lane passes four in one direction in G slots, which keeps each lane at s in a revolution. -/

/-- Lanes of the endpoints of an Express route: first id and number. -/
def portLanes : Nat × Nat := (0x00, 2)
def wLanes : Nat × Nat := (0x02, 4)
def cqcLanes : Nat × Nat := (0x06, 1)
def sLanes : Nat × Nat := (0x07, 4)
def pLanes : Nat × Nat := (0x13, 16)
def bLanes : Nat × Nat := (0x23, 4)
def lLanes : Nat × Nat := (0x27, 2)
def tLanes : Nat × Nat := (0x40, 64)

/-- The Express routes, one hop each. -/
def expressRoutes : List ((Nat × Nat) × (Nat × Nat)) :=
  [(portLanes, wLanes), (wLanes, portLanes), (wLanes, cqcLanes), (pLanes, wLanes), (wLanes, pLanes), (cqcLanes, sLanes),
   (cqcLanes, wLanes), (sLanes, pLanes), (pLanes, sLanes), (sLanes, bLanes), (bLanes, sLanes), (sLanes, lLanes), (lLanes, bLanes),
   (bLanes, lLanes), (lLanes, tLanes), (tLanes, lLanes), (tLanes, pLanes), (pLanes, bLanes), (bLanes, pLanes)]

def inLanesOf (e : Nat) (l : Nat × Nat) : Bool := decide (l.1 ≤ e ∧ e < l.1 + l.2)

/-- A pair of lanes lies on an Express route. -/
def onRoute (src dst : Nat) : Bool := expressRoutes.any fun r => inLanesOf src r.1 && inLanesOf dst r.2

/-- The pair that a slot reserves for route number `r`. -/
def State.routePair (s : State) (slot r : Nat) : Nat × Nat :=
  match expressRoutes[r]? with
  | some (a, b) => (a.1 + Config.slotLane s.tpk.share s.tpk.tableId slot (2 * r) % a.2,
                    b.1 + Config.slotLane s.tpk.share s.tpk.tableId slot (2 * r + 1) % b.2)
  | none => (0, 0)

/-- The reservations of a slot that stand for their routes. -/
def State.baseRow (s : State) (slot : Nat) : List (Nat × Nat) :=
  let g := expressGap s.tpk.share
  ((List.range 19).filter fun r => r % g == slot % g).map fun r => s.routePair slot r

/-- A row with its further reservations; `others` are the reservations of the G slots around it that count with it. -/
def State.fullRow (s : State) (slot : Nat) (others : List (Nat × Nat)) : List (Nat × Nat) :=
  (List.range 128).foldl (fun l src => match Config.slotReservation s.tpk.share s.tpk.tableId slot src with
    | some dst =>
      let near := l ++ others
      if onRoute src dst ∧ fitsSlot l src dst ∧ (near.filter fun p => p.1 == src).length < 4
          ∧ (near.filter fun p => p.2 == dst).length < 4 then l ++ [(src, dst)] else l
    | none => l) (s.baseRow slot)

/-- Rows of the G slots from `first` on, up to `n` of them. -/
def State.rowsFrom (s : State) (first : Nat) : (n : Nat) → List (List (Nat × Nat))
  | 0 => []
  | n + 1 =>
    let before := s.rowsFrom first n
    let later := (List.range (expressGap s.tpk.share - (n + 1))).flatMap fun i => s.baseRow (first + n + 1 + i)
    before ++ [s.fullRow (first + n) (before.flatten ++ later)]

/-- The reserved pairs of a slot by the active table (R265, R266). -/
def State.rowPairs (s : State) (slot : Nat) : List (Nat × Nat) :=
  let g := expressGap s.tpk.share
  if g = 0 ∨ !s.tpk.installed then [] else ((s.rowsFrom (slot - slot % g) (slot % g + 1)).getLast?).getD []

def State.masked (s : State) (e : Nat) : Bool := s.tpk.mask.contains e

/-! ## Filling a slot (R270 to R273) -/

/-- The slot so far: the pairs that move a unit. -/
structure Slot_ where
  pairs : List (Nat × Nat)
  queue : List Transfer
  deriving DecidableEq, Repr

/-- The next transfer of a queue: lead transfers first in Express/0, then in arrival order (R270). -/
def headOf (queue : List Transfer) (src dst : Nat) (c : Cls) : Option Transfer :=
  let l := queue.filter fun t => t.src == src && t.dst == dst && t.cls == c
  if c = 0 then (match l.find? fun t => t.lead with
    | some t => some t
    | none => l.head?)
  else l.head?

/-- A unit of the transfer moves. -/
def moveUnit (t : Transfer) : List Transfer → List Transfer
  | [] => []
  | x :: l => if x = t then (if x.units ≤ 1 then l else { x with units := x.units - 1, begun := true } :: l) else x :: moveUnit t l

/-- Move a unit of a class from a source to a destination. -/
def Slot_.move (a : Slot_) (src dst : Nat) (c : Cls) : Slot_ :=
  match headOf a.queue src dst c with
  | some t => { pairs := a.pairs ++ [(src, dst)], queue := moveUnit t a.queue }
  | none => a

/-- The reserved pairs move first where their source holds an Express/0 transfer for that destination (R271); how many of
them do, and how many are opened. DESIGN CHOICE (log 110): a pair with a masked lane counts among those opened. -/
def State.moveReserved (s : State) (a : Slot_) : Slot_ × Nat × Nat :=
  (s.rowPairs s.tpk.slot).foldl (fun (r : Slot_ × Nat × Nat) p =>
    if s.masked p.1 ∨ s.masked p.2 ∨ !fitsSlot r.1.pairs p.1 p.2 then (r.1, r.2.1, r.2.2 + 1)
    else if (headOf r.1.queue p.1 p.2 0).isSome then (r.1.move p.1 p.2 0, r.2.1 + 1, r.2.2) else (r.1, r.2.1, r.2.2 + 1)) (a, 0, 0)

/-- Standard/1 holds the turn at a destination (R272). -/
def State.standardTurn (s : State) (dst : Nat) : Bool :=
  let n := ((s.tpk.turns.find? fun t => t.1 == dst).map (·.2)).getD 0
  decide (n % (s.tpk.weights.1 + s.tpk.weights.2) < s.tpk.weights.1)

/-- The class at each position at a destination (R272). -/
def State.classOrder (s : State) (dst : Nat) : List Cls :=
  let (x, y) : Cls × Cls := if s.standardTurn dst then (1, 2) else (2, 1)
  if backgroundFirst s.tpk.slot then [0, 3, x, y] else [0, x, y, 3]

/-- Open slots in which a destination may receive one Bulk/2 unit, by throttle level (R281). DESIGN CHOICE (log 110): level 3
keeps level 2's limit, and the span slides and counts blanked open slots too. -/
def bulkSpan (level : Nat) : Nat := if level = 0 then 1 else if level = 1 then 8 else 16

/-- A throttle level keeps the class from the slot at this destination (R281). -/
def State.throttled (s : State) (dst : Nat) (c : Cls) : Bool :=
  if s.tpk.throttle = 0 ∨ backgroundFirst s.tpk.slot then false
  else if c = 3 then true
  else c == 2 && (match s.tpk.bulkSeen.find? fun e => e.1 == dst with
    | some e => decide (s.tpk.openSeen < e.2 + bulkSpan s.tpk.throttle)
    | none => false)

/-- The open slot is blanked (R281). DESIGN CHOICE (log 110): the count of open slots that gives the phase goes on over a
change of level. -/
def State.blanked (s : State) : Bool :=
  !backgroundFirst s.tpk.slot && (match s.tpk.throttle with
    | 0 | 1 => false
    | 2 => s.tpk.openSeen % 2 == 1
    | _ => s.tpk.openSeen % 4 != 0)

def State.pointerAt (s : State) (dst : Nat) (c : Cls) : Nat :=
  ((s.tpk.pointers.find? fun p => p.1 == dst && p.2.1 == c.val).map (·.2.2)).getD 0

/-- Sources that can send a unit of the class to a destination now, in id order. -/
def State.candidates (s : State) (a : Slot_) (dst : Nat) (c : Cls) : List Nat :=
  let l := (a.queue.filter fun t => t.dst == dst && t.cls == c && !s.masked t.src && fitsSlot a.pairs t.src dst).map (·.src)
  (List.range 128).filter fun e => l.contains e

/-- The first candidate at or after the pointer, wrapping. -/
def chooseFrom (pointer : Nat) (l : List Nat) : Option Nat :=
  match l.find? fun e => decide (pointer ≤ e) with
  | some e => some e
  | none => l.head?

/-- A destination receives a unit of the class from a source by arbitration. -/
def State.grant (s : State) (dst src : Nat) (c : Cls) (rivals : Nat) : State :=
  let s := { s with
    tpk.pointers := (dst, c.val, (src + 1) % 128) :: s.tpk.pointers.filter fun p => !(p.1 == dst && p.2.1 == c.val) }
  let s := if 2 ≤ rivals then s.bump 0x4010 0x08 1 else s
  let s := s.bump 0x4010 (4 + c.val) 1
  if backgroundFirst s.tpk.slot ∨ (c ≠ 1 ∧ c ≠ 2) then s
  else
    let n := ((s.tpk.turns.find? fun t => t.1 == dst).map (·.2)).getD 0
    let s := { s with tpk.turns := (dst, n + 1) :: s.tpk.turns.filter fun t => t.1 != dst }
    if c = 2 then { s with tpk.bulkSeen := (dst, s.tpk.openSeen) :: s.tpk.bulkSeen.filter fun e => e.1 != dst } else s

/-- One step of R273: a destination at a position. -/
def State.arbitrate (s : State) (a : Slot_) (position dst : Nat) : Slot_ × State :=
  if s.masked dst ∨ a.pairs.any (fun p => p.2 == dst) then (a, s)
  else
    let c := (s.classOrder dst).getD position 0
    if s.throttled dst c then (a, s)
    else
      let l := s.candidates a dst c
      match chooseFrom (s.pointerAt dst c) l with
      | none => (a, s)
      | some src => (a.move src dst c, s.grant dst src c l.length)

/-- Destinations from `start` upward, wrapping. -/
def destinations (start : Nat) : List Nat := (List.range 128).map fun i => (start + i) % 128

/-- Fill the open pairs of a slot (R273). -/
def State.fillOpen (s : State) (a : Slot_) : Slot_ × State :=
  let dsts := (destinations (s.tpk.slot % 128)).filter fun d => a.queue.any fun t => t.dst == d
  (List.range 4).foldl (fun r k => dsts.foldl (fun (r : Slot_ × State) d => r.2.arbitrate r.1 k d) r) (a, s)

/-- The module is past its start-up and out of Doze and Hold. -/
def State.coreRuns (s : State) : Bool := s.pch.power == .active || s.pch.power == .ready || s.pch.power == .readyWt

/-! ## Revolution boundaries (R267, R268, R281) -/

/-- A table becomes the active one (R267). Responses in flight across a swap to a smaller share are not measured (R279). -/
def State.swapTo (s : State) (share : Nat) (weights : Nat × Nat) : State :=
  let s := if share < s.tpk.share then { s.unmeasure fun _ => true with
      dpx.portA := s.dpx.portA.untimed fun _ => true, dpx.portB := s.dpx.portB.untimed fun _ => true } else s
  { s with tpk.share := share, tpk.weights := weights, tpk.tableId := s.tpk.tableId + 1, tpk.shadow := none }.putNum 0x4003 0
    ((s.num 0x4003 0 + 1) % 2 ^ 32)

/-- At a boundary: the shadow table that is due becomes active, or, 2 ms after the dictionary tick of a change whose table has
not been written yet, that table, in whose stead of one it replaces (R267); one swap at most, none during a switch-over gap
(R269). -/
def State.swapDue (s : State) : State :=
  if s.gap then s
  else if s.tpk.wantTable.any fun t => decide (t + 1998 ≤ s.now) then
    { s with tpk.wantTable := none }.swapTo (s.num 0x4000 0) (s.num 0x4002 1, s.num 0x4002 2)
  else match s.tpk.shadow with
    | some t => if s.tpk.shadowDue ≤ s.tpk.revolution then s.swapTo t.1 t.2 else s
    | none => s

/-- What was queued for a tile that gets no slots any more (R31): shards wait again, moves end, and reads are made from the other
shards of their stripes. -/
def State.handBack (s : State) (tile : Nat) : State :=
  let l := (s.tile tile).dies.flatMap Die.all
  let s := { s with plc.stripes := s.plc.stripes.map fun (p : Stripe) => p.recall tile }
  let s := (s.dropMoves fun m => m.tile == tile).mapTile tile fun t =>
    { t with dies := t.dies.map fun d => { d with queue := [], doing := none, suspended := none } }
  l.foldl (fun s o => match o with
    | .read c rebuild id i _ _ _ part => match s.stripe? id with
      | some p => s.readAround c rebuild p i part
      | none => s
    | _ => s) s

/-- The lane is a pattern engine's. -/
def engineLanes (e : Nat) : Bool := decide (0x0B ≤ e ∧ e < 0x13)

/-- Where a transfer to or from a masked engine goes instead: an engine in service; where there is none it waits (R31, R334). -/
def State.otherEngine (s : State) (e : Nat) : Nat :=
  if engineLanes e ∧ s.masked e then
    (((List.range 8).map engineLane).find? fun n => !s.masked n && (s.pae.engines[n - 0x0B]?).any Engine.inService).getD e
  else e

/-- A transfer handed back to its sender (R31), which reissues it or waits. The dispatcher has dealt the pipelines' transfers
again, what a port should have sent is sent again by WTE, what goes to a tile comes again with its shard or read, and what a
tile's read brings is read from the other shards of its stripe. Everything else waits for its lane. -/
def State.reissue (s : State) (t : Transfer) : State :=
  let e := if s.masked t.src then t.src else t.dst
  if e < 2 ∨ (0x13 ≤ e ∧ e < 0x23) then s
  else if engineLanes e then
    { s with tpk.queue := s.tpk.queue ++ [{ t with src := s.otherEngine t.src, dst := s.otherEngine t.dst, begun := false }] }
  else if e < 0x40 then { s with tpk.queue := s.tpk.queue ++ [t] }
  else match t.back with
    | some (id, i) => match s.stripe? id with
      | some p => s.readAround t.cls (t.dst == plcLane id) p i
          { off := 0, len := 64 * t.units, around := t.dst == plcLane id, lead := t.lead }
      | none => s
    | none => if s.masked t.dst then s else { s with tpk.queue := s.tpk.queue ++ [t] }

/-- The mask wanted takes effect (R31, R268): transfers queued for a lane that it isolates go back to their senders. -/
def State.applyMask (s : State) : State :=
  let m := s.tpk.maskWanted
  let fresh := m.filter fun e => !s.tpk.mask.contains e
  let lost : Transfer → Bool := fun t => fresh.contains t.src || fresh.contains t.dst
  let back := s.tpk.queue.filter lost
  let s := { s with tpk.mask := m, tpk.queue := s.tpk.queue.filter fun t => !lost t }
  let s := fresh.foldl (fun s e => if 0x40 ≤ e then s.handBack (e - 0x40) else s) s
  back.foldl (fun s t => s.reissue t) s

/-- Everything that takes effect at the start of slot 0. -/
def State.boundary (s : State) : State :=
  let s := s.swapDue.applyMask
  { s with tpk.throttle := s.tpk.throttleWanted }

/-- The lease holder installs the table at start-up, which is not a swap (R267). -/
def State.installTable (s : State) : State :=
  if s.tpk.installed then s
  else { s with tpk.installed := true, tpk.share := s.num 0x4000 0, tpk.weights := (s.num 0x4002 1, s.num 0x4002 2) }

/-- Lead transfers whose first unit a slot has moved: none of them had begun before it. -/
def freshLeads (before after : List Transfer) : List Transfer :=
  let fresh := fun (t : Transfer) => t.lead && !t.begun
  (after.filter fresh).foldl List.erase (before.filter fresh)

/-- The HOP event of a lead transfer (R600). -/
def State.tracedHop (slot : Nat) (s : State) (t : Transfer) : State :=
  s.traced 6 t.src (if t.task = noTask then none else some t.task) (t.cls.val * 2 ^ 30 + t.dst % 128 * 2 ^ 16 + slot % 1024)

/-- SLOT_FILL (R273): one slot of the wheel. -/
def execSlotFill (s : State) : Host.Outcome State Fault Refusal :=
  if !s.cycleRuns then .next s
  else
    let s := if s.tpk.slot = 0 then s.boundary else s
    let (a, used, released) := s.moveReserved { pairs := [], queue := s.tpk.queue }
    let s := (s.bump 0x4010 0x02 used).bump 0x4010 0x03 released
    let s := s.bump 0x4010 0x09 (if s.blanked then 1 else 0)
    let (a, s) := if s.blanked then (a, s) else s.fillOpen a
    let s := (freshLeads s.tpk.queue a.queue).foldl (State.tracedHop s.tpk.slot) s
    let openSeen := if backgroundFirst s.tpk.slot then s.tpk.openSeen else s.tpk.openSeen + 1
    let last := s.tpk.slot = 1023
    let s := { s with tpk.queue := a.queue, tpk.openSeen := openSeen, tpk.slot := (s.tpk.slot + 1) % 1024,
                      tpk.revolution := if last then s.tpk.revolution + 1 else s.tpk.revolution }
    .next (if last then s.bump 0x4010 0x01 1 else s)

/-! ## Table, mask and throttle changes -/

/-- The write of EXPRESS_SHARE or CLASS_WEIGHT (R267, R282): a new table becomes due; the limit of an earlier change that has no
table yet still holds. -/
def tableEffect : WriteEffect := fun _ index sub v s =>
  ({ s with tpk.wantTable := some (s.tpk.wantTable.getD s.now) }.put index sub v, stOk)

/-- SLOT_TABLE_GENERATE (R266, R267): the lease holder writes the table that is due into the shadow copy. -/
def execSlotTableGenerate (s : State) : Host.Outcome State Fault Refusal :=
  if s.gap ∨ s.tpk.wantTable.isNone ∨ !s.coreRuns then .next s
  else .next { s with tpk.shadow := some (s.num 0x4000 0, (s.num 0x4002 1, s.num 0x4002 2)), tpk.wantTable := none,
                      tpk.shadowDue := s.tpk.revolution + 1 }

/-- TABLE_SWAP (R267): at the revolution boundary at which it is due the shadow table becomes the active one. -/
def execTableSwap (s : State) : Host.Outcome State Fault Refusal :=
  if s.tpk.slot ≠ 0 ∨ !s.cycleRuns then .next s else .next s.swapDue

/-- ENDPOINT_MASK_CHANGE (R31, R268): at a revolution boundary. -/
def execEndpointMaskChange (s : State) : Host.Outcome State Fault Refusal :=
  if s.tpk.slot ≠ 0 ∨ !s.cycleRuns then .next s else .next s.applyMask

/-- THROTTLE_CHANGE (R281): a level set by PCH takes effect at a revolution boundary. -/
def execThrottleChange (s : State) : Host.Outcome State Fault Refusal :=
  if s.tpk.slot ≠ 0 ∨ !s.cycleRuns then .next s else .next { s with tpk.throttle := s.tpk.throttleWanted }

/-! ## The case temperature (R281, R636 to R638) -/

/-- ORDER_CODE names the -QX module (R2, F002). -/
def extendedRange : Bool := Config.extendedTemp

/-- Threshold of a throttle level in °C. -/
def throttleAt (qx : Bool) (level : Nat) : Int := 63 + 2 * level + (if qx then 5 else 0)

/-- The level for a temperature: entered at its threshold, left 2 °C below it. -/
def throttleLevel (qx : Bool) (old : Nat) (celsius : Int) : Nat :=
  ((List.range 3).filter fun i => decide ((if i + 1 ≤ old then throttleAt qx (i + 1) - 2 else throttleAt qx (i + 1)) ≤
    (if i + 1 ≤ old then celsius - 1 else celsius))).length

/-- Top of the operating case range (R637). -/
def caseTop (qx : Bool) : Int := if qx then 75 else 70

/-- CASE_TEMP_SAMPLE (R636): the case temperature is sampled and the throttle level judged again. -/
def execCaseTempSample (celsius : Int) (s : State) : Host.Outcome State Fault Refusal :=
  let hot := if caseTop extendedRange < s.pch.throttleTemp then s.pch.overTempUs + (s.now - s.pch.caseAt) else s.pch.overTempUs
  let s := s.bump 0xD068 0x03 (hot / 1000000)
  let old := s.tpk.throttleWanted
  let new := throttleLevel extendedRange old celsius
  let s := { s with pch.throttleTemp := celsius, pch.caseAt := s.now, pch.overTempUs := hot % 1000000, tpk.throttleWanted := new }
  let s := s.putNum 0xD060 0 (clampI 32 celsius)
  let s := if s.signed 0xD061 0 < celsius then s.putNum 0xD061 0 (clampI 32 celsius) else s
  .next (if old = new then s else s.raise 0x4401 (wholeUnit 4) old new (clampI 32 celsius))

end Sys2Proof.Machine
end

