-- ==== Sys2Proof/Machine/Wardens.lean ====
section
/-!
DEFINITION. The Warden pair: lease, grants, mismatches, switch-over, resynchronisation, and the watch over the AON clock
(R455 to R476); and the isolation of any unit (R31).
-/
namespace Sys2Proof

/-- A Warden as a unit (R576). -/
def Warden.unitId_ (w : Warden) : UnitId := ⟨0xB, w.num⟩

/-- Coding of a Warden in B000 and B003. -/
def Warden.code : Option Warden → Nat
  | none => 0
  | some .a => 1
  | some .b => 2

end Sys2Proof

namespace Sys2Proof.Machine

/-- Turnpike lane of a Warden (R263). -/
def wardenLane (w : Warden) : Nat := 0x2C + w.num

/-- Unit id of the lease arbiter. -/
def arbiterUnit : Nat := unitId 0xB 2

/-- The arbiter counts no ticks against the lease: in Doze, Hold, Off, and while AON ticks are missing (R474, R475). -/
def State.leaseFrozen (s : State) : Bool :=
  s.pch.power == .doze || s.pch.dozeStep != 0 || s.pch.power == .hold || s.pch.power == .off || s.wdn.clockStopped

/-- The standby: eligible, in step, and not the holder. -/
def State.standby (s : State) : Option Warden :=
  ([Warden.a, Warden.b].filter fun w => (s.warden w).eligible && s.wdn.holder != some w).head?

/-- A Warden is out: ineligible, isolated, and a targeted self-test is due (R460, R464, R469). -/
def State.wardenOut (s : State) (w : Warden) : State :=
  (s.mapWarden w fun x => { x with eligible := false, state := 2 }).isolate w.unitId_ 1

/-- LAST_SWITCHOVER (R476). -/
def State.recordSwitch (s : State) (at_ gap cause : Nat) (src : Warden) (dst : Option Warden) : State :=
  (s.putBytes 0xB003 0 (natBytes 8 at_ ++ natBytes 4 gap ++ natBytes 1 cause ++ natBytes 1 (Warden.code (some src))
    ++ natBytes 1 (Warden.code dst))).raise 0xB402 (match dst with
      | some w => w.unit
      | none => arbiterUnit) cause gap 0

/-- The lease ends: no holder, a swap not yet in effect is to be generated again, a resynchronisation stops (R269, R461). The
gap runs from the given tick (R465). -/
def State.leaseOver (s : State) (w : Warden) (cause start : Nat) : State :=
  let s := { s with
    wdn.holder := none, wdn.ended := some (s.now, cause, w), wdn.gapFrom := start, wdn.dropWanted := none, wdn.resync := none,
    tpk.wantTable := if s.tpk.shadow.isSome then some s.now else s.tpk.wantTable, tpk.shadow := none }
  let s := s.mapWarden w.other fun x => if x.eligible then { x with state := 1 } else x
  if (s.warden w.other).eligible then s
  else (s.recordSwitch s.now 0 cause w none).raise 0xBC07 (wholeUnit 0xB) 0 0 0

/-- The holder loses its lease by a drop or by expiry and is taken out for its test. -/
def State.endLease (s : State) (w : Warden) (cause start : Nat) : State := (s.wardenOut w).leaseOver w cause start

/-! ## Rows of the lease (R459 to R463) -/

/-- LEASE_RENEWAL (R459): the holder's moves the lease end to the end of the 50th tick from now; another is ignored. -/
def execLeaseRenewal (w : Warden) (s : State) : Host.Outcome State Fault Refusal :=
  if s.leaseFrozen then .next s
  else if s.wdn.holder ≠ some w then .next (s.bump 0xB010 0x05 1)
  else if (s.warden w).mismatch then .next s
  else .next { s with wdn.leaseEnd := s.now + 50 }

/-- PAIR_MISMATCH (R455, R460): the output is suppressed with all later ones; the holder sends a drop, a standby leaves. -/
def execPairMismatch (w : Warden) (s : State) : Host.Outcome State Fault Refusal :=
  if (s.warden w).mismatch ∨ (s.warden w).state = 4 then .next s
  else
    let s := s.mapWarden w fun x => { x with mismatch := true, eligible := false }
    let s := (s.bump 0xB010 (2 + w.num) 1).raise 0xB801 w.unit s.wdn.outSeq 0 0
    if s.wdn.holder = some w then .next { s with wdn.dropWanted := some (w, 1), wdn.gapFrom := s.now } else .next (s.wardenOut w)

/-- The response to the write of SWITCHOVER_REQUEST has been posted (R476). -/
def State.switchAnswered (s : State) : Bool :=
  !s.cqc.trs.any fun t => t.opcode == opOdWrite && t.result && field t.fields 24 2 == 0xB006

/-- LEASE_DROP (R460): the drop arrives, and the lease ends at the end of its tick. After a mismatch the gap runs from it, after a
request from the drop (R465). -/
def execLeaseDrop (w : Warden) (s : State) : Host.Outcome State Fault Refusal :=
  match s.wdn.dropWanted with
  | some (x, cause) => if x = w ∧ s.wdn.holder = some w ∧ (cause = 3 → s.switchAnswered = true) then
      .next (s.endLease w cause (if cause = 1 then s.wdn.gapFrom else s.now)) else .next s
  | none => .next s

/-- LEASE_EXPIRY (R459): the end of the 50th tick has passed without a renewal; the gap runs from the last one (R465). -/
def execLeaseExpiry (s : State) : Host.Outcome State Fault Refusal :=
  match s.wdn.holder with
  | some w => if s.leaseFrozen ∨ s.now ≤ s.wdn.leaseEnd then .next s else .next ((s.bump 0xB010 0x04 1).endLease w 2 (s.wdn.leaseEnd - 50))
  | none => .next s

/-- Who is granted the lease: after an end, the other Warden; otherwise Warden A before Warden B (R461, R462, R475). -/
def State.nextHolder (s : State) : Option Warden :=
  let ok := fun (w : Warden) => (s.warden w).eligible
  match s.wdn.ended with
  | some (_, cause, w) => if cause ≠ 4 ∧ ok w.other then some w.other else ([Warden.a, Warden.b].filter ok).head?
  | none => ([Warden.a, Warden.b].filter ok).head?

/-- LEASE_GRANT (R461, R462): in a tick after that of the lease end. -/
def execLeaseGrant (s : State) : Host.Outcome State Fault Refusal :=
  let early : Bool := match s.wdn.ended with
    | some (t, _, _) => decide (s.now ≤ t)
    | none => false
  if s.wdn.holder.isSome ∨ s.leaseFrozen ∨ early then .next s
  else match s.nextHolder with
    | none => .next s
    | some w =>
      let switch := match s.wdn.ended with
        | some (_, _, x) => x != w
        | none => false
      let s := { s with wdn.holder := some w, wdn.leaseEnd := s.now + 50 }.mapWarden w fun x => { x with state := 0 }
      let s := (s.mapWarden w.other fun x => if x.eligible then { x with state := 1 } else x).installTable
      .next (if switch then s.bump 0xB010 0x01 1 else s)

/-- GATED_OUTPUT (R463): a unit from a Warden lane whose enable is false is discarded, counted and recorded. -/
def execGatedOutput (w : Warden) (seq : Nat) (s : State) : Host.Outcome State Fault Refusal :=
  if s.wdn.holder = some w then .next s else .next ((s.bump 0xB010 0x06 1).raise 0xB803 w.unit seq 0 0)

/-! ## Delivery notes, divergence, the end of a gap (R458, R465, R471) -/

/-- The first output a new holder delivers ends the switch-over gap. -/
def State.closeGap (s : State) : State :=
  match s.wdn.ended, s.wdn.holder with
  | some (t, cause, src), some w =>
    let gap := clampU 32 ((s.now - s.wdn.gapFrom) * 1000)
    let s := { s with wdn.ended := none }.recordSwitch t gap cause src (some w)
    if s.num 0xB002 0 < gap then s.putNum 0xB002 0 gap else s
  | _, _ => s

/-- DELIVERY_NOTE (R458): the standby compares the delivered output with its own of that number; a difference means the
standby has diverged. -/
def execDeliveryNote (seq digest own : Nat) (s : State) : Host.Outcome State Fault Refusal :=
  if s.gap then .next s
  else
    let s := { s with wdn.outSeq := (seq + 1) % 2 ^ 32 }.closeGap
    match s.standby with
    | some w =>
      if digest = own then .next s
      else .next (((s.bump 0xB010 0x0B 1).raise 0xB804 w.unit seq 0 0).wardenOut w)
    | none => .next s

/-- STANDBY_LEAVES_STEP (R458): the standby has fallen more than 65,536 inputs behind the stream; it becomes ineligible and
resynchronises. -/
def execStandbyLeavesStep (s : State) : Host.Outcome State Fault Refusal :=
  match s.standby with
  | some w => if s.gap then .next s else .next (s.mapWarden w fun x => { x with eligible := false, state := 3 })
  | none => .next s

/-! ## After a fault (R469 to R473) -/

/-- What the result of a Warden's targeted test does: a pass leads to resynchronisation, or to a restart when no other
Warden serves; a fail retires the Warden. -/
def State.wardenTested (s : State) (w : Warden) (pass : Bool) : State :=
  if pass then
    let alone := s.gap ∧ !(s.warden w.other).eligible
    s.mapWarden w fun x => { x with mismatch := false, state := if alone then 5 else 3 }
  else ((s.mapWarden w fun x => { x with eligible := false, state := 4 }).bump 0xB010 0x08 1).bump 0xB011 (1 + w.num) 1

/-- Bytes of a Warden's private memory, which a resynchronisation copies (R470). -/
def wardenMemory : Nat := 32 * 2 ^ 20

/-- RESYNC_START (R470): the holder starts to copy its state to the Warden that waits for it, in Background/3 units. -/
def execResyncStart (w : Warden) (s : State) : Host.Outcome State Fault Refusal :=
  if s.wdn.holder = some w.other ∧ (s.warden w).state = 3 ∧ s.wdn.resync.isNone ∧ s.wdn.resyncAfter ≤ s.now then
    .next ({ s with wdn.resync := some (w, s.now) }.transfer (wardenLane w.other) (wardenLane w) 3 false noTask wardenMemory)
  else .next s

/-- RESYNC_COMPLETE (R470): within 30 ms the Warden joins the stream and is eligible. -/
def execResyncComplete (s : State) : Host.Outcome State Fault Refusal :=
  match s.wdn.resync with
  | some (w, start) =>
    if start + 30000 < s.now then .next s
    else .next (({ s with wdn.resync := none }.mapWarden w fun x => { x with eligible := true, state := 1 }).bump 0xB010 0x09 1)
  | none => .next s

/-- RESYNC_ABANDONED (R470): 28 ms have passed with more than 4 MiB outstanding; it starts again 1 s later. -/
def execResyncAbandoned (bytesLeft : Nat) (s : State) : Host.Outcome State Fault Refusal :=
  match s.wdn.resync with
  | some (w, start) =>
    if s.now < start + 28000 ∨ bytesLeft ≤ 4194304 then .next s
    else .next (({ s with wdn.resync := none, wdn.resyncAfter := s.now + 1000000 }.bump 0xB010 0x0A 1).raise 0xB405 w.unit
      (clampU 32 bytesLeft) 0 0)
  | none => .next s

/-- WARDEN_RESTART_DONE (R473): a lone Warden has restarted its firmware and is eligible. -/
def execWardenRestartDone (w : Warden) (s : State) : Host.Outcome State Fault Refusal :=
  if (s.warden w).state ≠ 5 then .next s
  else .next ((s.mapWarden w fun x => { x with eligible := true, state := 1 }).bump 0xB005 0 1)

/-- The write of SWITCHOVER_REQUEST (R476): the holder is to drop its lease; the entry goes on reading 0. -/
def switchoverEffect : WriteEffect := fun _ _ _ _ s =>
  match s.wdn.holder with
  | some w => if s.standby = some w.other then ({ s with wdn.dropWanted := some (w, 3) }, stOk) else (s, stRange)
  | none => (s, stRange)

def execSwitchoverRequest (r : Requester) (v : OdVal) (s : State) : Host.Outcome State Fault Refusal :=
  .next (s.ownWrite switchoverEffect r 0xB006 0 v)

/-! ## The AON clock (R475, R557) -/

/-- An eligible Warden is halted while the clock stops. -/
def WardenS.halt (x : WardenS) : WardenS := if x.eligible then { x with state := 6 } else x

/-- The monitor sets HOLDER to none (R475). A holder whose drop has not yet arrived is taken out. -/
def State.clockTakes (s : State) (w : Warden) : State :=
  let s := if (s.warden w).mismatch then s.wardenOut w else s
  let s := { s with
    wdn.holder := none, wdn.ended := some (s.now, 4, w), wdn.gapFrom := s.now, wdn.dropWanted := none, wdn.resync := none,
    tpk.wantTable := if s.tpk.shadow.isSome then some s.now else s.tpk.wantTable, tpk.shadow := none }
  (s.mapWarden .a WardenS.halt).mapWarden .b WardenS.halt

/-- AON_CLOCK_STOP (R475): 4 µs without a tick; the lease is taken from its holder. -/
def execAonClockStop (s : State) : Host.Outcome State Fault Refusal :=
  if s.wdn.clockStopped then .next s
  else
    let s := { s with wdn.clockStopped := true }
    match s.wdn.holder with
    | none => .next s
    | some w => .next (s.clockTakes w)

/-- AON_CLOCK_RESTORE (R475, R557): 64 good ticks; the stop is recorded, counted outside Hold, and device time is advanced by it. -/
def execAonClockRestore (stopUs : Nat) (s : State) : Host.Outcome State Fault Refusal :=
  if !s.wdn.clockStopped then .next s
  else
    let s := { s with wdn.clockStopped := false, pch.devTime := s.pch.devTime + stopUs }
    let wake : WardenS → WardenS := fun x => if x.state = 6 then { x with state := 1 } else x
    let s := (s.mapWarden .a wake).mapWarden .b wake
    let s := if s.pch.power = .hold then s else s.bump 0xB010 0x0C 1
    .next (s.raise 0xB806 arbiterUnit (stopUs % 2 ^ 32) (stopUs / 2 ^ 32) 0)

/-! ## UNIT_ISOLATE (R31) -/

/-- UNIT_ISOLATE (R31): a unit agent isolates its replicated unit after an error; a port engine's error is recorded with
its kind (R587: 1 buffer parity, 2 PCS state, 3 MAC state). -/
def execUnitIsolate (u : UnitId) (kind : Nat) (s : State) : Host.Outcome State Fault Refusal :=
  if !u.replicated then .fault .noSuchUnit
  else if !s.inService u then .next s
  else if u.subsystem = 0xB then
    let w : Warden := if u.number = 0 then .a else .b
    .next (if s.wdn.holder = some w then s.endLease w 2 s.now else s.wardenOut w)
  else if u.subsystem = 1 then .next ((s.raise 0x1808 u.word kind 0 0).isolate u 1)
  else .next (s.isolate u 1)

end Sys2Proof.Machine
end

