-- ==== Sys2Proof/Machine/Recorder.lean ====
section
/-!
DEFINITION. The event recorder: records and merges, the staging area during a freeze, what JSR writes when it is powered
(R574 to R587, R605).
-/
namespace Sys2Proof.Machine

/-- Severity of an event code: 0 info, 1 notice, 2 error, 3 fatal (R18). -/
def severity (code : Nat) : Nat := bits code 11 10

/-- An event merges into a record (R579). -/
def Record.merges (r : Record) (e : Event) : Bool :=
  r.ev.code == e.code && r.ev.unit == e.unit && r.ev.p1 == e.p1 && r.ev.p2 == e.p2 && r.ev.p3 == e.p3
    && decide (e.time < r.ev.time + 1000000)

/-- The repeat count up by 1; at 65,535 it stops and SATURATED is set. -/
def Record.again (r : Record) : Record :=
  let n := min 65535 (r.count + 1)
  { r with count := n, flags := if n = 65535 then setBit (clrBit r.flags 2) 2 else r.flags }

/-- Append a record with the next sequence number (R578). -/
def State.append (s : State) (e : Event) (count flags : Nat) : State :=
  let r : Record := { ev := e, count := count, flags := flags, seq := s.jsr.nextSeq }
  let j := s.jsr
  { s with jsr := { j with records := r :: j.records, nextSeq := (j.nextSeq + 1) % 2 ^ 32, written := j.written + 1 } }

/-- Write an event to the recorder: merged with the last record, or a new one. -/
def State.record (s : State) (e : Event) (flags : Nat) : State :=
  match s.jsr.records with
  | r :: l => if r.merges e then { s with jsr.records := r.again :: l }.bump 0xC008 0x02 1 else s.append e 0 flags
  | [] => s.append e 0 flags

/-- The staging area without its oldest info or notice record; none when it has none. -/
def dropMinor : List Record → Option (List Record)
  | [] => none
  | r :: l => if severity r.ev.code ≤ 1 then some l else (dropMinor l).map fun t => r :: t

/-- Count a staged event as lost. -/
def State.loseStaged (s : State) : State := { s with jsr.stagingLost := s.jsr.stagingLost + 1 }.bump 0xC008 0x04 1

/-- An event during a freeze (R585). -/
def State.stage (s : State) (e : Event) : State :=
  let l := s.jsr.staging
  let r : Record := { ev := e, count := 0, flags := 1, seq := 0 }
  match l.getLast? with
  | some last =>
    if last.merges e then { s with jsr.staging := l.dropLast ++ [last.again] }.bump 0xC008 0x02 1
    else if l.length < 256 then { s with jsr.staging := l ++ [r] }.bump 0xC008 0x03 1
    else if severity e.code ≤ 1 then s.loseStaged
    else match dropMinor l with
      | some m => ({ s with jsr.staging := m ++ [r] }.bump 0xC008 0x03 1).loseStaged
      | none => s.loseStaged
  | none => { s with jsr.staging := [r] }.bump 0xC008 0x03 1

/-- JSR writes one event, to the staging area while frozen; a fatal one sets FATAL_EVENT. -/
def State.writeEvent (s : State) (e : Event) (flags : Nat) : State :=
  let s := if severity e.code = 3 then { s with jsr.fatal := true } else s
  if s.jsr.freeze.isSome then s.stage e else s.record e flags

/-- EVENTS_DROPPED takes the place that the queue has free after drops (R580). -/
def State.queueDropped (s : State) : State :=
  if s.jsr.dropped = 0 ∨ 1024 ≤ s.jsr.queue.length then s
  else
    let e : Event := { code := 0xC403, unit := wholeUnit 0xC, p1 := s.jsr.dropped % 2 ^ 32, p2 := 0, p3 := 0, time := s.now }
    { s with jsr.queue := s.jsr.queue ++ [e], jsr.dropped := 0 }

/-- EVENT_WRITE (R577 to R580): JSR writes the first event of its queue, at most one a µs. -/
def execEventWrite (s : State) : Host.Outcome State Fault Refusal :=
  match s.jsr.queue with
  | [] => .next s
  | e :: l =>
    if !s.jsr.powered ∨ s.jsr.wroteAt = some s.now then .next s
    else .next (({ s with jsr.queue := l, jsr.wroteAt := some s.now }.queueDropped).writeEvent e 0)

/-! ## Freeze (R584, R586) -/

/-- A freeze ends: FREEZE, the staged records, and STAGING_OVERFLOW are appended. End 1 FALSE written, 2 expired,
3 reset. -/
def State.endFreeze (s : State) (how : Nat) : State :=
  match s.jsr.freeze with
  | none => s
  | some (start, r) =>
    let e : Event := { code := 0xC001, unit := wholeUnit 0xC, p1 := reqCode r, p2 := (s.now - start) / 1000 % 2 ^ 32, p3 := how,
                       time := start }
    let staged := s.jsr.staging
    let lost := s.jsr.stagingLost
    let s := { s with jsr.freeze := none, jsr.staging := [], jsr.stagingLost := 0 }.append e 0 0
    let s := staged.foldl (fun s q => s.append q.ev q.count q.flags) s
    let s := s.putNum 0xC006 0 0
    if lost = 0 then s
    else s.append { code := 0xC402, unit := wholeUnit 0xC, p1 := lost % 2 ^ 32, p2 := 0, p3 := 0, time := s.now } 0 0

/-- The write of RECORDER_FREEZE (R584). -/
def freezeEffect : WriteEffect := fun r _ _ v s =>
  if v = .num 1 then
    if s.jsr.freeze.isSome then (s, stOk)
    else (({ s with jsr.freeze := some (s.now, r) }.putNum 0xC006 0 1).bump 0xC008 0x06 1, stOk)
  else (s.endFreeze 1, stOk)

def execRecorderFreeze (r : Requester) (v : OdVal) (s : State) : Host.Outcome State Fault Refusal :=
  .next (s.ownWrite freezeEffect r 0xC006 0 v)

/-- FREEZE_EXPIRY (R584): 10 s after its start a freeze ends. -/
def execFreezeExpiry (s : State) : Host.Outcome State Fault Refusal :=
  match s.jsr.freeze with
  | some (start, _) => if start + 10000000 ≤ s.now then .next (s.endFreeze 2) else .next s
  | none => .next s

/-- JSR is powered at step 2 of a start-up (R582, R586): the events that AON kept come first, then the end of a freeze
that the reset cut short. -/
def State.powerJsr (s : State) : State :=
  let kept := s.jsr.aon
  let lost := s.jsr.aonDropped
  let s := { s with jsr.powered := true, jsr.aon := [], jsr.aonDropped := 0 }
  let s := kept.foldl (fun s e => (s.bump 0xC008 0x01 1).record e 2) s
  let s := if kept.any fun e => severity e.code == 3 then { s with jsr.fatal := true } else s
  let s := if lost = 0 then s
    else s.append { code := 0xC403, unit := wholeUnit 0xC, p1 := lost % 2 ^ 32, p2 := 1, p3 := 0, time := s.now } 0 0
  s.endFreeze 3

end Sys2Proof.Machine
end

