-- ==== Sys2Proof/Machine/Firmware.lean ====
section
/-!
DEFINITION. Firmware: staging, activation, the boot order and the rollback floor (R612 to R620).
-/
namespace Sys2Proof.Machine

/-! ## Slots (R614) -/

/-- Slot 1 or 2. -/
def State.slot (s : State) (n : Nat) : Slot := if n = 1 then s.msv.slot1 else s.msv.slot2

def State.mapSlot (s : State) (n : Nat) (f : Slot → Slot) : State :=
  if n = 1 then { s with msv.slot1 := f s.msv.slot1 } else { s with msv.slot2 := f s.msv.slot2 }

/-- The first slot in a state. -/
def State.slotIn (s : State) (state : Nat) : Option Nat := [1, 2].find? fun n => (s.slot n).state == state

/-- The staging target: the slot that is not RUNNING; slot 1 when none runs. -/
def State.stagingTarget (s : State) : Nat := if s.msv.slot1.state = 3 then 2 else 1

/-- A slot with nothing in it. -/
def Slot.empty : Slot :=
  { state := 0, version := 0, floorRequest := 0, length := 0, result := 0, reason := 0, stagedAt := 0, checkedAt := 0,
    image := [], booted := false }

/-! ## Staging (R612, R615) -/

/-- The key id of images for this module: the first bytes of SHA-384 over FW_PUBLIC_KEY. -/
def firmwareKeyId : Bytes := natBytes 16 ((sha384 firmwarePublicKey).toNat / 2 ^ 256)

/-- Bytes of a range are all zero. -/
def clear (b : Bytes) (off n : Nat) : Bool := (slice b off n).all (· == 0)

/-- The framing of an image of `len` bytes. -/
def framed (b : Bytes) (len : Nat) : Bool :=
  numAt b 0 4 == 0x48454657 && numAt b 4 2 == 1 && clear b 6 2 && clear b 52 4 && clear b 193 7 && clear b 296 24
    && numAt b 20 4 == len && numAt b 16 4 + 336 == len && numAt b 16 4 != 0 && decide (numAt b 12 4 ≤ numAt b 8 4)
    && slice b 24 16 == firmwareKeyId

/-- The whole image has arrived. -/
def State.stageEnd (s : State) (n : Nat) (b : Bytes) : State × Nat × Nat :=
  let s := { s with msv.fwStaged := none }
  if framed b b.length then
    let x : Slot := { Slot.empty with state := 2, version := numAt b 8 4, floorRequest := numAt b 12 4, length := b.length,
                                      stagedAt := s.now, image := b }
    ((s.mapSlot n fun _ => x).bump 0xE321 0x05 1, stOk, 0)
  else (s.mapSlot n fun _ => Slot.empty, stRange, 0)

/-- A window of FW_IMAGE from the service port: the state after it, its status and its sub-code. -/
def State.imageWindow (s : State) (offset len : Nat) (data : Bytes) : State × Nat × Nat :=
  if s.sanitizing ∨ s.pch.power = .hold ∨ (s.pch.power = .startUp ∧ s.pch.step ≤ 2 ∧ !s.pch.noImage) then (s, stRetryLater, 0)
  else if offset = 0 then
    if 67108864 < len ∨ len < data.length then (s, stBadRequest, subEntryLength)
    else if len < 336 then (s, stRange, 0)
    else
      let n := s.stagingTarget
      let s := s.mapSlot n fun _ => { Slot.empty with state := 1 }
      if data.length = len then s.stageEnd n data
      else ({ s with msv.fwStaged := some (len, data, s.now) }, stOk, 0)
  else match s.msv.fwStaged with
    | none => (s, stBadRequest, subLeadBlock)
    | some (total, got, _) =>
      if offset ≠ got.length ∨ len ≠ total then (s, stBadRequest, subLeadBlock)
      else if total < offset + data.length then (s, stBadRequest, subEntryLength)
      else if offset + data.length = total then s.stageEnd s.stagingTarget (got ++ data)
      else ({ s with msv.fwStaged := some (total, got ++ data, s.now) }, stOk, 0)

/-- FW_IMAGE_WINDOW (R615). -/
def execFwImageWindow (offset valueLen : Nat) (data : Bytes) (s : State) : Host.Outcome State Fault Refusal :=
  let (s, st, code) := s.imageWindow offset valueLen data
  .next (s.emit (.dictAnswer .service 0xE310 0 st code s.now))

/-- FW_STAGING_EXPIRY (R615): 10 s without a window. -/
def execFwStagingExpiry (s : State) : Host.Outcome State Fault Refusal :=
  match s.msv.fwStaged with
  | some (_, _, last) => if last + 10000000 ≤ s.now then .next s.dropStaging else .next s
  | none => .next s

/-! ## Activation and abandoning (R616, R617) -/

/-- The write of FW_STAGE_CONTROL: 1 activates, 2 abandons. -/
def stageControlEffect : WriteEffect := fun _ _ _ v s =>
  if v = .num 1 then
    if (s.slotIn 2).isNone then (s, stRange)
    else if s.pch.power = .startUp then (s, stRetryLater)
    else ((s.putNum 0xE302 0 1).bump 0xE321 0x06 1 |>.startDrain .activation, stOk)
  else
    let drop : Slot → Slot := fun x => if x.state = 1 ∨ x.state = 2 then Slot.empty else x
    ({ s with msv.slot1 := drop s.msv.slot1, msv.slot2 := drop s.msv.slot2, msv.fwStaged := none }, stOk)

/-- FW_ACTIVATE (R617): the write of 1. -/
def execFwActivate (r : Requester) (v : OdVal) (s : State) : Host.Outcome State Fault Refusal :=
  if v = .num 1 then .next (s.ownWrite stageControlEffect r 0xE302 0 v) else .next s

/-- FW_ABANDON (R616): the write of 2. -/
def execFwAbandon (r : Requester) (v : OdVal) (s : State) : Host.Outcome State Fault Refusal :=
  if v = .num 2 then .next (s.ownWrite stageControlEffect r 0xE302 0 v) else .next s

/-! ## The rollback floor (R619) -/

/-- The lowest element of FW_FLOOR not yet written. -/
def State.freeFloor (s : State) : Option Nat := ((List.range 32).map (· + 1)).find? fun i => !s.isWritten1 0xE305 i

/-- Every slot below a new floor becomes FAILED with reason 0x06. -/
def State.failBelow (s : State) (floor : Nat) : State :=
  let f : Slot → Slot := fun x =>
    if x.version < floor ∧ 2 ≤ x.state then { x with state := 5, result := 2, reason := 6, checkedAt := s.now } else x
  { s with msv.slot1 := f s.msv.slot1, msv.slot2 := f s.msv.slot2 }

/-- The write of an element of FW_FLOOR: the lowest unwritten one, above the floor and at most the running version. -/
def floorEffect : WriteEffect := fun _ index sub v s =>
  match v with
  | .num n =>
    if s.freeFloor ≠ some sub ∨ n ≤ s.fwFloor ∨ s.fwVersion < n then (s, stRange)
    else ((s.putNum index sub n).failBelow n, stOk)
  | .bytes _ => (s, stRange)

/-- FW_FLOOR (R619): elements 1 to 32. -/
def execFwFloor (element : Nat) (r : Requester) (v : OdVal) (s : State) : Host.Outcome State Fault Refusal :=
  if element = 0 ∨ 32 < element then .fault .noSuchUnit else .next (s.ownWrite floorEffect r 0xE305 element v)

/-- The floor request of an image that boots for the first time. -/
def State.requestFloor (s : State) (n request : Nat) : State :=
  if request ≤ s.fwFloor then s
  else match s.freeFloor with
    | none => s.raise 0xE40A (wholeUnit 0xE) n request 0
    | some i =>
      let s := s.putNum 0xE305 i request
      { s with msv.written1 := odKey 0xE305 i :: s.msv.written1 }.failBelow request

/-! ## Boot (R613, R617, R618) -/

/-- The slots in the order in which the boot ROM tries them. -/
def State.bootOrder (s : State) : List Nat := ([2, 3, 4].filterMap s.slotIn)

/-- The key under which an image's body is encrypted (R613): none where Qv is refused or the unwrap fails. -/
def imageKey (b : Bytes) : Option Bytes :=
  let qv := slice b 96 97
  if (p384.keyFault qv).isSome then none
  else match p384.mul (Config.firmwareKey % p384.n) (p384.decode qv) with
    | none => none
    | some (x, _) =>
      let z := natBytes 48 x
      let kek := (natBytes 48 (sha384 (z ++ ascii "HEROM FW KEK" ++ slice b 0 56)).toNat).take 32
      keyUnwrap kek (slice b 56 40)

/-- The signature of an image over its header and the plaintext of its body (R613). -/
def imageSigned (b plain : Bytes) : Bool :=
  let (r, t) := (numAt b 200 48, numAt b 248 48)
  (p384.scalarFault [r, t]).isNone
    && p384.verify (some Config.vendorKey) (sha384 (slice b 0 200 ++ plain)).toNat r t

/-- The boot ROM's checks of an image (R613): the reason of R618, 0 for a pass. -/
def imageReason (b : Bytes) : Nat :=
  if !framed b b.length then 2
  else match imageKey b with
    | none => 3
    | some key =>
      match gcmOpen key (slice b 40 12) (slice b 0 200) (slice b 320 (b.length - 336)) (b.drop (b.length - 16)) with
      | none => 4
      | some plain => if imageSigned b plain then 0 else 5

/-- The reason for which a slot fails its check; 0 when it passes. -/
def State.bootReason (s : State) (x : Slot) : Nat :=
  let r := imageReason x.image
  if r ≠ 0 then r else if x.version < s.fwFloor then 6 else 0

/-- The check of an image ran jobs of the public-key engine: one that verified its signature is completed, one whose inputs R366
refuses is refused (R364, R366, R370). -/
def State.countBoot (s : State) (x : Slot) (why : Nat) : State :=
  if why = 0 ∨ 5 ≤ why then s.bump 0x7030 0x09 1
  else if why = 3 ∧ (p384.keyFault (slice x.image 96 97)).isSome then s.bump 0x7030 0x0A 1
  else s

/-- A slot boots: it is RUNNING, the slot that was RUNNING becomes FALLBACK. -/
def State.bootSlot (s : State) (n : Nat) (first : Bool) : State :=
  let x := s.slot n
  let s := s.mapSlot (3 - n) fun y => if y.state = 3 then { y with state := 4 } else y
  let s := s.mapSlot n fun y => { y with state := 3, result := 1, reason := 0, checkedAt := s.now, booted := true }
  let s := { s with msv.fallback := !first }
  let s := if first then s else s.bump 0xE321 0x07 1
  if x.booted then s else s.requestFloor n x.floorRequest

/-- Try the slots in order; whether one booted. -/
def State.bootFrom (s : State) (first : Bool) : List Nat → State × Bool
  | [] => (s, false)
  | n :: l =>
    let why := s.bootReason (s.slot n)
    let s := s.countBoot (s.slot n) why
    if why = 0 then (s.bootSlot n first, true)
    else
      let s := s.mapSlot n fun y => { y with state := 5, result := 2, reason := why, checkedAt := s.now }
      (s.raise 0xE808 (wholeUnit 0xE) n why 0).bootFrom false l

/-- The boot ROM's work at the start of step 4; a start-up that finds no image stops (R569, R617). -/
def State.bootFirmware (s : State) : State :=
  let (s, ok) := s.bootFrom true s.bootOrder
  if ok then s else { s with pch.bootStopped := true, pch.noImage := true }

end Sys2Proof.Machine
end

