-- ==== Sys2Proof/Machine/Health.lean ====
section
/-!
DEFINITION. The return of a replicated unit to service and its retirement (R32, R268, R409, R592, R598).
-/
namespace Sys2Proof.Machine

/-- The unit's own subsystem takes it back, as Kiln left it: memories cleared, a pipeline unbound (R592). -/
def State.unitIn (s : State) (u : UnitId) : State :=
  match u.subsystem with
  | 5 => { s with asu.banks := s.asu.banks.modify u.number fun b => { CamBank.reset with width := b.width } }
  | 6 => { s with pae.engines := s.pae.engines.modify u.number fun _ => { state := 0, image := none, task := none } }
  | 7 => { s with cpx.pipelines := s.cpx.pipelines.modify u.number fun _ => .unbound }
  | 0xA => s.mapTile (u.number / 32) fun t => { t with isolated := false, idleSince := s.now }
  | _ => s

/-- A unit returns to service: its lane is unmasked from the next revolution on. -/
def State.returnUnit (s : State) (u : UnitId) : State :=
  ((s.unitIn u).wantMask u false).mapHealth u fun h => { h with state := 0 }

/-- A unit is retired for a lasting fault, after a failed test or without one (test 0): it never serves again. -/
def State.retireUnit (s : State) (u : UnitId) (test : Nat) : State :=
  let s := (s.unitOut u 3).wantMask u true
  let s := s.mapHealth u fun h => { h with state := 4, last := 2 }
  let s := s.raise 0xE807 u.word test 0 0
  if u.subsystem = 0xA then
    let t := u.number / 32
    (s.mapTile t fun x => { x with state := 3, isolated := true, peatStep := 0 }).startRebuild t
  else if u.subsystem = 0xB then s.wardenTested (if u.number = 0 then .a else .b) false
  else s

end Sys2Proof.Machine
end

