-- ==== Sys2Proof/Machine/Reset.lean ====
section
/-!
DEFINITION. What every module reset does to the state, and what a loss of power leaves of it (R66, R70, R76, R197,
R314, R361, R448, R480, R498, R570).
-/
namespace Sys2Proof.Machine

/-! ## Entries (R480, R498) -/

/-- An entry that RESTORE_DEFAULTS leaves alone: another access class, a key page, RULE_WIDTH, the predicate store,
CONFIG_LOCK. -/
def restoreKeeps (index sub : Nat) : Bool :=
  (match entryAt index sub with
    | some e => e.access != .rw && e.access != .rwl
    | none => false)
  || decide (0x7400 ≤ index ∧ index ≤ 0x77FF) || index == 0x5000 || decide (0x6100 ≤ index ∧ index ≤ 0x61FF) || index == 0xF020

/-- A stored value outlives a module reset. -/
def persists (restore : Bool) (k : Nat) : Bool :=
  (match entryAt (k / 256) (k % 256) with
    | some e => e.persist
    | none => false) && (!restore || restoreKeeps (k / 256) (k % 256))

/-- Non-persistent entries return to their defaults, and persistent settings too where that is asked for. -/
def State.resetEntries (s : State) : State :=
  let restore := s.num 0xF021 0 != 0
  { s with od := s.od.filter fun e => persists restore e.1 }

/-! ## Subsystems -/

/-- The ports: links down, every queue and buffer empty; clause 73 signalling seen stays seen (R625). -/
def State.resetPorts (s : State) : State :=
  { s with dpx := { portA := { PortS.reset with partnerSeen := s.dpx.portA.partnerSeen },
                    portB := { PortS.reset with partnerSeen := s.dpx.portB.partnerSeen }, ptp := { PtpS.reset with state := if s.num 0x1001 0 = 0 then 0 else 1 } } }

/-- Transport: every session ends, its id rests for 60 s (R143), and the replay cache is empty. -/
def State.resetWte (s : State) : State :=
  let ended := s.wte.sessions.map fun x => (x.id, s.now + 60000000)
  { s with wte := { Wte.reset with udpPort := s.num 0x2000 0, resting := ended ++ s.wte.resting } }

/-- The queue: no TRS, lease or drain; metering goes on from the last copy of the open epoch, flagged INTERRUPTED (R532). -/
def State.resetCqc (s : State) : State :=
  let c := s.cqc
  let saved := c.accounts.map fun a =>
    let b := if c.checkpoint.2.startNs = c.epoch.startNs then (c.checkpoint.1.find? fun x => x.tenant == a.tenant).getD (.fresh a.tenant)
      else .fresh a.tenant
    { b with usageBytes := a.usageBytes, usageKeys := a.usageKeys }
  { s with cqc := { Cqc.reset with
      expressReserve := s.num 0x3001 0, accounts := saved, epoch := { c.epoch with flags := c.epoch.flags ||| 8 },
      checkpoint := c.checkpoint, closed := c.closed, ringWritten := c.ringWritten, sampledAt := s.now, checkpointAt := s.now } }

/-- The Turnpike: the table of the stored settings is installed (4003), pointers at 0 (R273). -/
def State.resetTpk (s : State) : State :=
  { s with tpk := { Tpk.reset with
      share := s.num 0x4000 0, weights := (s.num 0x4002 1, s.num 0x4002 2), tableId := s.tpk.tableId + 1,
      mask := s.tpk.maskWanted, maskWanted := s.tpk.maskWanted,
      throttle := s.tpk.throttleWanted, throttleWanted := s.tpk.throttleWanted } }

/-- Classification and index: the Rule Table comes from its copy, banks are empty; pages are out of the cache unless the caches
kept their contents. -/
def State.resetAsu (s : State) (cachesKept : Bool) : State :=
  { s with
    pae.preds := s.futurePreds, asu.rules := s.asu.future, asu.copy := s.asu.future, asu.ruleWidth := s.num 0x5000 0, asu.ruleGen := 0, asu.accepted := [], asu.running := none,
    asu.waiting := [],
    asu.banks := (List.range 32).map fun i =>
      { CamBank.reset with width := s.num 0x5010 (i + 1), state := if ((s.asu.banks.map (·.state)).getD i 0) = 3 then 3 else 0 },
    asu.lastBank := 31, asu.inserts := [], asu.reevaluate := none, asu.sweeping := [],
    asu.pages := s.asu.pages.map fun (p : Page) =>
      { p with wanted := false, cached := p.cached && cachesKept } }

/-- Pattern engines idle, no cursor (R70). -/
def State.resetPae (s : State) : State :=
  { s with pae := { s.pae with
      engines := s.pae.engines.map fun (e : Engine) => { state := if e.state = 3 then 3 else 0, image := none, task := none },
      cursors := [], nextCursor := 1, runs := [] } }

/-- The cipher complex: pipelines unbound, no job waiting. -/
def State.resetCpx (s : State) : State :=
  { s with cpx := { Cpx.reset with
      pipelines := s.cpx.pipelines.map fun (p : Pipeline) => { Pipeline.unbound with state := if p.state = 3 then 3 else 0 },
      pages := s.cpx.pages, draws := s.cpx.draws, reseedAt := s.now } }

/-- Stripes without a commit are abandoned, moves and repackings end, and what had been sent to a tile waits again. A rebuild goes
on; its progress counts from here (R424). -/
def State.resetPlc (s : State) : State :=
  let s := (s.dropMoves fun _ => true).voidPlaces
  let left := ((s.plc.stripes.filter s.toRebuild).map s.goneCount).foldl (· + ·) 0
  let s := { s with plc.repacks := [], plc.rebuild := { s.plc.rebuild with total := if s.plc.rebuild.state = 0 then 0 else left, done := 0 } }
  let s := { s with plc.stripes := s.plc.stripes.map fun (p : Stripe) => (List.range 64).foldl (fun q t => q.recall t) p }
  let s := s.dropDirty fun p => p.order.isNone && p.kind != 3
  { s with plc.sanitizeTask := none, plc.formats := [] }.releaseStripes

/-- Tiles in Run, their queues dropped. -/
def State.resetMta (s : State) : State :=
  { s with mta.tiles := s.mta.tiles.map fun (t : Tile) =>
      { t with state := if t.state = 3 then 3 else 0, peatStep := 0, isolated := t.state == 3, idleSince := s.now,
               dies := t.dies.map fun (d : Die) => { d with queue := [], doing := none, suspended := none } } }

/-- Health: units retired for a lasting fault stay so, Wardens excepted (R595). -/
def State.resetHealth (s : State) : State :=
  let lasting : Health → Bool := fun h => h.state == 4 && h.unit.subsystem != 0xB
  { s with msv.health := s.msv.health.map fun (h : Health) => { h with state := if lasting h then 4 else 0 },
           tpk.maskWanted := s.tpk.maskWanted.filter fun e => s.msv.health.any fun h => lasting h && h.unit.endpoint == some e }

/-- PLCA follows E001 to E004 (R502, R503): the node id in use, and the state; the fallback of R503 goes where `clear`. -/
def State.segSettle (s : State) (clear : Bool) : State :=
  let g := s.msv.segment
  let id := if s.num 0xE002 0 = 0 then s.num 0xE003 0 else s.pch.slotAddress % 32
  let plca := if s.num 0xE001 0 = 0 then 0 else if g.plca = 4 ∧ !clear then 4 else if id = 0 then 3
    else if g.plca = 2 then 2 else 1
  { s with msv.segment := { g with nodeId := id, plca := plca } }

/-- Management: no write waits, Kiln and trace idle, no staging. -/
def State.resetMsv (s : State) : State :=
  { s with msv := { s.msv with
      serial := [], held := [], kiln := .reset, trace := .reset, fwStaged := none,
      segment := { s.msv.segment with staged := none, alertSeen := 0, alertSent := none, requests := [], busy := false, answerAt := none },
      service := { s.msv.service with staged := none, pendingReq := none } } }.dropStaging.segSettle true

/-- What no unit outlives: every subsystem at its reset value but for what R570 keeps. -/
def State.resetUnits (s : State) (cachesKept : Bool) : State :=
  let s := s.resetPorts.resetWte.resetCqc.resetHealth.resetTpk
  let s := ((s.resetAsu cachesKept).resetPae.pruneOlder.resetCpx.resetPlc).resetMta.resetMsv
  { s with bfc := if cachesKept then s.bfc else .reset, wdn := { Wdn.reset with clockStopped := s.wdn.clockStopped }, jsr.fatal := false,
           pch.bootStopped := false, pch.noImage := false, pch.dozeStep := 0, pch.wakeWanted := false, pch.slew := 0 }

/-- The effects of a module reset (R570). -/
def State.resetCore (s : State) (cachesKept : Bool) : State := s.resetEntries.resetUnits cachesKept

/-! ## The recorder's supply (R582) -/

/-- JSR loses its supply: it has written the events of its queue, one a µs. -/
def State.unpowerJsr (s : State) : State :=
  let l := s.jsr.queue
  let s := l.foldl (fun s e => s.writeEvent e 0) { s with jsr.queue := [] }
  { s with jsr.powered := false }

/-! ## Programs in progress (R448) -/

/-- A program in progress on a die, running or suspended, completes with its parity page. -/
def State.finishDie (s : State) (tile : Nat) (x : Die) : State :=
  let one : State → Option DieOp → State := fun s o => match o with
    | some (.program id i b row _) =>
      let s := s.rowProgrammed tile x.channel x.die b
      if (s.moveAt tile x.channel x.die b row id i).isSome then s else s.mapShard id i fun h => { h with phase := .programmed }
    | some (.filler b _ _) => s.rowProgrammed tile x.channel x.die b
    | _ => s
  one (one s (x.suspended.map (·.1))) (x.doing.map (·.1))

/-- Every program in progress completes. -/
def State.finishPrograms (s : State) : State :=
  (List.range 64).foldl (fun s t => if (s.tile t).inUse then (s.tile t).dies.foldl (fun s x => s.finishDie t x) s else s) s

end Sys2Proof.Machine
end

