-- ==== Sys2Proof/Machine/Power.lean ====
section
/-!
DEFINITION. Power: the flush on a power loss, start-up and its steps, Hold, Doze, drains, resets and the contacts
(R218 to R223, R404 to R407, R462, R544 to R557, R565 to R571, R617, R627 to R635).
-/
namespace Sys2Proof

/-- A unit of R576; 0xFFF stands for the subsystem as a whole. -/
def UnitId.listed (u : UnitId) : Bool :=
  match u.subsystem with
  | 1 => decide (u.number < 2)
  | 5 => decide (u.number ≤ 0x20)
  | 6 => decide (u.number < 8)
  | 7 => decide (u.number ≤ 0x13)
  | 8 => decide (u.number < 4)
  | 0xA => if u.number < 2048 then decide (u.number % 16 < 10 ∨ u.number % 16 = 14 ∨ u.number % 32 = 15)
           else decide (u.number < 2052)
  | 0xB => decide (u.number < 3)
  | 0xD => decide (u.number < 3)
  | _ => false

/-- Tiles that a unit of MTA belongs to or feeds (R412, R576). -/
def UnitId.tilesOf (u : UnitId) : List Nat :=
  if u.subsystem ≠ 0xA then []
  else if u.number < 2048 then [u.number / 32]
  else (List.range 16).map fun i => (u.number - 2048) * 16 + i

end Sys2Proof

namespace Sys2Proof.Machine

/-! ## The flush (R404, R407, R565) -/

/-- Seal every open packed stripe (R381, R404). -/
def State.sealPacked (s : State) : State :=
  ((s.plc.stripes.filter fun p => p.kind == 2 && !p.sealed && !p.detached).map (·.id)).foldl
    (fun s id => (s.seal id).getD s) s

/-- The flush set: what the dirty write buffer holds that is committed, or is a metadata stripe. A stripe whose flush image still
stands is not written again (R406). -/
def Stripe.flushes (p : Stripe) : Bool :=
  p.dirty && p.sealed && !p.lost && !p.detached && !p.flushed && (p.order.isSome || p.kind == 3)

/-- A shard of the flush set: skipped where its tile takes none. -/
def Shard.flush (down : List Nat) (h : Shard) : Shard :=
  if h.phase = .programmed then h else if down.contains h.tile then { h with phase := .lost } else { h with phase := .dirty }

def Stripe.flush (down : List Nat) (p : Stripe) : Stripe :=
  if p.flushes then
    { p with shards := p.shards.map (Shard.flush down),
             degraded := p.degraded || p.shards.any fun h => h.phase != .programmed && down.contains h.tile }
  else p

/-- Bytes a stripe adds to the flush. -/
def Stripe.flushSize (p : Stripe) : Nat := if p.flushes then shardsStored (p.shards.filter fun h => h.phase == .dirty) else 0

/-- Power-loss detection has fired: writes not committed are abandoned, programs in progress complete, and the dirty
write buffer goes to the flush regions. Cause 1 power loss, 2 PWRDIS, 3 MRST_N. -/
def State.startFlush (s : State) (cause : Nat) : State :=
  let s := { s with cqc.checkpoint := (s.cqc.accounts, s.cqc.epoch) }
  let down := (List.range 64).filter fun t => (s.tile t).down
  let s := (s.finishPrograms.sealPacked.resetUnits false).dropDirty fun p => p.detached
  let s := ((s.plc.stripes.filter fun p => p.dirty).map (·.id)).foldl (fun s id => s.settleStripe id) s
  let s := { s with plc.stripes := s.plc.stripes.map (Stripe.flush down) }
  let bytes := (s.plc.stripes.map Stripe.flushSize).foldl (· + ·) 0
  { s with pch.power := .startUp, pch.step := 0, pch.flushing := some cause, pch.flushAt := s.now, pch.flushBytes := bytes,
           pch.firewood := .flushing, pch.testLimit := none, pch.wtDrain := false, pch.devSaved := s.now }.bump 0xD050 0x08 1

/-! ## Start-up (R462, R567 to R570) -/

/-- LAST_RESET, the counters of resets, and the first step of a start-up. Cause 1 power-on, 2 MRST_N, 3 warm reset,
4 firmware activation, 5 Hold resume (D011). -/
def State.beginStart (s : State) (cause step : Nat) : State :=
  let s := s.resetCore (cause == 5)
  let kind := if 3 ≤ cause then 0 else s.pch.startKind
  let s := s.putBytes 0xD011 0 (natBytes 8 s.now ++ natBytes 1 cause ++ natBytes 1 kind ++ zeros 6)
  let s := match cause with
    | 1 => s.bump 0xD050 0x01 1
    | 2 => s.bump 0xD050 0x02 1
    | 3 => s.bump 0xD050 0x03 1
    | 5 => s.bump 0xD050 0x05 1
    | _ => s
  let s := if kind = 0 then s else s.bump 0xD050 0x0B 1
  let calm : FirewoodPhase := match s.pch.firewood with
    | .ready => .ready
    | _ => .charging
  let s := { s with pch.power := .startUp, pch.step := step, pch.resetCause := cause, pch.startKind := kind, pch.tested := false,
                    pch.testPassed := false, pch.resetWanted := false, pch.firewood := calm, pch.testLimit := none,
                    pch.wtDrain := false }
  if step = 1 then s else s.powerJsr

/-- The AON domain starts from Off: device time goes on from its saved copy (R556). -/
def State.aonStart (s : State) : State :=
  { s with pch.power := .startUp, pch.step := 1, pch.devTime := s.pch.devSaved + 1000000 }.segSettle true

/-- Every domain is cut, AON included. -/
def State.goOff (s : State) : State :=
  { s with pch.power := .off, pch.step := 0, pch.mainPower := false, pch.mainGood := false, wdn.clockStopped := false,
           jsr.aon := [], jsr.aonDropped := 0, msv.segment := .reset, msv.service := .reset, msv.serial := [] }

/-- Main power is gone and nothing is left to flush: held at step 1 on aux, or Off. -/
def State.holdStart (s : State) : State :=
  if s.pch.aux then { s with pch.power := .startUp, pch.step := 1 } else s.goOff

/-- The stored copies of a page are unwrapped (R360). A page in RESTORE goes back to the state it had: one that was LOADED becomes
LOADED with a new transit key, once one can be drawn, its own having been destroyed (R353, R361). -/
def State.unwrapPage (s : State) (p : KeyPage) : State :=
  let open_ (c : Option StoredKey) : Option Bytes := c.bind StoredKey.unwrap
  let q := { p with xts1 := open_ p.copy1, xts2 := open_ p.copy2, access := open_ p.copyA,
                    transit := (open_ p.copyT).map (numAt · 0 32) }
  if p.state ≠ 3 then s.setPage q
  else if p.before = 2 then
    if p.page = 0 ∨ s.cpx.rngState = 0 then s.settlePage q else s.setPage q
  else s.setPage { q with state := p.before }

def State.unwrapKeys (s : State) : State := s.cpx.pages.foldl (fun s p => s.unwrapPage p) s

/-- The records of the readable journal that are not trimmed are replayed over the pages that the map roots name (R397, R568): the
pages they changed are in the cache and not yet written. -/
def State.replayPages (s : State) : State :=
  let named := s.readable.flatMap (·.pages)
  { s with plc.journal := s.readable, asu.pages := s.asu.pages.map fun (p : Page) =>
      if named.contains p.number ∨ !p.clean then { p with cached := true, clean := false } else p }

/-- Replay stops before a record that cannot be read, and says so (R392, R569, R587): one with others written behind it. A record without
its mark at the end of the ring was never written (log 131). -/
def State.stopReplay (s : State) : State :=
  match s.plc.journal.dropWhile fun r => r.body != .unmarked with
  | [] => s
  | r :: later =>
    let place := (s.plc.ringNext + journalRing - ((r :: later).map (·.bytes)).sum) % journalRing
    let s := { s with plc.ringNext := place }
    if later.all fun q => q.body == .unmarked then s else s.raise 0xC804 (wholeUnit 0xC) (r.seq % 2 ^ 32) (place / 8) 0

/-- Journal replay and flush images (R406, R564, R568): a committed stripe that is neither on its tiles nor in a flush
image is lost; the images wait for verification. Where the wall time in force has passed
the open epoch's end, it closes as by a step forward (R532, R539, log 130). -/
def State.replay (s : State) : State :=
  let s := s.stopReplay.replayPages
  let gone := (s.plc.stripes.filter fun p => p.dirty && !p.flushed).map (·.id)
  let s := gone.foldl (fun s id => (s.loseStripe id).mapStripe id fun p => { p with dirty := false }) s
  let l := s.plc.stripes.filter fun p => p.dirty && p.flushed
  { s with plc.flushImage := l.map fun (p : Stripe) => p.id }.advanceEpoch 2

/-- Wardens that have not failed are eligible and in step (R462). -/
def State.wardensStart (s : State) : State :=
  let up : State → Warden → State := fun s w =>
    if (s.health ⟨0xB, w.num⟩).state = 4 then s.mapWarden w fun x => { x with state := 4 }
    else s.mapWarden w fun _ => { eligible := true, state := 1, mismatch := false }
  up (up s .a) .b

/-- A unit fails the power-up test (R462, R595), of which the failures are counted (log 132); a retired unit is not tested. The failing
block and address are not known to the command. -/
def State.powerUpFail (s : State) (u : UnitId) : State :=
  if u.replicated ∧ (s.health u).state = 4 ∧ u.subsystem ≠ 0xB then s else
  let (b, s) := s.takeFree 6
  let (a, s) := s.takeFree 7
  let s := (((s.raise 0xE003 u.word 3 0 0).raise 0xE805 u.word 3 b a).bump 0xE111 0x01 1).bump 0xE111 0x03 1
  match u.tilesOf with
  | [] => if u.replicated ∧ u ≠ ⟨5, 0x20⟩ then s.retireUnit u 3 else { s with pch.outOfService := true }
  | l => l.foldl (fun s t => if (s.tile t).state = 3 then s else s.retireUnit (tileUnit t) 3) s

/-- Time of a step in START_UP_TIMES (D012). -/
def State.stepTime (s : State) (step ms : Nat) : State :=
  let old := s.full 0xD012 0 24
  s.putBytes 0xD012 0 (old.take (4 * (step - 1)) ++ natBytes 4 (clampU 32 ms) ++ old.drop (4 * step))

/-- After a flush that did not complete, the row of every OPEN die block that was at its write pointer, past which the pointer has
moved, and the row below it are read (R448). -/
def Tile.readTorn (t : Tile) : Tile :=
  (t.blocks.filter fun b => b.state == 1).foldl (fun t b =>
    let x := t.dieAt b.channel b.die
    let rows := (List.range b.pointer).drop (b.pointer - 2)
    t.putDie { x with queue := x.queue ++ rows.map fun r => .background b.block r b.slc }) t

/-- What the tiles do first after a start-up (R448): rows that a cut-off program may have torn, then rows not yet verified. -/
def State.startTiles (s : State) : List Tile :=
  s.mta.tiles.map fun (t : Tile) => (if s.pch.startKind = 2 then t.readTorn else t).queueVerifies

/-- The module enters Ready, in write-back after a passed test; START_UP is recorded, and rows not yet verified are next for their
dies (R448). -/
def State.enterReady (s : State) (ms : Nat) : State :=
  let before := s.dirtyLimit
  let s := { s with pch.power := .ready, pch.step := 0, pch.idleSince := s.now, mta.tiles := s.startTiles }
  let s := (s.limitFrom before).raise 0xD001 (unitId 0xD 2) (s.pch.resetCause + 256 * s.pch.startKind) (clampU 32 ms) 0
  s.readyActive

/-- Pinned pages are read into the cache (R304): one whose shard is lost or missing is rebuilt or handled by its kind (R391). -/
def State.loadPinned (s : State) : State :=
  (s.asu.pages.filter fun p => p.pinned && !p.cached && !p.unreadable && !p.detached).foldl (fun s p => s.pageIn p true) s

/-- Every pinned page is in the cache; one that has to be rebuilt from map records keeps the module from Ready. -/
def State.pinnedLoaded (s : State) : Bool := s.asu.pages.all fun p => !p.pinned || p.detached || (p.cached && !p.unreadable)

/-- STARTUP_STEP_DONE (R567, R569): the step in progress ends `ms` after main power good; step 3 brings the units that
failed the power-up test. -/
def execStartupStepDone (ms : Nat) (failed : List UnitId) (s : State) : Host.Outcome State Fault Refusal :=
  if failed.any fun u => !u.listed then .fault .noSuchUnit
  else if s.pch.outOfService ∨ s.pch.bootStopped ∨ s.pch.flushing.isSome ∨ !s.pch.mainGood then .next s
  else match s.pch.power, s.pch.step with
    | .startUp, 1 =>
      if s.pch.mrst ∨ s.pch.resetWanted then .next s
      else .next ({ s with pch.step := 2 }.stepTime 1 ms).powerJsr
    | .startUp, 2 => .next ({ s with pch.step := 3 }.stepTime 2 ms)
    | .startUp, 3 =>
      let s := ((failed.foldl (fun s u => s.powerUpFail u) s).wardensStart).stepTime 3 ms
      let s := { s with msv.kiln.limitsOk := true }
      if !s.wdn.wardenA.eligible ∧ !s.wdn.wardenB.eligible then .next { s with pch.bootStopped := true }
      else .next { s with pch.step := 4 }.bootFirmware
    | .startUp, 4 => .next (({ s with pch.step := 5 }.stepTime 4 ms).unwrapKeys.replay)
    | .startUp, 5 => .next ({ s with pch.power := .readyWt, pch.step := 6 }.stepTime 5 ms)
    | .readyWt, 6 =>
      if !s.plc.flushImage.isEmpty ∨ !s.pch.tested then .next s
      else
        let s := s.loadPinned
        if !s.pinnedLoaded then .next s else .next ((s.stepTime 6 ms).preloadAll.enterReady ms)
    | _, _ => .next s

/-! ## FLUSH_END (R404, R565) -/

/-- LAST_FLUSH (D040). -/
def State.lastFlush (s : State) (bytes energyMj bankMv cause : Nat) (complete : Bool) : State :=
  s.putBytes 0xD040 0 (natBytes 8 s.pch.flushAt ++ natBytes 8 bytes ++ natBytes 4 (clampU 32 (s.now - s.pch.flushAt))
    ++ natBytes 4 (clampU 32 energyMj) ++ natBytes 4 (clampU 32 bankMv) ++ natBytes 1 cause ++ natBytes 1 (bitOf complete 0) ++ zeros 2)

/-- A tile that failed during the flush has not received some of its shards, which is open: a free value (R407, log 128). -/
def State.missedFlush (s : State) (p : Stripe) (i : Nat) (h : Shard) : Bool :=
  h.phase == .dirty && (s.tile h.tile).down && Config.freeValue 25 (16 * p.id + i) % 2 == 0

/-- The shards of a flushed stripe take slots of their tiles' flush regions (R404); those that a failed tile had not received are
skipped (R407). -/
def State.flushStripe (s : State) (p : Stripe) : State :=
  let phase : Nat → Shard → ShardPhase := fun i h => if s.missedFlush p i h then .lost else h.phase
  let shards := p.shards.zipIdx.map fun e => { e.1 with phase := phase e.2 e.1 }
  let (slots, s) := shards.foldl (fun (a : List (Option (Nat × Nat)) × State) h =>
    if h.phase = .dirty then
      let n := a.2.freeSlot h.tile 2
      (a.1 ++ [some (h.tile, n)], a.2.takeSlot h.tile 2 n)
    else (a.1 ++ [none], a.2)) ([], s)
  let s := s.mapStripe p.id fun q => { q with flushed := true, shards := shards, degraded := q.degraded || shards.any fun h => h.phase == .lost }
  { s with plc.flushHeld := s.plc.flushHeld ++ [{ stripe := p.id, slots := slots }] }

/-- Bytes of a flush manifest: the spec leaves its body open. -/
def State.manifestBytes (s : State) : Nat := 32 + 8 * (Config.freeValue 5 s.plc.journalSeq % 2 ^ 20)

/-- The ring has room for what a flush appends, once it is trimmed (R392). -/
def State.flushRecords (s : State) : Bool := s.trimJournal.journalRoom (s.manifestBytes + s.mapRootBytes)

/-- A flush that wrote its map-root record: the manifest lists the flushed stripes with their slots. -/
def State.flushDone (s : State) : State :=
  let held := s.plc.flushHeld
  let s := (s.plc.stripes.filter Stripe.flushes).foldl (fun s p => s.flushStripe p) s.trimJournal
  let new := s.plc.flushHeld.drop held.length
  ({ s with pch.startKind := 1 }.journalAppend s.manifestBytes (.flushManifest new) []).writeRoots

/-- FLUSH_END: the map-root record is written, which waits while the ring has no room for it (R392), or the bank reaches V_MIN; power is cut, or under MRST_N the core is held
in reset. The bytes that an unfinished flush wrote are not stated. -/
def execFlushEnd (bankMv energyMj : Nat) (mapRootWritten : Bool) (s : State) : Host.Outcome State Fault Refusal :=
  match s.pch.flushing with
  | none => .next s
  | some cause =>
    let us := clampU 32 (s.now - s.pch.flushAt)
    if mapRootWritten ∧ !s.flushRecords then .next s.awaitJournal
    else
    let s :=
      if mapRootWritten then
        ((s.lastFlush s.pch.flushBytes energyMj bankMv cause true).flushDone).raise 0xD005 (unitId 0xD 1)
          (clampU 32 (s.pch.flushBytes / 1048576)) us (clampU 32 energyMj)
      else
        let (n, s) := s.takeFree 8
        let bytes := n % (s.pch.flushBytes + 1)
        ({ s with pch.startKind := 2 }.lastFlush bytes energyMj bankMv cause false).raise 0xD806 (unitId 0xD 1)
          (clampU 32 (bytes / 1048576)) (clampU 32 bankMv) 0
    let s : State := { s with pch.flushing := none, pch.bankMv := bankMv, pch.firewood := .charging }
    let s := s.unpowerJsr
    if cause = 3 ∧ s.pch.mainGood then
      if s.pch.mrst then .next { s with pch.step := 1 } else .next (s.beginStart 2 2)
    else .next s.holdStart

/-! ## Hold and Off (R550 to R553) -/

/-- A completed PREPARE_HOLD has a Hold pending. -/
def State.holdPending (s : State) : Bool := s.cqc.policy == 3 && s.cqc.holdUntil.isSome

/-- Main power is removed with a Hold pending: a clean shutdown, into Hold on aux, otherwise into Off. -/
def State.enterHold (s : State) : State :=
  let s := { s with pch.mainPower := false, pch.mainGood := false, pch.devSaved := s.now, pch.startKind := 0,
                    cqc.checkpoint := (s.cqc.accounts, s.cqc.epoch) }
  let s := (s.journalAppend 0 .cleanMark []).resetUnits true
  let s := s.unpowerJsr
  if s.pch.aux then
    { s with pch.power := .hold, pch.step := 0, pch.firewood := .trickle, pch.testLimit := none }.bump 0xD050 0x04 1
  else s.goOff

/-- Main power falls at the contacts (cause 1) or is opened by PWRDIS (cause 2). -/
def State.mainRemoved (s : State) (cause : Nat) : State :=
  let gone := { s with pch.mainPower := false, pch.mainGood := false, pch.resetWanted := false }
  match s.pch.power with
  | .off | .hold => gone
  | .startUp =>
    if s.pch.flushing.isSome then gone
    else if s.pch.step ≤ 1 then gone.holdStart
    else (gone.resetUnits false).unpowerJsr.holdStart
  | _ => if s.holdPending then s.enterHold else gone.startFlush cause

/-- POWER_LOSS_DETECT (R565): main falls (cause 1); PWRDIS has opened it (2); MRST_N is recognised (3). The rows of the
contacts fire causes 2 and 3 themselves, so that detection finds nothing left to do. -/
def execPowerLossDetect (cause : Nat) (s : State) : Host.Outcome State Fault Refusal :=
  if cause = 1 ∧ s.pch.mainPower then .next (s.mainRemoved 1)
  else if cause = 2 ∧ s.pch.pwrdis ∧ s.pch.mainPower then .next (s.mainRemoved 2)
  else .next s

/-- HOLD_ENTRY (R550, R552). -/
def execHoldEntry (s : State) : Host.Outcome State Fault Refusal :=
  match s.pch.power with
  | .ready | .active | .readyWt => if s.holdPending then .next s.enterHold else .next s
  | _ => .next s

/-- AUX_REMOVED (R546, R551, R626). -/
def execAuxRemoved (s : State) : Host.Outcome State Fault Refusal :=
  let t := { s with pch.aux := false }
  if !s.pch.aux then .next s
  else match s.pch.power with
    | .hold => .next t.goOff
    | .startUp => if s.pch.mainPower ∨ s.pch.flushing.isSome then .next t else .next t.goOff
    | _ => .next t

/-- AUX_APPLIED (R546, R635): from Off the AON domain starts and samples the slot address. -/
def execAuxApplied (slotAddress : Nat) (s : State) : Host.Outcome State Fault Refusal :=
  let t := { s with pch.aux := true }
  if s.pch.aux then .next s
  else if s.pch.power = .off then .next ({ t with pch.slotAddress := slotAddress % 32 }.aonStart) else .next t

/-- The bank is at a voltage: full, or to be charged. -/
def State.bankAt (s : State) (mv : Nat) : State :=
  { s with pch.bankMv := mv, pch.firewood := if 31800 ≤ mv then .ready else .charging }

/-- The test of step 6 has been made, or need not be. -/
def State.setTested (s : State) (passed : Bool) : State := { s with pch.tested := true, pch.testPassed := passed }

/-- A resume from Hold (R553): power-up Kiln and journal replay are skipped. The time to Ready is not stated. -/
def State.resumeHold (s : State) (bankMv : Nat) : State :=
  let passed := s.pch.testPassed
  let s := s.beginStart 5 2
  let s := s.wardensStart.unwrapKeys.advanceEpoch 2
  let s := s.bankAt bankMv
  if 31800 ≤ bankMv ∧ passed ∧ s.now < s.pch.lastTest + s.num 0xD022 0 * 3600000000 then
    let (ms, s) := s.takeFree 9
    (s.setTested true).preloadAll.enterReady (ms % 151)
  else { s with pch.power := .readyWt, pch.step := 6 }

/-- MAIN_POWER_GOOD (R553, R567, R627): start-up begins at step 1, or the module resumes from Hold. The bank voltage is
as measured. -/
def execMainPowerGood (bankMv : Nat) (s : State) : Host.Outcome State Fault Refusal :=
  if s.pch.pwrdis ∨ s.pch.mainGood ∨ s.pch.flushing.isSome then .next s
  else
    let t := { s with pch.mainPower := true, pch.mainGood := true }
    let charge : State → State := fun s => { s with pch.bankMv := bankMv, pch.firewood := .charging }
    match s.pch.power with
    | .off => .next (charge (t.aonStart.beginStart 1 1))
    | .startUp => .next (charge (t.beginStart 1 1))
    | .hold => .next (t.resumeHold bankMv)
    | _ => .next t

/-! ## Contacts (R571, R631 to R633) -/

/-- MRST_N is recognised. -/
def State.mrstRecognised (s : State) : State :=
  match s.pch.power with
  | .off => s
  | .hold => s.bump 0xD050 0x0C 1
  | .startUp =>
    if s.pch.pwrdis ∨ !s.pch.mainPower then s.bump 0xD050 0x0C 1
    else if s.pch.flushing.isSome ∨ s.pch.step ≤ 1 ∨ !s.pch.mainGood then s
    else { (s.resetUnits false).unpowerJsr with pch.step := 1, pch.resetWanted := true }
  | _ =>
    if s.pch.pwrdis ∨ !s.pch.mainPower then s.bump 0xD050 0x0C 1 else { s.startFlush 3 with pch.resetWanted := true }

/-- A core held in reset by MRST_N restarts at step 2 once the contact is released. -/
def State.mrstReleased (s : State) : State :=
  let s := { s with pch.mrst := false }
  if s.pch.resetWanted ∧ s.pch.flushing.isNone ∧ s.pch.mainGood ∧ s.pch.power = .startUp then s.beginStart 2 2 else s

/-- MRST_N_ASSERT (R631): a pulse below 2 µs is filtered; one of 2 to 10 µs is either ignored or recognised, which is
left open; a longer one is recognised and lasts until its release. -/
def execMrstNAssert (heldUs : Nat) (s : State) : Host.Outcome State Fault Refusal :=
  if s.pch.mrst then .next s
  else if heldUs < 2 then .next (if s.pch.power = .off then s else s.bump 0xD068 0x02 1)
  else if heldUs < 10 then
    let (n, s) := s.takeFree 10
    if n % 2 = 0 then .next s else .next { s with pch.mrst := true }.mrstRecognised.mrstReleased
  else .next { s with pch.mrst := true }.mrstRecognised

/-- MRST_N_RELEASE (R631). -/
def execMrstNRelease (s : State) : Host.Outcome State Fault Refusal :=
  if s.pch.mrst then .next s.mrstReleased else .next s

/-- PWRDIS_ASSERT (R632): 12 V main is opened. -/
def execPwrdisAssert (s : State) : Host.Outcome State Fault Refusal :=
  if s.pch.pwrdis then .next s
  else
    let t := { s with pch.pwrdis := true }
    if s.pch.power = .off then .next t
    else
      let t := t.bump 0xD068 0x01 1
      .next (if s.pch.mainPower then t.mainRemoved 2 else t)

/-- PWRDIS_RELEASE (R632): soft start follows, and main power good ends it. -/
def execPwrdisRelease (s : State) : Host.Outcome State Fault Refusal := .next { s with pch.pwrdis := false }

/-! ## Drains (R187, R218 to R221) -/

/-- Tasks of PREPARE_HOLD that a drain serves. -/
def Trs.isPrepare (t : Trs) : Bool := t.opcode == opPower && field t.fields 24 1 == 4 && t.state == .running && !t.result

/-- End a PREPARE_HOLD's tasks with a status. -/
def State.endPrepare (s : State) (status flags : Nat) (fields : State → Bytes) : State :=
  ((s.cqc.trs.filter Trs.isPrepare).map (·.idx)).foldl (fun s i => (s.finish i status flags (fields s) []).completeTask i) s

/-- Every posted response fragment is acknowledged. -/
def State.allAcked (s : State) : Bool := s.wte.sessions.all fun x => x.unacked.isEmpty && x.outgoing.isEmpty

/-- The buffer and the journal tail are on the medium. -/
def State.tailWritten (s : State) : Bool := s.dirtyBytes == 0 && s.uncleanPages.isEmpty

/-- The end of phase 3: the clean-shutdown mark; PREPARE_HOLD completes with OK and DURABLE and the Hold is pending. -/
def State.drained (s : State) (d : Drain) : State :=
  let s := { s with pch.startKind := 0, plc.journal := s.trim s.plc.journal }.journalAppend 0 .cleanMark []
  match d.cause with
  | .prepareHold _ =>
    let s := { s with cqc.drain := none, cqc.policy := 3, cqc.holdUntil := some (s.now + 60000000) }
    s.endPrepare stOk flDurable fun s => s.powerFields
  | _ => { s with cqc.drain := some { d with phase := 4, grace := some (s.now + 20000) } }

/-- DRAIN_PHASE_ADVANCE (R218). -/
def execDrainPhaseAdvance (s : State) : Host.Outcome State Fault Refusal :=
  match s.cqc.drain with
  | none => .next s
  | some d =>
    if d.phase ≤ 2 then
      if s.cqc.trs.all Trs.isPrepare then .next { s with cqc.drain := some { d with phase := 3 } }.sealPacked else .next s
    else if d.phase = 3 then
      if s.tailWritten then
        let left := (s.cqc.trs.filter fun t => !t.isPrepare).map (·.idx)
        .next ((left.foldl (fun s i => s.completeTask i) s).drained d)
      else .next s
    else
      let graceOver : Bool := match d.grace with
        | some t => decide (t ≤ s.now)
        | none => true
      if s.allAcked ∨ graceOver then .next (s.beginStart (if d.cause = .activation then 4 else 3) 2) else .next s

/-- The command is past its commit point (R219): a write that has committed, or another command whose effect is made. -/
def Trs.past (t : Trs) : Bool :=
  t.committed || (t.result && t.status == stOk && cachedOpcode t.opcode && !writeOpcode t.opcode && t.opcode != opFlush)

/-- DRAIN_LIMIT_EXPIRY (R219): phase 2 has not ended in time. -/
def execDrainLimitExpiry (s : State) : Host.Outcome State Fault Refusal :=
  match s.cqc.drain with
  | none => .next s
  | some d =>
    if 2 < d.phase ∨ s.now < d.start + s.num 0x3004 0 * 1000 then .next s
    else match d.cause with
      | .prepareHold _ =>
        let s := s.endPrepare stRetryLater 0 fun s => plainError s.drainWait
        .next { s with cqc.drain := none, cqc.policy := s.cqc.policyBefore }.readyActive
      | c =>
        let s := ((s.cqc.trs.filter fun t => t.past && s.modeMet t).map (·.idx)).foldl (fun s i => s.completeTask i) s
        let rest := (s.cqc.trs.filter fun t => !t.past).map (·.idx)
        let n := rest.length + s.cqc.aborting.length
        let s := rest.foldl (fun s i => s.freeTrs i) { s with cqc.aborting := [], msv.serial := s.msv.serial.filter (·.task.isNone) }
        let s := if n = 0 then s
          else (s.bump 0x3010 0x0B n).raise 0x3402 (wholeUnit 3) n (if c = .activation then 4 else 3) 0
        .next { s with cqc.drain := some { d with phase := 3 } }.sealPacked

/-! ## Doze (R222, R223, R547 to R549) -/

/-- No response waits to be sent or acknowledged, since none is sent from Doze (R189). -/
def State.allSent (s : State) : Bool :=
  (s.wte.sessions.all fun x => x.unacked.isEmpty && !x.outgoing.any TxMessage.hasWork)
    && [Port.a, .b].all fun p => (s.port p).txq.all (·.isEmpty)

/-- The conditions of R547 that do not depend on the policy. -/
def State.mayDoze (s : State) : Bool :=
  s.pch.power == .ready && s.cqc.trs.isEmpty && s.cqc.lanes.all (·.isEmpty) && s.dirtyBytes == 0
    && s.plc.rebuild.state == 0 && (s.mta.tiles.all fun t => t.blocks.all fun b => b.queued == 0)
    && s.plc.longOp.isNone && s.plc.reclaims.isEmpty && s.cqc.drain.isNone && s.msv.kiln.test.isNone
    && s.pch.firewood != .waitDischarge && s.pch.firewood != .discharging && s.pch.firewood != .restoring
    && ((List.range 64).all fun t => s.tileIdle t) && s.allSent

/-- Entry begins now (R547); the power-state policy waits over a Warden gap (R466). -/
def State.dozeDue (s : State) : Bool :=
  s.mayDoze && !s.gap && (s.cqc.policy == 2 || (s.cqc.policy == 0 && decide (s.pch.idleSince + s.num 0xD001 0 * 1000 ≤ s.now)))

/-- Links enter low-power idle where it is enabled (R254, R548). -/
def State.dozeLink (s : State) (p : Port) : State :=
  if (s.port p).up ∧ s.pflag p 0x18 0 ∧ !(s.port p).lpiTx ∧ (s.port p).idle then
    (s.mapPort p fun x => { x with lpiTx := true }).pbump p 0x1A 1
  else s

/-- The tiles' part of an entry step: FAST holders in Ember, the others on their way to Peat. -/
def State.dozeTiles (s : State) (step : Nat) : State :=
  { s with mta.tiles := (List.range 64).map fun t =>
      let x := s.tile t
      if x.down || !s.tileIdle t then x
      else if s.fastHolder t then { x with state := 1, peatStep := 0 }
      else if x.state = 2 then x
      else if step = 5 then { x with state := 2, peatStep := 0 }
      else { x with state := 1, peatStep := step - 2 } }

/-- Ticks of the lease left when the Wardens are clock-gated: the holder has sent a final renewal, unless its pair has shown a
mismatch (R460, R474, R548). -/
def State.finalLease (s : State) : Nat :=
  match s.wdn.holder with
  | some w => if (s.warden w).mismatch then s.wdn.leaseEnd - s.now else 50
  | none => 0

/-- A step of the entry runs to its safe point. -/
def State.dozeAdvance (s : State) (step : Nat) : State :=
  let s := { s with pch.dozeStep := step }
  match step with
  | 1 => { s with wdn.leaseEnd := s.finalLease }
  | 2 => { (s.dozeLink .a).dozeLink .b with cqc.stoppedAt := some s.now }
  | 5 => { s.dozeTiles 5 with pch.power := .doze, pch.dozeStep := 0 }.bump 0xD050 0x06 1
  | n => s.dozeTiles n

/-- Links leave low-power idle (R256). -/
def State.wakeLink (s : State) (p : Port) : State :=
  if (s.port p).lpiTx then s.mapPort p fun x => { x with lpiTx := false, lpiWakeAt := s.now + s.lpiWake p } else s

/-- The core clock restarts: the cycle counter is advanced by the time it was stopped, in whole periods of 40 ns, of which
a µs has 25 (R194). -/
def State.restartCycle (s : State) : State :=
  match s.cqc.stoppedAt with
  | none => s
  | some t =>
    let ns := (s.now - t) * 1000
    { s with cqc.cycle := s.cqc.cycle + ns, cqc.tickBase := s.cqc.tickBase + ns, cqc.stoppedAt := none }

/-- The wake from Doze, or from the safe point that an entry has reached (R549). An entry that a frame at a port reverses
counts in DOZE_REVERSALS (R223, R225). -/
def State.wakeUp (s : State) : State :=
  let entering := s.pch.dozeStep ≠ 0
  let reversed := entering ∧ s.pch.wakeWanted
  if !entering ∧ s.pch.power ≠ .doze then s
  else
    let s := s.restartCycle
    let s := { s with pch.power := .ready, pch.dozeStep := 0, pch.wakeWanted := false, pch.idleSince := s.now, wdn.leaseEnd := s.now + s.wdn.leaseEnd }
    let s := (s.wakeLink .a).wakeLink .b
    let s := (List.range 64).foldl (fun s t =>
      if (s.tile t).state = 2 ∨ (s.tile t).peatStep ≠ 0 then s.wakeTile t else s) s
    let s := (s.bump 0xD050 0x07 1).readyActive
    if reversed then s.bump 0x3010 0x0C 1 else s

/-- In Doze the wake that an arrived frame asks for begins at once (R223). -/
def State.dozeTick (s : State) : State := if s.pch.power = .doze ∧ s.pch.wakeWanted then s.wakeUp else s

/-- The step of the entry reaches its safe point, where a frame that has arrived reverses it: from the last one too, which is
Doze itself (R223). -/
def State.dozeNext (s : State) : State :=
  let u := s.dozeAdvance (s.pch.dozeStep + 1)
  if !s.pch.wakeWanted then u
  else if u.pch.dozeStep ≠ 0 then u.wakeUp else u.wakeUp.bump 0x3010 0x0C 1

/-- DOZE_ENTRY (R547, R548): the entry begins, or its next step reaches its safe point. A frame that has arrived since
reverses it there. -/
def execDozeEntry (s : State) : Host.Outcome State Fault Refusal :=
  if s.pch.dozeStep ≠ 0 then .next s.dozeNext
  else if s.dozeDue then .next (s.dozeAdvance 1)
  else .next s

/-- DOZE_WAKE (R549). -/
def execDozeWake (s : State) : Host.Outcome State Fault Refusal := .next s.wakeUp

/-! ## MODULE_RESET, device time, the oscillator, out of service -/

/-- The write of MODULE_RESET (R570, R571, D010): the drain of a warm reset begins or is joined; in Doze after a wake. -/
def moduleResetEffect : WriteEffect := fun _ _ _ v s =>
  if v ≠ .num 1 then (s, stRange) else (((s.wakeUp).startDrain .reset).putNum 0xD010 0 1, stOk)

def execModuleReset (r : Requester) (v : OdVal) (s : State) : Host.Outcome State Fault Refusal :=
  .next (s.ownWrite moduleResetEffect r 0xD010 0 v)

/-- The AON domain has power. -/
def State.aonOn (s : State) : Bool := s.pch.power != .off

/-- DEVICE_TIME_CHECKPOINT (R556): every 1 s AON writes device time to the Journal Store. -/
def execDeviceTimeCheckpoint (s : State) : Host.Outcome State Fault Refusal :=
  if s.aonOn ∧ s.pch.devSaved + 1000000 ≤ s.now then .next { s with pch.devSaved := s.now } else .next s

/-- AON_TRIM (R554): the offset found is reported. -/
def execAonTrim (ppm : Int) (s : State) : Host.Outcome State Fault Refusal :=
  if s.aonOn then .next (s.putNum 0xD031 0 (clampI 32 ppm)) else .next s

/-- MODULE_OUT_OF_SERVICE (R32, R569): the Keep die or the Journal Store has failed; no port traffic from now on. -/
def execModuleOutOfService (s : State) : Host.Outcome State Fault Refusal :=
  let dead : PortS → PortS := fun x => { PortS.reset with partnerSeen := x.partnerSeen }
  .next { s with pch.outOfService := true, dpx.portA := dead s.dpx.portA, dpx.portB := dead s.dpx.portB }

end Sys2Proof.Machine
end

