-- ==== Sys2Proof/Machine/Firewood.lean ====
section
/-!
DEFINITION. The hold-up bank: charging, its test, the energy limit and the dirty limit (R558 to R564).
-/
namespace Sys2Proof.Machine

/-- Energy in mJ that a bank of capacitance `num / den` µF gives from `mv` mV down to V_EFF (R559): V_EFF is V_MIN + ESR × 70 W ÷
V_MIN, here in units of 1/12,000 V. -/
def bankEnergy (num den mv esr : Nat) : Nat :=
  num * (144 * mv ^ 2 - (144000 + 70 * esr) ^ 2) / (den * 288000000000)

/-- Largest multiple of 64 MiB whose flush needs at most two thirds of the energy (R561). -/
def energyLimitFor (mj : Nat) : Nat := (mj - 450) / 75 * 67108864

/-- Capacitance in µF, ESR and energy of the latest measurement (D021). -/
def State.measured_ (s : State) : Nat × Nat × Nat :=
  let b := s.full 0xD021 0 32
  (numAt b 8 4, numAt b 12 4, numAt b 16 4)

/-- D_T (R562): the energy limit of the previous measurement from V_TEST. -/
def State.dTest (s : State) : Nat :=
  let (c, esr, _) := s.measured_
  energyLimitFor (bankEnergy c 1 30400 esr)

/-- FIREWOOD_MEASURE (D021). -/
def State.measure (s : State) (c esr mj bankMv reason : Nat) : State :=
  s.putBytes 0xD021 0 (natBytes 8 s.now ++ natBytes 4 (clampU 32 c) ++ natBytes 4 (clampU 32 esr) ++ natBytes 4 (clampU 32 mj)
    ++ natBytes 4 (clampU 32 bankMv) ++ natBytes 1 (s.num 0xD060 0) ++ natBytes 1 (if reason = 0 then 0 else 1)
    ++ natBytes 1 reason ++ zeros 5)

/-- A test has failed (R560, R564): write-through, an error event, and the drain of every committed stripe; the dirty
limit keeps its value until that drain ends. -/
def State.testFails (s : State) (c esr mj bankMv reason : Nat) : State :=
  let before := s.dirtyLimit
  let s := ((s.measure c esr mj bankMv reason).bump 0xD050 0x09 1).bump 0xD050 0x0A 1
  let s := (s.raise 0xD803 (unitId 0xD 0) reason (clampU 32 mj) 0).putNum 0xD023 0 0
  let s := s.setTested false
  let s := { s with pch.firewood := .failed, pch.lastTest := s.now, pch.testLimit := none, pch.dirtyLimit := before, pch.wtDrain := true }
  s.endForcedDrain

/-- A test has passed (R561, R564). -/
def State.testPasses (s : State) (c esr mj bankMv : Nat) : State :=
  let before := s.dirtyLimit
  let e := energyLimitFor mj
  let s := ((s.measure c esr mj bankMv 0).bump 0xD050 0x09 1).putNum 0xD023 0 0
  let s := s.setTested true
  let s := { s with pch.firewood := .restoring, pch.lastTest := s.now, pch.testLimit := none, pch.energyLimit := e, pch.wtDrain := false }
  let s := if e < s.num 0x8000 0 then s.raise 0xD402 (unitId 0xD 0) (clampU 32 (e / 1048576)) (clampU 32 mj) 0 else s
  s.limitFrom before

/-- The module may test now: it runs with the bank at V_FULL, and no Kiln test of the hold-up path is in progress (R559). The start
of a test waits over a Warden gap (R466). -/
def State.mayTest (s : State) : Bool :=
  (s.pch.power == .active || s.pch.power == .ready || s.pch.power == .readyWt) && s.pch.dozeStep == 0
    && (s.pch.firewood == .ready || (s.pch.firewood == .failed && decide (31800 ≤ s.pch.bankMv))) && !s.holdUpTest && !s.gap

/-- A test begins (R559, R562): in step 6 of start-up at once; otherwise the dirty limit goes down to D_T first. -/
def State.beginTest (s : State) : State :=
  if s.pch.power = .readyWt then { s with pch.firewood := .discharging }
  else
    let before := s.dirtyLimit
    { s with pch.firewood := .waitDischarge, pch.testLimit := some s.dTest }.limitFrom before

/-- A test is due: asked for, the one of step 6, or the period has passed. -/
def State.testDue (s : State) : Bool :=
  s.num 0xD023 0 == 1 || (s.pch.power == .readyWt && !s.pch.tested)
    || decide (s.pch.lastTest + s.num 0xD022 0 * 3600000000 ≤ s.now)

/-- FIREWOOD_TEST_DUE (R559); a test that falls due in Doze wakes the module first (R549). -/
def execFirewoodTestDue (s : State) : Host.Outcome State Fault Refusal :=
  if s.mayTest ∧ s.testDue then .next s.beginTest
  else if s.testDue then .next s.frameWakes
  else .next s

/-- The write of FIREWOOD_TEST_NOW (R559, D023): the test begins now, or as soon as it may; the entry reads 1 until its
end. -/
def testNowEffect : WriteEffect := fun _ _ _ v s =>
  if v ≠ .num 1 then (s, stRange)
  else
    let s := s.putNum 0xD023 0 1
    (if s.mayTest then s.beginTest else s, stOk)

def execFirewoodTestNow (r : Requester) (v : OdVal) (s : State) : Host.Outcome State Fault Refusal :=
  .next (s.ownWrite testNowEffect r 0xD023 0 v)

/-- FIREWOOD_DISCHARGE_START (R562): DIRTY_BYTES is at or below D_T, and the test load is switched on. -/
def execFirewoodDischargeStart (s : State) : Host.Outcome State Fault Refusal :=
  match s.pch.testLimit with
  | some d => if s.pch.firewood = .waitDischarge ∧ s.dirtyBytes ≤ d then .next { s with pch.firewood := .discharging } else .next s
  | none => .next s

/-- Why a measurement fails (R560); 0 when it passes. -/
def failReason (us esr mj : Nat) : Nat :=
  if us < 1000 ∨ 100000 < us then 2 else if 1000 < esr then 3 else if mj < 1650 then 4 else 0

/-- FIREWOOD_TEST_END (R559 to R564): the discharge to V_TEST took `dischargeUs` µs, so C is 1.25 µF per µs. -/
def execFirewoodTestEnd (dischargeUs esrMilliohm bankMv : Nat) (s : State) : Host.Outcome State Fault Refusal :=
  if s.pch.firewood ≠ .discharging then .next s
  else
    let c := 5 * dischargeUs / 4
    let mj := bankEnergy (5 * dischargeUs) 4 32000 esrMilliohm
    let s := { s with pch.bankMv := bankMv }
    let why := failReason dischargeUs esrMilliohm mj
    .next (if why = 0 then s.testPasses c esrMilliohm mj bankMv else s.testFails c esrMilliohm mj bankMv why)

/-- CHARGE_COMPLETE (R558, R560): the bank reaches V_FULL; a charge of more than 20 s fails the test, and what it would
have measured is not stated. -/
def execChargeComplete (chargeMs : Nat) (s : State) : Host.Outcome State Fault Refusal :=
  if s.pch.firewood ≠ .charging ∧ s.pch.firewood ≠ .restoring ∧ s.pch.firewood ≠ .failed then .next s
  else if 20000 < chargeMs then
    let (c, s) := s.takeFree 11
    let (esr, s) := s.takeFree 12
    let (mj, s) := s.takeFree 13
    .next (s.testFails (c % 2 ^ 32) (esr % 2 ^ 32) (mj % 2 ^ 32) s.pch.bankMv 1)
  else
    .next { s with pch.bankMv := 32000, pch.firewood := if s.pch.firewood = .failed then .failed else .ready }

end Sys2Proof.Machine
end

