-- ==== Sys2Proof/Machine/Kiln.lean ====
section
/-!
DEFINITION. Kiln, the self-test controller: requested and targeted tests, their limits and their results (R361, R563,
R589 to R598, R606).
-/
namespace Sys2Proof

/-- The unit that a unit id word names. -/
def UnitId.ofWord (w : Nat) : UnitId := ⟨w / 4096 % 16, w % 4096⟩

def holdUpUnit : UnitId := ⟨0xD, 1⟩
def vaultUnit : UnitId := ⟨7, 0x12⟩
def ruleTableUnit : UnitId := ⟨5, 0x20⟩

/-- The test code is listed for the unit, where a request may name it (R589, R596). -/
def UnitId.testable (u : UnitId) (code : Nat) : Bool :=
  match code with
  | 1 | 2 | 3 => u.replicated && u != ruleTableUnit
  | 4 => u == holdUpUnit
  | 5 => u == vaultUnit
  | _ => false

/-- Test of a targeted start (R597). -/
def UnitId.targetedTest (u : UnitId) : Nat := if u.subsystem = 7 then 1 else 3

def UnitId.isWarden (u : UnitId) : Bool := u.subsystem == 0xB && decide (u.number < 2)

/-- The Warden of a Warden's unit id. -/
def UnitId.warden (u : UnitId) : Warden := if u.number = 0 then .a else .b

end Sys2Proof

namespace Sys2Proof.Machine

/-- KILN_STATE (E100). -/
def State.kilnState (s : State) : Nat :=
  match s.msv.kiln.test with
  | some (_, _, _, requested) => if requested then 3 else 2
  | none => if s.pch.power = .startUp ∧ s.pch.step = 3 then 1 else if s.msv.kiln.waiting.isEmpty then 0 else 4

/-- The limits of R594 hold for the values. -/
def limitsHold (mv : Nat) (celsius ppm : Int) : Bool :=
  decide (700 ≤ mv ∧ mv ≤ 820 ∧ celsius ≤ 105 ∧ -10000 ≤ ppm ∧ ppm ≤ 10000)

/-- The limit that the values in force break, and what was measured: 1 clock, 2 supply, 3 temperature. -/
def Kiln.brokenLimit (k : Kiln) : Nat × Int :=
  if k.limitPpm < -10000 ∨ 10000 < k.limitPpm then (1, k.limitPpm)
  else if k.limitMv < 700 ∨ 820 < k.limitMv then (2, k.limitMv)
  else (3, k.limitC)

/-- KILN_RESULT (E103). -/
def State.kilnResult (s : State) (u : UnitId) (code result durationUs failures address failBit : Nat) : State :=
  s.putBytes 0xE103 0 (natBytes 8 s.now ++ natBytes 2 u.word ++ natBytes 1 code ++ natBytes 1 result
    ++ natBytes 4 (clampU 32 durationUs) ++ natBytes 1 (min failures 16) ++ zeros 3 ++ natBytes 4 (clampU 32 address)
    ++ natBytes 2 (clampU 16 failBit) ++ zeros 6)

/-- The end of a test in E103, and of a Key CAM bank's in BANK_TESTS (5030:10). -/
def State.kilnEnded (s : State) (u : UnitId) (code result durationUs failures address failBit : Nat) : State :=
  let s := s.kilnResult u code result durationUs failures address failBit
  if u.subsystem = 5 ∧ u.number < 32 then s.bump 0x5030 0x10 1 else s

/-- A test is not started, or is abandoned, for want of its limits: KILN_REFUSED, and the unit waits for them (R594). -/
def State.kilnRefused (s : State) (u : UnitId) (code limit : Nat) (measured : Int) (requested : Bool) : State :=
  let s := (s.raise 0xE406 u.word limit (clampI 32 measured) 0).bump 0xE111 0x04 1
  let s := s.kilnResult u code 3 0 0 0 0
  let s := { s with msv.kiln.test := none, msv.kiln.waiting := s.msv.kiln.waiting ++ [(u, code, requested)] }
  if u.replicated then s.mapHealth u fun h => { h with state := 3 } else s

/-- Confirmation that a request of the test carries (R606). -/
def vaultConfirm (code : Nat) : Nat := if code = 5 then 0x5641554C else 0

/-- The vault's working contents are destroyed; stored copies stay (R361). -/
def State.destroyVault (s : State) : State :=
  let s := s.cpx.pages.foldl (fun s p =>
    if p.state = 1 ∨ p.state = 2 then
      (s.clearRegisters p.page).setPage { p with
        xts1 := none, xts2 := none, access := none, transit := none, copyT := none, state := 3, before := p.state }
    else if p.state = 3 then (s.clearRegisters p.page).setPage { p with xts1 := none, xts2 := none, access := none }
    else s) s
  s.endSessions fun _ => true

/-- A test starts (R592, R593, R596): the write of a request applies. A replicated unit is isolated for the whole test. -/
def State.startTest (s : State) (u : UnitId) (code : Nat) (requested : Bool) : State :=
  let before := s.dirtyLimit
  let s := if requested then s.put 0xE102 0 (.bytes (natBytes 2 u.word ++ natBytes 2 code ++ natBytes 4 (vaultConfirm code))) else s
  let s := if u.replicated ∧ s.inService u then
      if u.isWarden then (s.mapWarden u.warden fun x => { x with eligible := false, state := 2 }).isolate u 2 else s.isolate u 2
    else s
  let s := if u.replicated then s.mapHealth u fun h => { h with state := 2 } else s
  let s := { s with msv.kiln := { s.msv.kiln with
      test := some (u, code, s.now, requested), due := s.msv.kiln.due.filter fun d => d.1 != u,
      waiting := s.msv.kiln.waiting.filter fun d => d.1 != u } }
  let s := if code = 5 then s.destroyVault else s
  s.limitFrom before

/-! ## Requests -/

/-- The unit is the only one of its kind in service. -/
def State.lastOfKind (s : State) (u : UnitId) : Bool :=
  u.replicated && (healthUnits.filter fun v => v.subsystem == u.subsystem && v != ruleTableUnit && s.inService v) == [u]

/-- A requested test runs, or waits for its limits. -/
def State.requestRuns (s : State) : Bool :=
  (match s.msv.kiln.test with
    | some (_, _, _, r) => r
    | none => false) || s.msv.kiln.waiting.any fun w => w.2.2

/-- The unit is retired, or under test. -/
def State.notTestable (s : State) (u : UnitId) : Bool :=
  (u.replicated && ((s.health u).state == 4 || (s.health u).state == 2))
    || (match s.msv.kiln.test with
      | some (v, _, _, _) => v == u
      | none => false)

/-- The lease holder's unit. -/
def State.isHolder (s : State) (u : UnitId) : Bool := u.isWarden && s.wdn.holder == some u.warden

/-- The write of KILN_REQUEST (R596), whose reserved byte is ignored (R11): the checks of the request, then the limits (step 9 of R493),
then the test starts and the write applies, after a targeted test that is in progress. A refusal for the limits changes nothing,
counters and KILN_RESULT included (log 132). -/
def kilnEffect : WriteEffect := fun _ _ _ v s =>
  let b := window (valBytes v) 8 0 8
  let u := UnitId.ofWord (numAt b 0 2)
  let code := numAt b 2 1
  if !u.testable code ∨ numAt b 4 4 ≠ vaultConfirm code ∨ s.notTestable u ∨ s.isHolder u ∨ s.lastOfKind u
      ∨ s.requestRuns then (s, stRange)
  else if !s.msv.kiln.limitsOk then (s, stSelfTestRefused)
  else if s.msv.kiln.test.isSome then
    ({ s with msv.kiln.waiting := s.msv.kiln.waiting ++ [(u, code, true)] }, stOk)
  else (s.startTest u code true, stOk)

/-- A row of the requested tests: the write of KILN_REQUEST that names its test. -/
def kilnRow (code : Nat) (r : Requester) (v : OdVal) (s : State) : State :=
  if numAt (window (valBytes v) 8 0 8) 2 1 = code then s.ownWrite kilnEffect r 0xE102 0 v else s

def execKilnLogic (r : Requester) (v : OdVal) (s : State) : Host.Outcome State Fault Refusal := .next (kilnRow 1 r v s)

def execKilnMemory (r : Requester) (v : OdVal) (s : State) : Host.Outcome State Fault Refusal := .next (kilnRow 2 r v s)

def execKilnLogicMemory (r : Requester) (v : OdVal) (s : State) : Host.Outcome State Fault Refusal := .next (kilnRow 3 r v s)

def execKilnHoldUp (r : Requester) (v : OdVal) (s : State) : Host.Outcome State Fault Refusal := .next (kilnRow 4 r v s)

def execKilnVaultMemory (r : Requester) (v : OdVal) (s : State) : Host.Outcome State Fault Refusal := .next (kilnRow 5 r v s)

/-! ## Targeted tests and limits -/

/-- Kiln is free to start a test of the unit: one at a time, and Kiln's sequencing waits in a gap, a Warden's own test
excepted (R466, R473). -/
def State.kilnFree (s : State) (u : UnitId) : Bool := s.msv.kiln.test.isNone && s.coreRuns && (!s.gap || u.isWarden)

/-- KILN_TARGETED_START (R594, R597): an isolated unit's test starts, or is refused for want of its limits. -/
def execKilnTargetedStart (u : UnitId) (s : State) : Host.Outcome State Fault Refusal :=
  if !u.replicated then .fault .noSuchUnit
  else if !s.kilnFree u ∨ !(s.msv.kiln.due.any fun d => d.1 == u) ∨ (s.health u).state ≠ 1 then .next s
  else if s.msv.kiln.limitsOk then .next (s.startTest u u.targetedTest false)
  else
    let (limit, measured) := s.msv.kiln.brokenLimit
    let s := { s with msv.kiln.due := s.msv.kiln.due.filter fun d => d.1 != u }
    .next (s.kilnRefused u u.targetedTest limit measured false)

/-- The first test that waits starts, once Kiln is free and the limits hold. -/
def State.startWaiting (s : State) : State :=
  match s.msv.kiln.waiting with
  | (u, code, requested) :: _ => if s.msv.kiln.limitsOk ∧ s.kilnFree u then s.startTest u code requested else s
  | [] => s

/-- KILN_LIMITS_MET (R594): clocks, core supply and junction temperature are measured within the limits; the first test
that waits for them runs. -/
def execKilnLimitsMet (mv : Nat) (celsius ppm : Int) (s : State) : Host.Outcome State Fault Refusal :=
  if !limitsHold mv celsius ppm then .next s
  else
    let s := { s with msv.kiln.limitMv := mv, msv.kiln.limitC := celsius, msv.kiln.limitPpm := ppm, msv.kiln.limitsOk := true }
    .next s.startWaiting

/-- KILN_LIMITS_LOST (R594): a limit is measured broken; a test in progress is abandoned and waits. -/
def execKilnLimitsLost (limit : Nat) (measured : Int) (s : State) : Host.Outcome State Fault Refusal :=
  let k := s.msv.kiln
  let k := match limit with
    | 1 => { k with limitPpm := measured }
    | 2 => { k with limitMv := measured.toNat }
    | _ => { k with limitC := measured }
  if limit = 0 ∨ 3 < limit ∨ limitsHold k.limitMv k.limitC k.limitPpm then .next s
  else
    let before := s.dirtyLimit
    let s := { s with msv.kiln := { k with limitsOk := false } }
    match s.msv.kiln.test with
    | some (u, code, _, requested) => .next ((s.kilnRefused u code limit measured requested).limitFrom before)
    | none => .next s

/-! ## KILN_TEST_END (R598) -/

def dayOf24h : Nat := 86400000000

/-- Transient faults of the last 24 h. -/
def Health.recentAt (h : Health) (now : Nat) : List Nat := h.recent.filter fun t => decide (now < t + dayOf24h)

/-- FAULTS_TRANSIENT of the unit's subsystem, where an entry holds it. -/
def State.countTransient (s : State) (u : UnitId) : State :=
  if u.subsystem = 0xA then s.bump (tileIndex (u.number / 32)) 0x18 1
  else if u.isWarden then s.bump 0xB010 0x07 1
  else s

/-- The unit goes back to service; a Warden to its resynchronisation or restart. -/
def State.giveBack (s : State) (u : UnitId) : State :=
  let s := s.returnUnit u
  if u.isWarden then s.wardenTested u.warden true else s

/-- A targeted test has passed: a transient fault, of which the eighth in 24 h is lasting. -/
def State.classTransient (s : State) (u : UnitId) : State :=
  let s := (s.countTransient u).mapHealth u fun h =>
    { h with last := 1, total := min (h.total + 1) (maxU 16), recent := s.now :: h.recentAt s.now }
  if 8 ≤ (s.health u).recent.length then (s.bump 0xE111 0x06 1).retireUnit u 0 else s.giveBack u

/-- KILN_TEST_END: result 0 pass, 1 fail, 2 repaired and passed. The failing block or memory number and the spares a
repair takes are not brought by the command. -/
def execKilnTestEnd (result failures address failBit durationUs : Nat) (s : State) : Host.Outcome State Fault Refusal :=
  match s.msv.kiln.test with
  | none => .next s
  | some (u, code, _, requested) =>
    if 2 < result ∨ (s.gap ∧ !u.isWarden) then .next s
    else
      let before := s.dirtyLimit
      let s := { s with msv.kiln.test := none }.kilnEnded u code result durationUs failures address failBit
      let s := s.bump 0xE111 0x01 1
      if result = 1 then
        let (b, s) := s.takeFree 6
        let s := (s.raise 0xE805 u.word code b address).bump 0xE111 0x03 1
        .next ((if u.replicated then s.retireUnit u code else s).limitFrom before).startWaiting
      else
        let cls := if result = 2 then 3 else if requested then 0 else 1
        let s := (s.raise 0xE004 u.word code (clampU 32 durationUs) cls).bump 0xE111 0x02 1
        let s := s.limitFrom before
        if result = 2 then
          let (n, s) := s.takeFree 14
          let s := (s.bump 0xE111 0x05 1).bump 0xE105 0 (1 + n % max failures 1)
          .next (if u.replicated then (s.mapHealth u fun h => { h with last := 3 }).giveBack u else s).startWaiting
        else if !u.replicated then .next s.startWaiting
        else if requested then .next (s.giveBack u).startWaiting
        else .next (s.classTransient u).startWaiting

end Sys2Proof.Machine
end

