-- ==== Sys2Proof/Machine/Trace.lean ====
section
/-!
DEFINITION. The trace unit: arming, entries, triggers, the capture and its read-out (R599 to R604, R607).
-/
namespace Sys2Proof.Machine

/-- Entries of the ring (R599). -/
def traceRing : Nat := 65536

/-- Arm the unit with the settings in force; it records from an empty ring (R601). -/
def State.armTrace (s : State) (continuous : Bool) : State :=
  { s with msv.trace := { Trace.reset with
      clock := s.msv.trace.clock, state := 1, continuous := continuous,
      pre := s.num 0xE201 0, enable := s.num 0xE202 0, threshold := s.num 0xE203 0, status := s.num 0xE204 0,
      entry := s.num 0xE205 0, mask := s.num 0xE206 0, snapshot := s.flag 0xE20B 0, trsSnap := s.msv.trace.trsSnap } }

/-- The unit is off and its ring discarded. -/
def State.traceOff (s : State) : State :=
  { s with msv.trace := { Trace.reset with clock := s.msv.trace.clock, trsSnap := s.msv.trace.trsSnap } }

/-- The write of TRACE_CONTROL (R601). -/
def traceControlEffect : WriteEffect := fun _ index sub v s =>
  match v with
  | .num 0 => ((s.put index sub v).traceOff, stOk)
  | .num 1 => ((s.put index sub v).armTrace false, stOk)
  | .num 2 => ((s.put index sub v).armTrace true, stOk)
  | _ => (s, stRange)

/-- A row of TRACE_CONTROL: the write that carries its value. -/
def traceRow (n : Nat) (r : Requester) (v : OdVal) (s : State) : State :=
  if v = .num n then s.ownWrite traceControlEffect r 0xE200 0 v else s

def execTraceOff (r : Requester) (v : OdVal) (s : State) : Host.Outcome State Fault Refusal := .next (traceRow 0 r v s)

def execTraceArmOnce (r : Requester) (v : OdVal) (s : State) : Host.Outcome State Fault Refusal := .next (traceRow 1 r v s)

def execTraceArmContinuous (r : Requester) (v : OdVal) (s : State) : Host.Outcome State Fault Refusal := .next (traceRow 2 r v s)

/-! ## Entries and triggers -/

/-- An entry as recorded: time in units of 8 ns, kind, source, task number, data (R599). -/
def Trace.entryOf (t : Trace) (kind source task data : Nat) : Nat × Nat × Nat × Nat × Nat :=
  (t.clock / 8 % 2 ^ 40, kind, source, task, data)

/-- CAPTURE_INFO (E20A). -/
def Trace.info (t : Trace) : Bytes :=
  match t.trigger with
  | some (cause, dev, time) =>
    natBytes 4 t.preKept ++ natBytes 4 (65535 - t.pre) ++ natBytes 1 cause ++ zeros 3 ++ natBytes 8 dev ++ natBytes 8 time
      ++ natBytes 4 (clampU 32 t.dropped)
  | none => zeros 32

/-- The capture ends once its post-trigger entries are recorded. -/
def State.captureDone (s : State) : State :=
  if s.msv.trace.state = 2 ∧ s.msv.trace.postLeft = 0 then
    let cause := match s.msv.trace.trigger with
      | some (c, _, _) => c
      | none => 0
    let s := { s with msv.trace.state := 3 }
    ((s.putBytes 0xE20A 0 s.msv.trace.info).bump 0xE20D 0x01 1).raise 0xE009 (wholeUnit 0xE) cause s.msv.trace.preKept 0
  else s

/-- An entry triggers: the entries before it that the capture keeps, the entry, and a snapshot of the TRS where asked
(R601, R602, R604). -/
def State.triggerTrace (s : State) (cause : Nat) (e : Nat × Nat × Nat × Nat × Nat) : State :=
  let t := s.msv.trace
  let kept := t.ring.take t.pre
  let t := { t with state := 2, ring := e :: kept, preKept := kept.length, postLeft := 65535 - t.pre,
                    trigger := some (cause, s.now, e.1), trsSnap := if t.snapshot then s.cqc.trs else t.trsSnap }
  { s with msv.trace := t }.captureDone

/-- A trigger condition met while a capture is held, or while the unit arms again (R603). -/
def State.missedTrigger (s : State) : State :=
  match s.msv.trace.state with
  | 3 => s.bump 0xE20D 0x03 1
  | 4 => s.bump 0xE20D 0x02 1
  | _ => s

/-- The write of TRIGGER_NOW (R601); the entry goes on reading 0. -/
def triggerNowEffect : WriteEffect := fun _ _ _ v s =>
  if v ≠ .num 1 then (s, stRange)
  else if s.msv.trace.state = 1 then (s.triggerTrace 4 (s.msv.trace.entryOf 0xB 0 0 0), stOk)
  else (s.missedTrigger, stOk)

def execTriggerNow (r : Requester) (v : OdVal) (s : State) : Host.Outcome State Fault Refusal :=
  .next (s.ownWrite triggerNowEffect r 0xE208 0 v)

/-- The unit takes an entry in this core cycle, of which it takes at most 2 (R599). -/
def State.traceRoom (s : State) : Bool :=
  !(s.msv.trace.seen.1 == s.cqc.cycle && decide (2 ≤ s.msv.trace.seen.2))

/-- An entry is taken in the running core cycle. -/
def State.traceTaken (s : State) : State :=
  { s with msv.trace.seen := (s.cqc.cycle, if s.msv.trace.seen.1 = s.cqc.cycle then s.msv.trace.seen.2 + 1 else 1) }

/-- An entry beyond the 2 of a core cycle is dropped and counted. -/
def State.traceDropped (s : State) : State :=
  { s with msv.trace.dropped := s.msv.trace.dropped + 1 }.bump 0xE20D 0x04 1

/-- A due entry is the one that the operands name; an event that the model ties to no command takes any task number. -/
def dueIs (kind source task data : Nat) (e : Nat × Nat × Option Nat × Nat) : Bool :=
  e.1 == kind && e.2.1 == source && e.2.2.1.all (· == task) && e.2.2.2 == data

/-- The entry of an event of the module is recorded, triggers, is dropped or is passed over (R599 to R603). -/
def State.traceEvent (s : State) (kind source task data : Nat) : State :=
  let t := s.msv.trace
  let e := t.entryOf kind source task data
  let cause := t.triggerOf kind data
  let taken := (t.state = 1 ∧ cause ≠ 0) ∨ ((t.state = 1 ∨ t.state = 2) ∧ bit t.mask kind)
  if taken ∧ !s.traceRoom then s.traceDropped
  else match t.state with
  | 1 =>
    if cause ≠ 0 then s.traceTaken.triggerTrace cause e
    else if bit t.mask kind then { s.traceTaken with msv.trace.ring := (e :: t.ring).take traceRing } else s
  | 2 =>
    if bit t.mask kind then
      { s.traceTaken with msv.trace.ring := e :: t.ring, msv.trace.postLeft := t.postLeft - 1 }.captureDone
    else s
  | _ => if cause = 0 then s else s.missedTrigger

/-- TRACE_ENTRY (R600 to R603): one of the entries that are due. The manual entry is TRIGGER_NOW's own. -/
def execTraceEntry (kind source task data : Nat) (s : State) : Host.Outcome State Fault Refusal :=
  match s.msv.trace.due.find? (dueIs kind source task data) with
  | none => .next s
  | some d => .next ({ s with msv.trace.due := s.msv.trace.due.erase d }.traceEvent kind source (task % 2 ^ 32) data)

/-! ## Read-out -/

/-- One entry in its 16 bytes (R599). -/
def traceBytes (e : Nat × Nat × Nat × Nat × Nat) : Bytes :=
  natBytes 5 e.1 ++ natBytes 1 e.2.1 ++ natBytes 2 e.2.2.1 ++ natBytes 4 e.2.2.2.1 ++ natBytes 4 e.2.2.2.2

/-- CAPTURE (E209): the entries of the capture, oldest first; all zero while there is none. -/
def Trace.capture (t : Trace) : Bytes :=
  if t.trigger.isSome ∧ t.state ≠ 2 then t.ring.reverse.flatMap traceBytes else []

/-- A read window of CAPTURE has been served: one that covers the last byte of its entries reads it out (R603). -/
def State.captureRead (s : State) (off n : Nat) : State :=
  let size := s.msv.trace.capture.length
  if s.msv.trace.state = 3 ∧ off < size ∧ size ≤ off + n then { s with msv.trace.readOut := true } else s

/-- CAPTURE_READOUT (R603): the unit arms again, or turns off with its capture still there to read. -/
def execCaptureReadout (s : State) : Host.Outcome State Fault Refusal :=
  let t := s.msv.trace
  if t.state ≠ 3 ∨ !t.readOut then .next s
  else if t.continuous then .next { s with msv.trace.state := 4 }
  else .next { s with msv.trace.state := 0 }

/-- TRACE_REARM (R603): within 2 µs of the read-out. -/
def execTraceRearm (s : State) : Host.Outcome State Fault Refusal :=
  if s.msv.trace.state = 4 then .next (s.armTrace true) else .next s

end Sys2Proof.Machine
end

