-- ==== Sys2Proof/Machine/Mirrors.lean ====
section
/-!
DEFINITION. Read-only entries that mirror live state, first half: ports, sessions, queue, Turnpike, classification,
index, pattern engines and cipher complex. Each function answers the value of an entry of its chapters; none where the
stored value is the value.
-/
namespace Sys2Proof.Machine

/-! ## Ports (R225, R244, R246, R260) -/

/-- OPER_GATE_LIST (1x16:01): enable, cycle, phase and length, then the entries. -/
def GateList.image (g : GateList) : Bytes :=
  natBytes 4 (if g.enable then 1 else 0) ++ natBytes 4 g.cycle ++ natBytes 4 g.phase ++ natBytes 4 g.entries.length
    ++ g.entries.flatMap fun (e : Nat × Nat) => natBytes 1 e.1 ++ zeros 3 ++ natBytes 4 e.2

/-- A record of the capture ring (R244). -/
def CaptureRec.image (r : CaptureRec) (port : Nat) : Bytes :=
  let b := natBytes 8 r.time ++ natBytes 4 r.seq ++ natBytes 2 r.frameLen ++ natBytes 2 r.capLen ++ natBytes 1 port
    ++ natBytes 1 r.priority ++ natBytes 2 r.flags ++ zeros 12 ++ r.data
  b ++ zeros (roundUp b.length 8 - b.length)

/-- Put bytes into the ring at an offset; bytes past the end go on at offset 0 (DESIGN CHOICE, log 48: R244 does not say
whether a record may cross the end). -/
def ringPut (ring : Bytes) (off : Nat) (b : Bytes) : Bytes :=
  let size := captureBytes
  let here := b.take (size - off)
  let ring := ring ++ zeros (off + here.length - ring.length)
  let ring := ring.take off ++ here ++ ring.drop (off + here.length)
  let rest := b.drop (size - off)
  rest ++ ring.drop rest.length

/-- CAPTURE_RING (1x1F:00), as far as it has been written. -/
def PortS.captureRing (x : PortS) (port : Nat) : Bytes :=
  x.capture.reverse.foldl (fun ring r => ringPut ring r.offset (r.image port)) []

/-- Entries of a port's block, by the offset of the index in it. -/
def State.portLive (s : State) (p : Port) (off sub : Nat) : Option OdVal :=
  let x := s.port p
  match off, sub with
  | 0x01, 0 => some (.num x.linkState)
  | 0x16, 0 => some (.num x.gateState)
  | 0x16, 1 => some (.bytes x.oper.image)
  | 0x17, n + 1 => some (.num (s.datagramLimit p n))
  | 0x1F, 0 => some (.bytes (x.captureRing p.num))
  | 0x1F, 1 => some (.num x.captureHead)
  | _, _ => none

/-! ## Sessions and queue (R145, R198, R199, R225) -/

def Session.live_ (x : Session) : Bool := !x.half

/-- STATE of a TRS (R199); FREE is 0. -/
def TrsState.code : TrsState → Nat
  | .held => 1
  | .waiting => 2
  | .classifying => 3
  | .keyWait => 4
  | .running => 5
  | .committed => 6
  | .flushWait => 7

/-- The TRS holds key-lock entries, from its admission on (R203). -/
def Trs.locked (t : Trs) : Bool := decide (0 < t.locks)

/-- The eight words of a TRS (R198). Which key-lock entries a command gets is open: LOCK_ENTRY is a free value. -/
def Trs.image (t : Trs) : Bytes :=
  natBytes 8 (t.task * 2 ^ 32 + t.state.code * 2 ^ 28 + t.opcode * 2 ^ 20 + t.admitCls.val * 2 ^ 18 + t.cls.val * 2 ^ 16
      + bitOf t.orderedFlag 15 + t.port.num * 2 ^ 14 + t.tenant)
    ++ natBytes 4 t.session ++ natBytes 4 t.seq0 ++ natBytes 8 t.reqId
    ++ natBytes 4 t.admitTime ++ natBytes 2 (clampU 16 t.earlierOpen) ++ zeros 2
    ++ natBytes 8 ((((t.classes.head?.map (·.generation)).getD 0) % 2 ^ 32) * 2 ^ 32
      + (if t.locked then Config.freeValue 15 t.task % 2 ^ 14 else 0) * 2 ^ 18 + bitOf t.locked 17 + t.locks * 2 ^ 10
      + t.keysReserved * 2 ^ 3)
    ++ natBytes 8 t.version
    ++ natBytes 1 t.status ++ natBytes 1 (((t.flags ||| flagIf t.degraded flDegraded) / 8) % 128) ++ natBytes 6 t.bytesReserved
    ++ natBytes 8 t.msgLen

/-- The TRS in index order, zero where FREE, up to the last in use (3101:00, E20C:00). -/
def trsTable (l : List Trs) : Bytes :=
  let last := l.foldl (fun (m : Nat) t => max m (t.idx + 1)) 0
  (List.range last).flatMap fun (i : Nat) => match l.find? fun t => t.idx == i with
    | some t => t.image
    | none => zeros 64

/-- DRAIN_STATE (3005): 0 none, 1 draining, 2 write tail, 3 Journal Store, as R225 codes the phases of R218. -/
def State.drainState (s : State) : Nat :=
  match s.cqc.drain with
  | some d => if d.phase ≤ 2 then 1 else d.phase - 1
  | none => 0

/-- Entries of indices 1000 to 3FFF but the ports and the accounts. -/
def State.frontLive (s : State) (index sub : Nat) : Option OdVal :=
  let sessions := s.wte.sessions
  if 0x2400 ≤ index ∧ index < 0x2800 then
    if sub = 2 then some (.num (sessions.filter fun x => x.live_ && x.tenant == index - 0x2400).length) else none
  else match index, sub with
    | 0x1004, _ => some (.num s.dpx.ptp.state)
    | 0x2010, _ => some (.num (sessions.filter Session.live_).length)
    | 0x2011, _ => some (.num (sessions.filter Session.half).length)
    | 0x3000, _ => some (.num s.cqc.trs.length)
    | 0x3002, _ => some (.num s.locksInUse)
    | 0x3005, _ => some (.num s.drainState)
    | 0x3006, n + 1 => some (.num ((s.cqc.lanes.getD n []).length))
    | 0x3008, _ => some (.num (s.cqc.leases.filter fun l => decide (s.now < l.endsAt)).length)
    | 0x3101, _ => some (.bytes (trsTable s.cqc.trs))
    | _, _ => none

/-! ## Turnpike (R265, R268, R282) -/

/-- ACTIVE_TABLE (4005:00). -/
def State.activeTable (s : State) : Bytes :=
  if !s.tpk.installed then [] else (List.range 1024).flatMap fun (slot : Nat) =>
    let pairs := s.rowPairs slot
    (List.range 128).flatMap fun (src : Nat) => match pairs.find? fun p => p.1 == src with
      | some p => natBytes 2 (0x8000 + p.2)
      | none => zeros 2

/-- SLOT_KINDS (4005:01). -/
def slotKinds : Bytes := (List.range 1024).map fun (slot : Nat) => if backgroundFirst slot then 1 else 0

/-- A bit for each member: bit i of byte n − 1 − i div 8 of `n` bytes. -/
def bitMap (n : Nat) (l : List Nat) : Bytes := natBytes n (l.foldl (fun m i => if i < 8 * n then setBit m i else m) 0)

def State.tpkLive (s : State) (index sub : Nat) : Option OdVal :=
  match index, sub with
  | 0x4004, _ => some (.num s.tpk.throttle)
  | 0x4005, 0 => some (.bytes s.activeTable)
  | 0x4005, _ => some (.bytes (if s.tpk.installed then slotKinds else []))
  | 0x4006, _ => some (.bytes (bitMap 16 s.tpk.mask))
  | 0x4007, _ => some (.num (expressGap s.tpk.share))
  | _, _ => none

/-! ## Classification and index (R286, R297 to R299, R317, R384) -/

/-- RULE_TABLE (5005): 96 bytes an entry. -/
def ruleTable (l : List Rule) : Bytes :=
  l.flatMap fun (r : Rule) => window r.value 40 0 40 ++ window r.mask 40 0 40 ++ natBytes 8 r.action ++ zeros 8

/-- The units of a Key CAM entry (R286), left-aligned in 40 bytes. -/
def CamEntry.units (e : CamEntry) (w : Nat) : Bytes :=
  let b := natBytes 8 e.print ++ natBytes 2 e.tenant
    ++ (if w = 1 then [] else natBytes 2 e.keyLen ++ window e.key (camKeyBytes w) 0 (camKeyBytes w))
  window b 40 0 40

/-- One record of CAM_BANK_DUMP (5013). -/
def CamEntry.image (e : CamEntry) (w : Nat) : Bytes :=
  natBytes 1 (1 + bitOf e.ref 1) ++ natBytes 1 w
    ++ natBytes 5 (bitOf e.pinned 39 + e.page * 256 + e.entry) ++ zeros 1 ++ e.units w

/-- CAM_BANK_DUMP of a bank, up to its last valid entry. -/
def CamBank.dump (b : CamBank) : Bytes :=
  let last := b.entries.foldl (fun (m : Nat) e => max m (e.addr + 1)) 0
  (List.range last).flatMap fun (a : Nat) => match b.entries.find? fun e => e.addr == a with
    | some e => e.image b.width
    | none => natBytes 1 0 ++ natBytes 1 b.width ++ zeros 46

/-- Flags of an index entry (R299). -/
def KeyRec.entryFlags (k : KeyRec) : Nat :=
  bitOf k.pinned 0 + bitOf k.fast 1 + bitOf k.tombstone 2 + bitOf k.lost 3 + bitOf k.packed 4

/-- An index entry (R298). The form of a pointer to a retention record is open: a free value, 0 where there is none. -/
def State.entryImage (s : State) (k : KeyRec) : Bytes :=
  let n := entryBytes k.key
  let b := natBytes 2 n ++ natBytes 2 k.key.length ++ natBytes 2 k.entryFlags ++ natBytes 1 k.entryId ++ zeros 1
    ++ natBytes 8 k.version ++ natBytes 8 k.length ++ natBytes 8 k.print
    ++ natBytes 8 (s.mapPointer k)
    ++ natBytes 8 (if k.older.isEmpty then 0 else Config.freeValue 16 k.version) ++ k.key
  b ++ zeros (n - b.length)

/-- The neighbour after a page number in a list. -/
def nextIn : List Nat → Nat → Nat
  | a :: b :: t, n => if a = n then b else nextIn (b :: t) n
  | _, _ => 0xFFFFFFFF

/-- An index page (R297): header, links within its tenant's tree, id table and entries in key order. -/
def State.indexPage (s : State) (p : Page) : Bytes :=
  let l := s.pageKeys p.number
  let order := s.leaves p.tenant p.pinned
  let starts := l.foldl (fun (a : Nat × List (Nat × Nat)) k => (a.1 + entryBytes k.key, (k.entryId, a.1) :: a.2)) (576, [])
  let ids := (List.range 256).flatMap fun (i : Nat) => match starts.2.find? fun e => e.1 == i with
    | some e => natBytes 2 (e.2 / 8)
    | none => zeros 2
  let head := natBytes 4 0x4B494458 ++ natBytes 1 1 ++ natBytes 1 (bitOf p.pinned 0) ++ natBytes 2 p.tenant ++ natBytes 4 p.number
    ++ natBytes 2 l.length ++ natBytes 2 (pageRoom - keysBytes l) ++ natBytes 8 p.version
    ++ natBytes 4 (nextIn order p.number) ++ natBytes 4 (nextIn order.reverse p.number) ++ zeros 32
  let b := head ++ ids ++ l.flatMap s.entryImage
  withCrc (b ++ zeros (16384 - b.length)) 48

/-- A shard address (R387). -/
def Shard.address (h : Shard) : Nat :=
  if h.phase = .absent then 0xFF * 2 ^ 56 else h.tile * 2 ^ 56 + h.region * 2 ^ 52 + h.slot

/-- A shard of the stripe is unavailable, its tile out of service or its bytes not there, or awaits rebuild (R386). -/
def State.impaired (s : State) (p : Stripe) : Bool :=
  p.degraded || p.shards.any fun h => (s.tile h.tile).down || h.phase == .lost || h.phase == .failed || (!p.dirty && h.phase != .programmed)

/-- Data shards of a stripe and the length of the last: those of an open packed stripe are its bytes so far. -/
def Stripe.dataShards (p : Stripe) : List Nat :=
  if p.sealed then (p.shards.take p.k).map (·.len) else shardLens p.filled

/-- A stripe descriptor (R386): DEGRADED while a shard is unavailable or awaits rebuild. -/
def State.descriptor (s : State) (p : Stripe) : Bytes :=
  let none_ := natBytes 8 (0xFF * 2 ^ 56)
  let addr : Nat → Bytes := fun i => match p.shards[i]? with
    | some h => natBytes 8 h.address
    | none => none_
  natBytes 8 p.id ++ natBytes 1 p.kind ++ natBytes 1 p.dataShards.length ++ natBytes 1 (bitOf (s.impaired p) 0 + bitOf p.lost 1) ++ zeros 1
    ++ natBytes 4 ((p.dataShards.getLast?).getD 0)
    ++ ((List.range 14).flatMap fun (i : Nat) => if i < p.k then addr i else none_) ++ addr p.k ++ addr (p.k + 1)

/-- The extents of a run (R388), each with the place of its stripe among the page's descriptors. -/
def extentImages (names : List Nat) : (pos : Nat) → List Extent → Bytes
  | _, [] => []
  | pos, e :: l =>
    natBytes 6 pos ++ natBytes 2 (if e.stripe = 0 then 0xFFFF else names.findIdx (· == e.stripe)) ++ natBytes 4 e.len
      ++ natBytes 4 (if e.stripe = 0 then 0 else e.off) ++ extentImages names (pos + e.len) l

/-- The descriptors and extents of a run of extents that begins at a value offset (R385, R386, R388). -/
def State.runImage (s : State) (pos : Nat) (l : List Extent) : Bytes :=
  ((extentStripes l).flatMap fun id => match s.stripe? id with
    | some p => s.descriptor p
    | none => zeros 144) ++ extentImages (extentStripes l) pos l

/-- The first value offset of each run. -/
def runStarts : (pos : Nat) → List (List Extent) → List Nat
  | _, [] => []
  | pos, l :: rest => pos :: runStarts (pos + extentBytes l) rest

/-- A map record head (R385). -/
def State.headImage (s : State) (k : KeyRec) : Bytes :=
  let runs := k.mapRuns
  let more := k.mapPages.drop 1
  natBytes 4 k.mapSize.1 ++ natBytes 2 k.tenant ++ natBytes 2 k.key.length ++ natBytes 8 k.version ++ natBytes 8 k.length
    ++ natBytes 4 k.extents.length ++ natBytes 2 (if runs.isEmpty then (extentStripes k.extents).length else 0)
    ++ natBytes 2 runs.length ++ window k.key (roundUp k.key.length 8) 0 (roundUp k.key.length 8)
    ++ (((runStarts 0 runs).zip more).flatMap fun r => natBytes 4 r.2 ++ zeros 4 ++ natBytes 8 r.1)
    ++ (if runs.isEmpty then s.runImage 0 k.extents else [])

/-- The record of a continuation page (R385): the run of its key that lies there. -/
def State.continuationImage (s : State) (k : KeyRec) (page : Nat) : Bytes :=
  match ((runStarts 0 k.mapRuns).zip k.mapRuns)[(k.mapPages.drop 1).findIdx (· == page)]? with
  | some (pos, run) =>
    natBytes 4 (16 + runBytes run) ++ natBytes 2 (extentStripes run).length ++ natBytes 2 run.length ++ natBytes 8 pos
      ++ s.runImage pos run
  | none => []

/-- A map page (R384 to R388): its header and records. -/
def State.mapPageImage (s : State) (p : Page) : Bytes :=
  let l := s.mapped p.number
  let continues := !l.any fun k => k.mapPages.head? == some p.number
  let head := natBytes 4 0x4D415050 ++ natBytes 1 (if continues then 2 else 1) ++ natBytes 1 (bitOf p.pinned 0)
    ++ natBytes 2 p.tenant ++ natBytes 4 p.number ++ natBytes 2 l.length
  let records := if continues then l.flatMap fun k => s.continuationImage k p.number else l.flatMap s.headImage
  let b := head ++ natBytes 2 (16320 - records.length) ++ natBytes 8 p.version ++ zeros 40 ++ records
  withCrc (b ++ zeros (16384 - b.length)) 48

/-- A key's retention records in a page (R305): version, value length and the pointer to the one before, whose form is open. -/
def olderImages (page : Nat) : List Older → Bytes
  | [] => []
  | o :: l =>
    (if o.page = page then natBytes 8 o.version ++ natBytes 8 o.length
      ++ natBytes 8 (if l.isEmpty then 0 else Config.freeValue 16 o.version) else []) ++ olderImages page l

/-- The header of a directory, interior or retention page (R297), with its neighbours in a tree. -/
def Page.headImage (p : Page) (count free : Nat) (right left : Nat := 0xFFFFFFFF) : Bytes :=
  natBytes 4 0x4B494458 ++ natBytes 1 p.kind ++ natBytes 1 (bitOf p.pinned 0) ++ natBytes 2 p.tenant ++ natBytes 4 p.number
    ++ natBytes 2 count ++ natBytes 2 free ++ natBytes 8 p.version ++ natBytes 4 right ++ natBytes 4 left ++ zeros 32

/-- A retention page (R297, R305): its records from offset 64 on. -/
def State.retentionPage (s : State) (p : Page) : Bytes :=
  let records := s.asu.keys.flatMap fun k => olderImages p.number k.older
  let b := p.headImage (records.length / 24) (16320 - records.length) ++ records
  withCrc (b ++ zeros (16384 - b.length)) 48

/-- A directory slot of an entry, and slot 7 of a bucket that goes on in an overflow bucket (R300). -/
def KeyRec.dirSlot (k : KeyRec) : Nat :=
  k.print % 2 ^ 16 * 2 ^ 48 + k.page % 2 ^ 30 * 2 ^ 18 + k.entryId % 256 * 2 ^ 10 + 1
def overflowSlot (number : Nat) : Nat := number % 2 ^ 38 * 2 ^ 10 + 2 ^ 2 + 1

/-- A bucket (R300): eight slots, the last the way to its overflow bucket where there is one. -/
def bucketImage (l : List KeyRec) (next : Option Overflow) : Bytes :=
  let slots := match next with
    | some o => (l.take 7).map KeyRec.dirSlot ++ [overflowSlot o.number]
    | none => (l.take 8).map KeyRec.dirSlot
  window (slots.flatMap fun n => natBytes 8 n) 64 0 64

/-- A bucket of a directory page: of the pinned directory, an overflow bucket, or a main bucket. -/
def State.bucketAt (s : State) (p : Page) (depth bucket : Nat) : Bytes :=
  if p.pinned then bucketImage (s.asu.keys.filter fun k => k.pinned && k.print / 2 ^ 43 == bucket) none
  else if depth = 64 then match s.asu.overflows.find? fun o => o.number == bucket with
    | some o =>
      let more := s.asu.chain (o.depth, o.bucket)
      bucketImage ((s.asu.inBucket (o.depth, o.bucket)).drop (7 * (o.link + 1))) (more.find? fun x => x.link == o.link + 1)
    | none => zeros 64
  else bucketImage (s.asu.inBucket (depth, bucket)) ((s.asu.chain (depth, bucket)).find? fun x => x.link == 0)

/-- A directory page (R297, R300). DESIGN CHOICE (log 33): 256 buckets of 64 bytes leave no room for the header; each bucket stands
at its number times 64, and the header in place of the first one. -/
def State.dirImage (s : State) (p : Page) : Bytes :=
  let (depth, n) := p.dir.getD (0, 0)
  withCrc (p.headImage 0 0 ++ (List.range 255).flatMap fun i => s.bucketAt p depth (256 * n + i + 1)) 48

/-- An interior page: its header, linked to its neighbours of one level, with an open body (R296, R297, log 33). -/
def State.interiorImage (s : State) (p : Page) : Bytes :=
  let (level, n) := p.dir.getD (0, 0)
  let at_ : Nat → Nat := fun i => (((s.interiors p.tenant p.pinned).find? fun q => q.dir == some (level, i)).map (·.number)).getD 0xFFFFFFFF
  withCrc (p.headImage 0 0 (at_ (n + 1)) (if n = 0 then 0xFFFFFFFF else at_ (n - 1))
    ++ window (Config.pageBody p.number p.version) 16320 0 16320) 48

/-- The image of a page (R297, R384). -/
def State.pageImage (s : State) (p : Page) : Bytes :=
  if p.kind = 1 then s.indexPage p else if p.kind = 4 then s.retentionPage p else if p.kind = 5 then s.mapPageImage p
  else if p.kind = 3 then s.dirImage p else s.interiorImage p

/-- PAGE_COPY (5025:01); all zero where there is no such page. -/
def State.pageCopy (s : State) : Bytes :=
  match s.page? (s.num 0x5025 0) with
  | some p => s.pageImage p
  | none => []

/-- What reading an entry does: a read of the trace capture takes it, and PAGE_COPY pages its page in (R317). -/
def State.readEffect (s : State) (index sub off n : Nat) : State :=
  if index = 0xE209 then s.captureRead off n
  else if index = 0x5025 ∧ sub = 1 then match s.page? (s.num 0x5025 0) with
    | some p => if p.cached ∨ p.unreadable then s else s.pageIn p true
    | none => s
  else s

def State.asuLive (s : State) (index sub : Nat) : Option OdVal :=
  match index, sub with
  | 0x5001, _ => some (.num s.asu.rules.length)
  | 0x5002, _ => some (.num s.asu.ruleGen)
  | 0x5004, _ => some (.num s.asu.commands)
  | 0x5005, _ => some (.bytes (ruleTable s.asu.rules))
  | 0x5011, n + 1 => (s.asu.banks[n]?).map fun b => .num b.entries.length
  | 0x5012, n + 1 => (s.asu.banks[n]?).map fun b => .num b.state
  | 0x5013, n + 1 => (s.asu.banks[n]?).map fun b => .bytes b.dump
  | 0x5020, _ => some (.num s.asu.depth)
  | 0x5021, _ => some (.num s.keysStored)
  | 0x5022, _ => some (.num s.pinnedBytes)
  | 0x5023, _ => some (.num (s.asu.pages.filter fun p => p.cached && p.kind != 5).length)
  | 0x5024, _ => some (.num (if s.asu.reevaluate.isSome then 1 else 0))
  | 0x5025, 1 => some (.bytes s.pageCopy)
  | _, _ => none

/-! ## Pattern engines and cipher complex (R333, R338, R352, R369) -/

def State.paeLive (s : State) (index sub : Nat) : Option OdVal :=
  if 0x6100 ≤ index ∧ index < 0x6200 then
    if sub = 1 then some (.num (s.predRefs (index - 0x6100))) else some (.bytes ((s.predImage (index - 0x6100)).getD []))
  else match index, sub with
    | 0x6000, n + 1 => (s.pae.engines[n]?).map fun e => .num e.state
    | 0x6002, _ => some (.num s.predUsed)
    | 0x6003, _ => some (.num s.imageStore)
    | 0x6004, _ => some (.num (s.pae.runs.filter fun r => r.engine.isNone && !r.done).length)
    | 0x6005, _ => some (.num s.pae.cursors.length)
    | _, _ => none

/-- The key check value of a key (R352). -/
def kcv (k : Option Bytes) : Nat :=
  match k with
  | some k => 2 ^ 24 + (cmac k (ascii "HEROM-KCV" ++ zeros 7)).toNat / 2 ^ 104
  | none => 0

/-- The key whose KCV a page reports: in RESTORE, the stored copy. -/
def KeyPage.reported (p : KeyPage) (sub : Nat) : Option Bytes :=
  let (work, copy) := p.key sub
  if p.state = 3 then copy.or work else work

def State.cpxLive (s : State) (index sub : Nat) : Option OdVal :=
  if 0x7400 ≤ index ∧ index < 0x7800 then
    let p := s.keyPage (index - 0x7400)
    match sub with
    | 0x04 => some (.num p.state)
    | 0x05 => some (.num (kcv (p.reported 1)))
    | 0x06 => some (.num (kcv (p.reported 2)))
    | 0x07 => some (.num (kcv (p.reported 3)))
    | 0x08 => some (.num (kcv (p.transit.map (natBytes 32 ·))))
    | 0x09 => some (.num p.loadedAt)
    | 0x0A => some (.num p.loads)
    | _ => none
  else match index, sub with
    | 0x7000, n + 1 => (s.cpx.pipelines[n]?).map fun p => .num p.state
    | 0x7001, n + 1 => (s.cpx.pipelines[n]?).map fun p => .num p.binding
    | 0x7003, _ => some (.num s.cpx.rngState)
    | 0x7004, _ => some (.num (kcv (s.asu.printKey.map fun n => natBytes 32 (Config.draw n))))
    | 0x7005, _ => some (.num (s.wte.sessions.filter Session.live_).length)
    | _, _ => none

end Sys2Proof.Machine
end

