-- ==== Sys2Proof/Machine/Read.lean ====
section
/-!
DEFINITION. Read-only entries that mirror live state, second half: buffers, placement, tiles, Wardens, management,
accounts, recorder and power; and the read of any entry (R478 to R484).
-/
namespace Sys2Proof.Machine

/-! ## Buffers and placement (R414, R419, R422, R572) -/

/-- LOST_KEY_LOG (9021:00): entries at their places. -/
def LostEntry.image (e : LostEntry) : Bytes :=
  natBytes 2 e.tenant ++ natBytes 2 1 ++ zeros 4 ++ natBytes 8 ((sha256 e.key).toNat / 2 ^ 192) ++ natBytes 8 e.version
    ++ natBytes 8 e.time

def lostLogImage (l : List LostEntry) : Bytes :=
  let last := l.foldl (fun (m : Nat) e => max m (e.index + 1)) 0
  (List.range last).flatMap fun (i : Nat) => match l.find? fun e => e.index == i with
    | some e => e.image
    | none => zeros 32

/-- Bytes of a region in use over all tiles. -/
def State.regionUsed (s : State) (region : Nat) : Nat :=
  ((List.range 64).map fun t => shardBytes * s.slotsUsed t region).foldl (· + ·) 0

/-- Bytes that a region has over all tiles (R377). -/
def regionRaw (region : Nat) : Nat := shardBytes * 64 * regionSlots region

/-- REGION_BYTES (9002): what each region holds in all, what FAST and metadata hold in use, the reserve, and the free data area. -/
def State.regionBytes (s : State) (sub : Nat) : Nat :=
  if sub = 7 then s.plc.reserve
  else if sub = 3 then s.regionUsed 1
  else if sub = 5 then s.regionUsed 3
  else match [(1, 0), (2, 1), (4, 3), (6, 2)].lookup sub with
    | some r => regionRaw r
    | none => s.dataFree

/-- REBUILD_ETA (9010:06): the spec gives no estimate rule, so a running rebuild shows a free value. -/
def State.rebuildEta (s : State) : Nat :=
  if s.plc.rebuild.state = 0 then 0 else Config.freeValue 17 s.plc.rebuild.done % 2 ^ 32

def State.longOpLive (s : State) (sub : Nat) : Option OdVal :=
  let o := s.plc.longOp
  match sub with
  | 1 => some (.num ((o.map (·.op)).getD 0))
  | 2 => some (.num ((o.map LongOp.phaseCode).getD 0))
  | 3 => some (.num ((o.map (·.tenant)).getD 0))
  | 4 => some (.num ((o.map LongOp.progress).getD 0))
  | 5 => some (.num ((o.map (·.step)).getD 0))
  | 6 => some (.num ((o.map (·.started)).getD 0))
  | _ => none

def State.plcLive (s : State) (index sub : Nat) : Option OdVal :=
  match index, sub with
  | 0x8001, _ => some (.num s.dirtyLimit)
  | 0x8002, _ => some (.num s.dirtyBytes)
  | 0x8003, _ => some (.num s.pch.energyLimit)
  | 0x9000, _ => some (.num s.capacity)
  | 0x9001, _ => some (.num s.storedBytes)
  | 0x9002, n + 1 => some (.num (s.regionBytes (n + 1)))
  | 0x9003, _ => some (.num (min 3 s.plc.reserveTiles))
  | 0x9006, _ => some (.num s.pinnedMapBytes)
  | 0x9007, _ => some (.num s.plc.stripeCounter)
  | 0x9008, _ => some (.num s.journalUsed)
  | 0x9010, 1 => some (.num s.plc.rebuild.state)
  | 0x9010, 2 => some (.bytes (bitMap 8 (if s.plc.rebuild.state = 0 then [] else s.plc.rebuild.tiles)))
  | 0x9010, 3 => some (.num s.plc.rebuild.total)
  | 0x9010, 4 => some (.num s.plc.rebuild.done)
  | 0x9010, 5 => some (.num (s.plc.stripes.filter fun p => s.toRebuild p && s.goneCount p == 2).length)
  | 0x9010, 6 => some (.num s.rebuildEta)
  | 0x9020, 0 => some (.num s.plc.lostLog.length)
  | 0x9021, _ => some (.bytes (lostLogImage s.plc.lostLog))
  | 0x9030, n => s.longOpLive n
  | 0x9031, _ => some (.num s.plc.reclaims.length)
  | 0x9040, 1 => some (.bytes (match s.stripe? (s.num 0x9040 0) with
    | some p => if p.detached ∨ !(s.owned p.id || s.holdsPages p.id || s.beingRead p.id) then [] else s.descriptor p
    | none => []))
  | 0x9050, _ => some (.num s.plc.charcoal)
  | _, _ => none

/-! ## Tiles (R453, R454) -/

/-- BLOCK_INFO (A000:21) of the block that BLOCK_SELECT names. -/
def State.blockInfo (s : State) : Bytes :=
  let n := s.num 0xA000 0x20
  let (t, c, d, b) := (bits n 21 16, bits n 15 15, bits n 14 11, bits n 9 0)
  let x := (s.tile t).blockAt c d b
  natBytes 1 (s.blockCode t c d b) ++ natBytes 1 (if x.slc then 1 else 0) ++ natBytes 2 x.pointer ++ natBytes 4 x.qlcErases
    ++ natBytes 4 x.slcErases ++ natBytes 4 x.reads ++ natBytes 8 x.time ++ natBytes 1 (clampI 8 x.temp) ++ natBytes 1 x.region
    ++ natBytes 2 x.superblock ++ zeros 4

/-- Wear of a die block in units of 0.1 % times 30 (R454). -/
def DieBlock.wear30 (b : DieBlock) : Nat := 10 * b.qlcErases + b.slcErases

def State.tileLive (s : State) (t sub : Nat) : Option OdVal :=
  let x := s.tile t
  match sub with
  | 0x01 => some (.num x.state)
  | 0x02 => some (.num (bitOf x.isolated 0 + bitOf x.closed 1 + bitOf (s.fastHolder t) 2))
  | 0x03 => some (.num x.spares)
  | 0x04 => some (.num (min 65535 ((x.blocks.map DieBlock.wear30).foldl (· + ·) 0 / (30 * 20480))))
  | 0x05 => some (.num (min 65535 ((x.blocks.map DieBlock.wear30).foldl max 0 / 30)))
  | 0x17 => some (.bytes (x.tempUs.flatMap fun (us : Nat) => natBytes 4 (clampU 32 (us / 3600000000))))
  | _ => none

/-! ## Wardens, management, accounts (R477, R499, R502, R530, R539) -/

/-- A closed epoch's record in a tenant's ring (R530). -/
def ClosedEpoch.image (e : ClosedEpoch) (tenant : Nat) : Bytes :=
  let (_, r, w, o, b) := (e.counts.find? fun c => c.1 == tenant).getD (tenant, 0, 0, 0, 0)
  let top := maxU 48
  let sat := r == top || w == top || o == top || b == top
  natBytes 4 e.start ++ natBytes 1 (e.flags ||| bitOf sat 5) ++ zeros 1 ++ natBytes 2 e.minutes ++ natBytes 6 r ++ natBytes 6 w
    ++ natBytes 6 o ++ natBytes 6 b

/-- EPOCH_RING (3400+t:0B): each record at its index; the newest is just before the head (R531). -/
def Cqc.ring (c : Cqc) (tenant : Nat) : Bytes :=
  let l := c.closed
  (List.range (min 8760 c.ringWritten)).flatMap fun (i : Nat) =>
    match l[(c.ringWritten - 1 - i) % 8760]? with
    | some e => e.image tenant
    | none => zeros 32

def State.accountLive (s : State) (t sub : Nat) : Option OdVal :=
  let a := s.account t
  match sub with
  | 0x03 => some (.num a.usageBytes)
  | 0x04 => some (.num a.usageKeys)
  | 0x05 => some (.num (s.reserved (some t)).1)
  | 0x06 => some (.num (if s.overQuota t then 1 else 0))
  | 0x07 => some (.num a.bytesRead)
  | 0x08 => some (.num a.bytesWritten)
  | 0x09 => some (.num a.operations)
  | 0x0A => some (.num (a.byteMs / mibSecond))
  | 0x0B => some (.bytes (s.cqc.ring t))
  | 0x0C => some (.num (s.cqc.ringWritten % 8760))
  | _ => none

/-- MODULE_STATE (F010). -/
def Power.stateCode : Power → Nat
  | .active => 0
  | .ready => 1
  | .readyWt => 2
  | .startUp => 3
  | .doze => 4
  | .hold | .off => 5

def State.wardenLive (s : State) (index sub : Nat) : Option OdVal :=
  match index, sub with
  | 0xB000, _ => some (.num (Warden.code s.wdn.holder))
  | 0xB001, 1 => some (.num s.wdn.wardenA.state)
  | 0xB001, 2 => some (.num s.wdn.wardenB.state)
  | 0xB004, _ => some (.num (s.msv.held.length + s.wte.handshakes.length))
  | _, _ => none

def State.rootLive (s : State) (index sub : Nat) : Option OdVal :=
  match index, sub with
  | 0x3201, _ => some (.num s.cqc.epoch.startNs)
  | 0x3202, _ => some (.num s.cqc.epoch.flags)
  | 0xF006, _ => some (.num s.fwVersion)
  | 0xF010, _ => some (.num s.pch.power.stateCode)
  | 0xF011, _ => some (.num s.healthSummary)
  | 0xF012, 0 => some (.num (s.num 0xF012 0 ||| 0x4000))
  | 0xE008, _ => some (.num s.msv.segment.plca)
  | 0xE009, _ => some (.num s.msv.segment.nodeId)
  | 0xE00C, _ => some (.num s.msv.segment.quiet)
  | 0xE00D, _ => some (.num s.msv.segment.quietId)
  | _, _ => none

/-! ## Recorder (R574, R575, R586) -/

def Record.image (r : Record) : Bytes :=
  natBytes 2 r.ev.code ++ natBytes 2 r.ev.unit ++ natBytes 2 r.count ++ natBytes 1 r.flags ++ natBytes 1 0xA5
    ++ natBytes 8 r.ev.time ++ natBytes 4 r.seq ++ natBytes 4 r.ev.p1 ++ natBytes 4 r.ev.p2 ++ natBytes 4 r.ev.p3

/-- The record that was the n-th written, from 0, while it is kept: the first 8,192, and the newest 2,088,960 of the
others (R574). -/
def Jsr.nth (j : Jsr) (n : Nat) : Option Record :=
  if j.written ≤ n ∨ (8192 ≤ n ∧ n + 2088960 < j.written) then none else j.records[j.written - 1 - n]?

/-- The record in a slot of the ring area: the newest one written there. -/
def Jsr.ringSlot (j : Jsr) (i : Nat) : Option Record :=
  if j.written ≤ 8192 + i then none else j.nth (8192 + i + (j.written - 8193 - i) / 2088960 * 2088960)

def recordOr (r : Option Record) : Bytes :=
  match r with
  | some r => r.image
  | none => zeros 32

/-- The record with a sequence number while it is kept (C005:01). -/
def Jsr.selected (j : Jsr) (seq : Nat) : Option Record :=
  (j.records.findIdx? fun r => r.seq == seq).bind fun i => j.nth (j.written - 1 - i)

def State.jsrLive (s : State) (index sub : Nat) : Option OdVal :=
  let j := s.jsr
  match index, sub with
  | 0xC000, _ => some (.num j.written)
  | 0xC001, _ => some (.num j.nextSeq)
  | 0xC002, _ => some (.num (if j.written < 8192 then 0 else (j.written - 8192) % 2088960))
  | 0xC003, _ => some (.bytes ((List.range (min 8192 j.written)).flatMap fun (i : Nat) => recordOr (j.nth i)))
  | 0xC004, _ => some (.bytes ((List.range (min 2088960 (j.written - 8192))).flatMap fun (i : Nat) => recordOr (j.ringSlot i)))
  | 0xC005, 1 => some (.bytes (((j.selected (s.num 0xC005 0)).map Record.image).getD []))
  | 0xC007, _ => some (.num j.staging.length)
  | _, _ => none

/-! ## Power (R555, R563, R572, R633, R634) -/

/-- FIREWOOD_STATE (D020). -/
def FirewoodPhase.code : FirewoodPhase → Nat
  | .charging | .restoring => 0
  | .ready => 1
  | .waitDischarge | .discharging => 2
  | .failed => 3
  | .flushing => 4
  | .trickle => 5

/-- WT_REASONS (D003). -/
def State.wtReasons (s : State) : Nat :=
  bitOf (s.pch.power == .startUp || s.pch.power == .readyWt) 0 + bitOf s.testFailed 1 + bitOf s.holdUpTest 2
    + bitOf s.pch.wtDrain 3

/-- How a clock domain that runs in the core's working states stands: 0 stopped, 1 running, 2 gated, 3 unpowered. -/
def Power.coreDomain (p : Power) (step : Nat) : Nat :=
  match p with
  | .active | .ready | .readyWt => 1
  | .startUp => if step = 1 then 3 else 1
  | .doze => 0
  | .hold | .off => 3

/-- The same for a domain gated, not stopped, in Doze; in Hold as given. -/
def gatedIn (core hold : Nat) : Nat := if core = 0 then 2 else if core = 3 then hold else core

/-- CLOCK_DOMAIN (D030) of a domain id (R555). -/
def State.clockDomain (s : State) (d : Nat) : Nat :=
  let core := s.pch.power.coreDomain s.pch.step
  let x : PortS := if d ≤ 0x20 then s.dpx.portA else s.dpx.portB
  let warden : WardenS := if d = 0x14 then s.wdn.wardenA else s.wdn.wardenB
  if d = 0 then (if s.wdn.clockStopped then 0 else 1)
  else if d ≤ 3 ∨ d = 0x39 ∨ d = 0x3A then 1
  else if d = 0x14 ∨ d = 0x15 then (if warden.state = 6 ∧ core = 1 then 0 else gatedIn core 3)
  else if 0x16 ≤ d ∧ d ≤ 0x19 then gatedIn core 2
  else if d = 0x1B ∨ d = 0x21 then (if core = 1 ∧ x.lpiTx then 2 else gatedIn core 3)
  else if (0x1C ≤ d ∧ d ≤ 0x1F) ∨ (0x22 ≤ d ∧ d ≤ 0x25) then (if core = 1 ∧ x.lpiRx then 2 else gatedIn core 3)
  else if d = 0x20 ∨ d = 0x26 then (if core = 0 then 1 else core)
  else if d = 0x38 then (if core = 1 ∧ s.msv.kiln.test.isNone ∧ s.kilnState ≠ 1 then 0 else core)
  else core

/-- A pattern of the LED: period and lit time in µs. Where in its period a pattern stands is a free value. -/
def State.blink (s : State) (period lit : Nat) : Bool := decide ((s.now + Config.freeValue 19 period) % period < lit)

/-- No Warden is in service (R473): neither is eligible, outside start-up. -/
def State.noWarden (s : State) : Bool :=
  !s.wdn.wardenA.eligible && !s.wdn.wardenB.eligible && s.pch.power != .startUp && s.pch.power != .hold && s.pch.power != .off

/-- LED_N lit (R634). -/
def State.ledLit (s : State) : Bool :=
  if bit s.healthSummary 14 ∨ s.pch.bootStopped ∨ s.noWarden then s.blink 250000 125000
  else if s.flag 0xD067 0 then s.blink 1000000 500000
  else if s.pch.power = .startUp ∨ s.pch.flushing.isSome then s.blink 500000 250000
  else if s.plc.charcoal ≠ 0 ∨ s.sanitizing then s.blink 2000000 1500000
  else match s.pch.power with
    | .active | .ready | .readyWt => true
    | .doze => s.blink 2000000 50000
    | .hold => s.blink 5000000 50000
    | _ => false

/-- CONTACT_STATE (D066). -/
def State.contacts (s : State) : Nat :=
  bitOf s.pch.mrst 0 + bitOf s.pch.pwrdis 1 + bitOf s.alertN 2 + bitOf s.ledLit 3 + bitOf s.pch.aux 4

/-- A measured supply value: free while the supply is there, 0 without it. -/
def State.supply (s : State) (present : Bool) (point : Nat) : Nat :=
  if present then Config.freeValue 18 (s.now * 4 + point) % 2 ^ 32 else 0

def State.pchLive (s : State) (index sub : Nat) : Option OdVal :=
  let main := s.pch.mainPower && !s.pch.pwrdis
  match index, sub with
  | 0xD000, _ => some (.num s.now)
  | 0xD002, _ => some (.num (if s.wtReasons = 0 then 0 else 1))
  | 0xD003, _ => some (.num s.wtReasons)
  | 0xD004, _ => some (.num s.cqc.policy)
  | 0xD020, _ => some (.num s.pch.firewood.code)
  | 0xD025, _ => some (.num s.pch.bankMv)
  | 0xD030, n + 1 => some (.num (s.clockDomain n))
  | 0xD062, _ => some (.num (s.supply main 0))
  | 0xD063, _ => some (.num (s.supply main 1))
  | 0xD064, _ => some (.num (s.supply s.pch.aux 2))
  | 0xD065, _ => some (.num s.pch.slotAddress)
  | 0xD066, _ => some (.num s.contacts)
  | 0xD100, _ => some (.num (s.wall % 2 ^ 64).toNat)
  | _, _ => none

/-! ## Kiln, trace, firmware, service port (R588, R593, R599, R602, R604, R614, R616) -/

/-- UNIT_HEALTH (E110). -/
def State.unitHealth (s : State) : Bytes :=
  healthUnits.flatMap fun (u : UnitId) =>
    let h := s.health u
    natBytes 2 u.word ++ natBytes 1 h.state ++ natBytes 1 h.last ++ natBytes 2 (clampU 16 h.total)
      ++ natBytes 1 (clampU 8 (h.recentAt s.now).length) ++ zeros 1

/-- FW_SLOT_INFO (E301). -/
def Slot.info (x : Slot) : Bytes :=
  natBytes 4 x.version ++ natBytes 4 x.floorRequest ++ natBytes 4 x.length ++ natBytes 1 x.result ++ natBytes 1 x.reason ++ zeros 2
    ++ natBytes 8 x.stagedAt ++ natBytes 8 x.checkedAt

/-- KILN_LIMITS (E104). -/
def Kiln.limits (k : Kiln) : Bytes :=
  natBytes 2 k.limitMv ++ natBytes 2 (clampI 16 k.limitC) ++ natBytes 4 (clampI 32 k.limitPpm)
    ++ natBytes 1 (if k.limitsOk then 1 else 0) ++ zeros 7

def State.msvLive (s : State) (index sub : Nat) : Option OdVal :=
  match index, sub with
  | 0xE100, _ => some (.num s.kilnState)
  | 0xE104, _ => some (.bytes s.msv.kiln.limits)
  | 0xE110, _ => some (.bytes s.unitHealth)
  | 0xE207, _ => some (.num s.msv.trace.state)
  | 0xE209, _ => some (.bytes s.msv.trace.capture)
  | 0xE20C, _ => some (.bytes (trsTable s.msv.trace.trsSnap))
  | 0xE300, n + 1 => some (.num (s.slot (n + 1)).state)
  | 0xE301, n + 1 => some (.bytes (s.slot (n + 1)).info)
  | 0xE303, _ => some (.num (match s.msv.fwStaged with
    | some (_, b, _) => b.length
    | none => 0))
  | 0xE306, _ => some (.num s.fwFloor)
  | 0xE320, _ => some (.num s.msv.service.dynAddr)
  | _, _ => none

/-! ## Reading an entry -/

/-- The value of an entry that mirrors live state; none where the stored value is the value. -/
def State.mirror (s : State) (index sub : Nat) : Option OdVal :=
  if 0x1100 ≤ index ∧ index < 0x1200 then s.portLive .a (index - 0x1100) sub
  else if 0x1200 ≤ index ∧ index < 0x1300 then s.portLive .b (index - 0x1200) sub
  else if 0x3400 ≤ index ∧ index < 0x3800 then s.accountLive (index - 0x3400) sub
  else if index = 0x3201 ∨ index = 0x3202 then s.rootLive index sub
  else if index < 0x4000 then s.frontLive index sub
  else if index < 0x5000 then s.tpkLive index sub
  else if index < 0x6000 then s.asuLive index sub
  else if index < 0x7000 then s.paeLive index sub
  else if index < 0x8000 then s.cpxLive index sub
  else if index < 0xA000 then s.plcLive index sub
  else if 0xA400 ≤ index ∧ index < 0xA440 then s.tileLive (index - 0xA400) sub
  else if index = 0xA000 then (if sub = 0x21 then some (.bytes s.blockInfo) else none)
  else if 0xB000 ≤ index ∧ index < 0xC000 then s.wardenLive index sub
  else if 0xC000 ≤ index ∧ index < 0xD000 then s.jsrLive index sub
  else if 0xD000 ≤ index ∧ index < 0xE000 then s.pchLive index sub
  else if 0xE100 ≤ index ∧ index < 0xF000 then s.msvLive index sub
  else s.rootLive index sub

/-- The value of an entry as a read sees it: live, or stored (R478 to R480). -/
def State.value (s : State) (index sub : Nat) : OdVal := (s.mirror index sub).getD (s.stored index sub)

/-- A window of an entry's bytes: `n` bytes from `off`. A WO entry reads as zero bytes (R479); numbers have the full
size of their type, and bytes that a BLOB or STR does not list read zero (R478). -/
def State.readWindow (s : State) (e : EntryRow) (index sub off n : Nat) : Bytes :=
  if e.access = .wo then window [] e.type.size off n
  else window (e.type.write (s.value index sub)) e.type.size off n

end Sys2Proof.Machine
end

