-- ==== Sys2Proof/Machine/Frames.lean ====
section
/-!
DEFINITION. Dictionary frames on the management segment and the service port (R504 to R510, R609, R610): the checks of
a request's fields, the responses and how they are kept and sent.
-/
namespace Sys2Proof.Machine

/-! ## Responses (R508 to R510, R610) -/

/-- The value area of a response other than OK (R508). -/
def errorArea (sub detail : Nat) : Bytes := natBytes 2 sub ++ zeros 2 ++ natBytes 8 detail

/-- What a RETRY_LATER of step 5 suggests (R511): 0 in Hold; in start-up the remaining start-up time, a free value; 0 for a warm
reset that meets a flush (R571). -/
def State.retryWait (s : State) (index : Nat) : Nat :=
  if s.pch.power = .startUp ∧ !(index = 0xD010 ∧ s.pch.flushing.isSome) then Config.freeValue 22 s.now % 2 ^ 32 else 0

/-- The module sends a frame on the segment. -/
def State.segSend (s : State) (o : Out) : State := (s.emit o).bump 0xE010 0x02 1

/-- Source addresses of kept responses, the latest first. -/
def keptSources (l : List (DictFrame × DictResponse × Nat)) : List Nat :=
  l.foldl (fun (a : List Nat) e => if a.contains e.1.source then a else a ++ [e.1.source]) []

/-- Keep a response (R509): the last 8 of each of 32 sources; a 33rd source takes the place of the one that has been
silent longest. -/
def keepResponse (f : DictFrame) (r : DictResponse) (now : Nat) (l : List (DictFrame × DictResponse × Nat)) :
    List (DictFrame × DictResponse × Nat) :=
  let mine := (l.filter fun e => e.1.source == f.source).take 7
  let others := l.filter fun e => e.1.source != f.source
  let srcs := (keptSources others).take 31
  ({ f with area := [] }, r, now) :: mine ++ others.filter fun e => srcs.contains e.1.source

/-- The response to a request. -/
def dictResponse (f : DictFrame) (status : Nat) (area : Bytes) : DictResponse :=
  { dest := f.source, op := 128 + f.op, seq := f.seq, index := f.index, sub := f.sub, status := status, area := area }

/-- A response on the segment, sent and kept. -/
def State.segRespond (s : State) (f : DictFrame) (status : Nat) (area : Bytes) : State :=
  let r := dictResponse f status area
  let s := { s with msv.segment.kept := keepResponse f r s.now s.msv.segment.kept }
  s.segSend (.segment r)

/-- The bytes of a response on the service port, with its CRC (R609). -/
def DictResponse.bytes (r : DictResponse) : Bytes :=
  let b := natBytes 1 r.op ++ zeros 1 ++ natBytes 2 r.seq ++ natBytes 2 r.index ++ natBytes 1 r.sub ++ zeros 1
    ++ natBytes 2 r.area.length ++ natBytes 1 r.status ++ zeros 1 ++ r.area
  b ++ natBytes 4 (crc32c b)

/-- A response on the service port (R610): one longer than the maximum read length is replaced, and an IBI is raised. -/
def State.svcRespond (s : State) (f : DictFrame) (status : Nat) (area : Bytes) : State :=
  let r := if s.msv.service.mrl < 16 + area.length then dictResponse f stBadRequest (errorArea subEntryLength noField)
    else dictResponse f status area
  let s := { s with msv.service.response := some (r, s.now, false), msv.service.pendingReq := none }
  if s.msv.service.events then s.emit .ibi else s

/-- A response to whoever asked. -/
def State.frameRespond (s : State) (r : Requester) (f : DictFrame) (status : Nat) (area : Bytes) : State :=
  match r with
  | .service => s.svcRespond f status area
  | _ => s.segRespond f status area

/-- A counter of the segment's dictionary responder. -/
def State.segCount (s : State) (r : Requester) (counter : Nat) : State :=
  match r with
  | .segment => s.bump 0xE010 counter 1
  | _ => s

/-! ## Fields of a request: step 1 of R493 -/

/-- The sub-code and offset of the first bad header field; the length a READ or WRITE must have is checked after the
reserved bytes. -/
def headBad (f : DictFrame) (lengthOk : Bool) : Option (Nat × Nat) :=
  if 65536 ≤ f.reserved then some (subReserved, 1)
  else if 256 ≤ f.reserved then some (subReserved, 7)
  else if f.status ≠ 0 then some (subReserved, 10)
  else if f.reserved ≠ 0 then some (subReserved, 11)
  else if !lengthOk then some (subDataLength, 8)
  else none

/-! ## READ (R506) -/

/-- Steps 2 and 5 of R493 for a read. -/
def readGate (s : State) (r : Requester) (index sub : Nat) : Nat :=
  match entryAt index sub with
  | none => stNotFound
  | some _ => if !mayRead r index then stNotFound else if !s.servesFor r index then stRetryLater else stOk

/-- A request for an entry that is not served from AON starts a wake (R511, R611). -/
def State.wakeFor (s : State) (index : Nat) : State := if aonServed index then s else s.wakeUp

/-- Serve a READ: the state after it. -/
def State.serveRead (s : State) (r : Requester) (f : DictFrame) : State :=
  let s := s.segCount r 0x03
  match headBad f (f.length == 8) with
  | some (sub, at_) => s.frameRespond r f stBadRequest (errorArea sub at_)
  | none =>
    let s := s.wakeFor f.index
    let g := readGate s r f.index f.sub
    let off := numAt f.area 0 4
    let n := numAt f.area 4 4
    if g ≠ stOk then s.frameRespond r f g (errorArea 0 (if g = stRetryLater then s.retryWait f.index else 0))
    else match entryAt f.index f.sub with
      | none => s
      | some e =>
        if 1024 < n ∨ e.type.size < off then s.frameRespond r f stRange (errorArea 0 0)
        else
          let n := if n = 0 then 1024 else n
          let b := s.readWindow e f.index f.sub off n
          let s := s.readEffect f.index f.sub off n
          s.frameRespond r f stOk (natBytes 4 e.type.size ++ natBytes 4 off ++ b)

/-! ## WRITE (R507) -/

/-- Steps 2 to 5 of R493 for a window of a write of `total` bytes; `v` is the value as far as the rights need it. -/
def frameGate (s : State) (r : Requester) (index sub total : Nat) (v : OdVal) : Nat :=
  match entryAt index sub with
  | none => stNotFound
  | some e =>
    if !mayRead r index then stNotFound
    else if e.access = .ro ∨ !mayWrite r index sub v then stAuthFailed
    else if !(if e.type.isBytes then decide (1 ≤ total ∧ total ≤ e.type.size) else decide (total = e.type.size)) then stBadRequest
    else if !s.servesFor r index ∨ (index = 0xD010 ∧ !s.serves 0x1000) then stRetryLater
    else stOk

/-- The value of an OK response to a WRITE: tick, bytes staged, reserved. -/
def writtenArea (tick staged : Nat) : Bytes := natBytes 8 tick ++ natBytes 4 staged ++ zeros 4

def State.staged (s : State) (r : Requester) : Option StagedWrite :=
  match r with
  | .service => s.msv.service.staged
  | _ => s.msv.segment.staged

def State.setStaged (s : State) (r : Requester) (x : Option StagedWrite) : State :=
  match r with
  | .service => { s with msv.service.staged := x }
  | _ => { s with msv.segment.staged := x }

/-- The whole value has come: the write enters the tick serialiser. -/
def State.enterSerial (s : State) (r : Requester) (f : DictFrame) (e : EntryRow) (b : Bytes) : State :=
  let s := s.setStaged r none
  let v := (e.type.read b).getD (.bytes b)
  let w : DictWrite := { req := r, index := f.index, sub := f.sub, val := v, at_ := s.now, task := none,
                         frame := some { f with area := f.area.take 8 } }
  { s with msv.serial := s.msv.serial ++ [w] }

/-- A window of a write: the state after it, and whether the request waits for its tick. -/
def State.writeWindow (s : State) (r : Requester) (f : DictFrame) (e : EntryRow) (off total : Nat) (b : Bytes) : State × Bool :=
  let bad (sub at_ : Nat) : State × Bool := (s.frameRespond r f stBadRequest (errorArea sub at_), false)
  let stage (got : Bytes) : State × Bool :=
    ((s.setStaged r (some { source := f.source, index := f.index, sub := f.sub, length := total, got := got, last := s.now })).frameRespond
      r f stOk (writtenArea 0 got.length), false)
  if off = 0 then
    match s.staged r with
    | some x =>
      if x.source ≠ f.source then (s.frameRespond r f stRetryLater (errorArea 0 (x.last + 10000000 - s.now)), false)
      else if total < b.length then bad subEntryLength 16
      else if b.length = total then (s.enterSerial r f e b, true)
      else stage b
    | none =>
      if total < b.length then bad subEntryLength 16
      else if b.length = total then (s.enterSerial r f e b, true)
      else stage b
  else
    match s.staged r with
    | some x =>
      if x.source ≠ f.source ∨ x.index ≠ f.index ∨ x.sub ≠ f.sub ∨ x.length ≠ total ∨ x.got.length ≠ off then bad subLeadBlock 12
      else if total < off + b.length then bad subEntryLength 16
      else if off + b.length = total then (s.enterSerial r f e (x.got ++ b), true)
      else stage (x.got ++ b)
    | none => bad subLeadBlock 12

/-- Serve a WRITE: the state after it, and whether the request waits for its tick. A window of FW_IMAGE goes to the
staging target (R615). -/
def State.serveWrite (s : State) (r : Requester) (f : DictFrame) : State × Bool :=
  let s := s.segCount r 0x04
  match headBad f (decide (9 ≤ f.length ∧ f.length ≤ 1032)) with
  | some (sub, at_) => (s.frameRespond r f stBadRequest (errorArea sub at_), false)
  | none =>
    let s := s.wakeFor f.index
    let (off, total) := (numAt f.area 0 4, numAt f.area 4 4)
    let b := f.area.drop 8
    let v : OdVal := match entryAt f.index f.sub with
      | some e => (e.type.read b).getD (.num 1)
      | none => .num 1
    let g := frameGate s r f.index f.sub total v
    if g = stBadRequest then (s.frameRespond r f g (errorArea subEntryLength 16), false)
    else if g ≠ stOk then (s.frameRespond r f g (errorArea 0 (if g = stRetryLater then s.retryWait f.index else 0)), false)
    else if f.index = 0xE310 then
      let (s, st, sub) := s.imageWindow off total b
      let at_ := if sub = subLeadBlock then 12 else 16
      if st = stOk then
        (s.frameRespond r f stOk (writtenArea (if off + b.length = total then s.now else 0) (off + b.length)), false)
      else (s.frameRespond r f st (errorArea sub (if st = stBadRequest then at_ else 0)), false)
    else match entryAt f.index f.sub with
      | some e => s.writeWindow r f e off total b
      | none => (s, false)

/-- Serve a request (R505): READ, WRITE, or UNSUPPORTED. DESIGN CHOICE (log 133): an unlisted operation is UNSUPPORTED whatever its
reserved bytes hold; R10 and R493 step 1 name both answers without an order. -/
def State.serveFrame (s : State) (r : Requester) (f : DictFrame) : State × Bool :=
  if f.op = 1 then (s.serveRead r f, false)
  else if f.op = 2 then s.serveWrite r f
  else (s.frameRespond r f stUnsupported (errorArea 0 0), false)

/-! ## The segment's requests in order (R509, R510) -/

/-- The kept response that a request matches, within its 1 s. -/
def State.keptFor (s : State) (f : DictFrame) : Option DictResponse :=
  (s.msv.segment.kept.find? fun e =>
    e.1.source == f.source && e.1.seq == f.seq && e.1.op == f.op && e.1.index == f.index && e.1.sub == f.sub
      && decide (s.now < e.2.2 + 1000000)).map (·.2.1)

/-- The broadcast READ in front waits for the end of its delay (R506). -/
def State.answerDelayed (s : State) (f : DictFrame) : Bool :=
  f.broadcast && s.msv.segment.answerAt.all fun t => decide (s.now < t)

/-- The delay of a broadcast READ is drawn once, 0 to 2,047 µs (R506). -/
def State.drawAnswer (s : State) : State :=
  if s.msv.segment.answerAt.isSome then s
  else { s with msv.segment.answerAt := some (s.now + Config.segmentDelay s.cpx.draws % 2048), cpx.draws := s.cpx.draws + 1 }

/-- Serve held segment requests, until one waits for its tick or for its delay. -/
def State.serveHeld (s : State) : (fuel : Nat) → State
  | 0 => s
  | fuel + 1 =>
    match s.msv.segment.requests with
    | [] => s
    | f :: rest =>
      if s.msv.segment.busy then s
      else if s.answerDelayed f then s.drawAnswer
      else
        let s := { s with msv.segment.answerAt := none }
        match s.keptFor f with
        | some r =>
          State.serveHeld ((({ s with msv.segment.requests := rest }).bump 0xE010 0x05 1).segSend (.segment r)) fuel
        | none =>
          let (s, waits) := s.serveFrame .segment f
          if waits then { s with msv.segment.busy := true }
          else State.serveHeld { s with msv.segment.requests := rest } fuel

/-- The segment request that waited for its tick has been answered: the next are served. -/
def State.segAnswered (s : State) : State :=
  State.serveHeld { s with msv.segment.busy := false, msv.segment.requests := s.msv.segment.requests.drop 1 } 4

/-- A broadcast READ whose delay has passed is answered, outside a quiet (R506, R517). -/
def State.pollSegment (s : State) : State :=
  if s.msv.segment.quiet = 0 ∧ s.msv.segment.answerAt.any (fun t => s.due t) ∧ s.due s.msv.segment.holdUntil then
    State.serveHeld s 5 else s

end Sys2Proof.Machine
end

