-- ==== Sys2Proof/Machine/Dictionary.lean ====
section
/-!
DEFINITION. The object dictionary: what the write of each entry does beyond its range, the tick serialiser (R486 to
R493), and the commands OD_READ, OD_WRITE, DICT_TICK, CONFIG_LOCK and RESTORE_DEFAULTS.
-/
namespace Sys2Proof.Machine

/-! ## Values with reserved bits (R11) and ranges over several entries -/

/-- Bits of an entry's number that are not reserved. -/
def liveBits (index : Nat) : Nat :=
  if index = 0x1100 ∨ index = 0x1200 then 0x07
  else if index = 0xE202 then 0x07
  else if index = 0xE206 then 0x07FE
  else if index = 0xF012 then 0x7FFF
  else maxU 64

/-- A gate list with the reserved bytes of its entries as zero (R246). -/
def gateImage : (n : Nat) → Bytes → Bytes
  | 0, _ => []
  | n + 1, b => if b.isEmpty then [] else slice b 0 1 ++ zeros 3 ++ window (b.drop 4) 4 0 4 ++ gateImage n (b.drop 8)

/-- A write without behaviour of its own: reserved bits are ignored (R11, R490). -/
def plainEffect : WriteEffect := fun _ index sub v s =>
  match v with
  | .num n => (s.putNum index sub (n &&& liveBits index), stOk)
  | .bytes b =>
    (s.putBytes index sub (if (index = 0x1114 ∨ index = 0x1214) ∧ sub = 1 then gateImage 256 b else b), stOk)

/-! ### Ports -/

/-- The LINK_ABILITIES bit of a link state that is up. -/
def modeBit (linkState : Nat) : Nat := linkState - 2

/-- LINK_ABILITIES (R227, R260): a dropped mode returns; a link whose mode is no longer advertised falls; 0 holds the port
down, and any other value lets a port that has seen its partner negotiate. -/
def abilitiesEffect (p : Port) : WriteEffect := fun _ index sub v s =>
  let n := valNum v % 8
  let s := (s.putNum index sub n).mapPort p fun x => { x with dropped := 0, trainFails := 0 }
  let s := if (s.port p).up && !bit n (modeBit (s.port p).linkState) then s.linkFalls p else s
  (if (s.port p).up then s
   else s.mapPort p fun x => { x with linkState := if n ≠ 0 ∧ x.partnerSeen then 1 else 0 }, stOk)

/-- EEE_ENABLE and EEE_READY_LPI (R254): without its condition LPI ends, and the transmitter wakes as before a frame. -/
def eeeEffect (p : Port) : WriteEffect := fun _ index sub v s =>
  let s := s.put index sub v
  let s := if s.pflag p 0x18 0 then s else s.mapPort p fun x => { x with lpiRx := false }
  (if (s.port p).lpiTx && !(s.pflag p 0x18 0 && (s.pch.power == .doze || s.pflag p 0x19 0)) then
    s.mapPort p fun x => { x with lpiTx := false, lpiWakeAt := s.now + s.lpiWake p }
   else s, stOk)

/-- A group address: the lowest bit of the first byte. -/
def groupMac (b : Bytes) : Bool := bit (numAt b 0 1) 0

/-- MAC_ADDRESS, IPV4_ADDRESS, IPV6_ADDRESS (R230, R238): the port announces its addresses after the write. -/
def addressEffect (p : Port) : WriteEffect := fun _ index sub v s =>
  let off := index - p.base
  if (off = 0x02 ∧ groupMac (valBytes v)) ∨ (off = 0x05 ∧ numAt (valBytes v) 0 1 = 0xFF) then (s, stRange)
  else
    let s := s.put index sub v
    (if (s.port p).up then s.announceAddresses p else s, stOk)

/-- MULTICAST_FILTER: an individual address is refused; all zero is unused. -/
def multicastEffect : WriteEffect := fun _ index sub v s =>
  let b := valBytes v
  if b.any (· != 0) ∧ !groupMac b then (s, stRange) else (s.put index sub v, stOk)

/-- RX_PRIORITY_LIMIT (R240). -/
def rxLimitEffect (p : Port) : WriteEffect := fun _ index sub v s =>
  let sum := ((List.range 8).map fun i => if i + 1 = sub then valNum v else s.rxLimit p i).foldl (· + ·) 0
  if 8388608 < sum ∨ valNum v < 65536 then (s, stRange) else (s.put index sub v, stOk)

/-- PFC_HEADROOM (R252). -/
def headroomEffect (p : Port) : WriteEffect := fun _ index sub v s =>
  let least := (List.range 8).foldl (fun (m : Nat) i => min m (s.rxLimit p i)) (maxU 32)
  if valNum v < 16384 ∨ least < 2 * valNum v then (s, stRange) else (s.put index sub v, stOk)

/-- FLOW_CONTROL and PFC_ENABLE (R252): a pause asked for a priority that the port no longer pauses is forgotten. -/
def flowEffect (p : Port) : WriteEffect := fun _ index sub v s =>
  let changed := index = p.base + 0x0B ∧ s.pnum p 0x0B 0 ≠ valNum v
  let s := s.put index sub v
  (s.mapPort p fun x => { x with
    pauseSent := (List.range 8).map fun i => x.pauseSent.getD i false && !changed && s.flowOn p i }, stOk)

/-- RESPONDER_QUEUE and CLASS_TX_QUEUE (R246): not a queue whose datagram limit is below 1,280 on some port. -/
def queueEffect : WriteEffect := fun _ index sub v s =>
  if s.datagramLimit .a (valNum v) < 1280 ∨ s.datagramLimit .b (valNum v) < 1280 then (s, stRange)
  else (s.put index sub v, stOk)

/-- DIAG_PROMISCUOUS (R243): PROMISCUOUS_ON is recorded. -/
def promiscuousEffect (p : Port) : WriteEffect := fun r index sub v s =>
  let s := s.put index sub v
  (if valNum v = 1 then s.raise 0x1404 p.unit (reqCode r) 0 0 else s, stOk)

/-- CAPTURE_FREEZE (R244). -/
def captureFreezeEffect (p : Port) : WriteEffect := fun _ index sub v s =>
  ((s.put index sub v).mapPort p fun x => { x with captureFrozenAt := if valNum v = 1 then some s.now else none }, stOk)

/-- PTP_PORT (R257, R258). -/
def ptpPortEffect : WriteEffect := fun _ index sub v s =>
  if s.num 0x1001 0 = valNum v then (s, stOk)
  else ({ s with dpx.ptp := { PtpS.reset with state := if valNum v = 0 then 0 else 1, utcOffset := s.dpx.ptp.utcOffset } }.put
    index sub v, stOk)

/-- TRANSIT_PLAINTEXT (R145): not for tenant 0. -/
def plaintextEffect : WriteEffect := fun _ index sub v s =>
  if index = 0x2400 ∧ valNum v = 1 then (s, stRange) else (s.put index sub v, stOk)

/-! ### Buffers, tiles, management -/

/-- DIRTY_CEILING (R23): the dirty limit follows. -/
def ceilingEffect : WriteEffect := fun _ index sub v s => ((s.put index sub v).trimReadCache.limitFrom s.dirtyLimit, stOk)

/-- THRESHOLD_TABLE (R439): all 0xFF restores the manufacturing table. -/
def thresholdEffect : WriteEffect := fun _ index sub v s =>
  let b := valBytes v
  if b.length = 4096 ∧ b.all (· == 0xFF) then
    ({ s with od := odErase s.od (odKey index sub) }, stOk)
  else (s.putBytes index sub (thresholdImage b), stOk)

/-- SWITCHOVER_GAP_MAX and EXPRESS_LATENCY_MAX: only 0 may be written. -/
def clearEffect : WriteEffect := fun _ index sub v s => if valNum v = 0 then (s.put index sub v, stOk) else (s, stRange)

/-- MGMT_MAC_ADDRESS (R519). -/
def mgmtMacEffect : WriteEffect := fun _ index sub v s =>
  if groupMac (valBytes v) then (s, stRange) else (s.put index sub v, stOk)

/-- E001 to E007 (R502, R503, R635). A write of NODE_ID_SOURCE samples the slot-address contacts again: what they show
then is an input the write does not carry, so it is a free value. -/
def segmentEffect : WriteEffect := fun _ index sub v s =>
  let s := s.put index sub v
  let s := if index = 0xE002 then { s with pch.slotAddress := Config.freeValue 21 s.now % 32 } else s
  (s.segSettle (decide (index ≤ 0xE003)), stOk)

/-- HEARTBEAT_PERIOD (R512): the next HEARTBEAT is due a period after the write. -/
def heartbeatEffect : WriteEffect := fun _ index sub v s =>
  ({ s with msv.segment.heartbeatDue := s.now + valNum v * 1000 }.put index sub v, stOk)

/-- RESTORE_DEFAULTS (R498). -/
def restoreEffect : WriteEffect := fun _ index sub v s =>
  if s.flag 0xF020 0 then (s, stAccessLocked)
  else if 1 < valNum v then (s, stRange)
  else (s.put index sub v, stOk)

/-! ## The effect of every writable entry -/

/-- Entries of the port blocks. -/
def portEffect (p : Port) (off : Nat) : WriteEffect :=
  match off with
  | 0x00 => abilitiesEffect p
  | 0x02 | 0x04 | 0x05 => addressEffect p
  | 0x07 => multicastEffect
  | 0x0A => rxLimitEffect p
  | 0x0B | 0x0C => flowEffect p
  | 0x0D => headroomEffect p
  | 0x15 => gateCommitEffect p
  | 0x18 | 0x19 => eeeEffect p
  | 0x1D => promiscuousEffect p
  | 0x20 => captureFreezeEffect p
  | _ => plainEffect

/-- The effect of a write of an entry; `task` is the OD_WRITE that waits for it. -/
def effectOf (task : Option Nat) (index sub : Nat) : WriteEffect :=
  if 0x1100 ≤ index ∧ index < 0x1200 then portEffect .a (index - 0x1100)
  else if 0x1200 ≤ index ∧ index < 0x1300 then portEffect .b (index - 0x1200)
  else if 0x2400 ≤ index ∧ index < 0x2800 then plaintextEffect
  else if 0x6100 ≤ index ∧ index < 0x6200 then predImageEffect (index - 0x6100)
  else if 0x7400 ≤ index ∧ index < 0x7800 then keyWriteEffect
  else if 0xE001 ≤ index ∧ index ≤ 0xE007 then segmentEffect
  else match index with
    | 0x1000 | 0x2005 => queueEffect
    | 0x1001 => ptpPortEffect
    | 0x3200 => epochLengthEffect
    | 0x4000 | 0x4002 => tableEffect
    | 0x4008 | 0xB002 => clearEffect
    | 0x5000 => ruleWidthEffect
    | 0x5003 => ruleCommandEffect
    | 0x5010 => camWidthEffect (sub - 1)
    | 0x5024 => pinReevaluateEffect
    | 0x6001 => predClearEffect
    | 0x7002 => adminClearEffect
    | 0x7020 => pkJobEffect task
    | 0x8000 => ceilingEffect
    | 0xA000 => if sub = 0x10 then thresholdEffect else plainEffect
    | 0xB006 => switchoverEffect
    | 0xC006 => freezeEffect
    | 0xD010 => moduleResetEffect
    | 0xD023 => testNowEffect
    | 0xD100 => wallTimeEffect
    | 0xE000 => mgmtMacEffect
    | 0xE00A => heartbeatEffect
    | 0xE102 => kilnEffect
    | 0xE200 => traceControlEffect
    | 0xE208 => triggerNowEffect
    | 0xE302 => stageControlEffect
    | 0xE305 => floorEffect
    | 0xF021 => restoreEffect
    | _ => plainEffect

/-! ## The serialiser (R486 to R493) -/

/-- Error fields of an OD_WRITE that is refused in its tick: PK_JOB's operation, where BAD_REQUEST (R368). -/
def tickError (st : Nat) : Bytes := if st = stBadRequest then errorFields subEnum 0xFFFF (inData 0) else plainError 0

/-- Answer a write with its status in the running tick, to the OD_WRITE, the frame or the command that waits for it; the OD_WRITE
of a PK_JOB that is accepted is answered when the job ends (R368). -/
def State.answerWrite (s : State) (w : DictWrite) (st : Nat) : State :=
  if w.index = 0x7020 ∧ st = stOk ∧ jobAnswer w.req w.task ≠ .nobody then s
  else match w.task, w.frame with
  | some k, _ =>
    match s.trs? (k % 65536) with
    | some t =>
      if t.task ≠ k ∨ t.result then s
      else s.finish t.idx st 0 (if st = stOk then natBytes 8 s.now else tickError st) []
    | none => s
  | none, some f =>
    let area := if st = stOk then writtenArea s.now (numAt f.area 4 4)
      else errorArea (if st = stBadRequest then subEnum else 0) (if st = stBadRequest then 20 else 0)
    let s := s.frameRespond w.req f st area
    if w.req = .segment then s.segAnswered else s
  | none, none => s.emit (.dictAnswer w.req w.index w.sub st (if st = stBadRequest then subEnum else 0) s.now)

/-- Steps 7 to 10 of R493 for a write whose turn it is. -/
def State.applyOne (s : State) (w : DictWrite) : State :=
  let (s, st) := applyWrite (effectOf w.task w.index w.sub) w.req w.index w.sub w.val s
  if st = stParked then s.park w else s.answerWrite w st

/-- A write that loses its tick to another requester's write of the same entry (R487). -/
def State.conflict (s : State) (w : DictWrite) : State :=
  ((s.bump 0xE010 0x0D 1).lastWrite w.req w.index w.sub stConflict).answerWrite w stConflict

/-- The order of requester classes in a tick (R487, R488). -/
def reqRank : Requester → Nat
  | .service => 0
  | .segment => 1
  | .session _ => 2

/-- The first waiting write of a class, if it came before the running tick began. -/
def firstOf (l : List DictWrite) (now rank : Nat) : Option DictWrite :=
  (l.find? fun w => reqRank w.req == rank).filter fun w => decide (w.at_ < now)

/-- The waiting writes without the one that `firstOf` takes. -/
def dropFirst (now rank : Nat) : List DictWrite → List DictWrite
  | [] => []
  | w :: t => if reqRank w.req = rank then (if w.at_ < now then t else w :: t) else w :: dropFirst now rank t

/-- The writes of a tick in order, each applied or refused with CONFLICT where an earlier one names its entry. -/
def State.runTick (s : State) (names : List Nat) : List DictWrite → State
  | [] => s
  | w :: t =>
    let k := odKey w.index w.sub
    State.runTick (if names.contains k then s.conflict w else s.applyOne w) (k :: names) t

/-- The serialiser takes at most one write of each of some classes (R486). -/
def State.takeWrites (s : State) (ranks : List Nat) : State :=
  let l := s.msv.serial
  let n := s.now
  let taken := ranks.filterMap (firstOf l n)
  { s with msv.serial := ranks.foldl (fun l r => dropFirst n r l) l }.runTick [] taken

/-- The RULE_COMMAND write that gets its place in the running tick: the first that waits, when a place is free and no held
write enters alone (R314, R467). -/
def State.parkedTurn (s : State) : Option DictWrite :=
  if s.writesHeld ∨ 256 ≤ s.asu.commands ∨ !s.msv.held.isEmpty then none else s.asu.waiting.head?

/-- A write takes its place among held writes by its arrival (R467). -/
def insertHeld (w : DictWrite) : List DictWrite → List DictWrite
  | [] => [w]
  | x :: l => if x.at_ ≤ w.at_ then x :: insertHeld w l else w :: x :: l

/-- Held writes enter alone, one a tick, ahead of every later one (R467); over a gap every write is held (R466). A class
whose RULE_COMMAND gets its place in the tick gives no other write to it (R175, R486). -/
def State.serialise (s : State) : State :=
  if s.writesHeld then { s with msv.held := s.msv.serial.foldl (fun l w => insertHeld w l) s.msv.held, msv.serial := [] }
  else match s.msv.held with
    | w :: rest => { s with msv.held := rest }.applyOne w
    | [] => s.takeWrites ([0, 1, 2].filter fun r => s.parkedTurn.all fun w => reqRank w.req != r)

/-- The RULE_COMMAND write of the tick gets its place (R314). -/
def State.takeParked (s : State) (w : DictWrite) : State :=
  let (s, st) := applyWrite (fun _ _ _ v s => s.acceptRule (valBytes v)) w.req w.index w.sub w.val
    { s with asu.waiting := s.asu.waiting.drop 1 }
  s.answerWrite w st

/-! ## The walk of PIN_REEVALUATE (R303) -/

/-- Move one entry to the tree its current rule names. -/
def State.reseat (s : State) (k : KeyRec) (pin : Bool) : State :=
  let (page, id, s) := ((s.removeEntry k k.version).touchDir pin k.print k.version).seat k.tenant pin k.key k.version
  let s := (s.putKey { k with pinned := pin, page := page, entryId := id, mapPages := [], pinnedMap := false }).dirtyPages
    (page :: k.pages) k.version
  let (maps, pinnedMap, s) := s.seatMap k.tenant k.version pin k.mapSize
  (s.mapKey k.tenant k.key fun x => { x with mapPages := maps, pinnedMap := pinnedMap }).dropEmpty.dropMapPages

/-- One entry of the walk. -/
def State.reevaluateStep (s : State) : State :=
  match s.asu.reevaluate with
  | none => s
  | some [] => { s with asu.reevaluate := none }
  | some ((t, key) :: rest) =>
    let u := { s with asu.reevaluate := if rest.isEmpty then none else some rest }
    match s.key? t key with
    | none => u
    | some k =>
      let hit := (s.classWalk t key s.asu.rules 0 0 0).hit
      let pin := (s.classOf hit).pin
      if hit.isNone ∨ pin = k.pinned ∨ (pin ∧ s.pinFull t key k.print) then u
      else match s.missingPage t key pin k.print with
        | some n => s.wantPage n
        | none => if s.invalidationsFull (u.reseat k pin) ∨ (u.reseat k pin).framesFull then s else u.reseat k pin

/-! ## The tick -/

/-- The TIME domain counts while the core's clocks run (R599). -/
def State.timeRuns (s : State) : Bool :=
  match s.pch.power with
  | .active | .ready | .readyWt => decide (s.pch.dozeStep < 2)
  | .startUp => decide (2 ≤ s.pch.step)
  | _ => false

/-- Time of one tick passes: device time, wall time's slew, the core cycle counter and the trace clock. -/
def State.passTick (s : State) : State :=
  let s := { s with pch.devTime := s.pch.devTime + 1, cqc.tickBase := if s.cycleRuns then s.cqc.tickBase + 1000 else s.cqc.tickBase,
                    cqc.cycle := if s.cycleRuns then max s.cqc.cycle (s.cqc.tickBase + 1000) else s.cqc.cycle,
                    msv.trace.clock := if s.timeRuns then s.msv.trace.clock + 1000 else s.msv.trace.clock }
  (if s.cycleRuns then s.runPipelines 1000 else s).banksReturn.slewTick

/-- DICT_TICK (R486, R489): the running tick ends. The writes that had come before it began apply in it, under its device
time; reads served in it saw the values before them. Then the next tick begins. -/
def execDictTick (s : State) : Host.Outcome State Fault Refusal :=
  if !s.aonOn ∨ s.wdn.clockStopped then .next s
  else
    let parked := s.parkedTurn
    let s := s.serialise
    let s := match parked with
      | some w => s.takeParked w
      | none => s
    .next (if s.coreRuns then s.reevaluateStep.passTick.readyActive else s.passTick.dozeTick).pollSegment

/-! ## OD_READ and OD_WRITE (R172, R173) -/

/-- OD_READ (R172). -/
def execOdRead (task : Nat) (s : State) : Host.Outcome State Fault Refusal :=
  match s.running task opOdRead with
  | none => .next s
  | some t =>
    let (index, sub) := (field t.fields 24 2, field t.fields 26 1)
    let (off, n) := (field t.fields 28 4, field t.fields 32 4)
    let g := readGate s (.session t.tenant) index sub
    match entryAt index sub with
    | none => .next (s.fail task stNotFound 0)
    | some e =>
      if g ≠ stOk then .next (s.fail task g 0)
      else if e.type.size < off then .next (s.fail task stRange 0)
      else
        let n := if n = 0 then 1048576 else n
        let b := s.readWindow e index sub off n
        let s := s.readEffect index sub off n
        .next (s.finish task stOk 0 (natBytes 4 e.type.size ++ natBytes 4 off) b)

/-- An OD_WRITE admitted earlier, and not held, has not reached the serialiser yet (R175). -/
def State.odWriteBefore (s : State) (t : Trs) : Bool :=
  s.cqc.trs.any fun u => u.opcode == opOdWrite && decide (u.order < t.order) && u.state != .held && !u.parked && !u.result

/-- OD_WRITE (R173, R175): steps 2 to 5 of R493, then the write waits for its tick, in the order of admission. -/
def execOdWrite (task : Nat) (s : State) : Host.Outcome State Fault Refusal :=
  match s.running task opOdWrite with
  | none => .next s
  | some t =>
    match t.data with
    | none => .next s
    | some b =>
      if t.parked || s.odWriteBefore t then .next s
      else
        let (index, sub) := (field t.fields 24 2, field t.fields 26 1)
        let v : OdVal := match entryAt index sub with
          | some e => (e.type.read b).getD (.num 1)
          | none => .num 1
        let g := frameGate s (.session t.tenant) index sub b.length v
        if g ≠ stOk then
          .next (s.finish task g 0 (if g = stBadRequest then errorFields subEntryLength 0xFFFF 8 else plainError 0) [])
        else
          let w : DictWrite := { req := .session t.tenant, index := index, sub := sub, val := v, at_ := s.now,
                                 task := some t.task, frame := none }
          .next { s.mapTrs task fun u => { u with parked := true } with msv.serial := s.msv.serial ++ [w] }

/-! ## Module-wide entries (R497, R498) -/

/-- CONFIG_LOCK (R497). -/
def execConfigLock (r : Requester) (v : OdVal) (s : State) : Host.Outcome State Fault Refusal :=
  .next (s.ownWrite plainEffect r 0xF020 0 v)

/-- RESTORE_DEFAULTS (R498). -/
def execRestoreDefaults (r : Requester) (v : OdVal) (s : State) : Host.Outcome State Fault Refusal :=
  .next (s.ownWrite restoreEffect r 0xF021 0 v)

end Sys2Proof.Machine
end

