-- ==== Sys2Proof/Machine/Segment.lean ====
section
/-!
DEFINITION. The management segment: requests, heartbeats and alerts, quiet and wake, and PLCA (R500 to R519).
-/
namespace Sys2Proof.Machine

/-! ## Quiet and wake (R513 to R518) -/

/-- Time in µs from the start of a WAKE, a 64-byte frame, to the first frame that may follow it (R517). -/
def afterWake : Nat := 2058

/-- A pending quiet is abandoned (R516). -/
def State.abandonQuiet (s : State) : State :=
  if s.msv.segment.quiet = 1 then
    { s with msv.segment.quiet := 0, msv.segment.ackWanted := none }.bump 0xE010 0x0A 1
  else s

/-- The commit (R515): frames stop, the MAC is off, energy detection is armed; PLCA waits for a beacon after it (R518). -/
def State.commitQuiet (s : State) : State :=
  let g := s.msv.segment
  if g.quiet = 1 ∧ g.quietAt ≤ s.now then
    { s with msv.segment := { g with quiet := 2, ackWanted := none, macOn := false, plca := if g.plca = 2 then 1 else g.plca }
      }.bump 0xE010 0x09 1
  else s

/-- Energy on a quiet pair (R517): the MAC receives again after WAKE_SETTLE. -/
def State.segEnergy (s : State) : State :=
  if s.msv.segment.quiet = 2 then
    { s with msv.segment.quiet := 3, msv.segment.settleAt := s.now + 2000 }.bump 0xE010 0x0B 1
  else s

/-- The module needs to send while a quiet is pending or in force: WAKE first (R512, R516, R517). -/
def State.sendWake (s : State) : State :=
  let s := if s.msv.segment.quiet = 2 then s.segEnergy else s.abandonQuiet
  { s with msv.segment.holdUntil := s.now + afterWake }.segSend .segWake

/-- A frame ends on the wire: whether it is received, and the state after what any frame does. In quiet and WAKE_SETTLE
frames are lost; before the commit a frame abandons the quiet unless it belongs to it. -/
def State.frameEnds (s : State) (belongs : Bool) : Bool × State :=
  let s := s.commitQuiet
  match s.msv.segment.quiet with
  | 0 => (true, s)
  | 1 => (true, if belongs then s else s.abandonQuiet)
  | _ => (false, s.segEnergy)

/-- A frame is dropped and counted (R501). -/
def State.dropFrame (s : State) : State := s.bump 0xE010 0x06 1

/-! ## Requests (R504 to R510) -/

/-- A READ or WRITE, or a frame with an unlisted code, that the MAC accepts: at most 4 requests are held, in order. -/
def State.segRequest (s : State) (f : DictFrame) : State :=
  if f.area.length < f.length then s.dropFrame
  else
    let s := s.bump 0xE010 0x01 1
    let f := { f with area := f.area.take f.length }
    if f.broadcast ∧ !(f.op = 1 ∧ 0xF000 ≤ f.index ∧ f.index ≤ 0xF009) then s.dropFrame
    else if 4 ≤ s.msv.segment.requests.length then s.dropFrame
    else State.serveHeld { s with msv.segment.requests := s.msv.segment.requests ++ [f] } 5

/-- A request from the segment, in every state with aux power (R511). -/
def State.segArrive (s : State) (f : DictFrame) : State :=
  if !s.aonOn then s
  else
    let (got, s) := s.frameEnds false
    if got then s.segRequest f else s

/-- READ (R506). -/
def execRead (f : DictFrame) (s : State) : Host.Outcome State Fault Refusal :=
  if !(f.ok && f.op == 1) then .refused (.illFormed "READ") else .next (s.segArrive f)

/-- WRITE (R507). -/
def execWrite (f : DictFrame) (s : State) : Host.Outcome State Fault Refusal :=
  if !(f.ok && f.op == 2) then .refused (.illFormed "WRITE") else .next (s.segArrive f)

/-- A staged write without a window for 10 s (R507). -/
def StagedWrite.expired (x : StagedWrite) (now : Nat) : Bool := decide (x.last + 10000000 ≤ now)

/-- STAGED_WRITE_EXPIRY (R507): on the segment, and on the service port, whose windows are the same (R609). -/
def execStagedWriteExpiry (s : State) : Host.Outcome State Fault Refusal :=
  let s := if s.msv.segment.staged.any fun x => x.expired s.now then { s with msv.segment.staged := none }.bump 0xE010 0x0C 1 else s
  .next (if s.msv.service.staged.any fun x => x.expired s.now then { s with msv.service.staged := none }.bump 0xE010 0x0C 1 else s)

/-- SEG_RESPONSE_EXPIRY (R509). -/
def execSegResponseExpiry (source seq : Nat) (s : State) : Host.Outcome State Fault Refusal :=
  .next { s with msv.segment.kept := s.msv.segment.kept.filter fun e =>
    !(e.1.source == source && e.1.seq == seq && decide (e.2.2 + 1000000 ≤ s.now)) }

/-! ## Heartbeats and alerts (R512) -/

/-- The value area of both frames. -/
def State.beatArea (s : State) : Bytes :=
  s.full 0xF003 0 16 ++ natBytes 1 s.pch.power.stateCode ++ zeros 3 ++ natBytes 4 s.healthSummary
    ++ natBytes 1 s.msv.segment.nodeId ++ zeros 3 ++ natBytes 8 s.now

/-- HEARTBEAT (R512): in every state but Hold and segment quiet. -/
def execHeartbeat (s : State) : Host.Outcome State Fault Refusal :=
  let s' := s.commitQuiet
  let g := s'.msv.segment
  if !s.aonOn ∨ s.pch.power = .hold ∨ s.num 0xE00A 0 = 0 ∨ 2 ≤ g.quiet ∨ !s.due g.heartbeatDue ∨ !s.due g.holdUntil then .next s'
  else if g.quiet = 1 then .next s'.sendWake
  else .next ({ s' with msv.segment.heartbeatDue := s.now + s.num 0xE00A 0 * 1000 }.segSend (.segHeartbeat s.beatArea))

/-- An ALERT_NOTIFY is due: the masked summary differs from the last one sent, 100 ms after the last frame. -/
def State.alertDue (s : State) : Bool :=
  s.maskedSummary != s.msv.segment.alertSeen && beNat (s.full 0xE00B 0 6) != 0
    && s.msv.segment.alertSent.all (fun t => s.due (t + 100000)) && s.due s.msv.segment.holdUntil

/-- ALERT_NOTIFY (R512): after a WAKE where a quiet is pending or in force. -/
def execAlertNotify (s : State) : Host.Outcome State Fault Refusal :=
  let s := s.commitQuiet
  if !s.aonOn ∨ !s.alertDue ∨ s.msv.segment.quiet = 3 then .next s
  else if s.msv.segment.quiet ≠ 0 then .next s.sendWake
  else
    .next ({ s with msv.segment.alertSeen := s.maskedSummary, msv.segment.alertSent := some s.now }.segSend (.segAlert s.beatArea))

/-! ## Quiet (R513 to R517) -/

/-- A PROPOSE is received: it fixes the commit time, or its delay is refused with a QUIET_ACK (R513, R514). -/
def State.propose (s : State) (id delay : Nat) : State :=
  let s := s.bump 0xE010 0x01 1
  let at_ := s.now + Config.segmentDelay s.cpx.draws % 1001
  let s := { s with cpx.draws := s.cpx.draws + 1 }
  if 5000 ≤ delay ∧ delay ≤ 1000000 then
    { s with msv.segment := { s.msv.segment with quiet := 1, quietId := id, quietAt := s.now + delay, ackWanted := some (id, stOk),
                                                 ackAt := at_ } }
  else
    let s := s.abandonQuiet
    { s with msv.segment.ackWanted := some (id, stRange), msv.segment.ackAt := at_ }

/-- QUIET_PROPOSE (R513). -/
def execQuietPropose (source quietId delay : Nat) (s : State) : Host.Outcome State Fault Refusal :=
  if !(fits 48 source && fits 32 quietId && fits 32 delay) then .refused (.illFormed "QUIET_PROPOSE")
  else if !s.aonOn then .next s
  else
    let (got, s) := s.frameEnds true
    .next (if got then s.propose quietId delay else s)

/-- QUIET_ACK (R514): at its drawn instant. -/
def execQuietAck (s : State) : Host.Outcome State Fault Refusal :=
  let s := s.commitQuiet
  match s.msv.segment.ackWanted with
  | some (id, st) =>
    if !s.aonOn ∨ !s.due s.msv.segment.ackAt ∨ 2 ≤ s.msv.segment.quiet then .next s
    else .next ({ s with msv.segment.ackWanted := none }.segSend (.segQuietAck id st))
  | none => .next s

/-- QUIET_COMMIT (R515). -/
def execQuietCommit (s : State) : Host.Outcome State Fault Refusal := .next s.commitQuiet

/-- QUIET_ABANDON (R516): a frame of another node ends, or the module needs to send one of its own, before the commit. -/
def execQuietAbandon (own : Bool) (s : State) : Host.Outcome State Fault Refusal :=
  let s := s.commitQuiet
  .next (if s.msv.segment.quiet = 1 then (if own then s.sendWake else s.abandonQuiet) else s)

/-- WAKE (R517): energy on the pair. -/
def execWake (s : State) : Host.Outcome State Fault Refusal := .next (if s.aonOn then s.segEnergy else s)

/-- WAKE_SETTLE_END (R517). -/
def execWakeSettleEnd (s : State) : Host.Outcome State Fault Refusal :=
  if s.msv.segment.quiet = 3 ∧ s.due s.msv.segment.settleAt then
    .next { s with msv.segment.quiet := 0, msv.segment.macOn := true }
  else .next s

/-! ## PLCA (R502, R503, R518) -/

/-- PLCA_BEACON (R502): the coordinator, outside a quiet (R515). -/
def execPlcaBeacon (s : State) : Host.Outcome State Fault Refusal :=
  if s.aonOn ∧ s.msv.segment.plca = 3 ∧ s.msv.segment.quiet ≤ 1 then .next (s.emit .segBeacon) else .next s

/-- BEACON_RECEIVED (R502). -/
def execBeaconReceived (s : State) : Host.Outcome State Fault Refusal :=
  let g := s.msv.segment
  if s.aonOn ∧ g.macOn ∧ (g.plca = 1 ∨ g.plca = 2) then .next { s with msv.segment := { g with plca := 2, lastBeacon := s.now } }
  else .next s

/-- PLCA_BEACON_TIMEOUT (R502): 4 ms without a BEACON. -/
def execPlcaBeaconTimeout (s : State) : Host.Outcome State Fault Refusal :=
  if s.msv.segment.plca = 2 ∧ s.due (s.msv.segment.lastBeacon + 4000) then .next { s with msv.segment.plca := 1 } else .next s

/-- PLCA_COLLISION (R503): every collision is counted; one while PLCA is active shows a shared id. -/
def execPlcaCollision (s : State) : Host.Outcome State Fault Refusal :=
  let g := s.msv.segment
  if !s.aonOn then .next s
  else if !(g.plca = 2 ∨ g.plca = 3) then .next (s.bump 0xE010 0x07 1)
  else
    let recent := s.now :: g.collisions.filter fun t => decide (s.now < t + 1000000)
    let s := (s.bump 0xE010 0x07 1).bump 0xE010 0x08 1
    if recent.length < 16 then .next { s with msv.segment.collisions := recent }
    else .next ({ s with msv.segment.collisions := [], msv.segment.plca := 4 }.raise 0xE402 (wholeUnit 0xE) g.nodeId 0 0)

/-! ## Other frames (R501, R505) -/

/-- SEGMENT_OTHER_FRAME: a frame that is no READ, WRITE, PROPOSE or WAKE of this module's, or one that the MAC does not
accept. Frames with bit 7 set are ignored; HEARTBEATs of other modules are broadcast outside R506 and R513 to R518. -/
def execSegmentOtherFrame (f : DictFrame) (accepted : Bool) (s : State) : Host.Outcome State Fault Refusal :=
  if !f.ok then .refused (.illFormed "SEGMENT_OTHER_FRAME")
  else if !s.aonOn then .next s
  else
    let (got, s) := s.frameEnds (accepted && f.op == 0x21 && numAt f.area 0 4 == s.msv.segment.quietId)
    if !got then .next s
    else if !accepted ∨ f.area.length < f.length ∨ (f.broadcast ∧ (f.op = 0x10 ∨ f.op = 0x11)) then .next s.dropFrame
    else if 128 ≤ f.op ∨ f.op = 0x10 ∨ f.op = 0x11 ∨ f.op = 0x21 ∨ f.op = 0x22 then .next (s.bump 0xE010 0x01 1)
    else if f.op = 0x20 then
      match headBad f (f.length == 8) with
      | some (sub, at_) => .next ((s.bump 0xE010 0x01 1).segRespond f stBadRequest (errorArea sub at_))
      | none => .next (s.propose (numAt f.area 0 4) (numAt f.area 4 4))
    else .next (s.segRequest f)

end Sys2Proof.Machine
end

