-- ==== Sys2Proof/Machine/Service.lean ====
section
/-!
DEFINITION. The service port: the I3C target's private writes and reads and its common commands (R608 to R611).
-/
namespace Sys2Proof.Machine

/-! ## Requests and responses (R609, R610) -/

/-- The port runs in every module state except Off (R608). -/
def State.svcOn (s : State) : Bool := s.aonOn

/-- A private write is refused while a request is held, or a response has not been read (R610). -/
def State.svcBusy (s : State) : Bool :=
  s.msv.service.pendingReq.isSome || (match s.msv.service.response with
    | some (_, _, read) => !read
    | none => false)

/-- The request that the bytes of a private write carry: header, value area and CRC; none where CRC or Length is wrong. -/
def parseRequest (b : Bytes) : Option DictFrame :=
  let n := numAt b 8 2
  if b.length ≠ 16 + n ∨ 1032 < n ∨ crc32c (b.take (12 + n)) ≠ numAt b (12 + n) 4 then none
  else some { source := 0, broadcast := false, op := numAt b 0 1,
              reserved := numAt b 1 1 * 65536 + numAt b 7 1 * 256 + numAt b 11 1, seq := numAt b 2 2, index := numAt b 4 2,
              sub := numAt b 6 1, status := numAt b 10 1, length := n, area := slice b 12 n }

/-- A request on the service port: the codes of R505 that a module sends or that make quiet are not served here. A request
longer than the maximum write length set is answered BAD_REQUEST with ENTRY_LENGTH (R608, R610; DEDUCED). -/
def State.svcRequest (s : State) (f : DictFrame) : State :=
  let s := { s with msv.service.response := none, msv.service.pendingReq := some f }.bump 0xE321 0x01 1
  if 128 ≤ f.op then { s with msv.service.pendingReq := none }
  else if s.msv.service.mwl < 16 + f.length then s.frameRespond .service f stBadRequest (errorArea subEntryLength 0)
  else (s.serveFrame .service f).1

/-- PRIVATE_WRITE (R609 to R611). In Doze it starts a wake. -/
def execPrivateWrite (bytes : Bytes) (s : State) : Host.Outcome State Fault Refusal :=
  if !s.svcOn then .next s
  else if s.svcBusy then .next ((s.bump 0xE321 0x03 1).emit .i3cNack)
  else
    let s := s.wakeUp
    match parseRequest bytes with
    | none => .next (s.bump 0xE321 0x02 1)
    | some f => .next (s.svcRequest f)

/-- PRIVATE_READ (R610): the response, identical on every read until the next private write. -/
def execPrivateRead (s : State) : Host.Outcome State Fault Refusal :=
  if !s.svcOn then .next s
  else match s.msv.service.response with
    | some (r, t, _) => .next ({ s with msv.service.response := some (r, t, true) }.emit (.i3cRead r.bytes))
    | none => .next (s.emit .i3cNack)

/-- RESPONSE_EXPIRY (R610): a response not read within 1 s. -/
def execResponseExpiry (s : State) : Host.Outcome State Fault Refusal :=
  match s.msv.service.response with
  | some (_, t, false) =>
    if t + 1000000 ≤ s.now then .next ({ s with msv.service.response := none }.bump 0xE321 0x04 1) else .next s
  | _ => .next s

/-! ## Common commands (R608) -/

/-- The static address, for SETDASA. -/
def staticAddress : Nat := 0x3A

/-- A command that the module acknowledges. -/
def State.i3cAck (s : State) : Host.Outcome State Fault Refusal := .next (if s.svcOn then s.emit .i3cAck else s)

/-- A command that returns bytes. -/
def State.i3cReturn (s : State) (b : Bytes) : Host.Outcome State Fault Refusal := .next (if s.svcOn then s.emit (.i3cBytes b) else s)

/-- ENTDAA: a target without a dynamic address takes the one assigned. -/
def execEntdaa (address : Nat) (s : State) : Host.Outcome State Fault Refusal :=
  if !s.svcOn ∨ s.msv.service.dynAddr ≠ 0 then .next s
  else State.i3cAck { s with msv.service.dynAddr := address % 128 }

/-- SETDASA: the dynamic address is set by the static one. -/
def execSetdasa (static address : Nat) (s : State) : Host.Outcome State Fault Refusal :=
  if !s.svcOn ∨ static ≠ staticAddress ∨ s.msv.service.dynAddr ≠ 0 then .next s
  else State.i3cAck { s with msv.service.dynAddr := address % 128 }

/-- RSTDAA: the dynamic address is given up. -/
def execRstdaa (s : State) : Host.Outcome State Fault Refusal :=
  if !s.svcOn then .next s else State.i3cAck { s with msv.service.dynAddr := 0 }

/-- ENEC: bit 0 of the mask enables in-band interrupts (the events byte is PRESUMED, of I3C). -/
def execEnec (mask : Nat) (s : State) : Host.Outcome State Fault Refusal :=
  if !s.svcOn then .next s
  else State.i3cAck (if bit mask 0 then { s with msv.service.events := true } else s)

/-- DISEC: bit 0 of the mask disables in-band interrupts. -/
def execDisec (mask : Nat) (s : State) : Host.Outcome State Fault Refusal :=
  if !s.svcOn then .next s
  else State.i3cAck (if bit mask 0 then { s with msv.service.events := false } else s)

/-- The provisional ID: manufacturer id, 0, CRC-32C of SERIAL_NUMBER. -/
def State.provisionalId (s : State) : Nat :=
  Config.manufacturing 0xE320 1 % 2 ^ 15 * 2 ^ 33 + crc32c (s.full 0xF003 0 16)

def execGetpid (s : State) : Host.Outcome State Fault Refusal := s.i3cReturn (natBytes 6 s.provisionalId)

/-- GETBCR: IBI capable, no IBI payload, not a controller. -/
def execGetbcr (s : State) : Host.Outcome State Fault Refusal := s.i3cReturn [0x02]

def execGetdcr (s : State) : Host.Outcome State Fault Refusal := s.i3cReturn [0x00]

/-- GETSTATUS: the spec gives no contents of the two status bytes: a free value. -/
def execGetstatus (s : State) : Host.Outcome State Fault Refusal :=
  let (n, s) := s.takeFree 20
  s.i3cReturn (natBytes 2 n)

/-- The maximum length of a private write or read. -/
def maxLength : Nat := 1048

/-- SETMWL: a length below 1,048 is accepted; above it the maximum stays 1,048. -/
def execSetmwl (n : Nat) (s : State) : Host.Outcome State Fault Refusal :=
  if !s.svcOn then .next s else State.i3cAck { s with msv.service.mwl := min n maxLength }

def execGetmwl (s : State) : Host.Outcome State Fault Refusal := s.i3cReturn (natBytes 2 s.msv.service.mwl)

/-- SETMRL, likewise; longer responses are replaced under R610. -/
def execSetmrl (n : Nat) (s : State) : Host.Outcome State Fault Refusal :=
  if !s.svcOn then .next s else State.i3cAck { s with msv.service.mrl := min n maxLength }

def execGetmrl (s : State) : Host.Outcome State Fault Refusal := s.i3cReturn (natBytes 2 s.msv.service.mrl)

/-- Every other common command is answered with a NACK. -/
def execUnlistedCommonCommand (code : Nat) (s : State) : Host.Outcome State Fault Refusal :=
  if !s.svcOn ∨ 256 ≤ code then .next s else .next (s.emit .i3cNack)

end Sys2Proof.Machine
end

