-- ==== Sys2Proof/Machine/Dispatch.lean ====
section
/-!
DEFINITION. One arm per command: each a direct call of the meaning of its row.
-/
namespace Sys2Proof.Machine

/-- The effect of a command on everything but the queue. -/
def exec (i : Instr) (s : State) : Host.Outcome State Fault Refusal :=
  match i with
  | .frameReceive p f => Sys2Proof.Machine.execFrameReceive p f s
  | .pfcFrameRx p => Sys2Proof.Machine.execPfcFrameRx p s
  | .pfcRefresh p q => Sys2Proof.Machine.execPfcRefresh p q s
  | .pauseExpiry p q => Sys2Proof.Machine.execPauseExpiry p q s
  | .pauseWatchdog p q => Sys2Proof.Machine.execPauseWatchdog p q s
  | .pauseHonourResume p q => Sys2Proof.Machine.execPauseHonourResume p q s
  | .linkUp p partner => Sys2Proof.Machine.execLinkUp p partner s
  | .linkDown p => Sys2Proof.Machine.execLinkDown p s
  | .trainingFailure p mode => Sys2Proof.Machine.execTrainingFailure p mode s
  | .linkPartnerDetect p => Sys2Proof.Machine.execLinkPartnerDetect p s
  | .lpiEntry p => Sys2Proof.Machine.execLpiEntry p s
  | .lpiExit p => Sys2Proof.Machine.execLpiExit p s
  | .lldpRx p => Sys2Proof.Machine.execLldpRx p s
  | .lldpTimer p => Sys2Proof.Machine.execLldpTimer p s
  | .ptpMessageRx p => Sys2Proof.Machine.execPtpMessageRx p s
  | .delayReqDue => Sys2Proof.Machine.execDelayReqDue s
  | .ptpAnnounceTimeout => Sys2Proof.Machine.execPtpAnnounceTimeout s
  | .utcOffsetChange offset => Sys2Proof.Machine.execUtcOffsetChange offset s
  | .gateCommit p r v => Sys2Proof.Machine.execGateCommit p r v s
  | .gateSwitch p => Sys2Proof.Machine.execGateSwitch p s
  | .captureFreezeExpiry p => Sys2Proof.Machine.execCaptureFreezeExpiry p s
  | .fragmentRx p => Sys2Proof.Machine.execFragmentRx p s
  | .ackOnly p => Sys2Proof.Machine.execAckOnly p s
  | .ackDue session => Sys2Proof.Machine.execAckDue session s
  | .rtoExpiry session => Sys2Proof.Machine.execRtoExpiry session s
  | .sessionIdleExpiry session => Sys2Proof.Machine.execSessionIdleExpiry session s
  | .halfOpenExpiry session => Sys2Proof.Machine.execHalfOpenExpiry session s
  | .epochGraceExpiry session => Sys2Proof.Machine.execEpochGraceExpiry session s
  | .fragmentSend session => Sys2Proof.Machine.execFragmentSend session s
  | .replayEntryExpiry session reqId => Sys2Proof.Machine.execReplayEntryExpiry session reqId s
  | .sessionIdRelease session => Sys2Proof.Machine.execSessionIdRelease session s
  | .sessionOpen => Sys2Proof.Machine.execSessionOpen s
  | .sessionConfirm => Sys2Proof.Machine.execSessionConfirm s
  | .sessionClose task => Sys2Proof.Machine.execSessionClose task s
  | .get task => Sys2Proof.Machine.execGet task s
  | .head task => Sys2Proof.Machine.execHead task s
  | .put task => Sys2Proof.Machine.execPut task s
  | .putIf task => Sys2Proof.Machine.execPutIf task s
  | .delete task => Sys2Proof.Machine.execDelete task s
  | .punch task => Sys2Proof.Machine.execPunch task s
  | .append task => Sys2Proof.Machine.execAppend task s
  | .batch task => Sys2Proof.Machine.execBatch task s
  | .scan task => Sys2Proof.Machine.execScan task s
  | .lock task => Sys2Proof.Machine.execLock task s
  | .unlock task => Sys2Proof.Machine.execUnlock task s
  | .flush task => Sys2Proof.Machine.execFlush task s
  | .odRead task => Sys2Proof.Machine.execOdRead task s
  | .odWrite task => Sys2Proof.Machine.execOdWrite task s
  | .attest task => Sys2Proof.Machine.execAttest task s
  | .queueReset task => Sys2Proof.Machine.execQueueReset task s
  | .sanitizeCrypto task => Sys2Proof.Machine.execSanitizeCrypto task s
  | .sanitizeBlockErase task => Sys2Proof.Machine.execSanitizeBlockErase task s
  | .sanitizeOverwrite task => Sys2Proof.Machine.execSanitizeOverwrite task s
  | .format task => Sys2Proof.Machine.execFormat task s
  | .query task => Sys2Proof.Machine.execQuery task s
  | .stayReady task => Sys2Proof.Machine.execStayReady task s
  | .auto task => Sys2Proof.Machine.execAuto task s
  | .dozeNow task => Sys2Proof.Machine.execDozeNow task s
  | .prepareHold task => Sys2Proof.Machine.execPrepareHold task s
  | .holdPendingExpiry => Sys2Proof.Machine.execHoldPendingExpiry s
  | .admission => Sys2Proof.Machine.execAdmission s
  | .commandStart => Sys2Proof.Machine.execCommandStart s
  | .keyLockJoin task => Sys2Proof.Machine.execKeyLockJoin task s
  | .keyChainHead task => Sys2Proof.Machine.execKeyChainHead task s
  | .pageInComplete page readable => Sys2Proof.Machine.execPageInComplete page readable s
  | .commit task => Sys2Proof.Machine.execCommit task s
  | .postCompletion task => Sys2Proof.Machine.execPostCompletion task s
  | .flushComplete task => Sys2Proof.Machine.execFlushComplete task s
  | .clientLeaseExpiry tenant key => Sys2Proof.Machine.execClientLeaseExpiry tenant key s
  | .cursorExpiry cursor => Sys2Proof.Machine.execCursorExpiry cursor s
  | .drainPhaseAdvance => Sys2Proof.Machine.execDrainPhaseAdvance s
  | .drainLimitExpiry => Sys2Proof.Machine.execDrainLimitExpiry s
  | .slotFill => Sys2Proof.Machine.execSlotFill s
  | .slotTableGenerate => Sys2Proof.Machine.execSlotTableGenerate s
  | .tableSwap => Sys2Proof.Machine.execTableSwap s
  | .endpointMaskChange => Sys2Proof.Machine.execEndpointMaskChange s
  | .unitIsolate u kind => Sys2Proof.Machine.execUnitIsolate u kind s
  | .throttleChange => Sys2Proof.Machine.execThrottleChange s
  | .caseTempSample celsius => Sys2Proof.Machine.execCaseTempSample celsius s
  | .camUpdateCycle => Sys2Proof.Machine.execCamUpdateCycle s
  | .camBankWidth bank r v => Sys2Proof.Machine.execCamBankWidth bank r v s
  | .directorySplit => Sys2Proof.Machine.execDirectorySplit s
  | .pageJoin page neighbour => Sys2Proof.Machine.execPageJoin page neighbour s
  | .pinReevaluate r v => Sys2Proof.Machine.execPinReevaluate r v s
  | .ruleInsert r v => Sys2Proof.Machine.execRuleInsert r v s
  | .ruleReplace r v => Sys2Proof.Machine.execRuleReplace r v s
  | .ruleDelete r v => Sys2Proof.Machine.execRuleDelete r v s
  | .ruleUpdateWrite => Sys2Proof.Machine.execRuleUpdateWrite s
  | .ruleScrub position => Sys2Proof.Machine.execRuleScrub position s
  | .scanStep task => Sys2Proof.Machine.execScanStep task s
  | .imageMemoryError engine address => Sys2Proof.Machine.execImageMemoryError engine address s
  | .predImageWrite slot r v => Sys2Proof.Machine.execPredImageWrite slot r v s
  | .predClear r v => Sys2Proof.Machine.execPredClear r v s
  | .keyPageWrite page sub r v => Sys2Proof.Machine.execKeyPageWrite page sub r v s
  | .adminPageClear r v => Sys2Proof.Machine.execAdminPageClear r v s
  | .pkMultiplyP256 r v => Sys2Proof.Machine.execPkMultiplyP256 r v s
  | .pkMultiplyP384 r v => Sys2Proof.Machine.execPkMultiplyP384 r v s
  | .pkVerifyP256 r v => Sys2Proof.Machine.execPkVerifyP256 r v s
  | .pkVerifyP384 r v => Sys2Proof.Machine.execPkVerifyP384 r v s
  | .pkJobStart => Sys2Proof.Machine.execPkJobStart s
  | .pkJobComplete ladder => Sys2Proof.Machine.execPkJobComplete ladder s
  | .pipelineParity pipeline stage mismatchPage => Sys2Proof.Machine.execPipelineParity pipeline stage mismatchPage s
  | .pipelineRebind pipeline page => Sys2Proof.Machine.execPipelineRebind pipeline page s
  | .rngHealthFail source test => Sys2Proof.Machine.execRngHealthFail source test s
  | .rngStartupTestDone => Sys2Proof.Machine.execRngStartupTestDone s
  | .rngReseed => Sys2Proof.Machine.execRngReseed s
  | .stripeDrain stripe => Sys2Proof.Machine.execStripeDrain stripe s
  | .shardProgramDone stripe shard => Sys2Proof.Machine.execShardProgramDone stripe shard s
  | .programReplacement stripe shard => Sys2Proof.Machine.execProgramReplacement stripe shard s
  | .packSealTimeout stripe => Sys2Proof.Machine.execPackSealTimeout stripe s
  | .gcStep tile channel die block => Sys2Proof.Machine.execGcStep tile channel die block s
  | .repack tenant key => Sys2Proof.Machine.execRepack tenant key s
  | .journalTrim => Sys2Proof.Machine.execJournalTrim s
  | .indexPageRebuild page => Sys2Proof.Machine.execIndexPageRebuild page s
  | .rebuildStripe stripe => Sys2Proof.Machine.execRebuildStripe stripe s
  | .reserveRefill bytes => Sys2Proof.Machine.execReserveRefill bytes s
  | .longOpStep work => Sys2Proof.Machine.execLongOpStep work s
  | .flushEnd bankMv energyMj mapRootWritten => Sys2Proof.Machine.execFlushEnd bankMv energyMj mapRootWritten s
  | .flushVerify stripe unreadable => Sys2Proof.Machine.execFlushVerify stripe unreadable s
  | .dieOpStart tile channel die => Sys2Proof.Machine.execDieOpStart tile channel die s
  | .readDone tile channel die outcome => Sys2Proof.Machine.execReadDone tile channel die outcome s
  | .programDone tile channel die => Sys2Proof.Machine.execProgramDone tile channel die s
  | .programFailed tile channel die => Sys2Proof.Machine.execProgramFailed tile channel die s
  | .eraseDone tile channel die passed => Sys2Proof.Machine.execEraseDone tile channel die passed s
  | .rowVerify tile channel die block row outcome => Sys2Proof.Machine.execRowVerify tile channel die block row outcome s
  | .rewrite tile channel die block => Sys2Proof.Machine.execRewrite tile channel die block s
  | .dieTempSample tile channel die celsius sensor => Sys2Proof.Machine.execDieTempSample tile channel die celsius sensor s
  | .tileEmberIdle tile => Sys2Proof.Machine.execTileEmberIdle tile s
  | .tilePeatIdle tile => Sys2Proof.Machine.execTilePeatIdle tile s
  | .tileWake tile => Sys2Proof.Machine.execTileWake tile s
  | .tileFault u kind => Sys2Proof.Machine.execTileFault u kind s
  | .leaseRenewal w => Sys2Proof.Machine.execLeaseRenewal w s
  | .pairMismatch w => Sys2Proof.Machine.execPairMismatch w s
  | .leaseDrop w => Sys2Proof.Machine.execLeaseDrop w s
  | .leaseExpiry => Sys2Proof.Machine.execLeaseExpiry s
  | .leaseGrant => Sys2Proof.Machine.execLeaseGrant s
  | .deliveryNote seq digest own => Sys2Proof.Machine.execDeliveryNote seq digest own s
  | .gatedOutput w seq => Sys2Proof.Machine.execGatedOutput w seq s
  | .resyncStart w => Sys2Proof.Machine.execResyncStart w s
  | .resyncComplete => Sys2Proof.Machine.execResyncComplete s
  | .resyncAbandoned bytesLeft => Sys2Proof.Machine.execResyncAbandoned bytesLeft s
  | .wardenRestartDone w => Sys2Proof.Machine.execWardenRestartDone w s
  | .switchoverRequest r v => Sys2Proof.Machine.execSwitchoverRequest r v s
  | .aonClockStop => Sys2Proof.Machine.execAonClockStop s
  | .aonClockRestore stopUs => Sys2Proof.Machine.execAonClockRestore stopUs s
  | .dictTick => Sys2Proof.Machine.execDictTick s
  | .configLock r v => Sys2Proof.Machine.execConfigLock r v s
  | .restoreDefaults r v => Sys2Proof.Machine.execRestoreDefaults r v s
  | .read f => Sys2Proof.Machine.execRead f s
  | .write f => Sys2Proof.Machine.execWrite f s
  | .stagedWriteExpiry => Sys2Proof.Machine.execStagedWriteExpiry s
  | .segResponseExpiry source seq => Sys2Proof.Machine.execSegResponseExpiry source seq s
  | .heartbeat => Sys2Proof.Machine.execHeartbeat s
  | .alertNotify => Sys2Proof.Machine.execAlertNotify s
  | .quietPropose source quietId delay => Sys2Proof.Machine.execQuietPropose source quietId delay s
  | .quietAck => Sys2Proof.Machine.execQuietAck s
  | .quietCommit => Sys2Proof.Machine.execQuietCommit s
  | .quietAbandon own => Sys2Proof.Machine.execQuietAbandon own s
  | .wake => Sys2Proof.Machine.execWake s
  | .plcaBeacon => Sys2Proof.Machine.execPlcaBeacon s
  | .plcaBeaconTimeout => Sys2Proof.Machine.execPlcaBeaconTimeout s
  | .plcaCollision => Sys2Proof.Machine.execPlcaCollision s
  | .epochClose => Sys2Proof.Machine.execEpochClose s
  | .byteSecondsSample => Sys2Proof.Machine.execByteSecondsSample s
  | .meteringCheckpoint => Sys2Proof.Machine.execMeteringCheckpoint s
  | .epochLength r v => Sys2Proof.Machine.execEpochLength r v s
  | .wallTime r v => Sys2Proof.Machine.execWallTime r v s
  | .dozeEntry => Sys2Proof.Machine.execDozeEntry s
  | .dozeWake => Sys2Proof.Machine.execDozeWake s
  | .powerLossDetect cause => Sys2Proof.Machine.execPowerLossDetect cause s
  | .holdEntry => Sys2Proof.Machine.execHoldEntry s
  | .auxRemoved => Sys2Proof.Machine.execAuxRemoved s
  | .mainPowerGood bankMv => Sys2Proof.Machine.execMainPowerGood bankMv s
  | .startupStepDone ms failed => Sys2Proof.Machine.execStartupStepDone ms failed s
  | .mrstNAssert heldUs => Sys2Proof.Machine.execMrstNAssert heldUs s
  | .mrstNRelease => Sys2Proof.Machine.execMrstNRelease s
  | .pwrdisAssert => Sys2Proof.Machine.execPwrdisAssert s
  | .pwrdisRelease => Sys2Proof.Machine.execPwrdisRelease s
  | .moduleReset r v => Sys2Proof.Machine.execModuleReset r v s
  | .deviceTimeCheckpoint => Sys2Proof.Machine.execDeviceTimeCheckpoint s
  | .aonTrim ppm => Sys2Proof.Machine.execAonTrim ppm s
  | .firewoodTestDue => Sys2Proof.Machine.execFirewoodTestDue s
  | .firewoodTestNow r v => Sys2Proof.Machine.execFirewoodTestNow r v s
  | .firewoodDischargeStart => Sys2Proof.Machine.execFirewoodDischargeStart s
  | .firewoodTestEnd dischargeUs esrMilliohm bankMv => Sys2Proof.Machine.execFirewoodTestEnd dischargeUs esrMilliohm bankMv s
  | .chargeComplete chargeMs => Sys2Proof.Machine.execChargeComplete chargeMs s
  | .eventWrite => Sys2Proof.Machine.execEventWrite s
  | .recorderFreeze r v => Sys2Proof.Machine.execRecorderFreeze r v s
  | .freezeExpiry => Sys2Proof.Machine.execFreezeExpiry s
  | .kilnLogic r v => Sys2Proof.Machine.execKilnLogic r v s
  | .kilnMemory r v => Sys2Proof.Machine.execKilnMemory r v s
  | .kilnLogicMemory r v => Sys2Proof.Machine.execKilnLogicMemory r v s
  | .kilnHoldUp r v => Sys2Proof.Machine.execKilnHoldUp r v s
  | .kilnVaultMemory r v => Sys2Proof.Machine.execKilnVaultMemory r v s
  | .kilnTargetedStart u => Sys2Proof.Machine.execKilnTargetedStart u s
  | .kilnLimitsMet mv celsius ppm => Sys2Proof.Machine.execKilnLimitsMet mv celsius ppm s
  | .kilnTestEnd result failures address failBit durationUs => Sys2Proof.Machine.execKilnTestEnd result failures address failBit durationUs s
  | .traceOff r v => Sys2Proof.Machine.execTraceOff r v s
  | .traceArmOnce r v => Sys2Proof.Machine.execTraceArmOnce r v s
  | .traceArmContinuous r v => Sys2Proof.Machine.execTraceArmContinuous r v s
  | .triggerNow r v => Sys2Proof.Machine.execTriggerNow r v s
  | .traceEntry kind source task data => Sys2Proof.Machine.execTraceEntry kind source task data s
  | .captureReadout => Sys2Proof.Machine.execCaptureReadout s
  | .traceRearm => Sys2Proof.Machine.execTraceRearm s
  | .privateWrite bytes => Sys2Proof.Machine.execPrivateWrite bytes s
  | .privateRead => Sys2Proof.Machine.execPrivateRead s
  | .responseExpiry => Sys2Proof.Machine.execResponseExpiry s
  | .entdaa address => Sys2Proof.Machine.execEntdaa address s
  | .setdasa static address => Sys2Proof.Machine.execSetdasa static address s
  | .rstdaa => Sys2Proof.Machine.execRstdaa s
  | .enec mask => Sys2Proof.Machine.execEnec mask s
  | .disec mask => Sys2Proof.Machine.execDisec mask s
  | .getpid => Sys2Proof.Machine.execGetpid s
  | .getbcr => Sys2Proof.Machine.execGetbcr s
  | .getdcr => Sys2Proof.Machine.execGetdcr s
  | .getstatus => Sys2Proof.Machine.execGetstatus s
  | .setmwl n => Sys2Proof.Machine.execSetmwl n s
  | .getmwl => Sys2Proof.Machine.execGetmwl s
  | .setmrl n => Sys2Proof.Machine.execSetmrl n s
  | .getmrl => Sys2Proof.Machine.execGetmrl s
  | .unlistedCommonCommand code => Sys2Proof.Machine.execUnlistedCommonCommand code s
  | .fwImageWindow offset valueLen data => Sys2Proof.Machine.execFwImageWindow offset valueLen data s
  | .fwStagingExpiry => Sys2Proof.Machine.execFwStagingExpiry s
  | .fwActivate r v => Sys2Proof.Machine.execFwActivate r v s
  | .fwAbandon r v => Sys2Proof.Machine.execFwAbandon r v s
  | .fwFloor element r v => Sys2Proof.Machine.execFwFloor element r v s
  | .auxApplied slotAddress => Sys2Proof.Machine.execAuxApplied slotAddress s
  | .lpiRxEntry p => Sys2Proof.Machine.execLpiRxEntry p s
  | .lpiRxExit p => Sys2Proof.Machine.execLpiRxExit p s
  | .frameTransmit p => Sys2Proof.Machine.execFrameTransmit p s
  | .standbyLeavesStep => Sys2Proof.Machine.execStandbyLeavesStep s
  | .wakeSettleEnd => Sys2Proof.Machine.execWakeSettleEnd s
  | .kilnLimitsLost limit measured => Sys2Proof.Machine.execKilnLimitsLost limit measured s
  | .moduleOutOfService => Sys2Proof.Machine.execModuleOutOfService s
  | .beaconReceived => Sys2Proof.Machine.execBeaconReceived s
  | .segmentOtherFrame f accepted => Sys2Proof.Machine.execSegmentOtherFrame f accepted s

end Sys2Proof.Machine
end

