-- ==== Sys2Proof/Machine/Medium.lean ====
section
/-!
DEFINITION. What the medium holds: the data of a stripe as it is encrypted (R343 to R347), its parity shards (R374),
the codewords of a shard (R376), the parity page of a row (R445), and how a lost shard is recomputed (R346, R374).
These are functions of the state; no command's effect but the answers that the other files give depends on them.
-/
namespace Sys2Proof.Machine
open Sys2Proof

/-! ## GF(2⁸) with the polynomial 0x11D and the generator 2 (R374) -/

/-- Multiplication by the generator. -/
def gfDouble (a : Byte) : Byte := if a.msb then (a <<< 1) ^^^ 0x1D#8 else a <<< 1

/-- The product of two bytes. -/
def gfMul (a b : Byte) : Byte :=
  ((List.range 8).foldl (fun (x : Byte × Byte) i => (if b.getLsbD i then x.1 ^^^ x.2 else x.1, gfDouble x.2)) (0#8, a)).1

/-- The `n`-th power of a byte. -/
def gfPow (a : Byte) : Nat → Byte
  | 0 => 1#8
  | n + 1 => gfMul a (gfPow a n)

/-- The inverse of a byte that is not 0. -/
def gfInv (a : Byte) : Byte := gfPow a 254

/-- A string scaled by a byte. -/
def gfScale (c : Byte) (b : Bytes) : Bytes := b.map (gfMul c)

/-- The sum of the data shards: the bytes of P (R374). -/
def parityP (data : List Bytes) : Bytes := data.foldr xorBytes []

/-- The sum of the data shards, the i-th scaled by the i-th power of the generator: the bytes of Q (R374). -/
def parityQ (data : List Bytes) : Bytes := data.foldr (fun d q => xorBytes d (q.map gfDouble)) []

/-- The data shards with the i-th taken out. -/
def without (data : List Bytes) (i : Nat) : List Bytes := data.set i []

/-- A lost data shard of `n` bytes from the other data shards and P (R374). -/
def recoverByP (data : List Bytes) (p : Bytes) (i n : Nat) : Bytes := (xorBytes (parityP (without data i)) p).take n

/-- A lost data shard of `n` bytes from the other data shards and Q (R374). -/
def recoverByQ (data : List Bytes) (q : Bytes) (i n : Nat) : Bytes :=
  (gfScale (gfInv (gfPow 2#8 i)) (xorBytes (parityQ (without data i)) q)).take n

/-- Two lost data shards `i` and `j` of `n` and `m` bytes from the others, P and Q (R374). -/
def recoverTwo (data : List Bytes) (p q : Bytes) (i n j m : Nat) : Bytes × Bytes :=
  let rest := without (without data i) j
  let a := xorBytes (parityP rest) p
  let b := xorBytes (parityQ rest) q
  let c := gfInv (gfPow 2#8 i ^^^ gfPow 2#8 j)
  let x := gfScale c (xorBytes b (gfScale (gfPow 2#8 j) a))
  (x.take n, (xorBytes x a).take m)

/-! ## Encryption at rest: XTS-AES-256 (R343 to R345) -/

/-- Bytes in a data unit (R343). -/
def unitBytes : Nat := 4096

/-- The sector index of a data unit of a data shard (R344). -/
def sectorIndex (shard unit : Nat) : Nat := 16 * shard + unit

/-- The tweak block of a data unit (R344). -/
def tweakBlock (stripe shard unit : Nat) : Bytes := natBytes 8 stripe ++ natBytes 8 (sectorIndex shard unit)

/-- One block through AES-256. -/
def aesBytes (key block : Bytes) : Bytes := natBytes 16 (aes256 key block).toNat

/-- Shift a string of bytes, least significant first, left by one bit, with the carry that comes in. -/
def shiftCarry : Bool → Bytes → Bytes
  | _, [] => []
  | c, x :: l => ((x <<< 1) ||| (if c then 1#8 else 0#8)) :: shiftCarry x.msb l

/-- Multiplication of a tweak by α (R344, as IEEE 1619 has it). -/
def alphaStep (t : Bytes) : Bytes :=
  match shiftCarry false t with
  | [] => []
  | x :: l => (if (t.getLastD 0#8).msb then x ^^^ 0x87#8 else x) :: l

/-- The encrypted tweak of the j-th block of a data unit (R344). -/
def blockTweak (key2 tweak : Bytes) : Nat → Bytes
  | 0 => aesBytes key2 tweak
  | j + 1 => alphaStep (blockTweak key2 tweak j)

/-- One block encrypted under a tweak. -/
def xtsBlock (key1 t b : Bytes) : Bytes := xorBytes (aesBytes key1 (xorBytes b t)) t

/-- `n` whole blocks encrypted one after another from a tweak on, and the tweak after them. -/
def xtsBlocks (key1 : Bytes) : (n : Nat) → (t b : Bytes) → Bytes × Bytes
  | 0, t, _ => ([], t)
  | n + 1, t, b =>
    let (c, u) := xtsBlocks key1 n (alphaStep t) (b.drop 16)
    (xtsBlock key1 t (b.take 16) ++ c, u)

/-- A data unit encrypted at its true length (R345): nothing for none, one padded block below 16 bytes, whole blocks, or
whole blocks with ciphertext stealing on the last full block and the rest. -/
def xtsUnit (key1 key2 : Bytes) (stripe shard unit : Nat) (plain : Bytes) : Bytes :=
  let t := blockTweak key2 (tweakBlock stripe shard unit) 0
  let n := plain.length
  if n = 0 then []
  else if n < 16 then xtsBlock key1 t (plain ++ zeros (16 - n))
  else if n % 16 = 0 then (xtsBlocks key1 (n / 16) t plain).1
  else
    let (head, u) := xtsBlocks key1 (n / 16 - 1) t plain
    let rest := plain.drop (n / 16 * 16)
    let full := xtsBlock key1 u (slice plain ((n / 16 - 1) * 16) 16)
    head ++ xtsBlock key1 (alphaStep u) (rest ++ full.drop rest.length) ++ full.take rest.length

/-- The data units of a data shard, encrypted one by one (R343, R345). -/
def xtsShard (key1 key2 : Bytes) (stripe shard : Nat) (plain : Bytes) : Bytes :=
  (List.range (ceilDiv plain.length unitBytes)).flatMap fun u =>
    xtsUnit key1 key2 stripe shard u (slice plain (u * unitBytes) unitBytes)

/-! ### Decryption (R345, R346) -/

/-- One block decrypted under a tweak. -/
def xtsOpenBlock (key1 t c : Bytes) : Bytes :=
  xorBytes (natBytes 16 (inverseAesBlock (roundKeys key1) (beNat (xorBytes c t)))) t

/-- `n` whole blocks decrypted one after another from a tweak on. -/
def xtsOpenBlocks (key1 : Bytes) : (n : Nat) → (t c : Bytes) → Bytes
  | 0, _, _ => []
  | n + 1, t, c => xtsOpenBlock key1 t (c.take 16) ++ xtsOpenBlocks key1 n (alphaStep t) (c.drop 16)

/-- The last two blocks of a unit with ciphertext stealing, of which the second has `rest` bytes, under the tweaks of the two
blocks: both are decrypted (R345). -/
def xtsOpenLast (key1 t u : Bytes) (rest : Nat) (c : Bytes) : Bytes :=
  let last := xtsOpenBlock key1 u (c.take 16)
  xtsOpenBlock key1 t (slice c 16 rest ++ last.drop rest) ++ last.take rest

/-- Bytes `off` to `off + len` of a data unit of `n` bytes from its ciphertext (R345): the pipeline computes the tweak of the
block at which the range starts and returns the bytes asked for. -/
def xtsOpen (key1 key2 : Bytes) (stripe shard unit n off len : Nat) (c : Bytes) : Bytes :=
  let tweak := tweakBlock stripe shard unit
  let t := blockTweak key2 tweak
  let len := min len (n - off)
  let j := off / 16
  let whole := if n % 16 = 0 then n / 16 else n / 16 - 1
  if len = 0 then []
  else if n < 16 then slice ((xtsOpenBlock key1 (t 0) c).take n) off len
  else if off + len ≤ 16 * whole then
    slice (xtsOpenBlocks key1 (ceilDiv (off + len) 16 - j) (t j) (c.drop (16 * j))) (off % 16) len
  else
    let j := min j whole
    slice (xtsOpenBlocks key1 (whole - j) (t j) (c.drop (16 * j))
      ++ xtsOpenLast key1 (t whole) (t (whole + 1)) (n % 16) (c.drop (16 * whole))) (off - 16 * j) len

/-- Bytes `off` to `off + len` of a data shard of `size` bytes from its ciphertext, unit by unit (R343, R345). A lost shard is
decrypted so, under its own tweaks, once the others have given its ciphertext (R346). -/
def xtsOpenShard (key1 key2 : Bytes) (stripe shard size off len : Nat) (c : Bytes) : Bytes :=
  (List.range (ceilDiv size unitBytes)).flatMap fun u =>
    let lo := max off (u * unitBytes)
    let hi := min (off + len) (min size ((u + 1) * unitBytes))
    xtsOpen key1 key2 stripe shard u (min unitBytes (size - u * unitBytes)) (lo - u * unitBytes) (hi - lo)
      (slice c (u * unitBytes) unitBytes)

/-! ## The data of a stripe (R371 to R373, R380, R391) -/

/-- Where the byte at a stripe data offset lies: data shard, data unit, byte of the shard (R372). -/
def dataPlace (d : Nat) : Nat × Nat × Nat := (d / shardBytes, d % shardBytes / unitBytes, d % shardBytes)

/-- `b` with the bytes from `off` on replaced by `v`, zeros filling a gap. -/
def overlay (b : Bytes) (off : Nat) (v : Bytes) : Bytes := window b off 0 off ++ v ++ b.drop (off + v.length)

/-- What a key's extents put into a stripe: stripe data offset and bytes, from position `pos` of its value on. -/
def extentData (id pos : Nat) (value : Bytes) : List Extent → List (Nat × Bytes)
  | [] => []
  | e :: l =>
    let rest := extentData id (pos + e.len) value l
    if e.stripe = id then (e.off, slice value pos e.len) :: rest else rest

/-- The plaintext data of a value or packed stripe: what its keys put there, zeros between extents (R380). -/
def State.stripeData (s : State) (p : Stripe) : Bytes :=
  (s.asu.keys.flatMap fun k => extentData p.id 0 k.value k.extents).foldl (fun b e => overlay b e.1 e.2) (zeros p.filled)

/-- The page that a data shard of a metadata stripe holds (R391). -/
def State.pageAt (s : State) (id i : Nat) : Bytes :=
  match s.asu.pages.find? fun q => q.home == some (id, i) with
  | some q => s.pageImage q
  | none => []

/-- A data shard as the medium holds it: a page of a metadata stripe, else XTS ciphertext under the keys of the tenant's
page (R343, R391); none while the keys are not in the vault. -/
def State.dataShard (s : State) (p : Stripe) (i : Nat) : Option Bytes :=
  if p.kind = 3 then some (s.pageAt p.id i)
  else match (s.keyPage p.tenant).xts1, (s.keyPage p.tenant).xts2 with
    | some k1, some k2 => some (xtsShard k1 k2 p.id i (slice (s.stripeData p) (i * shardBytes) shardBytes))
    | _, _ => none

/-- A list of options as an option of a list. -/
def allSome : List (Option Bytes) → Option (List Bytes)
  | [] => some []
  | none :: _ => none
  | some b :: l => match allSome l with
    | some r => some (b :: r)
    | none => none

/-- The data shards of a stripe. -/
def State.dataShards (s : State) (p : Stripe) : Option (List Bytes) := allSome ((List.range p.k).map (s.dataShard p))

/-- Shard `i` of a stripe by position: a data shard, then P, then Q over the ciphertext, both as long as data shard 0
(R346, R374). -/
def State.shardContent (s : State) (p : Stripe) (i : Nat) : Option Bytes :=
  if i < p.k then s.dataShard p i
  else match s.dataShards p with
    | none => none
    | some l =>
      let n := (l.headD []).length
      let b := if i = p.k then parityP l else parityQ l
      some (window b n 0 n)

/-- The ciphertext of data shard `i` from the others and the parity shards that can be read (R346, R374): of the shards listed as
lost, `i` and at most one other. -/
def State.reconstructed (s : State) (p : Stripe) (lost : List Nat) (i : Nat) : Option Bytes :=
  match s.dataShards p, s.shardContent p p.k, s.shardContent p (p.k + 1) with
  | some l, some a, some b =>
    let n := (l.getD i []).length
    if 2 < lost.length then none
    else match lost.find? fun j => j != i with
      | none => some (recoverByP l a i n)
      | some j =>
        if j = p.k then some (recoverByQ l b i n)
        else if j = p.k + 1 then some (recoverByP l a i n)
        else if i < j then some (recoverTwo l a b i n j (l.getD j []).length).1
        else some (recoverTwo l a b j (l.getD j []).length i n).2
  | _, _, _ => none

/-- What a read of a range of data shard `i` decrypts to, with the shards listed as lost reconstructed (R345, R346). -/
def State.shardRange (s : State) (p : Stripe) (lost : List Nat) (i off len : Nat) : Option Bytes :=
  match (s.keyPage p.tenant).xts1, (s.keyPage p.tenant).xts2,
      if lost.contains i then s.reconstructed p lost i else s.shardContent p i with
  | some k1, some k2, some c =>
    some (xtsOpenShard k1 k2 p.id i (slice (s.stripeData p) (i * shardBytes) shardBytes).length off len c)
  | _, _, _ => none

/-- The codewords of a shard: whole 4 KiB, zeros beyond its length (R376). -/
def codewords (b : Bytes) : Bytes := window b (roundUp b.length unitBytes) 0 (roundUp b.length unitBytes)

/-- The parity page of a row: the sum of its pages' payloads (R445). -/
def rowParityPage (pages : List Bytes) : Bytes := parityP pages

end Sys2Proof.Machine
end

