-- ==== Sys2Proof/Safety.lean ====
section
/-!
DEFINITION. What counts as a safe run, and the shape that every step keeps.
-/
namespace Sys2Proof

/-- A step that ends in a next state. -/
def Safe (s : Machine.State) : Prop := ∃ t, Machine.step s = .next t

end Sys2Proof

namespace Sys2Proof.Machine

/-- The keys of a dictionary store rise strictly: its one canonical form. -/
def Rising (l : List (Nat × OdVal)) : Prop := l.Pairwise fun a b => a.1 < b.1

/-- The module has the units of R576 (64 tiles, 32 CAM banks, 8 pattern engines, 16 AES pipelines), 4 ladder units (R364), the
lanes of both ports (R194), at most 1,024 events in JSR's queue (R580), 64 in AON's (R582) and 8,760 closed epochs (R531); and
the dictionary store is in its canonical form. -/
def State.wellShaped (s : State) : Prop :=
  Rising s.od ∧ s.mta.tiles.length = 64 ∧ s.asu.banks.length = 32 ∧ s.pae.engines.length = 8 ∧ s.cpx.pipelines.length = 16
    ∧ s.cpx.ladders.length = 4 ∧ s.cqc.lanes.length = 8 ∧ s.jsr.queue.length ≤ 1024 ∧ s.jsr.aon.length ≤ 64
    ∧ s.cqc.closed.length ≤ 8760

/-- The write of an entry is taken: steps 2 to 8 of R493 pass, it is not held over a gap and no held write is before it, and the
entry is no W1 entry. -/
def State.takesWrite (s : State) (r : Requester) (index sub : Nat) (v : OdVal) : Prop :=
  writeGate s r index sub v = stOk ∧ s.writesHeld = false ∧ s.msv.held = [] ∧ writeLock s index sub = stOk ∧
    ∃ e, entryAt index sub = some e ∧ e.rangeOk v = true ∧ e.access ≠ .w1

/-- What the answer OK to a write of an entry adds to the state `t` that its effect leaves: the value goes to the entry's subsystem as a
control message (R33), DICT_WRITES up by 1 and LAST_WRITE, and the answer with the device time of the tick in which the write came. -/
def State.writeAnswered (s t : State) (r : Requester) (index sub : Nat) : State :=
  (((t.control (wholeUnit 0xE) (entryUnit index)).bump 0xE010 0x0F 1).lastWrite r index sub stOk).emit (.dictAnswer r index sub stOk 0 s.now)

end Sys2Proof.Machine

namespace Sys2Proof

open Machine in
/-- Every unit that the command's operands name is one the module has (R576); a command of this kind faults with noSuchUnit
otherwise. -/
def Instr.namesUnits : Instr → Bool
  | .keyPageWrite page sub _ _ => decide (page < 1024 ∧ 1 ≤ sub ∧ sub ≤ 3)
  | .rngHealthFail source test => decide (source < 2 ∧ 1 ≤ test ∧ test ≤ 2)
  | .pipelineParity n stage _ => decide (n < 16 ∧ stage < 16)
  | .pipelineRebind n page => decide (n < 16 ∧ page ≤ 1024)
  | .pkJobComplete n => decide (n < 4)
  | .pfcRefresh _ q | .pauseExpiry _ q | .pauseWatchdog _ q | .pauseHonourResume _ q => decide (q < 8)
  | .trainingFailure _ mode => decide (mode < 3)
  | .fwFloor i _ _ => decide (1 ≤ i ∧ i ≤ 32)
  | .camBankWidth n _ _ => decide (n < 32)
  | .kilnTargetedStart u | .unitIsolate u _ => u.replicated
  | .gcStep t c d b => decide (t < 64) && dieExists c d && decide (b < parityBlock)
  | .startupStepDone _ l => l.all UnitId.listed
  | .predImageWrite n _ _ => decide (n < 256)
  | .imageMemoryError n _ => decide (n < 8)
  | .dieOpStart t c d | .readDone t c d _ | .programDone t c d | .programFailed t c d | .eraseDone t c d _
  | .dieTempSample t c d _ _ => unitsExist t c d
  | .rowVerify t c d b _ _ | .rewrite t c d b => unitsExist t c d && decide (b < parityBlock)
  | .tileEmberIdle t | .tilePeatIdle t | .tileWake t => decide (t < 64)
  | .tileFault u kind => (faultTiles u kind).isSome
  | _ => true

end Sys2Proof
end

