-- ==== Sys2Proof/Certificates/Slice0/Obligations.lean ====
section
/-!
DEFINITION. The statements about the model: what each command does, by families, and what every step keeps.
-/

section

open Sys2Proof Sys2Proof.Machine


/-- a step runs the command at the front of the queue (R59, R600, opcode_table.json).
A step whose queue holds a command takes the one at the front and does what exec does with it on the state with the queue's rest; on an empty queue the block idles (DESIGN CHOICE, log entry 1). -/
def Obligations.FrontCommandRuns : Prop :=
  (∀ (c : Instr) (rest : List Instr) (s : State), s.pending = c :: rest → step s = exec c { s with pending := rest }) ∧
  (∀ s : State, s.pending = [] → step s = .next s)

/-- a command answers a next state exactly where it is well-formed and names units of the module (R501, R576, opcode_table.json).
For every command and state exec answers a next state exactly where the command is well-formed and names only units that the module has; a command that is not well-formed is refused by that name, a well-formed one that names another unit faults with noSuchUnit. No other command stops (DESIGN CHOICE, log entries 2 to 4). -/
def Obligations.WhereACommandStops : Prop :=
  ∀ (c : Instr) (s : State),
    ((c.wellFormed = true ∧ c.namesUnits = true) → ∃ t, exec c s = .next t) ∧
    (c.wellFormed = false → ∃ m, exec c s = .refused (.illFormed m)) ∧
    (c.wellFormed = true → c.namesUnits = false → exec c s = .fault .noSuchUnit)

/-- every step keeps the module's shape (R194, R364, R531, R576, R580, R582).
Where the module has its 64 tiles, 32 CAM banks, 8 pattern engines, 16 AES pipelines, 4 ladder units and 8 lanes, JSR's queue holds at most 1,024 events and AON's memory at most 64, at most 8,760 closed epochs are kept and the dictionary store is in its canonical form, a step that answers a next state leaves all this so. -/
def Obligations.EveryStepKeepsTheShape : Prop :=
  ∀ s t : State, s.wellShaped → step s = .next t → t.wellShaped

/-- the state at reset has the module's shape (R194, R364, R531, R576, R580, R582).
State.reset meets the invariant that every step keeps. -/
def Obligations.ResetHasTheShape : Prop :=
  State.reset.wellShaped

/-- the state at reset (R43, R186, R194, R375, R460, R480, opcode_table.json).
At reset, as the module leaves manufacture, the version counter and the stripe counter are at 1, every dictionary entry holds its default, every TRS is free, every lane and JSR's queue are empty, the policy is AUTO, the rule table admits all, no session is open, no key is stored, and no command waits. That State.reset is the module as manufactured, in start-up with both supplies, is the model's choice (log entry 8). -/
def Obligations.ResetState : Prop :=
  State.reset.plc.versionCounter = 1 ∧ State.reset.plc.stripeCounter = 1 ∧ (∀ i u, State.reset.stored i u = odDefault i u) ∧
  State.reset.cqc.trs = [] ∧ (∀ l ∈ State.reset.cqc.lanes, l = []) ∧ State.reset.jsr.queue = [] ∧ State.reset.cqc.policy = 0 ∧
  State.reset.asu.rules = [.admitAll] ∧ State.reset.wte.sessions = [] ∧ State.reset.asu.keys = [] ∧
  State.reset.plc.charcoal = 0 ∧ State.reset.pending = []

/-- version, stripe and journal numbers never go back (R43, R375, R393).
No step that answers a next state, whatever its command (resets, power losses, firmware changes, FORMAT and SANITIZE among them), takes the version counter, the stripe counter or the journal's sequence number back. -/
def Obligations.CountersNeverGoBack : Prop :=
  ∀ s t : State, step s = .next t → s.plc.versionCounter ≤ t.plc.versionCounter ∧ s.plc.stripeCounter ≤ t.plc.stripeCounter ∧
    s.plc.journalSeq ≤ t.plc.journalSeq

/-- Charcoal, written-once entries and a module out of service last (R32, R86, R479).
Once the module is in Charcoal every step that answers a next state leaves it there with the same cause; an entry written once stays written; a module out of service stays so. -/
def Obligations.WhatLastsForGood : Prop :=
  ∀ s t : State, step s = .next t →
    (s.plc.charcoal ≠ 0 → t.plc.charcoal = s.plc.charcoal) ∧
    (∀ i u, s.isWritten1 i u = true → t.isWritten1 i u = true) ∧
    (s.pch.outOfService = true → t.pch.outOfService = true)

/-- a step takes one command and only adds outputs (R59, opcode_table.json).
A step that answers a next state takes the command at the front and no other, and what the module has sent before stays sent: the outputs after the step begin with those before it. -/
def Obligations.QueueAndOutputs : Prop :=
  ∀ s t : State, step s = .next t → t.pending = s.pending.drop 1 ∧ s.out <+: t.out

/-- an entry reads as it was last stored, and storing leaves every other entry (R145, R478, R480, R490).
After an entry's value is stored the entry reads as that value without zero bytes at its end, every other entry of the dictionary reads as before, and nothing else changes; a counter goes up by the number given and stops at the top of its type. -/
def Obligations.EntryReadAfterWrite : Prop :=
  (∀ (s : State) (i u : Nat) (v : OdVal), (s.put i u v).stored i u = v.canon ∧
    (∀ j w, u < 256 → w < 256 → ¬ (j = i ∧ w = u) → (s.put i u v).stored j w = s.stored j w) ∧
    s.put i u v = { s with od := (s.put i u v).od }) ∧
  (∀ (s : State) (i u n : Nat) (e : EntryRow), entryAt i u = some e →
    (s.bump i u n).num i u = min (s.num i u + n) (2 ^ (8 * e.type.size) - 1) ∧
    (∀ j w, u < 256 → w < 256 → ¬ (j = i ∧ w = u) → (s.bump i u n).stored j w = s.stored j w))

/-- what LAST_WRITE records (R491).
A write that applies counts in DICT_WRITES_APPLIED and is recorded in LAST_WRITE (its control message to the entry's subsystem is R33's, log entry 126). LAST_WRITE also records a write refused at step 6 (CONFLICT), 7 (the locks), 8 (the range) or 9 and later (the effect's own status), with its status. -/
def Obligations.LastWriteRecord : Prop :=
  (∀ (eff : WriteEffect) (r : Requester) (i u : Nat) (v : OdVal) (s : State) (e : EntryRow), entryAt i u = some e →
    (∀ x y : State, writeLock s i u = stOk → e.rangeOk v = true → eff r i u v s = (x, stOk) →
      y = x.control (wholeUnit 0xE) (entryUnit i) → applyWrite eff r i u v s =
      (((if e.access = .w1 then { y with msv.written1 := odKey i u :: y.msv.written1 } else y).bump 0xE010 0x0F 1).lastWrite
        r i u stOk, stOk)) ∧
    (writeLock s i u = stAccessLocked → applyWrite eff r i u v s =
      (((s.bump 0xE010 0x0E 1).raise 0xE401 (wholeUnit 0xE) (odKey i u) (reqCode r) 0).lastWrite r i u stAccessLocked,
        stAccessLocked)) ∧
    (writeLock s i u = stRange → applyWrite eff r i u v s = (s.lastWrite r i u stRange, stRange)) ∧
    (writeLock s i u = stOk → e.rangeOk v = false → applyWrite eff r i u v s = (s.lastWrite r i u stRange, stRange)) ∧
    (∀ y st, writeLock s i u = stOk → e.rangeOk v = true → eff r i u v s = (y, st) → st ≠ stOk → st ≠ stAccessLocked →
      st ≠ stParked → applyWrite eff r i u v s = (y.lastWrite r i u st, st))) ∧
  (∀ (s : State) (w : DictWrite), s.conflict w =
    ((s.bump 0xE010 0x0D 1).lastWrite w.req w.index w.sub stConflict).answerWrite w stConflict) ∧
  (∀ (s : State) (r : Requester) (i u st : Nat), (s.lastWrite r i u st).stored 0xF030 0 =
    (OdVal.bytes (natBytes 8 s.now ++ natBytes 2 i ++ natBytes 1 u ++ natBytes 1 (reqCode r) ++ natBytes 1 st)).canon)

/-- two or three writes of one entry in one tick (R487).
Where two or three writes in one tick name the same entry, that of the service port goes before that of the management segment and that before the data port's, before any value is checked: the winner goes on to steps 7 to 10 of R493 and each loser is answered CONFLICT, even when the winner is refused, with nothing of it applied: beside the count and LAST_WRITE every entry reads as it did when the loser came from a data port or a command of its own. -/
def Obligations.PrecedenceInATick : Prop :=
  (reqRank .service < reqRank .segment ∧ ∀ t, reqRank .segment < reqRank (.session t)) ∧
  (∀ (s : State) (x y : DictWrite), reqRank x.req < reqRank y.req → odKey x.index x.sub = odKey y.index y.sub → x.at_ < s.now →
    y.at_ < s.now → (s.msv.serial = [x, y] ∨ s.msv.serial = [y, x]) →
    s.takeWrites [0, 1, 2] = ({ s with msv.serial := [] }.applyOne x).conflict y) ∧
  (∀ (s : State) (x y z : DictWrite), reqRank x.req < reqRank y.req → reqRank y.req < reqRank z.req →
    odKey x.index x.sub = odKey y.index y.sub → odKey y.index y.sub = odKey z.index z.sub →
    x.at_ < s.now → y.at_ < s.now → z.at_ < s.now → s.msv.serial.Perm [x, y, z] →
    s.takeWrites [0, 1, 2] = (({ s with msv.serial := [] }.applyOne x).conflict y).conflict z) ∧
  (∀ (s : State) (w : DictWrite), s.conflict w =
    ((s.bump 0xE010 0x0D 1).lastWrite w.req w.index w.sub stConflict).answerWrite w stConflict) ∧
  (∀ (s : State) (w : DictWrite) (i u : Nat), w.frame = none → u < 256 → ¬ (i = 0xE010 ∧ u = 0x0D) → ¬ (i = 0xF030 ∧ u = 0) →
    (s.conflict w).stored i u = s.stored i u)

/-- entries of the key-lock table (R202).
PUT, PUT_IF, DELETE, PUNCH, APPEND and LOCK take 1 entry in the key-lock table and BATCH its element count; no other command takes one. The table has 16,384 entries: a head is not taken in admission where the entries in use and its own pass that number. -/
def Obligations.KeyLockEntries : Prop :=
  (∀ f : Bytes, lockEntries opPut f = 1 ∧ lockEntries opPutIf f = 1 ∧ lockEntries opDelete f = 1 ∧ lockEntries opPunch f = 1 ∧
    lockEntries opAppend f = 1 ∧ lockEntries opLock f = 1 ∧ lockEntries opBatch f = field f 26 2) ∧
  (∀ (op : Nat) (f : Bytes), op ≠ opPut → op ≠ opPutIf → op ≠ opDelete → op ≠ opPunch → op ≠ opAppend → op ≠ opLock →
    op ≠ opBatch → lockEntries op f = 0) ∧
  (∀ (s : State) (d : Desc) (i : Nat), s.judge d = .take i → s.locksInUse + lockEntries d.opcode d.fields ≤ 16384)

/-- GET, HEAD, QUERY and OD_READ change no key (R54, R124, R208).
A GET, HEAD, POWER_STATE QUERY or OD_READ that answers a next state leaves the version counter, the client leases and the key-lock chains as they were, and, where the buffer memory holds no error (R24), the stored keys and the stripes; an OD_READ of PAGE_COPY, which pages a page in (R317) and may meet a lost one (R391), is left out of the last clause. -/
def Obligations.ReadsChangeNoKey : Prop :=
  ∀ (task : Nat) (s t : State), (exec (.get task) s = .next t ∨ exec (.head task) s = .next t ∨ exec (.query task) s = .next t ∨
      exec (.odRead task) s = .next t) →
    t.plc.versionCounter = s.plc.versionCounter ∧ t.cqc.leases = s.cqc.leases ∧ t.cqc.chains = s.cqc.chains ∧
    (s.bfc.faults = [] → (∀ r, s.running task opOdRead = some r → field r.fields 24 2 ≠ 0x5025) →
      t.asu.keys = s.asu.keys ∧ t.plc.stripes = s.plc.stripes)

/-- placing a write changes no key and takes no version (R43, R44, R53, R59).
A step of PUT, PUT_IF, DELETE, PUNCH, APPEND or BATCH, a COMMAND_START that starts no SCAN, a KEY_LOCK_JOIN and a KEY_CHAIN_HEAD that answers a next state leaves the stored keys and the version counter as they were. COMMIT first draws the versions and appends the record of a held write that has none yet, with every page that it needs in the cache, the buffer memory without error, the counter's range and the journal's room given: the version counter goes up by the number of elements that the write changes and no key changes; the commit itself draws no version. -/
def Obligations.NothingCommitsBeforeItsCommit : Prop :=
  (∀ (task : Nat) (s t : State), (exec (.put task) s = .next t ∨ exec (.putIf task) s = .next t ∨ exec (.delete task) s = .next t ∨
      exec (.punch task) s = .next t ∨ exec (.append task) s = .next t ∨ exec (.batch task) s = .next t ∨
      (exec .commandStart s = .next t ∧ ∀ u, s.nextStart = some u → u.opcode ≠ opScan) ∨ exec (.keyLockJoin task) s = .next t ∨ exec (.keyChainHead task) s = .next t) →
    t.asu.keys = s.asu.keys ∧ t.plc.versionCounter = s.plc.versionCounter) ∧
  (∀ (task : Nat) (s : State) (t : Trs), s.trs? task = some t → t.state = .running → s.held t = true → s.bfc.faults = [] →
    s.changeMissing t = none → t.place = none → s.plc.versionCounter + t.changes.length ≤ 2 ^ 64 - 1 →
    s.journalRoom (recordBytes (t.changes.map fun c => c.key.length)) = true → exec (.commit task) s = .next (s.reserve t) ∧
    (s.reserve t).plc.versionCounter = s.plc.versionCounter + t.changes.length ∧ (s.reserve t).asu.keys = s.asu.keys) ∧
  (∀ (s : State) (t : Trs) (place : Nat), (s.commit t place).plc.versionCounter = s.plc.versionCounter)

/-- HOLDER changes from one Warden to the other only through none (R459, R461, R463).
No lease command that answers a next state takes HOLDER from one Warden to the other at once. -/
def Obligations.HolderThroughNone : Prop :=
  ∀ (c : Instr) (s t : State) (v w : Warden), (c ∈ [.leaseRenewal .a, .leaseRenewal .b, .pairMismatch .a, .pairMismatch .b,
      .leaseDrop .a, .leaseDrop .b, .leaseExpiry, .leaseGrant, .resyncStart .a, .resyncStart .b, .resyncComplete,
      .wardenRestartDone .a, .wardenRestartDone .b, .aonClockStop] ∨ (∃ n d o, c = .deliveryNote n d o) ∨
      (∃ x n, c = .gatedOutput x n) ∨ (∃ n, c = .resyncAbandoned n) ∨ c = .standbyLeavesStep ∨ (∃ n, c = .aonClockRestore n)) →
    exec c s = .next t → s.wdn.holder = some v → t.wdn.holder = some w → v = w

/-- What a port does with a frame that arrives whole (R223, R230, R231, R232, R237, R241, R242).
On a port that is up, FEC codewords corrected and lost on the way are counted and a wake is asked for in Doze; then a frame whose destination the port does not accept is counted in 0A and goes no further but to the capture, where that is on; one that its partition has no room for is counted in RX_OVERFLOW; a faulty one in its counter; one past every check is counted with its bytes and, by its kind, kept for its own command or answered. A frame on a port that is down is not received.
Its conclusion for each of these rows is that exec answers a next state, the row's own effect, under conditions on the
state and the operands alone: FRAME_RECEIVE. -/
def Obligations.FrameReceiveEffect : Prop :=
  ∀ (p : Port) (f : RxFrame) (s u : State), f.ok = true → u = ((s.pbump p 0x16 f.fecFixed).pbump p 0x17 f.fecLost).frameWakes →
    ((s.port p).up = false → exec (.frameReceive p f) s = .next s) ∧
    ((s.port p).up = true →
      (u.accepts p f.dstMac = false → exec (.frameReceive p f) s =
        .next (if (u.pbump p 0x0A 1).pflag p 0x1D 0 then (u.pbump p 0x0A 1).capture p f 0x20 else u.pbump p 0x0A 1)) ∧
      (u.accepts p f.dstMac = true → u.rxLimit p (u.rxPriority f) < u.partition p (u.rxPriority f) + f.len →
        exec (.frameReceive p f) s = .next (u.bump (p.base + 0x21) (u.rxPriority f + 1) 1)) ∧
      (u.accepts p f.dstMac = true → u.partition p (u.rxPriority f) + f.len ≤ u.rxLimit p (u.rxPriority f) →
        (∀ ctr flag, u.frameFault p f = some (ctr, flag) → exec (.frameReceive p f) s =
          .next (if (u.pbump p ctr 1).pflag p 0x1C 0 then (u.pbump p ctr 1).capture p f flag else u.pbump p ctr 1)) ∧
        (u.frameFault p f = none → f.secondTag = false → (f.tag.any fun t => t.vid == 4095) = false →
          exec (.frameReceive p f) s = .next (((u.pbump p 0x01 1).pbump p 0x03 f.len).handle p f))))

/-- Pause frames, their expiry and the watchdog (R251, R252, R253).
The oldest waiting pause frame of a port is consumed by PFC_FRAME_RX; PFC_REFRESH repeats a pause while its partition stays above the threshold, at least 32,768 quanta after the last; PAUSE_EXPIRY ends the pause of a queue whose quanta have run out; PAUSE_WATCHDOG ends a pause that has lasted PAUSE_WATCHDOG ms without a break and still runs (all pauses where the port is set to PAUSE), counts and records it and ignores pause frames for as long again; PAUSE_HONOUR_RESUME ends that.
Its conclusion for each of these rows is that exec answers a next state, the row's own effect, under conditions on the
state and the operands alone: PFC_FRAME_RX, PFC_REFRESH, PAUSE_EXPIRY, PAUSE_WATCHDOG, PAUSE_HONOUR_RESUME. -/
def Obligations.PauseCommands : Prop :=
  ∀ (p : Port) (q : Nat) (s : State), q < 8 →
    (∀ b i len, (s.port p).inbox.find? (fun e => FrameBody.isPause e.1) = some (b, i, len) → exec (.pfcFrameRx p) s =
      .next (((s.mapPort p fun x => { x with inbox := x.inbox.eraseP fun e => FrameBody.isPause e.1 }).release p i len).pauseFrame p b)) ∧
    ((s.port p).pauseSent.getD q false = true → s.flowOn p q = true → s.fillHigh p q = true →
      (s.port p).pauseAt.getD q 0 + quantaNs 32768 (rateOf (s.port p).linkState) ≤ s.cqc.cycle →
      exec (.pfcRefresh p q) s = .next (s.sendPause p q 0xFFFF)) ∧
    (∀ t, (s.port p).pausedUntil.getD q none = some t → t ≤ s.cqc.cycle →
      exec (.pauseExpiry p q) s = .next (s.mapPort p fun x =>
        { x with pausedUntil := x.pausedUntil.set q none, pausedSince := x.pausedSince.set q none })) ∧
    (∀ t c, (s.port p).pausedSince.getD q none = some t → t + s.pnum p 0x0E 0 * 1000 ≤ s.now →
      (s.port p).pausedUntil.getD q none = some c → s.cqc.cycle < c →
      (s.pnum p 0x0B 0 ≠ 2 → exec (.pauseWatchdog p q) s = .next (((s.mapPort p fun x =>
        { x with pausedUntil := x.pausedUntil.set q none, pausedSince := x.pausedSince.set q none,
                 ignoreUntil := x.ignoreUntil.set q (some (s.now + s.pnum p 0x0E 0 * 1000)) }).pbump p 0x11 1).raise
          0x1406 p.unit q (s.pnum p 0x0E 0) 0)) ∧
      (s.pnum p 0x0B 0 = 2 → exec (.pauseWatchdog p q) s = .next (((s.mapPort p fun x =>
        { x with pausedUntil := List.replicate 8 none, pausedSince := List.replicate 8 none,
                 ignoreUntil := List.replicate 8 (some (s.now + s.pnum p 0x0E 0 * 1000)) }).pbump p 0x11 1).raise
          0x1406 p.unit 0xFF (s.pnum p 0x0E 0) 0))) ∧
    (∀ t, (s.port p).ignoreUntil.getD q none = some t → t ≤ s.now →
      exec (.pauseHonourResume p q) s = .next (s.mapPort p fun x => { x with ignoreUntil := x.ignoreUntil.set q none }))

/-- A link comes up, fails to train, falls; a partner is seen (R227, R229, R255, R625).
LINK_UP takes the link to the highest mode both sides advertise, records it, announces the addresses and sends an LLDPDU where LLDP is on; LINK_DOWN drops what waits to be sent, counts and records the fall; a third training failure in a row at an advertised mode drops that mode; LINK_PARTNER_DETECT begins negotiation.
Its conclusion for each of these rows is that exec answers a next state, the row's own effect, under conditions on the
state and the operands alone: LINK_UP, LINK_DOWN, TRAINING_FAILURE, LINK_PARTNER_DETECT. -/
def Obligations.LinkCommands : Prop :=
  (∀ (p : Port) (partner : Nat) (s u : State), (s.port p).up = false → s.resolve p partner ≠ 0 →
    (s.port p).partnerSeen = true → s.portRuns p = true →
    u = ((s.mapPort p fun x =>
      { x with linkState := s.resolve p partner, trainMode := 0, trainFails := 0, idleSince := s.now }).raise 0x1001 p.unit
        (s.resolve p partner) 0 0).announceAddresses p →
    exec (.linkUp p partner) s = .next ((if u.pflag p 0x1B 0 then
      (u.sendLldp p).mapPort p fun x => { x with lldpDue := u.now + 30000000 } else u).gateSuspend p)) ∧
  (∀ (p : Port) (s : State), (s.port p).up = true →
    exec (.linkDown p) s = .next (((s.mapPort p fun x =>
      { x with linkState := 0, txq := List.replicate 8 [], bypass := [], lpiTx := false, lpiRx := false }).pbump p 0x18 1).raise
        0x1402 p.unit (s.port p).linkState 0 0)) ∧
  (∀ (p : Port) (mode : Nat) (s : State), mode < 3 → (s.port p).up = false → s.portRuns p = true →
    bit (s.pnum p 0x00 0) mode = true → bit (s.port p).dropped mode = false →
    ((s.port p).trainMode = mode → (s.port p).trainFails = 2 →
      exec (.trainingFailure p mode) s = .next (((s.mapPort p fun x =>
        { x with trainMode := mode, trainFails := 0, dropped := setBit x.dropped mode, linkState := 1 }).pbump p 0x19 3).raise
          0x1403 p.unit (2 ^ mode) 0 0)) ∧
    ((s.port p).trainMode = mode → (s.port p).trainFails < 2 →
      exec (.trainingFailure p mode) s = .next (s.mapPort p fun x =>
        { x with trainMode := mode, trainFails := (s.port p).trainFails + 1 })) ∧
    ((s.port p).trainMode ≠ mode →
      exec (.trainingFailure p mode) s = .next (s.mapPort p fun x => { x with trainMode := mode, trainFails := 1 }))) ∧
  (∀ (p : Port) (s : State), s.portRuns p = true → exec (.linkPartnerDetect p) s = .next (s.mapPort p fun x =>
    { x with partnerSeen := true, linkState := if x.linkState = 0 ∧ s.pnum p 0x00 0 ≠ 0 then 1 else x.linkState }))

/-- Low-power idle and link-layer discovery (R254, R255, R256).
The transmitter asserts low-power idle when it has nothing to send for 2 µs in Ready or in Doze, and leaves it when something waits; the receiver follows the partner; an EEE TLV sets the partner's wake times; an LLDPDU with the module's wake times is sent every 30 s.
Its conclusion for each of these rows is that exec answers a next state, the row's own effect, under conditions on the
state and the operands alone: LPI_ENTRY, LPI_EXIT, LPI_RX_ENTRY, LPI_RX_EXIT, LLDP_RX, LLDP_TIMER. -/
def Obligations.LowPowerIdleCommands : Prop :=
  ∀ (p : Port) (s : State),
    ((s.port p).up = true → s.pflag p 0x18 0 = true → (s.port p).lpiTx = false → (s.port p).idle = true →
      (s.pch.power = .doze ∨ (s.pflag p 0x19 0 = true ∧ (s.port p).idleSince + 2 ≤ s.now)) →
      exec (.lpiEntry p) s = .next ((s.mapPort p fun x => { x with lpiTx := true }).pbump p 0x1A 1)) ∧
    ((s.port p).lpiTx = true → (s.port p).idle = false →
      exec (.lpiExit p) s = .next (s.mapPort p fun x => { x with lpiTx := false, lpiWakeAt := s.now + s.lpiWake p })) ∧
    ((s.port p).up = true → s.pflag p 0x18 0 = true → (s.port p).lpiRx = false →
      exec (.lpiRxEntry p) s = .next ((s.mapPort p fun x => { x with lpiRx := true }).pbump p 0x1B 1)) ∧
    exec (.lpiRxExit p) s = .next (s.mapPort p fun x => { x with lpiRx := false }) ∧
    (∀ rxTw txTw i len u, (s.port p).inbox.find? (fun e => FrameBody.isLldp e.1) = some (.lldp (some (rxTw, txTw)), i, len) →
      u = (s.mapPort p fun x => { x with inbox := x.inbox.eraseP fun e => FrameBody.isLldp e.1 }).release p i len → u.pflag p 0x1B 0 = true →
      exec (.lldpRx p) s = .next (((u.putNum (p.base + 0x1A) 3 rxTw).putNum (p.base + 0x1A) 4 txTw).mapPort p
        fun x => { x with eeeTlvSeen := true })) ∧
    ((s.port p).up = true → s.pflag p 0x1B 0 = true → (s.port p).lldpDue ≤ s.now →
      exec (.lldpTimer p) s = .next ((s.respond p (.lldp (s.pnum p 0x1A 1) (s.pnum p 0x1A 2) (s.pnum p 0x1A 3)
        (s.pnum p 0x1A 4))).mapPort p fun x => { x with lldpDue := s.now + 30000000 }))

/-- The PTP follower clock (R257, R258, R536).
The oldest waiting PTP message in the clock's domain is taken by PTP_MESSAGE_RX; a Delay_Req with the next sequence number is put into the responders' queue when due; three announce intervals without an Announce return the clock to listening. A Follow_Up, Sync or Delay_Resp of a clock that is not the leader changes nothing.
Its conclusion for each of these rows is that exec answers a next state, the row's own effect, under conditions on the
state and the operands alone: PTP_MESSAGE_RX, DELAY_REQ_DUE, PTP_ANNOUNCE_TIMEOUT. -/
def Obligations.PtpCommands : Prop :=
  (∀ (p : Port) (s u : State) (tr dom i len : Nat) (m : PtpMsg),
    (s.port p).inbox.find? (fun e => FrameBody.isPtp e.1) = some (.ptp tr dom m, i, len) →
    u = (s.mapPort p fun x => { x with inbox := x.inbox.eraseP fun e => FrameBody.isPtp e.1 }).release p i len →
    u.isPtpPort p = true → dom = u.num 0x1002 0 → exec (.ptpMessageRx p) s = .next (u.ptpMessage p m)) ∧
  (∀ (p : Port) (s : State), s.ptpPort = some p → 2 ≤ s.dpx.ptp.state → s.dpx.ptp.delayDue ≤ s.now →
    exec .delayReqDue s = .next ({ s with
      dpx.ptp.delaySeq := (s.dpx.ptp.delaySeq + 1) % 65536, dpx.ptp.delaySent := none,
      dpx.ptp.delayDue := s.now + max 1 s.dpx.ptp.delayInterval }.respond p (.delayReq ((s.dpx.ptp.delaySeq + 1) % 65536)))) ∧
  (∀ s : State, 2 ≤ s.dpx.ptp.state → s.dpx.ptp.lastAnnounce + 3 * s.dpx.ptp.intervalUs ≤ s.now →
    exec .ptpAnnounceTimeout s = .next { s with dpx.ptp.state := 1 }) ∧
  (∀ (p : Port) (s : State) (l n rx i r : Nat) (o : Option Int) (x : Int), l ≠ s.dpx.ptp.leader →
    s.ptpMessage p (.sync l n o x) = s ∧ s.ptpMessage p (.followUp l n x) = s ∧ s.ptpMessage p (.delayResp l r n x i) = s)

/-- Gate lists, the end of a capture freeze, a frame sent (R226, R234, R236, R244, R245, R246, R248, R249).
A committed gate list waits for its switch instant and then comes into force; a capture freeze ends 10 s after it began; FRAME_TRANSMIT sends a waiting pause frame first, otherwise the head frame of the queue and start time that the gates give (the highest-numbered queue that may send then), with the octets of its headers and checksums and on the lanes of the active mode, and counts the frame and its bytes; in Doze only a frame that may go out from there is sent.
Its conclusion for each of these rows is that exec answers a next state, the row's own effect, under conditions on the
state and the operands alone: GATE_COMMIT, GATE_SWITCH, CAPTURE_FREEZE_EXPIRY, FRAME_TRANSMIT. -/
def Obligations.GateCaptureTransmit : Prop :=
  (∀ (p : Port) (s : State) (r : Requester) (v : OdVal), s.takesWrite r (p.base + 0x15) 0 v → s.commitOk p = true →
    exec (.gateCommit p r v) s = .next (s.writeAnswered ((s.mapPort p fun x => { x with
      gatePending := some ({ s.adminList p with start := s.switchInstant p (s.adminList p) },
                           s.switchInstant p (s.adminList p)) }).putNum (p.base + 0x15) 0 1) r (p.base + 0x15) 0)) ∧
  (∀ (p : Port) (s : State) (g : GateList) (t : Nat), (s.port p).gatePending = some (g, t) → t ≤ s.nowNs →
    (∀ q e, e ∈ (s.port p).txq.getD q [] → g.holds q e.2 (s.portRate p) = true) →
    ∃ u, exec (.gateSwitch p) s = .next u ∧ (u.port p).oper = g ∧ (u.port p).gatePending = none ∧
      (u.port p).gateState = (if g.enable then 1 else 0)) ∧
  (∀ (p : Port) (s : State) (t : Nat), (s.port p).captureFrozenAt = some t → t + 10000000 ≤ s.now →
    exec (.captureFreezeExpiry p) s =
      .next ((s.putNum (p.base + 0x20) 0 0).mapPort p fun x => { x with captureFrozenAt := none })) ∧
  (∀ (p : Port) (s : State), (s.port p).up = true → (s.port p).lpiTx = false → (s.port p).lpiWakeAt ≤ s.now →
    (∀ f rest, (s.port p).bypass = f :: rest → s.pch.power ≠ .doze → (s.port p).txFreeAt < s.nowNs + 1000 →
      exec (.frameTransmit p) s = .next ((s.mapPort p fun x => { x with bypass := rest }).sendOut p none f 64 (s.freeAt p))) ∧
    (∀ t q f len rest, (s.port p).bypass = [] → s.nextSend p = some (t, q) →
      (s.port p).txq.getD q [] = (f, len) :: rest → (s.pch.power ≠ .doze ∨ f.fromDoze = true) →
      exec (.frameTransmit p) s =
        .next ((s.mapPort p fun x => { x with txq := x.txq.set q rest }).sendOut p (some q) f len t))) ∧
  (∀ (p : Port) (s : State) (q : Option Nat) (c : Carriage) (ident seq len t : Nat) (data : Bytes),
    s.sendOut p q (.echoReply c ident seq data) len t =
      ((((s.mapPort p fun x => { x with idleSince := s.now, txFreeAt := t + frameNs len (rateOf x.linkState) }).pbump p 0x02
        1).pbump p 0x04 len).emit (.frame p q (.echoReply c ident seq data)
          ((s.mapPort p fun x => { x with idleSince := s.now, txFreeAt := t + frameNs len (rateOf x.linkState) }).wire p
            (.echoReply c ident seq data)) (lanesOf (s.port p).linkState)))) ∧
  lanesOf 2 = 0xF ∧ lanesOf 3 = 0x3 ∧ lanesOf 4 = 0x1

/-- A datagram, an acknowledgement and a response fragment (R104, R107, R113, R114, R118, R270).
The oldest datagram of a port is taken by FRAGMENT_RX, or by ACK_ONLY where its ACK_ONLY flag is set, passes the Turnpike to its session's lane, goes through the checks of R114, and its partition is released; ACK_DUE sends the acknowledgement a session owes once its time has come; FRAGMENT_SEND sends the next piece of the session's oldest response with work, where the client's window is open and a nonce is left, with the next sequence number, and keeps it until it is acknowledged.
Its conclusion for each of these rows is that exec answers a next state, the row's own effect, under conditions on the
state and the operands alone: FRAGMENT_RX, ACK_ONLY, ACK_DUE, FRAGMENT_SEND. -/
def Obligations.FragmentCommands : Prop :=
  (∀ (p : Port) (s : State) (d : Datagram) (rest : List Datagram), (s.port p).toWte = d :: rest → s.wteAwake = true →
    (d.frag.has flAckOnly = false → exec (.fragmentRx p) s = .next
      ((((s.mapPort p fun x => { x with toWte := rest }).takeIn p d).fragment p d.frag).release p d.part d.len)) ∧
    (d.frag.has flAckOnly = true → exec (.ackOnly p) s = .next
      ((((s.mapPort p fun x => { x with toWte := rest }).takeIn p d).ackFragment p d.frag).release p d.part d.len))) ∧
  (∀ (id : Nat) (s : State) (x : Session) (t : Nat), s.session? id = some x → s.wteAwake = true → x.ackDue = some t →
    t ≤ s.now → exec (.ackDue id) s = .next (s.sendAck id false)) ∧
  (∀ (id : Nat) (s : State) (x : Session) (m m' : TxMessage) (p : Piece), s.wteAwake = true → s.session? id = some x →
    seqLt x.peerEdge x.txNext = false → x.outgoing.find? (fun m => m.hasWork) = some m →
    m.next (s.txLimit x m.resp.cls) (x.ipHead + 48 + x.encLen) = some (p, m') →
    (x.sealed = true → (x.nextNonce).isSome = true) →
    ∃ f u, (s.bufferRead (.outbound id x.txNext)).2.dispatch x (x.fragment m p x.txNext) (m.resp.valueOf p) = some (f, u) ∧
      exec (.fragmentSend id) s = .next (u.mapSession id fun y => { y with
        txNext := seqAdd y.txNext 1, outgoing := y.outgoing.map fun n => if n = m then m' else n,
        unacked := y.unacked ++ [{ frag := { f with timed := none }, firstSent := u.cqc.cycle, retries := 0, resent := false,
                                   fastAt := none }],
        rtoFrom := if y.unacked.isEmpty then some u.cqc.cycle else some (y.rtoFrom.getD u.cqc.cycle) }))

/-- The retransmission timer of a session (R108, R110, R111, R112).
When the timer of a session has run out outside Doze and a Doze entry, the oldest unacknowledged fragment is sent again, the timer doubles up to 50 ms and starts anew, and the retransmission is counted; with none unacknowledged, a session that waits for the rest of a request or for the client's window sends a probe; after eight retries the session ends.
Its conclusion for each of these rows is that exec answers a next state, the row's own effect, under conditions on the
state and the operands alone: RTO_EXPIRY. -/
def Obligations.RtoExpiryEffect : Prop :=
  ∀ (id t0 : Nat) (s : State) (x : Session), s.wteAwake = true → s.session? id = some x →
    x.rtoFrom = some t0 → t0 + x.rto ≤ s.cqc.cycle →
    (∀ u rest, x.unacked = u :: rest → x.retries < 8 → exec (.rtoExpiry id) s = .next (((s.mapSession id fun y =>
      { y with retries := y.retries + 1, rto := min 50000000 (2 * y.rto), rtoFrom := some s.cqc.cycle }).resend id u.frag.seq
        fun w => { w with retries := w.retries + 1 }).bump 0x2012 0x03 1)) ∧
    (x.unacked = [] → (x.probing = true ∨ x.stuck = true) → x.retries < 8 → exec (.rtoExpiry id) s = .next ((s.mapSession id fun y =>
      { y with retries := y.retries + 1, rto := min 50000000 (2 * y.rto), rtoFrom := some s.cqc.cycle }).sendAck id true)) ∧
    ((x.unacked ≠ [] ∨ x.probing = true ∨ x.stuck = true) → 8 ≤ x.retries → exec (.rtoExpiry id) s = .next (s.sessionDies x false))

/-- What ends with time in transport (R125, R130, R138, R142, R143, R144).
A session idle for SESSION_IDLE_LIMIT dies; a half-open one ends after 100 ms; a previous nonce epoch is dropped when its grace has passed; a replay entry is dropped 30 s after its posting; an ended session's id is free again when its rest is over, and its cache goes after 30 s unless a successor that is being opened, or a command of it that still runs, has yet to inherit it.
Its conclusion for each of these rows is that exec answers a next state, the row's own effect, under conditions on the
state and the operands alone: SESSION_IDLE_EXPIRY, HALF_OPEN_EXPIRY, EPOCH_GRACE_EXPIRY, REPLAY_ENTRY_EXPIRY, SESSION_ID_RELEASE. -/
def Obligations.SessionTimers : Prop :=
  (∀ (id : Nat) (s : State) (x : Session), s.session? id = some x → x.half = false →
    x.lastAuth + s.num 0x2001 0 * 1000 ≤ s.now → exec (.sessionIdleExpiry id) s = .next (s.sessionDies x true)) ∧
  (∀ (id t : Nat) (s : State) (x : Session), s.session? id = some x → x.phase = .halfOpen t → t + 100000 ≤ s.now →
    s.confirming id = false → exec (.halfOpenExpiry id) s = .next (s.endSession id)) ∧
  (∀ (id : Nat) (s : State), exec (.epochGraceExpiry id) s =
    .next (s.mapSession id fun x => { x with prevEpoch := x.prevEpoch.filter fun e => decide (s.now ≤ e.2.2.2) })) ∧
  (∀ (id req : Nat) (s : State), ∃ t, exec (.replayEntryExpiry id req) s = .next t ∧
    (∀ x ∈ t.wte.sessions, x.id = id → ∀ e ∈ x.replay, e.reqId = req → s.now < e.postedAt + 30000000) ∧
    (∀ k ∈ t.wte.kept, k.session = id → ∀ e ∈ k.entries, e.reqId = req → s.now < e.postedAt + 30000000) ∧
    { t with wte := s.wte } = s) ∧
  (∀ (id : Nat) (s : State), exec (.sessionIdRelease id) s = .next { s with
    wte.resting := s.wte.resting.filter fun e => !(e.1 == id && decide (e.2 ≤ s.now)),
    wte.kept := s.wte.kept.filter fun k => !(k.session == id && decide (k.endedAt + 30000000 ≤ s.now) &&
      !s.inherited k) })

/-- Opening, confirming and closing a session (R127, R128, R131, R132, R141, R176, R187).
The oldest SESSION_OPEN past its checks, for a tenant with a loaded key page and with room, becomes a job of the public-key engine; with the session limits reached it is refused with RETRY_LATER, so too in a drain or a pending Hold; a repeated one gets the first response again. A SESSION_CONFIRM with the right Mc for a half-open session becomes a job likewise; one with a wrong Mc is refused with AUTH_FAILED and ends the half-open session; one for no half-open session is refused with NO_SESSION. SESSION_CLOSE is answered OK.
Its conclusion for each of these rows is that exec answers a next state, the row's own effect, under conditions on the
state and the operands alone: SESSION_OPEN, SESSION_CONFIRM, SESSION_CLOSE. -/
def Obligations.SessionHandshake : Prop :=
  (∀ (s t : State) (h : Handshake) (i : Nat), s.gap = false → s.wte.handshakes.findIdx? (fun h => h.frag.opcode == opOpen) = some i →
    s.wte.handshakes[i]? = some h → t = { s with wte.handshakes := s.wte.handshakes.eraseIdx i } →
    (∀ x o, t.repeated h = some x → x.opening = some o → exec .sessionOpen s = .next (t.sendReply x.port o.reply x.carriage)) ∧
    (t.repeated h = none → t.openPending h = false → h.openBad = none →
      (t.sessionsFull = false → t.queueClosed = false → (t.keyPage (field h.fields 24 2)).state = 2 →
        exec .sessionOpen s = .next (t.queueJob (.handshakeOpen h))) ∧
      (t.sessionsFull = false → t.queueClosed = true → exec .sessionOpen s = .next (t.refuse h stRetryLater 0 t.drainWait)) ∧
      (t.sessionsFull = true → exec .sessionOpen s = .next (t.refuse h stRetryLater 0 0)))) ∧
  (∀ (s t : State) (h : Handshake) (i : Nat), s.gap = false →
    s.wte.handshakes.findIdx? (fun h => h.frag.opcode == opConfirm) = some i →
    s.wte.handshakes[i]? = some h → t = { s with wte.handshakes := s.wte.handshakes.eraseIdx i } → h.confirmBad = none →
    ((t.session? h.frag.session).filter Session.half = none → exec .sessionConfirm s = .next (t.refuse h stNoSession 0 0)) ∧
    (∀ x, t.session? h.frag.session = some x → x.half = true → t.confirming x.id = false → t.queueClosed = false →
      ((t.macBlocks x.id x.tenant 15).mcOk x h = true →
        exec .sessionConfirm s = .next ((t.macBlocks x.id x.tenant 15).queueJob (.handshakeConfirm h))) ∧
      ((t.macBlocks x.id x.tenant 15).mcOk x h = false →
        exec .sessionConfirm s = .next (((t.macBlocks x.id x.tenant 15).refuse h stAuthFailed 0 0).endSession x.id)))) ∧
  (∀ (task : Nat) (s : State) (t : Trs), s.running task opClose = some t →
    exec (.sessionClose task) s = .next (s.finish task stOk 0 [] []))

/-- GET and HEAD of a running task (R24, R49, R54, R157, R159).
A GET of a key that the index lookup finds, whose map pages are in the cache, whose value is not LOST and whose offset lies within it, while the buffer memory holds no error, ends with OK, the key's version and length, the offset and the bytes asked for; an offset beyond the value's end answers RANGE; a map page not in the cache is asked for; a key that is not stored answers NOT_FOUND. A HEAD of a key that the lookup finds ends with OK, version, length and the state of its lease; of one not stored with NOT_FOUND.
Its conclusion for each of these rows is that exec answers a next state, the row's own effect, under conditions on the
state and the operands alone: GET, HEAD. -/
def Obligations.ReadOperations : Prop :=
  (∀ (task : Nat) (s u : State) (t : Trs) (k : KeyRec), s.running task opGet = some t → (s.find t).1.stored = some k →
    u = (s.find t).2 → u.bfc.faults = [] → u.key? k.tenant k.key = some k →
    ((∀ n ∈ k.mapPages, u.pageReady n = true) →
      (field t.fields 32 8 ≤ k.length → k.lost = false → ∃ v : State, exec (.get task) s = .next (v.finish t.idx stOk 0
        (natBytes 8 k.version ++ natBytes 8 k.length ++ natBytes 8 (field t.fields 32 8))
        (slice k.value (field t.fields 32 8)
          (readEnd k.length (field t.fields 32 8) (field t.fields 40 8) - field t.fields 32 8)))) ∧
      (k.length < field t.fields 32 8 → exec (.get task) s = .next (u.fail t.idx stRange k.length))) ∧
    (∀ n, (k.mapPages.find? fun n => !u.pageReady n) = some n →
      exec (.get task) s = .next ((u.wantPage n).fromTile task))) ∧
  (∀ (task : Nat) (s : State) (t : Trs), s.running task opGet = some t → (s.find t).1 = .absent →
    exec (.get task) s = .next ((s.find t).2.fail task stNotFound 0)) ∧
  (∀ (task : Nat) (s : State) (t : Trs) (k : KeyRec), s.running task opHead = some t → (s.find t).1.stored = some k →
    exec (.head task) s = .next ((s.find t).2.finish task stOk 0
      (natBytes 8 k.version ++ natBytes 8 k.length ++ natBytes 1 ((s.find t).2.leaseState t k.key) ++ zeros 7) [])) ∧
  (∀ (task : Nat) (s : State) (t : Trs), s.running task opHead = some t → (s.find t).1 = .absent →
    exec (.head task) s = .next ((s.find t).2.fail task stNotFound 0))

/-- The write operations of a running task (R48, R51, R52, R160, R161, R163, R373, R379, R380, R413).
A running PUT, PUT_IF, DELETE, PUNCH, APPEND or BATCH that heads its chains waits for its data; with all its data, and (a BATCH apart) no LOST value in its way, it makes its changes, one for each element: key, operation, the data of the element, its offset and length. Each change's bytes are placed; the task then holds the changes, the places and the stripes, and is parked for room while a change has no place. A write whose changes bring no bytes (a DELETE, a PUNCH, an empty value, a BATCH of such) is placed at once with nothing else changed; a single change of 1 to 65,536 bytes, not FAST, goes to the open packed stripe of its tenant where it fits. PUNCH and APPEND on a LOST part answer MEDIA_ERROR. What its commit stores is stated by CommitPointEffect.
Its conclusion for each of these rows is that exec answers a next state, the row's own effect, under conditions on the
state and the operands alone: PUT, PUT_IF, DELETE, PUNCH, APPEND, BATCH. -/
def Obligations.WriteOperations : Prop :=
  ∀ (task op : Nat) (c : Instr) (s : State) (t : Trs), (c, op) ∈ [(Instr.put task, opPut), (.putIf task, opPutIf),
      (.delete task, opDelete), (.punch task, opPunch), (.append task, opAppend), (.batch task, opBatch)] →
    s.running task op = some t →
    (t.headed = true → t.data = none → exec c s = .next s) ∧
    (∀ b : Bytes, t.headed = true → t.data = some b →
      (t.changes = [] → op ≠ opBatch → (s.wanted t).any (s.mediaBad t.tenant) = true →
        exec c s = .next (s.fail t.idx stMediaError 0)) ∧
      ((op = opBatch ∨ (s.wanted t).any (s.mediaBad t.tenant) = false) → ∀ (start : Nat) (l : List Change) (p : List Change × State),
        start = (if op = opBatch then tableSize (field t.fields 26 2) b else 0) →
        l = (if t.changes = [] then s.changesOf t b 0 start (s.wanted t) else t.changes) →
        p = s.placeChanges t (s.leadBytes t - start) l →
        (∀ u v : State,
          u = (if (l.any fun c => c.overflow) = false ∧ (p.1.any fun c => c.overflow) = true
            then (p.2.bump 0x9060 0x0D 1).raise 0x9401 (wholeUnit 9) t.tenant 0 0 else p.2) →
          v = (if (p.1.any fun c => !c.placed && !u.needsRepack c) = true ∧ t.parked = false then u.bump 0x8010 0x03 1 else u) →
          exec c s = .next (v.mapTrs t.idx fun x => { x with
            changes := p.1, stripes := extentStripes (p.1.flatMap fun c => c.extents),
            parked := p.1.any fun c => !c.placed && !u.needsRepack c })) ∧
        (t.changes = [] → (l.all fun c => c.payload.isEmpty) = true →
          exec c s = .next (s.mapTrs t.idx fun x => { x with changes := l, stripes := [], parked := false })) ∧
        (∀ (ch : Change) (q : Stripe), t.changes = [] → op ≠ opBatch → l = [ch] → ch.fast = false → s.needsRepack ch = false →
          0 < ch.payload.length → ch.payload.length ≤ 65536 → s.openPacked ch.tenant false = some q → q.id ≠ 0 →
          roundUp q.filled 16 + ch.payload.length ≤ stripeBytes → ∀ (e : Extent) (u : State),
          e = { stripe := q.id, off := roundUp q.filled 16, len := ch.payload.length } →
          u = s.mapStripe q.id (fun r => { r with
            filled := roundUp q.filled 16 + ch.payload.length, cls := if r.cls ≤ t.cls then r.cls else t.cls }) →
          exec c s = .next ((u.encryptValue t 0 0 ch.payload.length (s.leadBytes t)).mapTrs t.idx fun x => { x with
            changes := [{ ch with extents := [e] }], stripes := [q.id], parked := false }))))

/-- LOCK, UNLOCK and FLUSH of a running task (R73, R79, R81, R170, R171, R211).
A LOCK past its checks grants a client lease that ends the given time after its admission; an UNLOCK of a key leased by its own session gives the lease up, of one leased by another session answers LOCKED, of one not leased NOT_FOUND; a FLUSH waits for the stripes of the writes it covers that are not on the medium.
Its conclusion for each of these rows is that exec answers a next state, the row's own effect, under conditions on the
state and the operands alone: LOCK, UNLOCK, FLUSH. -/
def Obligations.LeaseAndFlushOperations : Prop :=
  (∀ (task : Nat) (s : State) (t : Trs), s.running task opLock = some t → t.headed = true →
    exec (.lock task) s = .next ((s.grantLease t (keyOf opLock t.fields) (leaseMs (field t.fields 32 4))).finish task stOk 0
      (natBytes 8 (t.admitDev + leaseMs (field t.fields 32 4) * 1000) ++ natBytes 4 (leaseMs (field t.fields 32 4)) ++ zeros 4) [])) ∧
  (∀ (task : Nat) (s : State) (t : Trs), s.running task opUnlock = some t →
    (∀ l, s.foreignLease t.tenant (keyOf opUnlock t.fields) t.session t.admitDev = some l →
      exec (.unlock task) s = .next (s.fail task stLocked (l.endsAt - s.now))) ∧
    (s.foreignLease t.tenant (keyOf opUnlock t.fields) t.session t.admitDev = none →
      s.ownLease t.tenant (keyOf opUnlock t.fields) t.session t.admitDev = none →
      exec (.unlock task) s = .next (s.fail task stNotFound 0)) ∧
    (∀ l, s.foreignLease t.tenant (keyOf opUnlock t.fields) t.session t.admitDev = none →
      s.ownLease t.tenant (keyOf opUnlock t.fields) t.session t.admitDev = some l →
      exec (.unlock task) s = .next ({ s with cqc.leases := s.cqc.leases.filter fun x =>
        !(x.tenant == t.tenant && x.key == keyOf opUnlock t.fields && x.session == t.session) }.finish task stOk 0 [] []))) ∧
  (∀ (task : Nat) (s : State) (t : Trs), s.running task opFlush = some t → t.atOnce = false →
    exec (.flush task) s = .next ((s.sealThese (t.covered.filter fun id => !s.onMedium id)).mapTrs task fun u =>
      { u with state := .flushWait, covered := t.covered.filter fun id => !s.onMedium id }))

/-- QUEUE_RESET, SANITIZE, FORMAT and POWER_STATE (R179, R181, R182, R183, R184, R185, R186, R187, R188, R189, R214, R216).
Of a running POWER_STATE command, QUERY keeps the policy, STAY_READY takes the policy STAY_READY, AUTO returns to AUTO, DOZE_NOW takes DOZE_NOW unless a Hold is pending; each answers OK with the state and policy. PREPARE_HOLD, with no drain begun, starts one. A running QUEUE_RESET answers what it has stopped with ABORTED, TRS by TRS, and, when those answers are posted (at once where it has stopped nothing), ends with OK and its two counts. A running SANITIZE of each mode stops the commands that have not started, and, once no started command runs that it must wait for and the journal has room, begins its long operation and ends with OK and its mode. A FORMAT whose started commands have ended detaches the tenants of its scope and ends with OK.
Its conclusion for each of these rows is that exec answers a next state, the row's own effect, under conditions on the
state and the operands alone: QUERY, STAY_READY, AUTO, DOZE_NOW, PREPARE_HOLD, QUEUE_RESET, SANITIZE_CRYPTO, SANITIZE_BLOCK_ERASE, SANITIZE_OVERWRITE, FORMAT. -/
def Obligations.AdministrativeOperations : Prop :=
  (∀ (task : Nat) (s : State) (t : Trs),
    (s.powerTask task 0 = some t → exec (.query task) s = .next (s.setPolicy task s.cqc.policy)) ∧
    (s.powerTask task 1 = some t → exec (.stayReady task) s = .next (s.setPolicy task 1)) ∧
    (s.powerTask task 2 = some t → exec (.auto task) s = .next (s.setPolicy task 0)) ∧
    (s.powerTask task 3 = some t → s.cqc.policy ≠ 3 → exec (.dozeNow task) s = .next (s.setPolicy task 2)) ∧
    (s.powerTask task 3 = some t → s.cqc.policy = 3 → exec (.dozeNow task) s = .next (s.setPolicy task 3)) ∧
    (s.powerTask task 4 = some t → s.cqc.drain = none → exec (.prepareHold task) s =
      .next ({ s with cqc.policyBefore := s.cqc.policy }.startDrain (.prepareHold task)))) ∧
  (∀ (task : Nat) (s : State) (t : Trs), s.running task opQueueReset = some t →
    (∀ u v : State, s.abortTasks ((s.cqc.trs.filter fun u => u.abortedBy == some t.idx).mergeSort fun a b => decide (a.idx ≤ b.idx)) =
        (true, u) → u.abortDescs (u.cqc.aborting.filter fun e => e.1 == t.idx) = (true, v) →
      exec (.queueReset task) s = .next (v.pruneOlder.releaseHeld.finish t.idx stOk 0 t.respFields [])) ∧
    ((∀ u ∈ s.cqc.trs, u.abortedBy ≠ some t.idx) → (∀ e ∈ s.cqc.aborting, e.1 ≠ t.idx) →
      exec (.queueReset task) s = .next (s.pruneOlder.releaseHeld.finish t.idx stOk 0 t.respFields []))) ∧
  (∀ (task mode : Nat) (c : Instr) (s u : State) (t : Trs), (c, mode) ∈ [(Instr.sanitizeCrypto task, 1),
      (.sanitizeBlockErase task, 2), (.sanitizeOverwrite task, 3)] →
    s.trs? task = some t → t.opcode = opSanitize → t.result = false → t.state = .running → t.abortedBy = none →
    field t.fields 24 1 = mode → u = (if t.parked then s.stopUnstarted t else (s.stopUnstarted t).startSanitize t) →
    u.noneStarted task (fun v => sanitizeRefuses v.opcode v.fields) = true → u.journalRoom 64 = true →
    ∃ v : State, exec c s = .next (v.finish t.idx stOk 0 (natBytes 1 mode ++ zeros 7) []) ∧
      exec c s = .next (u.runSanitize t)) ∧
  (∀ (task : Nat) (s : State) (t : Trs) (f : Nat × List Nat), s.running task opFormat = some t →
    s.plc.formats.find? (fun f => f.1 == task) = some f → s.noneStarted task (fun u => f.2.contains u.tenant) = true →
    ∃ u : State, exec (.format task) s = .next (u.finish t.idx stOk 0 [] []) ∧ exec (.format task) s = .next (s.runFormat t f.2))

/-- SCAN, SCAN_STEP and IMAGE_MEMORY_ERROR (R70, R167, R274, R326, R327, R328, R329, R331).
The first page request of a SCAN whose tenant has its keys checks its image: with a fault it answers BAD_REQUEST, where its prefix is not admitted AUTH_FAILED, without a free cursor RETRY_LATER; else its cursor takes image and class and its page starts. A later request goes on with the cursor; one whose cursor is gone answers BAD_REQUEST at offset 32. A step of a page that has an engine reads the index through the buffer memory and walks. An image memory error of an engine in service is counted and recorded, the image is loaded again and the current key run again, and the engine is isolated.
Its conclusion for each of these rows is that exec answers a next state, the row's own effect, under conditions on the
state and the operands alone: SCAN, SCAN_STEP, IMAGE_MEMORY_ERROR. -/
def Obligations.ScanCommands : Prop :=
  (∀ (task : Nat) (s : State) (t : Trs), s.classifyingScan task = some t → s.tenantReady t.tenant = true →
    (∀ b u v w, field t.fields 32 8 = 0 → t.data = some b → u = s.classifyScan t.tenant (imgPrefix b) t.task →
      v = (u.2.mapTrs t.idx fun x => { x with classes := [u.1] }) →
      w = { v with pae.cursors := v.pae.cursors.map fun (k : Cursor) =>
        if k.id = t.cursor then { k with image := b, cls := u.1.cls } else k } →
      (∀ o, imageFault b = some o → exec (.scan task) s = 
        .next ((s.refuseScan t stBadRequest (errorFields subImage 0xFFFF (inData o))).traceStart t)) ∧
      (imageFault b = none → u.1.admitted = false → exec (.scan task) s =
        .next ((v.refuseScan t stAuthFailed (plainError 0)).traceStart t)) ∧
      (imageFault b = none → u.1.admitted = true → t.cursor = 0 → exec (.scan task) s =
        .next ((v.refuseScan t stRetryLater (plainError 0)).traceStart t)) ∧
      (∀ k, imageFault b = none → u.1.admitted = true → t.cursor ≠ 0 →
        w.pae.cursors.find? (fun k => k.id == t.cursor) = some k → exec (.scan task) s = .next ((w.startPage t k).traceStart t))) ∧
    (∀ k, field t.fields 32 8 ≠ 0 → s.pae.cursors.find? (fun k => k.id == t.cursor) = some k →
      exec (.scan task) s = .next ((s.startPage t k).traceStart t)) ∧
    (field t.fields 32 8 ≠ 0 → s.pae.cursors.find? (fun k => k.id == t.cursor) = none →
      exec (.scan task) s = 
        .next ((s.finish task stBadRequest 0 (errorFields subCursor 0xFFFF 32) []).traceStart t))) ∧
  (∀ (task : Nat) (s : State) (t : Trs) (r : ScanRun) (n : Nat), s.running task opScan = some t → s.run? task = some r →
    r.done = false → r.engine = some n → exec (.scanStep task) s =
      .next (((s.indexRead t).transfer (asuLane t.idx) (engineLane n) t.cls false t.task 640).walkStep t r)) ∧
  (∀ (engine address : Nat) (s : State) (e : Engine), s.pae.engines[engine]? = some e → engine < 8 → e.inService = true →
    exec (.imageMemoryError engine address) s = .next
      ((((s.bump 0x6010 0x09 1).raise 0x6801 (engineUnit engine).word address 0 0).reloadImage engine).isolate
        (engineUnit engine) 1))

/-- OD_READ, OD_WRITE, the tick and the module-wide entries (R172, R173, R486, R489, R493, R494, R497, R498).
An OD_READ of an entry that exists, that the tenant may read and that is served answers OK with the entry's size, the offset and the window of its bytes, an offset past its end RANGE; an entry that does not exist, or that the tenant may not read, answers NOT_FOUND, one not served RETRY_LATER. An OD_WRITE whose entry exists, may be written by the tenant with that value, has the length of its type and is served waits, behind the writes that came before, for a tick after it; the tick that takes it stores its value in a plain entry, counts and traces it as the last write and answers OK with the device time. While the dictionary's clock runs every tick takes one write of each requester that waits or the next held one, and advances device time by 1 µs. A write of CONFIG_LOCK or RESTORE_DEFAULTS that is taken has the effect of its entry.
Its conclusion for each of these rows is that exec answers a next state, the row's own effect, under conditions on the
state and the operands alone: OD_READ, OD_WRITE, DICT_TICK, CONFIG_LOCK, RESTORE_DEFAULTS. -/
def Obligations.DictionaryCommands : Prop :=
  (∀ (task : Nat) (s : State) (t : Trs) (i sub off n : Nat), s.running task opOdRead = some t →
    i = field t.fields 24 2 → sub = field t.fields 26 1 → off = field t.fields 28 4 →
    n = (if field t.fields 32 4 = 0 then 1048576 else field t.fields 32 4) →
    (entryAt i sub = none → exec (.odRead task) s = .next (s.fail task stNotFound 0)) ∧
    (∀ e, entryAt i sub = some e →
      (mayRead (.session t.tenant) i = false → exec (.odRead task) s = .next (s.fail task stNotFound 0)) ∧
      (mayRead (.session t.tenant) i = true → s.serves i = false → exec (.odRead task) s = .next (s.fail task stRetryLater 0)) ∧
      (mayRead (.session t.tenant) i = true → s.serves i = true →
        (e.type.size < off → exec (.odRead task) s = .next (s.fail task stRange 0)) ∧
        (off ≤ e.type.size → exec (.odRead task) s = .next ((s.readEffect i sub off n).finish task stOk 0
          (natBytes 4 e.type.size ++ natBytes 4 off) (s.readWindow e i sub off n)) ∧
          (i ≠ 0xE209 → i ≠ 0x5025 → s.readEffect i sub off n = s))))) ∧
  (∀ (task i sub : Nat) (s : State) (t : Trs) (b : Bytes) (e : EntryRow) (v : OdVal), s.running task opOdWrite = some t →
    t.data = some b → t.parked = false → s.odWriteBefore t = false → i = field t.fields 24 2 → sub = field t.fields 26 1 →
    entryAt i sub = some e → v = (e.type.read b).getD (.num 1) → mayRead (.session t.tenant) i = true → e.access ≠ .ro →
    mayWrite (.session t.tenant) i sub v = true →
    (if e.type.isBytes then 1 ≤ b.length ∧ b.length ≤ e.type.size else b.length = e.type.size) → s.serves i = true →
    (i = 0xD010 → s.serves 0x1000 = true) →
    exec (.odWrite task) s = .next { s.mapTrs task fun u => { u with parked := true } with
      msv.serial := s.msv.serial ++ [{ req := .session t.tenant, index := i, sub := sub, val := v, at_ := s.now,
                                       task := some t.task, frame := none }] }) ∧
  (∀ (s u v : State) (w : DictWrite) (e : EntryRow) (t : Trs) (k n : Nat), s.aonOn = true → s.wdn.clockStopped = false →
    s.writesHeld = false → s.msv.held = [] → s.asu.waiting = [] → s.msv.serial = [w] → w.at_ < s.now → w.task = some k →
    entryAt w.index w.sub = some e → e.access = .rw → s.keyHeld w.index w.sub = false → w.index ≠ 0x7400 → w.index ≠ 0x7020 →
    w.val = .num n → e.rangeOk w.val = true → effectOf w.task w.index w.sub = plainEffect →
    s.trs? (k % 65536) = some t → t.task = k → t.result = false →
    u = ((({ s with msv.serial := [] }.putNum w.index w.sub (n &&& liveBits w.index)).control (wholeUnit 0xE)
      (entryUnit w.index)).bump 0xE010 0x0F 1).lastWrite w.req w.index w.sub stOk →
    v = u.finish t.idx stOk 0 (natBytes 8 s.now) [] →
    exec .dictTick s = .next
      (if v.coreRuns then v.reevaluateStep.passTick.readyActive else v.passTick.dozeTick).pollSegment) ∧
  (∀ (s u v : State), s.aonOn = true → s.wdn.clockStopped = false →
    (s.writesHeld = true → u = { s with
      msv.held := s.msv.serial.foldl (fun l w => insertHeld w l) s.msv.held, msv.serial := [] }) →
    (s.writesHeld = false → ∀ w rest, s.msv.held = w :: rest → u = { s with msv.held := rest }.applyOne w) →
    (s.writesHeld = false → s.msv.held = [] →
      u = s.takeWrites ([0, 1, 2].filter fun r => s.parkedTurn.all fun w => reqRank w.req != r)) →
    v = (match s.parkedTurn with
      | some w => u.takeParked w
      | none => u) →
    exec .dictTick s = .next
      (if v.coreRuns then v.reevaluateStep.passTick.readyActive else v.passTick.dozeTick).pollSegment) ∧
  (∀ s : State, s.passTick.pch.devTime = s.pch.devTime + 1) ∧
  (∀ (r : Requester) (n : Nat) (s : State), s.takesWrite r 0xF020 0 (.num n) →
    exec (.configLock r (.num n)) s = .next (s.writeAnswered (s.putNum 0xF020 0 (n &&& liveBits 0xF020)) r 0xF020 0)) ∧
  (∀ (r : Requester) (n : Nat) (s : State), s.takesWrite r 0xF021 0 (.num n) → s.flag 0xF020 0 = false → n ≤ 1 →
    exec (.restoreDefaults r (.num n)) s = .next (s.writeAnswered (s.put 0xF021 0 (.num n)) r 0xF021 0))

/-- ADMIT, COMMAND_START and the key-lock chains (R194, R195, R200, R204, R205, R206, R225, R274).
While the core clock runs an admission of an awake module tries the lanes in the order of the cycle, counts a cycle in which both halves had an admissible head, and takes one cycle; in a module not awake only the cycle passes; while the clock stands nothing does. COMMAND_START starts the next waiting command: it goes over the Turnpike to the lane that serves it, and a key command is classified by its key. A classified command joins the chains of all its keys in one step, in the order in which the commands became ready, and runs at once where it heads them all, else it waits and is counted. A joined command that heads all its chains is checked there: a LOCK by the lease limits, a write by its keys and quota.
Its conclusion for each of these rows is that exec answers a next state, the row's own effect, under conditions on the
state and the operands alone: ADMIT, COMMAND_START, KEY_LOCK_JOIN, KEY_CHAIN_HEAD. -/
def Obligations.AdmissionAndStart : Prop :=
  (∀ s : State, s.cycleRuns = false → exec .admission s = .next s) ∧
  (∀ s : State, s.cycleRuns = true → s.wteAwake = false → exec .admission s = .next { s with cqc.cycle := s.cqc.cycle + 1 }) ∧
  (∀ (s t : State), s.cycleRuns = true → s.wteAwake = true →
    ([0, 1, 2, 3].any s.laneReady && [4, 5, 6, 7].any s.laneReady) = false →
    t = (s.tryLanes (laneOrder s.cqc.cycle)).readyActive → exec .admission s = .next { t with cqc.cycle := t.cqc.cycle + 1 }) ∧
  (∀ (s t : State), s.cycleRuns = true → s.wteAwake = true → [0, 1, 2, 3].any s.laneReady = true →
    [4, 5, 6, 7].any s.laneReady = true →
    t = ((s.bump 0x3010 0x06 1).tryLanes (laneOrder (s.bump 0x3010 0x06 1).cqc.cycle)).readyActive →
    exec .admission s = .next { t with cqc.cycle := t.cqc.cycle + 1 }) ∧
  (∀ (s u : State) (t : Trs), s.nextStart = some t →
    u = ((s.mapTrs t.idx fun x => { x with
        started := true, state := if classifiedOpcode x.opcode then .classifying else .running,
        covered := if x.opcode = opFlush ∧ x.ordered then s.coveredNow x.session else x.covered }).transfer cqcLane t.startLane
      t.admitCls true t.task (24 + t.fields.length)) →
    (keyOpcode t.opcode = true → u.formatting t.tenant = false →
      exec .commandStart s = .next ((u.classifyTask t [keyOf t.opcode t.fields]).traceStart t)) ∧
    (t.opcode = opBatch → u.formatting t.tenant = false → exec .commandStart s = .next ((u.classifyBatch t).traceStart t)) ∧
    (keyOpcode t.opcode = false → t.opcode ≠ opBatch → t.opcode ≠ opScan → exec .commandStart s = .next (u.traceStart t)) ∧
    (classifiedOpcode t.opcode = true → u.formatting t.tenant = true → exec .commandStart s =
      .next (((u.mapTrs t.idx fun x => { x with late := true }).refuseTenant t).traceStart t))) ∧
  (∀ (task : Nat) (s : State) (t : Trs), s.trs? task = some t → t.state = .classifying → t.joined = false →
    lockEntries t.opcode t.fields ≠ 0 → t.keys ≠ [] →
    (s.readyBefore t = true → exec (.keyLockJoin task) s = .next s) ∧
    (s.readyBefore t = false →
      ∀ u : State, u = { s with cqc.chains := t.prints.foldl (fun l p => joinChain task t.tenant p l) s.cqc.chains } →
      (u.headsAll task = true → exec (.keyLockJoin task) s =
        .next (u.mapTrs task fun x => { x with joined := true, state := .running })) ∧
      (u.headsAll task = false → exec (.keyLockJoin task) s =
        .next ((u.mapTrs task fun x => { x with joined := true, state := .keyWait }).bump 0x3010 0x05 1)))) ∧
  (∀ (task : Nat) (s : State) (t : Trs), s.trs? task = some t → t.joined = true → t.headed = false → t.result = false →
    s.headsAll task = true →
    (t.opcode = opLock → exec (.keyChainHead task) s = .next ((s.mapTrs task fun u => { u with state := .running }).headLock t)) ∧
    (t.opcode ≠ opLock → exec (.keyChainHead task) s =
      .next ((s.mapTrs task fun u => { u with state := .running }).headWrite t)))

/-- COMMIT (R44, R48, R51, R53, R64, R292, R375, R392, R393, R395).
A running write whose stripes are held commits: it reads the pages it changes; where one is not at hand it asks for it; where the version counter cannot take its elements the module enters Charcoal; where the journal ring has no room it waits and is counted once; else it takes as many consecutive versions as it has elements, from the version counter on, and its place in the journal; and, when the places before its own have committed and the invalidation queues and the index cache have room, its changes take effect. The effect of a write of one element on its key: a PUT, a PUT_IF, an APPEND or a PUNCH leaves it live at the write's version with the value the operation gives (the data, the old value and the data, the old value with the range zeroed); a DELETE leaves it absent; and the command has its OK result.
Its conclusion for each of these rows is that exec answers a next state, the row's own effect, under conditions on the
state and the operands alone: COMMIT. -/
def Obligations.CommitPointEffect : Prop :=
  (∀ (task : Nat) (s w : State) (t : Trs), s.trs? task = some t → t.state = .running → s.held t = true → w = s.readChanges t →
    (∀ n, w.changeMissing t = some n → exec (.commit task) s = .next (w.wantPage n)) ∧
    (w.changeMissing t = none →
      (∀ place, t.place = some place → w.reservedBefore place = false → w.invalidationsFull (w.commit t place) = false →
        (w.commit t place).framesFull = false → exec (.commit task) s = .next (w.commit t place)) ∧
      (∀ place, t.place = some place → (w.reservedBefore place = true ∨ w.invalidationsFull (w.commit t place) = true ∨
          (w.commit t place).framesFull = true) →
        exec (.commit task) s = .next w) ∧
      (t.place = none →
        (2 ^ 64 - 1 < w.plc.versionCounter + t.changes.length → exec (.commit task) s = .next (w.enterCharcoal 4)) ∧
        (w.plc.versionCounter + t.changes.length ≤ 2 ^ 64 - 1 →
          (journalRing < w.journalUsed + recordBytes (t.changes.map fun c => c.key.length) → t.parked = false →
            exec (.commit task) s = .next ((w.mapTrs task fun u => { u with parked := true }).bump 0x9060 0x10 1)) ∧
          (w.journalUsed + recordBytes (t.changes.map fun c => c.key.length) ≤ journalRing →
            exec (.commit task) s = .next (w.reserve t) ∧
            (w.reserve t).plc.versionCounter = w.plc.versionCounter + t.changes.length))))) ∧
  (∀ (s : State) (t : Trs), s.bfc.faults = [] → s.readChanges t = s) ∧
  (∀ (s : State) (t x : Trs) (place : Nat) (c : Change), t.changes = [c] → s.trs? t.idx = some x →
    (∀ v, c.op ≠ opDelete → v = ((s.live? c.tenant c.key).map (·.value)).getD [] → ∃ k,
      (s.commit t place).live? c.tenant c.key = some k ∧ k.version = t.version ∧
      ((c.op = opPut ∨ c.op = opPutIf) → k.value = c.payload) ∧ (c.op = opAppend → k.value = v ++ c.payload) ∧
      (c.op = opPunch → k.value = v.take c.off ++ zeros (min c.len (v.length - c.off)) ++ v.drop (c.off + c.len))) ∧
    (c.op = opDelete → (s.commit t place).live? c.tenant c.key = none) ∧
    (∃ y, (s.commit t place).trs? t.idx = some y ∧ y.result = true ∧ y.status = stOk))

/-- pages, completions and expiries (R77, R70, R118, R187, R209, R212, R304, R391).
A wanted page that arrives readable, from a shard that stands, takes a frame where one is free or can be freed, as the most recently used, and is counted; one that cannot be read is rebuilt from the other shards of its metadata stripe, or lost where too few are left; without a free frame it waits. A rebuilt page is readable again and takes a frame. A result whose conditions hold is posted when fragment 0 of its response is sent, which waits while an earlier answer of its session has not begun; a FLUSH is complete when all it covers is on the medium. A lease past its end that no command admitted before that end still needs, and a cursor 60 s after its last page request, are gone; a Hold still pending at its limit is cancelled and recorded.
Its conclusion for each of these rows is that exec answers a next state, the row's own effect, under conditions on the
state and the operands alone: PAGE_IN_COMPLETE, INDEX_PAGE_REBUILD, POST_COMPLETION, FLUSH_COMPLETE, CLIENT_LEASE_EXPIRY, CURSOR_EXPIRY, HOLD_PENDING_EXPIRY. -/
def Obligations.PagesAndCompletion : Prop :=
  (∀ (page : Nat) (s : State) (p : Page), s.page? page = some p → p.wanted = true → (p.cached = false ∨ p.unreadable = true) →
    ∀ u : State, u = (s.pageTransfer p).evict →
      (u.framesTaken < cacheFrames → (s.homeShard p).any (fun e => e.1.lost || (s.missingShards e.1).contains e.2.1) = false →
        ∀ v : State, v = (u.mapPage p.number fun q =>
            { q with cached := true, unreadable := false, wanted := false, lru := u.asu.lruClock + 1 }) →
          exec (.pageInComplete page true) s =
            .next (({ v with asu.lruClock := v.asu.lruClock + 1 }.bump 0x5030 0x0C 1).traced 5 0 none p.number)) ∧
      (u.framesTaken < cacheFrames → u.homeShard p = none →
        exec (.pageInComplete page false) s = .next (u.losePage p)) ∧
      (u.framesTaken < cacheFrames → ∀ (q : Stripe) (i : Nat) (h : Shard), u.homeShard p = some (q, i, h) →
        ((q.lost = true ∨ 1 < ((u.missingShards q).filter (· != i)).length) →
          exec (.pageInComplete page false) s = .next (u.losePage p)) ∧
        (q.lost = false → ((u.missingShards q).filter (· != i)).length ≤ 1 → ∀ v : State,
          v = (((List.range q.shards.length).filter fun j => j != i && !((u.missingShards q).filter (· != i)).contains j).foldl
            (fun s j => s.queueRead 3 true q j h.whole) u) →
          exec (.pageInComplete page false) s =
            .next (((v.mapShard q.id i fun h => { h with phase := .failed }).framePage p).bump 0x9060 0x0F 1))) ∧
      (cacheFrames ≤ u.framesTaken → ∀ r, exec (.pageInComplete page r) s = .next s)) ∧
  (∀ (page : Nat) (s : State) (p : Page), s.page? page = some p → p.unreadable = true → s.evict.framesTaken < cacheFrames →
    exec (.indexPageRebuild page) s = .next ((s.evict.mapPage page fun q =>
      { q with unreadable := false, cached := true, wanted := false, clean := false }).bump 0x9060 0x0F 1)) ∧
  (∀ (task : Nat) (s : State) (t : Trs), s.trs? task = some t → s.postable t = true →
    (s.session? t.session = none → exec (.postCompletion task) s = .next (s.complete t)) ∧
    (∀ x, s.session? t.session = some x →
      (x.outgoing.any (fun m => m.nextLeg == 0 && m.hasWork) = true → exec (.postCompletion task) s = .next s) ∧
      (x.outgoing.any (fun m => m.nextLeg == 0 && m.hasWork) = false → exec (.postCompletion task) s =
        .next (((s.complete t).sendFrom t.session fun m => m.resp.reqId == t.reqId && m.nextLeg == 0).getD s)))) ∧
  (∀ (task : Nat) (s : State) (t : Trs), s.trs? task = some t → t.state = .flushWait → t.covered.all s.onMedium = true →
    exec (.flushComplete task) s = .next ((s.finish task stOk flDurable [] []).bump 0x3010 0x0D 1)) ∧
  (∀ (tenant : Nat) (key : Bytes) (s : State), exec (.clientLeaseExpiry tenant key) s = .next { s with
    cqc.leases := s.cqc.leases.filter fun l =>
      !(l.tenant == tenant && l.key == key && decide (l.endsAt ≤ s.now) && !s.leaseNeeded l) }) ∧
  (∀ (id : Nat) (s : State), exec (.cursorExpiry id) s = .next { s with pae.cursors := s.pae.cursors.filter fun c =>
    !(c.id == id && decide (c.lastAdmit + 60000000 ≤ s.now)) }.pruneOlder) ∧
  (∀ (s : State) (e : Nat), s.cqc.holdUntil = some e → s.cqc.policy = 3 → e ≤ s.now → exec .holdPendingExpiry s =
    .next ({ s with cqc.policy := 0, cqc.holdUntil := none }.raise 0x3403 (wholeUnit 3) 0 0 0))

/-- phases and limit of a drain (R187, R218, R219, R220).
A drain passes from its first phases to phase 3 when no command but its PREPARE_HOLD is left, ends when the tail is on the medium, and restarts when all is acknowledged or its grace is over. A drain whose second phase passes its limit completes the commands past their commit point whose write mode is met and abandons the others, counted and recorded; that of a PREPARE_HOLD is given up with RETRY_LATER and its policy restored.
Its conclusion for each of these rows is that exec answers a next state, the row's own effect, under conditions on the
state and the operands alone: DRAIN_PHASE_ADVANCE, DRAIN_LIMIT_EXPIRY. -/
def Obligations.DrainCommands : Prop :=
  (∀ (s : State) (d : Drain), s.cqc.drain = some d →
    (d.phase ≤ 2 → s.cqc.trs.all Trs.isPrepare = true → exec .drainPhaseAdvance s =
      .next { s with cqc.drain := some { d with phase := 3 } }.sealPacked) ∧
    (d.phase = 3 → s.tailWritten = true → exec .drainPhaseAdvance s =
      .next ((((s.cqc.trs.filter fun t => !t.isPrepare).map (·.idx)).foldl (fun s i => s.completeTask i) s).drained d)) ∧
    (d.phase = 4 → (s.allAcked = true ∨ d.grace.all (fun t => decide (t ≤ s.now)) = true) → exec .drainPhaseAdvance s =
      .next (s.beginStart (if d.cause = .activation then 4 else 3) 2))) ∧
  (∀ (s : State) (d : Drain) (k : Nat) (u : State), s.cqc.drain = some d → d.phase ≤ 2 →
    d.start + s.num 0x3004 0 * 1000 ≤ s.now → d.cause = .prepareHold k →
    u = (s.endPrepare stRetryLater 0 fun s => plainError s.drainWait) →
    exec .drainLimitExpiry s = .next { u with cqc.drain := none, cqc.policy := u.cqc.policyBefore }.readyActive) ∧
  (∀ (s u v w : State) (d : Drain) (rest : List Nat) (n : Nat), s.cqc.drain = some d → d.phase ≤ 2 →
    d.start + s.num 0x3004 0 * 1000 ≤ s.now → (∀ k, d.cause ≠ .prepareHold k) →
    u = ((s.cqc.trs.filter fun t => t.past && s.modeMet t).map (·.idx)).foldl (fun s i => s.completeTask i) s →
    rest = (u.cqc.trs.filter fun t => !t.past).map (·.idx) → n = rest.length + u.cqc.aborting.length →
    v = rest.foldl (fun s i => s.freeTrs i) { u with
      cqc.aborting := [], msv.serial := u.msv.serial.filter (·.task.isNone) } →
    w = (if n = 0 then v else (v.bump 0x3010 0x0B n).raise 0x3402 (wholeUnit 3) n (if d.cause = .activation then 4 else 3) 0) →
    exec .drainLimitExpiry s = .next { w with cqc.drain := some { d with phase := 3 } }.sealPacked)

/-- the Turnpike's slots, tables, masks and throttle (R31, R266, R267, R268, R270, R273, R281, R636, R637).
While the core clock runs a slot of the wheel passes: at slot 0 what waits for the revolution boundary takes effect; the reserved pairs of the slot move their transfers, used and released ones counted; a slot that the throttle does not blank is filled by arbitration; the slot number goes up by one modulo 1,024 and after the last the revolution. With nothing queued a slot moves nothing. The lease holder writes the table that is due into the shadow copy, for the next revolution boundary; at slot 0 the shadow table whose boundary has come, the wanted mask and the wanted throttle level take effect; the transfers of newly masked lanes leave the queue and are handed back in order. A case temperature is stored, its time over the range's top counted, its highest kept, and the wanted level judged by it; a change of level is recorded.
Its conclusion for each of these rows is that exec answers a next state, the row's own effect, under conditions on the
state and the operands alone: SLOT_FILL, SLOT_TABLE_GENERATE, TABLE_SWAP, ENDPOINT_MASK_CHANGE, THROTTLE_CHANGE, CASE_TEMP_SAMPLE. -/
def Obligations.TurnpikeCommands : Prop :=
  (∀ (s v w x y : State) (a b : Slot_) (used released : Nat), s.cycleRuns = true → v = (if s.tpk.slot = 0 then s.boundary else s) →
    (a, used, released) = v.moveReserved { pairs := [], queue := v.tpk.queue } →
    w = ((v.bump 0x4010 0x02 used).bump 0x4010 0x03 released).bump 0x4010 0x09 (if v.blanked then 1 else 0) →
    (b, x) = (if v.blanked then (a, w) else w.fillOpen a) →
    y = (freshLeads v.tpk.queue b.queue).foldl (State.tracedHop v.tpk.slot) x →
    exec .slotFill s = .next
      (if y.tpk.slot = 1023 then { y with
        tpk.queue := b.queue, tpk.slot := (y.tpk.slot + 1) % 1024, tpk.revolution := y.tpk.revolution + 1
        tpk.openSeen := if backgroundFirst y.tpk.slot then y.tpk.openSeen else y.tpk.openSeen + 1 }.bump 0x4010 0x01 1
      else { y with
        tpk.queue := b.queue, tpk.slot := (y.tpk.slot + 1) % 1024, tpk.revolution := y.tpk.revolution
        tpk.openSeen := if backgroundFirst y.tpk.slot then y.tpk.openSeen else y.tpk.openSeen + 1 })) ∧
  (∀ s : State, s.cycleRuns = true → ∃ t, exec .slotFill s = .next t ∧ t.tpk.slot = (s.tpk.slot + 1) % 1024) ∧
  (∀ s : State, s.cycleRuns = true → s.tpk.queue = [] → s.tpk.slot ≠ 0 → s.tpk.slot < 1023 → ∃ t, exec .slotFill s = .next t ∧
    t.tpk.queue = [] ∧ t.tpk.slot = s.tpk.slot + 1 ∧ t.tpk.revolution = s.tpk.revolution) ∧
  (∀ s : State, s.gap = false → s.tpk.wantTable.isSome = true → s.coreRuns = true → exec .slotTableGenerate s =
    .next { s with tpk.shadow := some (s.num 0x4000 0, (s.num 0x4002 1, s.num 0x4002 2)), tpk.wantTable := none,
                   tpk.shadowDue := s.tpk.revolution + 1 }) ∧
  (∀ (s : State) (t : Nat × (Nat × Nat)), s.tpk.shadow = some t → s.tpk.shadowDue ≤ s.tpk.revolution → s.tpk.slot = 0 →
    s.tpk.wantTable = none → s.cycleRuns = true → s.gap = false → exec .tableSwap s = .next (s.swapTo t.1 t.2) ∧
    (s.swapTo t.1 t.2).tpk.share = t.1 ∧ (s.swapTo t.1 t.2).tpk.weights = t.2 ∧ (s.swapTo t.1 t.2).tpk.shadow = none) ∧
  (∀ s : State, s.tpk.slot = 0 → s.cycleRuns = true → exec .endpointMaskChange s = .next s.applyMask ∧
    (∀ (fresh : List Nat) (lost : Transfer → Bool), fresh = s.tpk.maskWanted.filter (fun e => !s.tpk.mask.contains e) →
      (∀ e ∈ fresh, e < 0x40) → lost = (fun t => fresh.contains t.src || fresh.contains t.dst) →
      s.applyMask = (s.tpk.queue.filter lost).foldl (fun s t => s.reissue t) { s with
        tpk.mask := s.tpk.maskWanted, tpk.queue := s.tpk.queue.filter fun t => !lost t })) ∧
  (∀ s : State, s.tpk.slot = 0 → s.cycleRuns = true →
    exec .throttleChange s = .next { s with tpk.throttle := s.tpk.throttleWanted }) ∧
  (∀ (c : Int) (s u v : State) (hot old new : Nat),
    hot = s.pch.overTempUs + (if caseTop extendedRange < s.pch.throttleTemp then s.now - s.pch.caseAt else 0) →
    old = s.tpk.throttleWanted → new = throttleLevel extendedRange old c → u = s.bump 0xD068 0x03 (hot / 1000000) →
    v = { u with pch.throttleTemp := c, pch.caseAt := s.now, pch.overTempUs := hot % 1000000,
                 tpk.throttleWanted := new }.putNum 0xD060 0 (clampI 32 c) →
    ∀ w : State, w = (if v.signed 0xD061 0 < c then v.putNum 0xD061 0 (clampI 32 c) else v) →
    exec (.caseTempSample c) s = .next (if old = new then w else w.raise 0x4401 (wholeUnit 4) old new (clampI 32 c)))

/-- UNIT_ISOLATE (R31, R268, R464, R597).
A unit in service that an isolation names is isolated with cause 1; a data port's isolation is recorded first; that of the Warden which holds the lease ends its lease, that of the other takes it out of service.
Its conclusion for each of these rows is that exec answers a next state, the row's own effect, under conditions on the
state and the operands alone: UNIT_ISOLATE. -/
def Obligations.UnitIsolateEffect : Prop :=
  ∀ (u : UnitId) (kind : Nat) (s : State), u.replicated = true → s.inService u = true →
    (u.subsystem = 0xB → ∀ w, w = (if u.number = 0 then Warden.a else .b) →
      (s.wdn.holder = some w → exec (.unitIsolate u kind) s = .next (s.endLease w 2 s.now)) ∧
      (s.wdn.holder ≠ some w → exec (.unitIsolate u kind) s = .next (s.wardenOut w))) ∧
    (u.subsystem = 1 → exec (.unitIsolate u kind) s = .next ((s.raise 0x1808 u.word kind 0 0).isolate u 1)) ∧
    (u.subsystem ≠ 0xB → u.subsystem ≠ 1 → exec (.unitIsolate u kind) s = .next (s.isolate u 1))

/-- the Key CAM, the directory, its pages and the pin walk (R291, R292, R295, R300, R303).
A CAM update cycle lets each of the 32 banks make one write. A write of CAM_BANK_WIDTH that is taken clears its bank, gives it the width and reinitialises it for the pinned tree's entries. A directory whose main tree holds more than 6 keys for each of its 2^d buckets begins to split; it splits one bucket a step when the bucket's directory pages are at hand and the cache has a frame for the new one, and after the last d is one higher. Two neighbour pages at hand, one of them less than a quarter full, that fit into one are joined when the invalidation queues have room: the entries of the first move to the second. A write of 1 to PIN_REEVALUATE starts a walk over all keys, or does nothing while one runs.
Its conclusion for each of these rows is that exec answers a next state, the row's own effect, under conditions on the
state and the operands alone: CAM_UPDATE_CYCLE, CAM_BANK_WIDTH, DIRECTORY_SPLIT, PAGE_JOIN, PIN_REEVALUATE. -/
def Obligations.IndexCommands : Prop :=
  (∀ s : State, ∃ t : State, t = (List.range 32).foldl (fun (s : State) n => s.bankWrite n) s ∧ exec .camUpdateCycle s =
    .next { t with asu.sweeping := t.asu.sweeping.filter fun k => t.asu.banks.any fun b => b.entries.any fun e => e.tenant == k }) ∧
  (∀ (bank : Nat) (r : Requester) (v : OdVal) (s : State), bank < 32 → s.takesWrite r 0x5010 (bank + 1) v →
    exec (.camBankWidth bank r v) s = .next (s.writeAnswered
      ((s.mapBank bank fun b => { CamBank.reset with
        state := if b.state = 0 then 1 else b.state, width := valNum v,
        returnAt := if b.state ≤ 1 then some (s.now + reinitUs s.now) else none }).put 0x5010 (bank + 1) v)
      r 0x5010 (bank + 1))) ∧
  (∀ s : State, s.asu.split = none → 6 * 2 ^ s.asu.depth < (s.asu.keys.filter fun k => !k.pinned).length → s.asu.depth < 30 →
    exec .directorySplit s = .next { s with asu.split := some 0 }) ∧
  (∀ (s u v : State) (b : Nat) (pages : List Nat), s.asu.split = some b →
    pages = ((s.dirAt false (s.asu.depth, b / 256)).toList.map (·.number))
      ++ (s.asu.chain (s.asu.depth, b)).filterMap (fun o => (s.dirAt false (overflowPlace o.number)).map (·.number)) →
    u = s.readPages pages →
    (∀ n, pages.find? (fun n => !u.pageReady n) = some n → exec .directorySplit s = .next (u.wantPage n)) ∧
    ((∀ n ∈ pages, u.pageReady n = true) →
      (b + 1 < 2 ^ (u.splitBucket b).asu.depth → v = { u.splitBucket b with asu.split := some (b + 1) } →
        exec .directorySplit s = .next (if v.fitChains.framesFull then u else v.fitChains)) ∧
      (2 ^ (u.splitBucket b).asu.depth ≤ b + 1 →
        v = { u.splitBucket b with asu.split := none, asu.depth := (u.splitBucket b).asu.depth + 1 } →
        exec .directorySplit s = .next (if v.fitChains.framesFull then u else v.fitChains)))) ∧
  (∀ (page neighbour v : Nat) (s u t : State) (a b : Page), s.page? page = some a → s.page? neighbour = some b →
    u = s.readPages [page, neighbour] → u.neighbours a b = true → 4 * keysBytes (u.pageKeys page) < pageRoom →
    keysBytes (u.pageKeys page) + keysBytes (u.pageKeys neighbour) ≤ pageRoom →
    (u.pageKeys page).length + (u.pageKeys neighbour).length ≤ 256 → u.pageReady page = true → u.pageReady neighbour = true →
    v = max a.version b.version →
    t = (((u.changeAbove a.tenant a.pinned page v).moveEntries neighbour v (u.pageKeys page)).changePage neighbour v).dropEmpty →
    (u.invalidationsFull t = false → exec (.pageJoin page neighbour) s = .next t) ∧
    (u.invalidationsFull t = true → exec (.pageJoin page neighbour) s = .next u)) ∧
  (∀ (r : Requester) (s : State), s.takesWrite r 0x5024 0 (.num 1) →
    (s.asu.reevaluate = none → exec (.pinReevaluate r (.num 1)) s = .next (s.writeAnswered
      { s with asu.reevaluate := some (s.asu.keys.map fun k => (k.tenant, k.key)) } r 0x5024 0)) ∧
    (s.asu.reevaluate.isSome = true → exec (.pinReevaluate r (.num 1)) s = .next (s.writeAnswered s r 0x5024 0)))

/-- rules and predicate slots (R312, R313, R314, R316, R332, R333).
A RULE_COMMAND of each operation that is taken, is well-formed for the table the accepted commands leave and finds a place joins the accepted ones. The update slot makes the next write of the first accepted command; its last write puts the command's table in place, ends it and is counted. A scrub restores an entry that differs from the expected one, counts and records it. A well-formed image that the 8 MiB hold, written to a predicate slot, fills the slot, or waits as a replacement where the slot has an image; a PRED_CLEAR of a slot no rule names empties it.
Its conclusion for each of these rows is that exec answers a next state, the row's own effect, under conditions on the
state and the operands alone: RULE_INSERT, RULE_REPLACE, RULE_DELETE, RULE_UPDATE_WRITE, RULE_SCRUB, PRED_IMAGE_WRITE, PRED_CLEAR. -/
def Obligations.RuleAndPredicateCommands : Prop :=
  (∀ (r : Requester) (v : OdVal) (s : State) (op : RuleOp), s.takesWrite r 0x5003 0 v → s.asu.commands < 256 → s.asu.waiting = [] →
    s.ruleCommand (valBytes v) = some op → ∀ t : State,
    t = s.writeAnswered ({ s with asu.accepted := s.asu.accepted ++ [op] }.putBytes 0x5003 0 (ruleImage (valBytes v))) r 0x5003 0 →
    (numAt (valBytes v) 0 1 = 1 → exec (.ruleInsert r v) s = .next t) ∧
    (numAt (valBytes v) 0 1 = 2 → exec (.ruleReplace r v) s = .next t) ∧
    (numAt (valBytes v) 0 1 = 3 → exec (.ruleDelete r v) s = .next t)) ∧
  (∀ (s : State) (op : RuleOp) (rest : List RuleOp), s.asu.accepted = op :: rest → s.gap = false →
    op.writes s.asu.copy ≤ s.asu.running.getD 0 + 1 → ∃ t, exec .ruleUpdateWrite s = .next t ∧
    t.asu.rules = op.apply s.asu.copy ∧ t.asu.copy = op.apply s.asu.copy ∧ t.asu.accepted = rest ∧ t.asu.running = none ∧
    ∃ u : State, t = u.bump 0x5030 0x0F 1 ∧ u.od = s.od) ∧
  (∀ (s : State) (op : RuleOp) (rest : List RuleOp), s.asu.accepted = op :: rest → s.gap = false →
    s.asu.running.getD 0 + 1 < op.writes s.asu.copy → ∃ t, exec .ruleUpdateWrite s = .next t ∧
    t.asu.rules = op.partly (s.asu.running.getD 0 + 1) s.asu.copy ∧ t.asu.running = some (s.asu.running.getD 0 + 1)) ∧
  (∀ (position : Nat) (s : State) (e q : Rule), s.asu.expected[position]? = some e → s.asu.rules[position]? = some q → e ≠ q →
    exec (.ruleScrub position) s = .next (({ s with asu.rules := s.asu.rules.set position e }.bump 0x5030 0x11 1).raise 0x5803
      (unitId 5 0x20) position (Rule.id e) 0)) ∧
  (∀ (slot : Nat) (r : Requester) (b : Bytes) (s : State), slot < 256 → s.takesWrite r (0x6100 + slot) 0 (.bytes b) →
    imageFault b = none → s.predPeak slot + imageRoom b ≤ 8388608 →
    (s.futurePreds.any (fun p => p.1 == slot) = true → exec (.predImageWrite slot r (.bytes b)) s = .next (s.writeAnswered
      { s with asu.accepted := s.asu.accepted ++ [.image slot b] } r (0x6100 + slot) 0)) ∧
    (s.futurePreds.any (fun p => p.1 == slot) = false → exec (.predImageWrite slot r (.bytes b)) s = .next (s.writeAnswered
      { s with pae.preds := (slot, b) :: s.pae.preds } r (0x6100 + slot) 0))) ∧
  (∀ (r : Requester) (v : OdVal) (s t : State), s.takesWrite r 0x6001 0 v → s.predRefs (valNum v) = 0 →
    t = { s with
      pae.preds := s.pae.preds.filter fun p => p.1 != valNum v
      asu.accepted := s.asu.accepted.filter fun (op : RuleOp) => match op with
        | .image i _ => i != valNum v
        | _ => true } →
    exec (.predClear r v) s = .next (s.writeAnswered t r 0x6001 0) ∧ ∀ p ∈ t.pae.preds, p.1 ≠ valNum v)

/-- key pages, pipelines and the random source (R340, R341, R342, R353, R359, R360, R362, R597).
A write of a key page's key that is taken runs the check value, stores that key and settles the page, unless the key is all zeros, equals the other half of the page's data key, or differs from what a page in PARTIAL or RESTORE may take, which answer RANGE. ADMIN_PAGE_CLEAR destroys page 0 and ends its sessions. A failed health test stops generation (in a start-up test until one passes), is counted and recorded; a passed start-up test starts it again; a reseed is due after 65,536 requests or 1 s. A parity error or a block of another page in a pipeline in service is counted and recorded, the transfer it has in hand (the refused block's own) is counted as redone, and the pipeline is isolated. A pipeline that may be bound anew is in service with its new page, counted, and takes the jobs that wait.
Its conclusion for each of these rows is that exec answers a next state, the row's own effect, under conditions on the
state and the operands alone: KEY_PAGE_WRITE, ADMIN_PAGE_CLEAR, RNG_HEALTH_FAIL, RNG_STARTUP_TEST_DONE, RNG_RESEED, PIPELINE_PARITY, PIPELINE_REBIND. -/
def Obligations.KeyPageAndRandomCommands : Prop :=
  (∀ (page sub : Nat) (r : Requester) (v : OdVal) (s : State) (k : Bytes) (p : KeyPage), page < 1024 → 1 ≤ sub → sub ≤ 3 →
    s.takesWrite r (0x7400 + page) sub v → k = window (valBytes v) 32 0 32 → p = s.keyPage page → k.all (· == 0) = false →
    (sub = 2 → p.xts1 ≠ some k) → (sub = 1 → p.xts2 ≠ some k) → (p.state = 3 → (p.key sub).2.any (fun c => c != k) = false) →
    exec (.keyPageWrite page sub r v) s = .next (s.writeAnswered ((s.checkValue p.page).settlePage (p.putKey sub k s.now)) r
      (0x7400 + page) sub)) ∧
  (∀ (r : Requester) (v : OdVal) (s : State), s.takesWrite r 0x7002 0 v →
    exec (.adminPageClear r v) s = .next (s.writeAnswered (s.destroyPage 0) r 0x7002 0)) ∧
  (∀ (source test : Nat) (s : State), source < 2 → 1 ≤ test → test ≤ 2 → ∃ t, exec (.rngHealthFail source test) s = .next t ∧
    t = ({ s with cpx.rngState := if s.cpx.rngState = 0 then 1 else 2 }.bump 0x7030 0x0C 1).raise 0x7803 (wholeUnit 7) source test 0) ∧
  (∀ s : State, s.cpx.rngState ≠ 0 → exec .rngStartupTestDone s = .next
    ((s.cpx.pages.filter fun p => p.page != 0 && (p.state == 1 || (p.state == 3 && p.restored)) && p.complete).foldl
      (fun (s : State) p => s.settlePage p) { s with cpx.rngState := 0 })) ∧
  (∀ s : State, s.cpx.rngState = 0 → (65536 ≤ s.cpx.requests ∨ s.cpx.reseedAt + 1000000 ≤ s.now) →
    exec .rngReseed s = .next ({ s with cpx.requests := 0, cpx.reseedAt := s.now }.bump 0x7030 0x0B 1)) ∧
  (∀ (n stage : Nat) (s : State), n < 16 → stage < 16 → (s.pipeline n).state < 2 →
    exec (.pipelineParity n stage none) s = .next ((((s.bump 0x7030 0x06 1).raise 0x7801 (unitId 7 n) stage (s.pipeline n).binding
      0).bump 0x7030 0x08 (if (s.pipeline n).input = [] then 0 else 1)).isolate (pipelineUnit n) 1) ∧
    (∀ m, m ≠ (s.pipeline n).binding → exec (.pipelineParity n stage (some m)) s = .next (((((s.bump 0x7030 0x07 1).raise 0x7802
      (unitId 7 n) (s.pipeline n).binding m 0).putFirst n m).bump 0x7030 0x08
      (if (s.pipeline n).input = [] then 0 else 1)).isolate (pipelineUnit n) 1))) ∧
  (∀ (n page : Nat) (s : State), n < 16 → page ≤ 1024 → s.rebindable n = true → (s.pipeline n).binding ≠ page →
    exec (.pipelineRebind n page) s = .next ((s.bind n page).dealWaiting))

/-- ATTEST, PK_JOB and the public-key engine (R177, R364, R365, R366, R367, R368).
A running ATTEST queues its job once. A taken write of PK_JOB with each operation of the table queues its job, stores its image and is counted and traced as the last write; the answer comes at once, that to an operator's session when the job ends. A free ladder unit takes the ready waiting job of lowest rank. A job whose fixed time is over and that is not short of random bits ends, frees its unit and is counted; a dictionary job ends with its result and the next sequence number.
Its conclusion for each of these rows is that exec answers a next state, the row's own effect, under conditions on the
state and the operands alone: ATTEST, PK_MULTIPLY_P256, PK_MULTIPLY_P384, PK_VERIFY_P256, PK_VERIFY_P384, PK_JOB_START, PK_JOB_COMPLETE. -/
def Obligations.PublicKeyJobs : Prop :=
  (∀ (task : Nat) (s : State) (t : Trs), s.running task opAttest = some t → t.parked = false →
    exec (.attest task) s = .next ((s.mapTrs task fun u => { u with parked := true }).queueJob (.attest t.task))) ∧
  (∀ (r : Requester) (v : OdVal) (s q w u : State), s.takesWrite r 0x7020 0 v →
    q = (s.queueJob (.dictionary (pkJobImage (valBytes v)) s.now (match r with
      | .session tenant => .session tenant
      | _ => .nobody))).put 0x7020 0 (.bytes (pkJobImage (valBytes v))) →
    w = ((q.control (wholeUnit 0xE) (entryUnit 0x7020)).bump 0xE010 0x0F 1).lastWrite r 0x7020 0 stOk →
    u = (match r with
      | .session _ => w
      | _ => w.emit (.dictAnswer r 0x7020 0 stOk 0 s.now)) →
    (numAt (valBytes v) 0 1 = 1 → exec (.pkMultiplyP256 r v) s = .next u) ∧
    (numAt (valBytes v) 0 1 = 2 → exec (.pkMultiplyP384 r v) s = .next u) ∧
    (numAt (valBytes v) 0 1 = 3 → exec (.pkVerifyP256 r v) s = .next u) ∧
    (numAt (valBytes v) 0 1 = 4 → exec (.pkVerifyP384 r v) s = .next u)) ∧
  (∀ (s u : State) (i : Nat) (j : PkJob), u = s.dropStaleJobs → u.cpx.ladders.findIdx? (·.isNone) = some i →
    u.nextJob = some j → exec .pkJobStart s = .next
      { u with cpx.ladders := u.cpx.ladders.set i (some (j, s.now)),
               cpx.pkWaiting := u.cpx.pkWaiting.filter fun k => k.order != j.order }) ∧
  (∀ (n : Nat) (s u : State) (j : PkJob) (start : Nat), n < 4 → s.cpx.ladders[n]? = some (some (j, start)) →
    start + j.kind.time ≤ s.now → (j.kind.random = false ∨ s.cpx.rngState = 0) → (s.endJob j.kind).1 = true →
    u = (s.endJob j.kind).2 →
    exec (.pkJobComplete n) s = .next ({ u with cpx.ladders := u.cpx.ladders.set n none }.bump 0x7030 0x09 1)) ∧
  (∀ (n : Nat) (s u : State) (j : PkJob) (start : Nat), n < 4 → s.cpx.ladders[n]? = some (some (j, start)) →
    start + j.kind.time ≤ s.now → (j.kind.random = false ∨ s.cpx.rngState = 0) →
    ((∃ h, j.kind = .handshakeConfirm h ∧ u = s.endConfirm h) ∨
      (∃ job tick who, j.kind = .dictionary job tick who ∧ u = s.endDictJob job tick who)) →
    exec (.pkJobComplete n) s = .next ({ u with cpx.ladders := u.cpx.ladders.set n none }.bump 0x7030 0x09 1)) ∧
  (∀ (job : Bytes) (tick : Nat) (s : State) (v : Bool) (p : Bytes), pkRun job = .done v p →
    s.endDictJob job tick .nobody = { s with cpx.jobSeq := s.cpx.jobSeq + 1 }.putBytes 0x7021 0 (pkResult (s.cpx.jobSeq + 1) (.done v p)))

/-- draining, programming and sealing of stripes (R381, R385, R396, R399, R405, R406, R407, R408, R410, R411).
While the buffer memory holds no error the drainable stripe that no other drains before sends its shards that may go. A sent shard with no program pending, on a tile in use and in a row that die parity or verification already covers, is programmed; that of a clean stripe is counted as rebuilt while a rebuild runs. A shard that needs a new slot gets one on its own tile or a drawn one, when the journal has room for its relocation and the flush region of that tile for a dirty shard, and is counted; with no tile left the module enters Charcoal with cause 3. An open packed stripe whose time has passed is sealed onto a set of tiles whose flush regions have room; without one it stays open. In Ready-WT a flushed stripe with at most two unreadable shards, those skipped at the flush among them, becomes dirty and drains again; one with more is lost.
Its conclusion for each of these rows is that exec answers a next state, the row's own effect, under conditions on the
state and the operands alone: STRIPE_DRAIN, SHARD_PROGRAM_DONE, PROGRAM_REPLACEMENT, PACK_SEAL_TIMEOUT, FLUSH_VERIFY. -/
def Obligations.StripePlacementCommands : Prop :=
  (∀ (id : Nat) (s : State) (p : Stripe), s.stripe? id = some p → s.drainable p = true →
    s.plc.stripes.any (fun q => s.drainable q && s.drainsBefore q p) = false → s.bfc.faults = [] →
    exec (.stripeDrain id) s = .next ((List.range p.shards.length).foldl (fun (s' : State) i => match p.shards[i]? with
        | some h => if s'.sendable h then s'.sendShard (s.drainClass p) id i h else s'
        | none => s') s)) ∧
  (∀ (id i : Nat) (s : State) (p : Stripe) (h : Shard), s.stripe? id = some p → p.shards[i]? = some h → h.phase = .sent →
    s.programPending h id i = false → (s.tile h.tile).inUse = true → s.rowSafe h = true →
    ∀ u : State, u = s.mapShard id i (fun x => { x with phase := .programmed }) →
    (p.dirty = true → exec (.shardProgramDone id i) s = .next (u.settleStripe id)) ∧
    (p.dirty = false → ∀ v : State,
      v = (if u.plc.rebuild.state = 0 then u
        else State.bump { u with plc.rebuild.done := u.plc.rebuild.done + 1 } 0x9060 0x0C 1) →
      exec (.shardProgramDone id i) s =
        .next (v.mapStripe id fun q => { q with degraded := decide (0 < v.goneCount q) }).endRebuild)) ∧
  (∀ (id i : Nat) (s : State) (p : Stripe) (h : Shard), s.stripe? id = some p → p.shards[i]? = some h → s.needsSlot p h = true →
    (p.order.isSome = false ∨ s.journalRoom (s.relocationBytes [id]) = true) →
    ((s.tile h.tile).inUse = true → 0 < s.slotsFree h.tile h.region →
      ((s.tile h.tile).closed = false ∨ ((s.tile h.tile).locate h.region (s.freeSlot h.tile h.region)).isSome = true) →
      exec (.programReplacement id i) s = .next ((s.replaceShard p i h.tile h).bump 0x9060 0x04 1)) ∧
    ((s.tile h.tile).inUse = false → ∀ t, s.drawOne p i h.region = some t →
      ((p.dirty = false ∨ t = h.tile ∨ s.flushRoom [t] = true) →
        exec (.programReplacement id i) s = .next ((s.replaceShard p i t h).bump 0x9060 0x04 1)) ∧
      (p.dirty = true → t ≠ h.tile → s.flushRoom [t] = false → exec (.programReplacement id i) s = .next s)) ∧
    ((s.tile h.tile).inUse = false → s.drawOne p i h.region = none →
      exec (.programReplacement id i) s = .next (s.enterCharcoal 3))) ∧
  (∀ (id : Nat) (s : State) (p : Stripe), s.stripe? id = some p → p.kind = 2 → p.sealed = false →
    p.openedAt + (if s.writeBack then s.num 0x9004 0 else 20) ≤ s.now →
    ∀ (lens : List Nat) (region : Nat), lens = shardLens p.filled → region = s.regionFor 2 (lens.length + 2) p.fast →
    (∀ set u, s.drawFor region (lens.length + 2) = some set →
      (s.mapStripe id fun q => { q with sealed := true }).flushRoom set = true →
      u = (s.seatShards region set lens).2 →
      exec (.packSealTimeout id) s = .next ((u.mapStripe id fun q => { q with
        k := lens.length, filled := p.filled, sealed := true, shards := (s.seatShards region set lens).1 }).bump 0x9060 0x02 1)) ∧
    (s.drawFor region (lens.length + 2) = none → exec (.packSealTimeout id) s = .next s) ∧
    (∀ set, s.drawFor region (lens.length + 2) = some set →
      (s.mapStripe id fun q => { q with sealed := true }).flushRoom set = false → exec (.packSealTimeout id) s = .next s)) ∧
  (∀ (id : Nat) (l : List Nat) (s u : State) (p : Stripe), s.stripe? id = some p → s.plc.flushImage.contains id = true →
    s.pch.power = .readyWt → u = { s with plc.flushImage := s.plc.flushImage.filter (· != id) } →
    (2 < (p.unreadable l).length → exec (.flushVerify id l) s = .next (u.loseStripe id)) ∧
    ((p.unreadable l).length ≤ 2 → exec (.flushVerify id l) s =
      .next ((u.mapStripe id fun q => { q with shards := q.shards.map fun h =>
        if h.phase = .programmed ∨ h.phase = .lost then h else { h with phase := .dirty } }).settleStripe id)))

/-- collection, trimming, rebuilding and long operations (R392, R396, R397, R400, R403, R410, R411, R416, R418, R420, R421).
Moves that are done land first. A collection step of a settled block of a tile in use that no move goes into then starts the moves of the slots in it, and of an empty one hands it over for erasing and counts it. Trimming writes the due metadata pages, drops the journal records no longer needed and writes the map root; where the map root finds no room it only drops records and waits, where no page can be written it only drops records. A repack of a value that is fragmented, or lies in sparse stripes, reads it and places it anew; when the new stripes are held and the journal has room the value of the same version has its new extents. The next stripe of a rebuild has its shards written anew, or the module enters Charcoal with cause 1 where there is no place. A refill adds what there is room for to the reserve. A long operation goes on by the work done while the journal has room, or the first waiting reclaim starts.
Its conclusion for each of these rows is that exec answers a next state, the row's own effect, under conditions on the
state and the operands alone: GC_STEP, JOURNAL_TRIM, REPACK, REBUILD_STRIPE, RESERVE_REFILL, LONG_OP_STEP. -/
def Obligations.CollectionAndRebuildCommands : Prop :=
  (∀ (t c d b : Nat) (s u : State), t < 64 → dieExists c d = true → b < parityBlock → u = s.landMoves → u.gap = false →
    u.blockCode t c d b ≠ 0 → u.blockCode t c d b ≠ 6 → u.erasePending t c d b = false → (u.tile t).inUse = true →
    u.settled t c d b = true → u.movesInto t c d b = false →
    (u.slotsIn t c d b = [] → exec (.gcStep t c d b) s = .next (u.emptied t c d b 0)) ∧
    (u.slotsIn t c d b ≠ [] → exec (.gcStep t c d b) s = .next (u.startMoves t c d b 0))) ∧
  (∀ s : State, (s.writeMetadata = none → exec .journalTrim s = .next s.trimJournal.landMoves) ∧
    (∀ u, s.writeMetadata = some u →
      (u.trimJournal.journalRoom u.trimJournal.mapRootBytes = true → exec .journalTrim s =
        .next u.trimJournal.writeRoots.releaseStripes.landMoves) ∧
      (u.trimJournal.journalRoom u.trimJournal.mapRootBytes = false →
        exec .journalTrim s = .next s.trimJournal.awaitJournal))) ∧
  (∀ (tenant : Nat) (key : Bytes) (s : State) (k : KeyRec) (c : Cls) (placed : Option (List Extent × State)),
    s.plc.repacks.find? (fun r => r.tenant == tenant && r.key == key) = none → s.live? tenant key = some k → k.lost = false →
    s.tenantReady tenant = true → s.plc.longOp.any (fun o => decide (2 ≤ o.op)) = false → c = s.repackClass k →
    placed = (if s.fragmented k then s.placeRuns k c (runsOf k.extents)
      else if k.extents.any fun e => s.sparse e.stripe then s.placeSparse k c k.extents else none) →
    (placed = none → exec (.repack tenant key) s = .next s) ∧
    (∀ (l : List Extent) (u v w : State) (n : Nat) (r : Repack), placed = some (l, u) →
      r = { tenant := k.tenant, key := k.key, version := k.version, extents := l } →
      n = extentBytes (l.filter fun e => !k.extents.contains e && e.stripe != 0) →
      v = u.fetchParts c 0 0 (k.extents.filter fun e => !(l.contains e || e.stripe == 0)) →
      w = v.crypt .xtsE k.tenant (bufferLane k.version) (bufferLane k.version) c false noTask n →
      exec (.repack tenant key) s = .next (({ w with plc.repacks := w.plc.repacks ++ [r] }.bump 0x9060 0x09 1).bump 0x7030 0x01 (2 * n)))) ∧
  (∀ (tenant : Nat) (key : Bytes) (s : State) (r : Repack),
    s.plc.repacks.find? (fun r => r.tenant == tenant && r.key == key) = some r → s.repackHeld r = true →
    (s.journalRoom (recordBytes [key.length]) = false → exec (.repack tenant key) s = .next s.awaitJournal) ∧
    (s.journalRoom (recordBytes [key.length]) = true → exec (.repack tenant key) s = .next (s.endRepack r) ∧
      ∀ k, s.live? tenant key = some k → k.version = r.version → ∃ q, (s.endRepack r).live? tenant key = some q ∧
        q.extents = r.extents ∧ q.version = k.version ∧ q.value = k.value)) ∧
  (∀ (id : Nat) (s : State) (p : Stripe), s.stripe? id = some p → s.gap = false → s.plc.rebuild.state ≠ 0 →
    s.toRebuild p = true → s.toWrite p ≠ [] →
    s.plc.stripes.any (fun q => (s.toRebuild q && !(s.toWrite q).isEmpty) && s.rebuildsBefore q p &&
      (s.plc.charcoal = 0 || (s.rebuildShards q.id 3 (s.toWrite q)).isSome)) = false →
    s.journalRoom (s.relocationBytes [id]) = true →
    ∀ (c : Cls) (u : State), c = (if s.num 0x9011 0 = 2 then 2 else 3) →
    u = (((List.range p.shards.length).filter fun j => !(s.missingShards p).contains j).take p.k).foldl
      (fun (s : State) j => match p.shards[j]? with
        | some h => s.queueRead c true p j h.whole
        | none => s) s →
    (u.rebuildShards id c (u.toWrite p) = none → exec (.rebuildStripe id) s = .next ({ u with plc.rebuild.state := 2 }.enterCharcoal 1)) ∧
    (∀ v w : State, u.rebuildShards id c (u.toWrite p) = some v →
      w = { (v.mapStripe id fun q => { q with degraded := true }) with plc.rebuild.state := 1 } →
      exec (.rebuildStripe id) s = .next (w.relocateStripe id).checkCharcoal)) ∧
  (∀ (bytes room : Nat) (s : State), s.plc.rebuild.state = 0 →
    room = s.dataFree + fullReserve - s.reserveHeld - (s.capacity - s.storedBytes) * 16 / 14 →
    exec (.reserveRefill bytes) s =
      .next { s with plc.reserve := s.plc.reserve + min bytes (min (fullReserve - s.plc.reserve) room) }) ∧
  (∀ (work : Nat) (s : State), s.longRuns = true →
    (∀ o, s.plc.longOp = some o → (o.op = 1 ∨ s.cpx.rngState = 0 ∨ o.phase ≠ lastPhase o.op) →
      (s.journalRoom 64 = true → exec (.longOpStep work) s = .next (s.longStep o work)) ∧
      (s.journalRoom 64 = false → exec (.longOpStep work) s = .next s.awaitJournal)) ∧
    (∀ t since l, s.plc.longOp = none → s.plc.reclaims = (t, since) :: l →
      exec (.longOpStep work) s = .next ({ s with plc.reclaims := l }.startLongOp 1 t 0 since)))

/-- any two lost shards of a stripe are recomputed from the others (R346, R374).
For every list of data shards of a stripe (at most 14, of any contents and lengths): one lost data shard is recomputed from the other data shards and P, and from the other data shards and Q; two lost data shards are recomputed from the others, P and Q; what stands in the lost shards' places does not matter. P and Q are those of R374; a lost P or Q is computed from the data again by the same functions. -/
def Obligations.LostShardsAreRecomputed : Prop :=
  ∀ (data : List Bytes), data.length ≤ 14 →
    (∀ (i : Nat) (x : Bytes), i < data.length →
      recoverByP (data.set i x) (parityP data) i (data.getD i []).length = data.getD i [] ∧
      recoverByQ (data.set i x) (parityQ data) i (data.getD i []).length = data.getD i []) ∧
    (∀ (i j : Nat) (x y : Bytes), i < j → j < data.length →
      recoverTwo ((data.set i x).set j y) (parityP data) (parityQ data) i (data.getD i []).length j (data.getD j []).length
        = (data.getD i [], data.getD j []))

/-- start and end of operations on a die (R432, R435, R442, R445, R447).
A die of a tile at Run with no operation in progress starts the next of its queue; a read may interrupt one in progress. A read's end frees the die and counts its codewords' outcomes; good data is brought to whoever asked for it, data that die parity cannot recover marks the shard bad and is read around it; a background read's end lets the move of that row go on to its program. A program's end frees the die and programs its row, with the row's parity where the row is full, and lands its move; a failed one queues reads of the unverified rows, is counted and recorded, and its shard is placed elsewhere. An erase's end frees the die and the slots; a failed one is counted and recorded and its block retired.
Its conclusion for each of these rows is that exec answers a next state, the row's own effect, under conditions on the
state and the operands alone: DIE_OP_START, READ_DONE, PROGRAM_DONE, PROGRAM_FAILED, ERASE_DONE. -/
def Obligations.DieOperationCommands : Prop :=
  ∀ (t c d : Nat) (s : State), unitsExist t c d = true → ∀ x, x = (s.tile t).dieAt c d →
    ((s.tile t).inUse = true → (s.tile t).state = 0 → x.doing = none → exec (.dieOpStart t c d) s = .next (s.startFree t x)) ∧
    (∀ p started n i o, (s.tile t).inUse = true → (s.tile t).state = 0 → x.doing = some (p, started, n) →
      nextOp (fun o => o.isRead && (x.suspended.isNone || p.isRead)) x.queue = some (i, o) → s.mayInterrupt o p started n = true →
      exec (.dieOpStart t c d) s = .next (s.interrupt t x i o p started n)) ∧
    (∀ u : State, u = s.mapTile t (fun y => { y.putDie { x with doing := none } with idleSince := s.now }) →
      (∀ a e id i b row z part q (l : List Nat) (v : State), x.doing = some (.read a e id i b row z part, q) →
        v = u.sensedRead t c d b (l.map codeword) →
        ((l.map codeword).any (fun w => decide (5 ≤ w.1)) = false →
          exec (.readDone t c d l) s = .next (v.bringData t a e id i part)) ∧
        (v.unrecovered t c d b row (l.map codeword) = true →
          (∀ p, (v.badShard id i part).stripe? id = some p → p.lost = false → exec (.readDone t c d l) s =
            .next ((v.badShard id i part).readAround a e p i part)) ∧
          ((v.badShard id i part).stripe? id = none → exec (.readDone t c d l) s = .next (v.badShard id i part)))) ∧
      (∀ b row z q (l : List Nat) (v : State), x.doing = some (.background b row z, q) →
        v = u.sensedRead t c d b (l.map codeword) →
        exec (.readDone t c d l) s = .next (v.backgroundEnds t c d b row (l.map codeword)) ∧
        (∀ e m n, (v.slotsIn t c d b).find? (fun e => e.2.2.2 == row) = some e →
          v.plc.moves.find? (fun m => m.tile == t && m.stripe == e.1 && m.shard == e.2.1 && m.source == (c, d, b) && !m.read) = some m →
          n = { m with read := true } → (l.map codeword).any (fun w => decide (5 ≤ w.1)) = false →
          exec (.readDone t c d l) s = .next
            (State.programMove { v with plc.moves := v.plc.moves.map fun y => if y = m then n else y } n))) ∧
      (∀ b row z q, x.doing = some (.filler b row z, q) →
        exec (.programDone t c d) s = .next (u.rowProgrammed t c d b)) ∧
      (∀ id i b row z q, x.doing = some (.program id i b row z, q) →
        ((u.rowProgrammed t c d b).moveAt t c d b row id i = none →
          exec (.programDone t c d) s = .next (u.rowProgrammed t c d b)) ∧
        (∀ m, (u.rowProgrammed t c d b).moveAt t c d b row id i = some m →
          exec (.programDone t c d) s = .next ((u.rowProgrammed t c d b).landMove m)) ∧
        (∀ v : State, v = ((s.mapTile t fun y => { y.putDie { x with
            doing := none
            queue := x.queue ++ ((List.range ((s.tile t).blockAt c d b).pointer).filter fun r =>
              !((s.tile t).blockAt c d b).verified.contains r).map fun r =>
                DieOp.background b r ((s.tile t).blockAt c d b).slc } with idleSince := s.now }).bump
            (tileIndex t) 0x0B 1).raise 0xA804 (dieUnit t c d) b row 0 →
          exec (.programFailed t c d) s = .next ((v.programLost t c d b row id i).blockOut t c d b 6 (row + 1)))) ∧
      (∀ b q, x.doing = some (.erase b, q) →
        exec (.eraseDone t c d false) s = .next (((((u.freeSlots t c d b).bump (tileIndex t) 0x0C 1).raise 0xA806 (dieUnit t c d) b 0 0).blockOut
          t c d b 6 0).mapTile t Tile.eraseParity) ∧
        (∀ k, k = (s.tile t).blockAt c d b → k.state ≠ 5 → exec (.eraseDone t c d true) s =
          .next (((u.freeSlots t c d b).mapTile t fun y => y.putBlock
            { k.erased with region := k.region, superblock := k.superblock, slc := k.slc }).mapTile t fun y =>
              (y.trimVerify k.region k.superblock).releaseSuper k.region k.superblock))))

/-- verification, rewriting, temperature and power of tiles (R412, R436, R437, R446, R447, R449, R450, R451, R452, R454).
A row whose verification is next on each of its dies is read whole: each page is counted as a read of its block; where none fails its parity is freed and its blocks are verified there; failing pages are counted once and recorded, and fail. A queued settled block starts the moves of its slots; emptied, it is handed for erasing and counted by the cause of its queueing. A temperature sample stores the die's temperature and the hottest of the tile. An idle tile past its time goes to Ember, and from Ember through three safe points to Peat; work wakes it to Run and is counted. A fault is recorded and isolates each tile in use that it concerns.
Its conclusion for each of these rows is that exec answers a next state, the row's own effect, under conditions on the
state and the operands alone: ROW_VERIFY, REWRITE, DIE_TEMP_SAMPLE, TILE_EMBER_IDLE, TILE_PEAT_IDLE, TILE_WAKE, TILE_FAULT. -/
def Obligations.TileCommands : Prop :=
  (∀ (t c d b row : Nat) (l : List (List Nat)) (s : State) (k : DieBlock) (pages : List SuperPlace), unitsExist t c d = true → b < parityBlock →
    k = (s.tile t).blockAt c d b → pages = (s.tile t).rowPages k.region k.superblock row → (s.tile t).inUse = true →
    (s.tile t).state = 0 → (s.tile t).verifies k.region k.superblock row = true →
    pages.any (fun e => !s.verifyNext t ((s.tile t).dieAt e.channel e.die) e.block row) = false →
    ∀ w u : State, w = s.mapTile t (fun y => y.dropVerify k.region k.superblock row) →
    u = pages.foldl (fun s e => s.sensed t e.channel e.die e.block (pageCodewords l e.pos)) w →
    ((pages.filter fun e => w.pageFails (pageCodewords l e.pos)) = [] → exec (.rowVerify t c d b row l) s =
      .next (pages.foldl (fun (s : State) e => s.mapTile t fun y => y.mapBlock e.channel e.die e.block fun k => k.verify row)
        (u.mapTile t fun y => y.parityDrop k.region k.superblock row))) ∧
    (∀ first more, (pages.filter fun e => w.pageFails (pageCodewords l e.pos)) = first :: more → exec (.rowVerify t c d b row l) s =
      .next ((first :: more).foldl (fun (s : State) e => s.failPage t row more.isEmpty e)
        ((u.bump (tileIndex t) 0x0E 1).raise 0xA803 (dieUnit t first.channel first.die) first.block row 0)))) ∧
  (∀ (t c d b : Nat) (s u : State), unitsExist t c d = true → b < parityBlock → u = s.landMoves →
    ((u.tile t).blockAt c d b).queued ≠ 0 → u.gap = false → (u.tile t).inUse = true → u.erasePending t c d b = false →
    u.settled t c d b = true → u.movesInto t c d b = false →
    (u.slotsIn t c d b ≠ [] → exec (.rewrite t c d b) s = .next (u.startMoves t c d b ((u.tile t).blockAt c d b).queued)) ∧
    (u.slotsIn t c d b = [] → ∀ v : State, v = ((u.handForErase t c d b).mapTile t fun y => y.mapBlock c d b fun k => { k with queued := 0 }) →
      (((u.tile t).blockAt c d b).queued = 1 → exec (.rewrite t c d b) s = .next (v.bump (tileIndex t) 0x10 1)) ∧
      (((u.tile t).blockAt c d b).queued = 2 → exec (.rewrite t c d b) s = .next (v.bump (tileIndex t) 0x11 1)))) ∧
  (∀ (t c d : Nat) (x : Int) (sensor : Bool) (s u v : State) (e : Die) (y : Tile), unitsExist t c d = true →
    e = (s.tile t).dieAt c d →
    u = (if sensor ∨ e.sensorFailed then s else s.raise 0xA401 (dieUnit t c d) 0 0 0) →
    y = { (s.tile t).putDie { e with temp := x, sensorFailed := !sensor } with
          tempUs := (s.tile t).tempUs.modify (historyBucket (s.tile t).hottest) (· + (u.now - (s.tile t).tempAt)), tempAt := u.now } →
    v = (u.mapTile t fun _ => y).putNum (tileIndex t) 0x15 (clampI 32 y.hottest) →
    (v.signed (tileIndex t) 0x16 < y.hottest →
      exec (.dieTempSample t c d x sensor) s = .next (v.putNum (tileIndex t) 0x16 (clampI 32 y.hottest))) ∧
    (¬ v.signed (tileIndex t) 0x16 < y.hottest → exec (.dieTempSample t c d x sensor) s = .next v)) ∧
  (∀ (t : Nat) (s : State), t < 64 →
    ((s.tile t).state = 0 → (s.tile t).isolated = false → s.tileIdle t = true → (s.tile t).idleSince + s.num 0xA000 0 ≤ s.now →
      exec (.tileEmberIdle t) s = .next (s.mapTile t fun y => { y with state := 1, idleSince := s.now })) ∧
    ((s.tile t).state = 1 → s.tileIdle t = true → (s.fastHolder t = false ∨ s.num 0x4000 0 = 0) →
      ((s.tile t).peatStep = 0 → s.num 0xA000 1 ≠ 0 → (s.tile t).idleSince + s.num 0xA000 1 * 1000 ≤ s.now →
        exec (.tilePeatIdle t) s = .next (s.mapTile t fun y => { y with peatStep := y.peatStep + 1 })) ∧
      ((s.tile t).peatStep = 1 → exec (.tilePeatIdle t) s = .next (s.mapTile t fun y => { y with peatStep := y.peatStep + 1 })) ∧
      (2 ≤ (s.tile t).peatStep → exec (.tilePeatIdle t) s = .next (s.mapTile t fun y => { y with state := 2, peatStep := 0 }))) ∧
    (s.tileIdle t = false → ((s.tile t).state = 1 ∨ (s.tile t).state = 2) → exec (.tileWake t) s =
      .next ((s.mapTile t fun y => { y with state := 0, peatStep := 0, idleSince := s.now }).bump (tileIndex t)
        (if (s.tile t).state = 1 then 0x13 else 0x14) 1))) ∧
  (∀ (u : UnitId) (kind : Nat) (l : List Nat) (s : State), faultTiles u kind = some l → (l.filter fun t => (s.tile t).inUse) ≠ [] →
    exec (.tileFault u kind) s = .next ((l.filter fun t => (s.tile t).inUse).foldl (fun (s : State) t => s.isolate (tileUnit t) 1)
      (s.raise 0xA807 u.word kind 0 0)))

/-- the Warden lease and its outputs (R458, R459, R460, R461, R462, R463, R465, R476).
While the arbiter runs, a renewal of the holder without a mismatch extends the lease to 50 µs from now, and one of another Warden is counted and does nothing else. A pair mismatch takes its Warden's eligibility, is counted and recorded; the holder's makes a drop due and starts the gap of R465, the standby's takes it out. A drop that is due, and whose request (where a frame or command asked for it) is answered, ends the lease (a drop asked for starts the gap); so does, counted, its expiry when the 50th tick has passed, the gap then running from the last renewal. In a tick after a lease end the eligible next Warden holds the lease for 50 µs and installs the start-up table, and a change of holder is counted. Outside a gap a delivery note moves the output number on and ends the switch-over; a standby whose output differed is counted, recorded and taken out. An output of a Warden that does not hold the lease is counted and recorded.
Its conclusion for each of these rows is that exec answers a next state, the row's own effect, under conditions on the
state and the operands alone: LEASE_RENEWAL, PAIR_MISMATCH, LEASE_DROP, LEASE_EXPIRY, LEASE_GRANT, DELIVERY_NOTE, GATED_OUTPUT, SWITCHOVER_REQUEST. -/
def Obligations.LeaseCommands : Prop :=
  (∀ (w : Warden) (s : State), s.leaseFrozen = false →
    (s.wdn.holder ≠ some w → exec (.leaseRenewal w) s = .next (s.bump 0xB010 0x05 1)) ∧
    (s.wdn.holder = some w → (s.warden w).mismatch = false → exec (.leaseRenewal w) s = .next { s with wdn.leaseEnd := s.now + 50 })) ∧
  (∀ (w : Warden) (s v u : State), (s.warden w).mismatch = false → (s.warden w).state ≠ 4 →
    v = (s.mapWarden w fun x => { x with mismatch := true, eligible := false }) →
    u = ((v.bump 0xB010 (2 + w.num) 1).raise 0xB801 w.unit v.wdn.outSeq 0 0) →
    (u.wdn.holder = some w → exec (.pairMismatch w) s = .next { u with wdn.dropWanted := some (w, 1), wdn.gapFrom := u.now }) ∧
    (u.wdn.holder ≠ some w → exec (.pairMismatch w) s = .next (u.wardenOut w))) ∧
  (∀ (w : Warden) (cause : Nat) (s : State), s.wdn.dropWanted = some (w, cause) → s.wdn.holder = some w →
    (cause = 3 → s.switchAnswered = true) → exec (.leaseDrop w) s = .next (s.endLease w cause (if cause = 1 then s.wdn.gapFrom else s.now))) ∧
  (∀ (w : Warden) (s : State), s.wdn.holder = some w → s.leaseFrozen = false → s.wdn.leaseEnd < s.now →
    exec .leaseExpiry s = .next ((s.bump 0xB010 0x04 1).endLease w 2 (s.wdn.leaseEnd - 50))) ∧
  (∀ (w x : Warden) (s u : State) (t c : Nat), s.wdn.holder = none → s.leaseFrozen = false → s.wdn.ended = some (t, c, x) → t < s.now →
    s.nextHolder = some w →
    u = (({ s with wdn.holder := some w, wdn.leaseEnd := s.now + 50 }.mapWarden w fun x => { x with state := 0 }).mapWarden w.other
      fun x => if x.eligible then { x with state := 1 } else x).installTable →
    (x ≠ w → exec .leaseGrant s = .next (u.bump 0xB010 0x01 1)) ∧ (x = w → exec .leaseGrant s = .next u)) ∧
  (∀ (seq digest own : Nat) (s u : State), s.gap = false → u = { s with wdn.outSeq := (seq + 1) % 2 ^ 32 }.closeGap →
    ((u.standby = none ∨ digest = own) → exec (.deliveryNote seq digest own) s = .next u) ∧
    (∀ w, u.standby = some w → digest ≠ own → exec (.deliveryNote seq digest own) s =
      .next (((u.bump 0xB010 0x0B 1).raise 0xB804 w.unit seq 0 0).wardenOut w))) ∧
  (∀ (w : Warden) (seq : Nat) (s : State), s.wdn.holder ≠ some w → exec (.gatedOutput w seq) s =
    .next ((s.bump 0xB010 0x06 1).raise 0xB803 w.unit seq 0 0)) ∧
  (∀ (r : Requester) (v : OdVal) (s : State) (w : Warden), s.takesWrite r 0xB006 0 v → s.wdn.holder = some w →
    s.standby = some w.other → exec (.switchoverRequest r v) s =
    .next (s.writeAnswered { s with wdn.dropWanted := some (w, 3) } r 0xB006 0))

/-- resynchronisation, restart and the AON clock (R458, R470, R473, R475, R557).
Outside a gap the standby, fallen more than 65,536 inputs behind, leaves step. The holder starts to copy its state to a Warden that waits for it; within 30 ms the Warden is eligible again and counted; after 28 ms with more than 4 MiB left the copy is given up for 1 s, counted and recorded. A lone Warden that restarted is eligible. A stop of the AON clock takes the lease; its return advances device time by the stop, is counted outside Hold, and recorded.
Its conclusion for each of these rows is that exec answers a next state, the row's own effect, under conditions on the
state and the operands alone: STANDBY_LEAVES_STEP, RESYNC_START, RESYNC_COMPLETE, RESYNC_ABANDONED, WARDEN_RESTART_DONE, AON_CLOCK_STOP, AON_CLOCK_RESTORE. -/
def Obligations.WardenRecoveryCommands : Prop :=
  (∀ (s : State) (w : Warden), s.standby = some w → s.gap = false → exec .standbyLeavesStep s = .next (s.mapWarden w fun x => { x with eligible := false, state := 3 })) ∧
  (∀ (w : Warden) (s : State), s.wdn.holder = some w.other → (s.warden w).state = 3 → s.wdn.resync = none →
    s.wdn.resyncAfter ≤ s.now → exec (.resyncStart w) s =
      .next ({ s with wdn.resync := some (w, s.now) }.transfer (wardenLane w.other) (wardenLane w) 3 false noTask wardenMemory)) ∧
  (∀ (w : Warden) (start : Nat) (s : State), s.wdn.resync = some (w, start) →
    (s.now ≤ start + 30000 → exec .resyncComplete s = .next
      (({ s with wdn.resync := none }.mapWarden w fun x => { x with eligible := true, state := 1 }).bump 0xB010 0x09 1)) ∧
    (∀ n, start + 28000 ≤ s.now → 4194304 < n → exec (.resyncAbandoned n) s = .next
      (({ s with wdn.resync := none, wdn.resyncAfter := s.now + 1000000 }.bump 0xB010 0x0A 1).raise 0xB405 w.unit (clampU 32 n) 0 0))) ∧
  (∀ (w : Warden) (s : State), (s.warden w).state = 5 → exec (.wardenRestartDone w) s =
    .next ((s.mapWarden w fun x => { x with eligible := true, state := 1 }).bump 0xB005 0 1)) ∧
  (∀ s : State, s.wdn.clockStopped = false →
    (s.wdn.holder = none → exec .aonClockStop s = .next { s with wdn.clockStopped := true }) ∧
    (∀ w, s.wdn.holder = some w → exec .aonClockStop s = .next ({ s with wdn.clockStopped := true }.clockTakes w) ∧
      ({ s with wdn.clockStopped := true }.clockTakes w).wdn.holder = none)) ∧
  (∀ (us : Nat) (s u : State) (wake : WardenS → WardenS), s.wdn.clockStopped = true →
    (wake = fun x => if x.state = 6 then { x with state := 1 } else x) →
    u = (({ s with wdn.clockStopped := false, pch.devTime := s.pch.devTime + us }.mapWarden .a wake).mapWarden .b wake) →
    (u.pch.power = .hold → exec (.aonClockRestore us) s = .next (u.raise 0xB806 arbiterUnit (us % 2 ^ 32) (us / 2 ^ 32) 0)) ∧
    (u.pch.power ≠ .hold → exec (.aonClockRestore us) s =
      .next ((u.bump 0xB010 0x0C 1).raise 0xB806 arbiterUnit (us % 2 ^ 32) (us / 2 ^ 32) 0)))

/-- requests on the management segment (R501, R505, R506, R507, R509, R511).
With aux power and no quiet, a READ, a WRITE and another frame that the MAC accepts, whose area is whole and that may be broadcast where it is, are counted and join the requests held, of which at most 4 are, and are served in order; a fifth is dropped; a QUIET_PROPOSE that is well-formed is counted and proposes its quiet, an ill-formed one answers BAD_REQUEST; frames of other modules are counted only; one not accepted is dropped and counted. A staged write with no window for 10 s is gone and counted; a kept response is gone 1 s after it was made.
Its conclusion for each of these rows is that exec answers a next state, the row's own effect, under conditions on the
state and the operands alone: READ, WRITE, SEGMENT_OTHER_FRAME, STAGED_WRITE_EXPIRY, SEG_RESPONSE_EXPIRY. -/
def Obligations.SegmentRequests : Prop :=
  (∀ (f : DictFrame) (s u : State), f.ok = true → s.aonOn = true → s.msv.segment.quiet = 0 → f.area.length = f.length →
    f.broadcast = false → u = s.bump 0xE010 0x01 1 →
    (s.msv.segment.requests.length < 4 → ∀ t : State,
      t = State.serveHeld { u with msv.segment.requests := u.msv.segment.requests ++ [{ f with area := f.area.take f.length }] } 5 →
      (f.op = 1 → exec (.read f) s = .next t) ∧ (f.op = 2 → exec (.write f) s = .next t) ∧
      (f.op = 3 → exec (.segmentOtherFrame f true) s = .next t)) ∧
    (4 ≤ s.msv.segment.requests.length → (f.op = 1 → exec (.read f) s = .next u.dropFrame) ∧
      (f.op = 2 → exec (.write f) s = .next u.dropFrame)) ∧
    (f.op = 0x20 → headBad f (f.length == 8) = none →
      exec (.segmentOtherFrame f true) s = .next (s.propose (numAt f.area 0 4) (numAt f.area 4 4))) ∧
    (∀ sub at_, f.op = 0x20 → headBad f (f.length == 8) = some (sub, at_) →
      exec (.segmentOtherFrame f true) s = .next (u.segRespond f stBadRequest (errorArea sub at_))) ∧
    ((f.op = 0x10 ∨ f.op = 0x11 ∨ f.op = 0x21 ∨ f.op = 0x22 ∨ 128 ≤ f.op) → exec (.segmentOtherFrame f true) s = .next u) ∧
    exec (.segmentOtherFrame f false) s = .next s.dropFrame) ∧
  (∀ (s : State) (x : StagedWrite), s.msv.segment.staged = some x → s.msv.service.staged = none → x.last + 10000000 ≤ s.now →
    exec .stagedWriteExpiry s = .next ({ s with msv.segment.staged := none }.bump 0xE010 0x0C 1)) ∧
  (∀ (s : State) (x : StagedWrite), s.msv.service.staged = some x → s.msv.segment.staged = none → x.last + 10000000 ≤ s.now →
    exec .stagedWriteExpiry s = .next ({ s with msv.service.staged := none }.bump 0xE010 0x0C 1)) ∧
  (∀ (source seq : Nat) (s : State), ∃ t, exec (.segResponseExpiry source seq) s = .next t ∧
    (∀ e, e ∈ t.msv.segment.kept ↔ e ∈ s.msv.segment.kept ∧ ¬ (e.1.source = source ∧ e.1.seq = seq ∧ e.2.2 + 1000000 ≤ s.now)) ∧
    t = { s with msv.segment.kept := t.msv.segment.kept })

/-- heartbeats, alerts, quiet, wake and PLCA (R502, R503, R512, R513, R514, R515, R516, R517, R518).
With no quiet, a due heartbeat and a due alert are sent. A PROPOSE with a delay of 5 to 1,000 ms makes a quiet pending and an acknowledgement due, one with another delay is refused; the acknowledgement is sent when it is due. A pending quiet commits at its time with the MAC off, is abandoned by a frame or a need to send before it, and energy or a need to send after it starts WAKE_SETTLE, which ends with the MAC on. The coordinator sends beacons; a beacon keeps the follower in PLCA, 4 ms without one make it wait; a collision is counted, and the sixteenth within 1 s turns PLCA off and is recorded.
Its conclusion for each of these rows is that exec answers a next state, the row's own effect, under conditions on the
state and the operands alone: HEARTBEAT, ALERT_NOTIFY, QUIET_PROPOSE, QUIET_ACK, QUIET_COMMIT, QUIET_ABANDON, WAKE, WAKE_SETTLE_END, PLCA_BEACON, BEACON_RECEIVED, PLCA_BEACON_TIMEOUT, PLCA_COLLISION. -/
def Obligations.SegmentSignals : Prop :=
  (∀ s : State, s.aonOn = true → s.msv.segment.quiet = 0 → s.due s.msv.segment.holdUntil = true →
    (s.pch.power ≠ .hold → s.num 0xE00A 0 ≠ 0 → s.due s.msv.segment.heartbeatDue = true → exec .heartbeat s =
      .next ({ s with msv.segment.heartbeatDue := s.now + s.num 0xE00A 0 * 1000 }.segSend (.segHeartbeat s.beatArea))) ∧
    (s.alertDue = true → exec .alertNotify s = .next
      ({ s with msv.segment.alertSeen := s.maskedSummary, msv.segment.alertSent := some s.now }.segSend (.segAlert s.beatArea)))) ∧
  (∀ (source id delay : Nat) (s : State), fits 48 source = true → fits 32 id = true → fits 32 delay = true → s.aonOn = true →
    s.msv.segment.quiet = 0 → exec (.quietPropose source id delay) s = .next (s.propose id delay) ∧
    (5000 ≤ delay → delay ≤ 1000000 → (s.propose id delay).msv.segment.quiet = 1 ∧
      (s.propose id delay).msv.segment.quietAt = s.now + delay ∧ (s.propose id delay).msv.segment.ackWanted = some (id, stOk)) ∧
    ((delay < 5000 ∨ 1000000 < delay) → (s.propose id delay).msv.segment.ackWanted = some (id, stRange))) ∧
  (∀ (s : State) (id st : Nat), s.aonOn = true → s.msv.segment.quiet ≤ 1 → s.commitQuiet = s →
    s.msv.segment.ackWanted = some (id, st) → s.due s.msv.segment.ackAt = true →
    exec .quietAck s = .next ({ s with msv.segment.ackWanted := none }.segSend (.segQuietAck id st))) ∧
  (∀ s : State, s.msv.segment.quiet = 1 →
    (s.msv.segment.quietAt ≤ s.now → ∃ t, exec .quietCommit s = .next t ∧ t.msv.segment.quiet = 2 ∧ t.msv.segment.macOn = false ∧
      t.msv.segment.ackWanted = none) ∧
    (s.now < s.msv.segment.quietAt → exec (.quietAbandon false) s = .next
        ({ s with msv.segment.quiet := 0, msv.segment.ackWanted := none }.bump 0xE010 0x0A 1) ∧
      exec (.quietAbandon true) s = .next s.sendWake)) ∧
  (∀ s : State, s.msv.segment.quiet = 2 → s.aonOn = true → exec .wake s =
    .next ({ s with msv.segment.quiet := 3, msv.segment.settleAt := s.now + 2000 }.bump 0xE010 0x0B 1)) ∧
  (∀ s : State, s.msv.segment.quiet = 3 → s.due s.msv.segment.settleAt = true → exec .wakeSettleEnd s =
    .next { s with msv.segment.quiet := 0, msv.segment.macOn := true }) ∧
  (∀ s : State, s.aonOn = true → s.msv.segment.plca = 3 → s.msv.segment.quiet ≤ 1 → exec .plcaBeacon s = .next (s.emit .segBeacon)) ∧
  (∀ s : State, s.aonOn = true → s.msv.segment.macOn = true → (s.msv.segment.plca = 1 ∨ s.msv.segment.plca = 2) →
    exec .beaconReceived s = .next { s with msv.segment := { s.msv.segment with plca := 2, lastBeacon := s.now } }) ∧
  (∀ s : State, s.msv.segment.plca = 2 → s.due (s.msv.segment.lastBeacon + 4000) = true → exec .plcaBeaconTimeout s =
    .next { s with msv.segment.plca := 1 }) ∧
  (∀ (s u : State) (l : List Nat), s.aonOn = true → (s.msv.segment.plca = 2 ∨ s.msv.segment.plca = 3) →
    u = (s.bump 0xE010 0x07 1).bump 0xE010 0x08 1 → l = s.now :: s.msv.segment.collisions.filter (fun t => decide (s.now < t + 1000000)) →
    (l.length < 16 → exec .plcaCollision s = .next { u with msv.segment.collisions := l }) ∧
    (16 ≤ l.length → exec .plcaCollision s = .next
      ({ u with msv.segment.collisions := [], msv.segment.plca := 4 }.raise 0xE402 (wholeUnit 0xE) s.msv.segment.nodeId 0 0)))

/-- epochs, metering and wall time (R527, R528, R532, R533, R535, R536, R539).
While metering runs, an open epoch whose end wall time has reached closes and the one that contains wall time opens. Every 1 ms of device time each account's usage is integrated; every 1 s the accounts and the epoch are copied to the Journal Store. A write of EPOCH_LENGTH with another length closes the epoch and opens one of the new length; a write of WALL_TIME steps wall time to its value; a new UTC offset steps it by the difference.
Its conclusion for each of these rows is that exec answers a next state, the row's own effect, under conditions on the
state and the operands alone: EPOCH_CLOSE, BYTE_SECONDS_SAMPLE, METERING_CHECKPOINT, EPOCH_LENGTH, WALL_TIME, UTC_OFFSET_CHANGE. -/
def Obligations.MeteringAndTimeCommands : Prop :=
  (∀ s : State, s.metersRun = true → s.cqc.epoch.endNs ≤ s.wall.toNat → exec .epochClose s = .next (s.advanceEpoch 0).frameWakes ∧
    (s.advanceEpoch 0).cqc.epoch = { startNs := boundary s.cqc.epoch.minutes s.wall.toNat, minutes := s.cqc.epoch.minutes, flags := 0 }) ∧
  (∀ s : State, s.wall.toNat < s.cqc.epoch.endNs → exec .epochClose s = .next s) ∧
  (∀ s : State, s.cqc.sampledAt + 1000 ≤ s.now → exec .byteSecondsSample s = .next
    { s with cqc.accounts := s.cqc.accounts.map fun a => { a with byteMs := a.byteMs + a.usageBytes },
             cqc.sampledAt := s.cqc.sampledAt + 1000 }) ∧
  (∀ s : State, s.cqc.checkpointAt + 1000000 ≤ s.now → exec .meteringCheckpoint s = .next
    { s with cqc.checkpoint := (s.cqc.accounts, s.cqc.epoch), cqc.checkpointAt := s.now }) ∧
  (∀ (r : Requester) (n : Nat) (s : State), s.takesWrite r 0x3200 0 (.num n) → n ≠ s.cqc.epoch.minutes → ∃ u : State, exec (.epochLength r (.num n)) s =
    .next (s.writeAnswered (u.putNum 0x3200 0 n) r 0x3200 0) ∧
    u.cqc.epoch = { startNs := boundary n (s.closeEpoch 0x10).wall.toNat, minutes := n, flags := 0x10 }) ∧
  (∀ (r : Requester) (n : Nat) (s : State), s.takesWrite r 0xD100 0 (.num n) → n < 4294967296 * 1000000000 →
    exec (.wallTime r (.num n)) s = .next (s.writeAnswered ((s.stepWall (n - s.wall) 1).putNum 0xD101 0 1) r 0xD100 0)) ∧
  (∀ (offset : Int) (s : State), s.dpx.ptp.state = 3 → s.dpx.ptp.utcOffset ≠ offset → exec (.utcOffsetChange offset) s =
    .next ({ s with dpx.ptp.utcOffset := offset }.stepWall ((s.dpx.ptp.utcOffset - offset) * 1000000000) 3))

/-- supplies, start-up and Hold (R546, R552, R553, R556, R565, R567, R568, R627, R635).
Main power good begins a start-up at step 1, or resumes from Hold. Each step's end goes to the next with its time kept: the second lets the units be tested, the third makes the Wardens eligible and boots the firmware, or stops where neither is eligible, the fourth unwraps the keys and replays the journal, the fifth enters Ready-WT and the sixth, once the bank is tested and the flush verified, loads the pinned pages, and with all of them in the cache loads the Key CAM and enters Ready. A fall of main power in a running state without a pending Hold starts the flush, with one it enters Hold. Without aux from Hold the module goes off; aux applied from Off starts the AON domain.
Its conclusion for each of these rows is that exec answers a next state, the row's own effect, under conditions on the
state and the operands alone: MAIN_POWER_GOOD, STARTUP_STEP_DONE, POWER_LOSS_DETECT, HOLD_ENTRY, AUX_REMOVED, AUX_APPLIED. -/
def Obligations.StartupAndSupplyCommands : Prop :=
  (∀ (mv : Nat) (s : State), s.pch.pwrdis = false → s.pch.mainGood = false → s.pch.flushing = none →
    (s.pch.power = .startUp → exec (.mainPowerGood mv) s = .next
      { ({ s with pch.mainPower := true, pch.mainGood := true }.beginStart 1 1) with pch.bankMv := mv, pch.firewood := .charging }) ∧
    (s.pch.power = .off → exec (.mainPowerGood mv) s = .next
      { ({ s with pch.mainPower := true, pch.mainGood := true }.aonStart.beginStart 1 1) with
          pch.bankMv := mv, pch.firewood := .charging }) ∧
    (s.pch.power = .hold → exec (.mainPowerGood mv) s = .next ({ s with pch.mainPower := true, pch.mainGood := true }.resumeHold mv))) ∧
  (∀ (ms : Nat) (s : State), s.pch.outOfService = false → s.pch.bootStopped = false → s.pch.flushing = none → s.pch.mainGood = true →
    (s.pch.power = .startUp → s.pch.step = 1 → s.pch.mrst = false → s.pch.resetWanted = false →
      exec (.startupStepDone ms []) s = .next ({ s with pch.step := 2 }.stepTime 1 ms).powerJsr) ∧
    (s.pch.power = .startUp → s.pch.step = 2 → exec (.startupStepDone ms []) s = .next ({ s with pch.step := 3 }.stepTime 2 ms)) ∧
    (∀ (l : List UnitId) (u : State), l.all UnitId.listed = true → s.pch.power = .startUp → s.pch.step = 3 →
      u = (((l.foldl (fun (s : State) u => s.powerUpFail u) s).wardensStart).stepTime 3 ms) →
      (u.wdn.wardenA.eligible = true ∨ u.wdn.wardenB.eligible = true) →
      exec (.startupStepDone ms l) s = .next { u with msv.kiln.limitsOk := true, pch.step := 4 }.bootFirmware) ∧
    (s.pch.power = .startUp → s.pch.step = 4 →
      exec (.startupStepDone ms []) s = .next (({ s with pch.step := 5 }.stepTime 4 ms).unwrapKeys.replay)) ∧
    (s.pch.power = .startUp → s.pch.step = 5 →
      exec (.startupStepDone ms []) s = .next ({ s with pch.power := .readyWt, pch.step := 6 }.stepTime 5 ms)) ∧
    (s.pch.power = .readyWt → s.pch.step = 6 → s.plc.flushImage = [] → s.pch.tested = true →
      (s.loadPinned.asu.pages.all (fun p => !p.pinned || p.detached || (p.cached && !p.unreadable)) = true →
        exec (.startupStepDone ms []) s = .next ((s.loadPinned.stepTime 6 ms).preloadAll.enterReady ms)) ∧
      (s.loadPinned.asu.pages.all (fun p => !p.pinned || p.detached || (p.cached && !p.unreadable)) = false →
        exec (.startupStepDone ms []) s = .next s.loadPinned))) ∧
  (∀ s : State, s.pch.mainPower = true → (s.pch.power = .ready ∨ s.pch.power = .active ∨ s.pch.power = .readyWt) →
    (s.holdPending = false → exec (.powerLossDetect 1) s = .next
      ({ s with pch.mainPower := false, pch.mainGood := false, pch.resetWanted := false }.startFlush 1)) ∧
    (s.holdPending = true → exec (.powerLossDetect 1) s = .next s.enterHold ∧ exec .holdEntry s = .next s.enterHold)) ∧
  (∀ s : State, s.pch.aux = true →
    (s.pch.power = .hold → exec .auxRemoved s = .next { s with pch.aux := false }.goOff) ∧
    (s.pch.power = .ready → exec .auxRemoved s = .next { s with pch.aux := false })) ∧
  (∀ (a : Nat) (s : State), s.pch.aux = false →
    (s.pch.power = .off → exec (.auxApplied a) s = .next { s with pch.aux := true, pch.slotAddress := a % 32 }.aonStart) ∧
    (s.pch.power ≠ .off → exec (.auxApplied a) s = .next { s with pch.aux := true }))

/-- flush end, resets, Doze and device time (R404, R547, R548, R549, R554, R556, R569, R570, R571, R631, R632).
A flush that wrote its map-root record, for which the journal has room, ends with its times and energy kept and its event, and holds the module on aux or off where main is gone. MRST_N held below 2 µs is counted as filtered, from 10 µs on it is recognised; its release lets the core restart. PWRDIS opens main; its release closes it. A write of 1 to MODULE_RESET wakes from Doze and starts the drain. The entry to Doze begins when it is due and goes on a step at a time; where a frame came it wakes after its step, and counts an entry given up in its last step; a wake from Doze or from its entry ends it. Device time is saved every 1 s, and the trim of its clock is reported. A module out of service drops its links.
Its conclusion for each of these rows is that exec answers a next state, the row's own effect, under conditions on the
state and the operands alone: FLUSH_END, MRST_N_ASSERT, MRST_N_RELEASE, PWRDIS_ASSERT, PWRDIS_RELEASE, MODULE_RESET, DOZE_ENTRY, DOZE_WAKE, DEVICE_TIME_CHECKPOINT, AON_TRIM, MODULE_OUT_OF_SERVICE. -/
def Obligations.FlushResetAndDozeCommands : Prop :=
  (∀ (mv mj cause : Nat) (s u : State), s.pch.flushing = some cause → s.pch.mainGood = false → s.flushRecords = true →
    u = ((s.lastFlush s.pch.flushBytes mj mv cause true).flushDone).raise 0xD005 (unitId 0xD 1)
      (clampU 32 (s.pch.flushBytes / 1048576)) (clampU 32 (s.now - s.pch.flushAt)) (clampU 32 mj) →
    exec (.flushEnd mv mj true) s =
      .next { u with pch.flushing := none, pch.bankMv := mv, pch.firewood := .charging }.unpowerJsr.holdStart) ∧
  (∀ (us : Nat) (s : State), s.pch.mrst = false →
    (us < 2 → s.pch.power ≠ .off → exec (.mrstNAssert us) s = .next (s.bump 0xD068 0x02 1)) ∧
    (10 ≤ us → exec (.mrstNAssert us) s = .next { s with pch.mrst := true }.mrstRecognised)) ∧
  (∀ s : State, s.pch.mrst = true → exec .mrstNRelease s = .next s.mrstReleased) ∧
  (∀ s : State, s.pch.pwrdis = false → s.pch.power ≠ .off → s.pch.mainPower = true →
    exec .pwrdisAssert s = .next (({ s with pch.pwrdis := true }.bump 0xD068 0x01 1).mainRemoved 2)) ∧
  (∀ s : State, exec .pwrdisRelease s = .next { s with pch.pwrdis := false }) ∧
  (∀ (r : Requester) (s : State), s.takesWrite r 0xD010 0 (.num 1) → exec (.moduleReset r (.num 1)) s =
    .next (s.writeAnswered (((s.wakeUp).startDrain .reset).putNum 0xD010 0 1) r 0xD010 0)) ∧
  (∀ s : State, (s.pch.dozeStep = 0 → s.dozeDue = true → exec .dozeEntry s = .next (s.dozeAdvance 1)) ∧
    (s.pch.dozeStep ≠ 0 → exec .dozeEntry s = .next s.dozeNext ∧
      (s.pch.wakeWanted = false → s.dozeNext = s.dozeAdvance (s.pch.dozeStep + 1)) ∧
      (∀ u : State, s.pch.wakeWanted = true → u = s.dozeAdvance (s.pch.dozeStep + 1) →
        (u.pch.dozeStep ≠ 0 → s.dozeNext = u.wakeUp) ∧ (u.pch.dozeStep = 0 → s.dozeNext = u.wakeUp.bump 0x3010 0x0C 1)))) ∧
  (∀ s : State, (s.pch.power = .doze ∨ s.pch.dozeStep ≠ 0) → exec .dozeWake s = .next s.wakeUp ∧ s.wakeUp.pch.dozeStep = 0 ∧
    s.wakeUp.pch.power ≠ .doze) ∧
  (∀ s : State, s.aonOn = true → s.pch.devSaved + 1000000 ≤ s.now → exec .deviceTimeCheckpoint s = .next { s with pch.devSaved := s.now }) ∧
  (∀ (ppm : Int) (s : State), s.aonOn = true → exec (.aonTrim ppm) s = .next (s.putNum 0xD031 0 (clampI 32 ppm))) ∧
  (∀ s : State, ∃ t, exec .moduleOutOfService s = .next t ∧ t.pch.outOfService = true ∧ t.dpx.portA.up = false ∧ t.dpx.portB.up = false)

/-- the hold-up bank and its test (R558, R559, R560, R561, R562, R563, R564).
A due test, and one asked for by a write of 1 to FIREWOOD_TEST_NOW while the module may test, begins; in step 6 of start-up it discharges at once. The discharge starts when the dirty bytes are at or below D_T. A measurement fails with reason 2 for a discharge below 1,000 or above 100,000 µs, 3 for an ESR above 1,000 mΩ and 4 for an energy below 1,650 mJ, and passes else. A charge of at most 20 s leaves the bank full and ready unless its test failed.
Its conclusion for each of these rows is that exec answers a next state, the row's own effect, under conditions on the
state and the operands alone: FIREWOOD_TEST_DUE, FIREWOOD_TEST_NOW, FIREWOOD_DISCHARGE_START, FIREWOOD_TEST_END, CHARGE_COMPLETE. -/
def Obligations.HoldUpBankCommands : Prop :=
  (∀ s : State, s.mayTest = true → s.testDue = true → exec .firewoodTestDue s = .next s.beginTest) ∧
  (∀ s : State, s.pch.power = .readyWt → s.beginTest = { s with pch.firewood := .discharging }) ∧
  (∀ (r : Requester) (s u : State), s.takesWrite r 0xD023 0 (.num 1) → u = s.putNum 0xD023 0 1 →
    exec (.firewoodTestNow r (.num 1)) s = .next (s.writeAnswered (if u.mayTest then u.beginTest else u) r 0xD023 0)) ∧
  (∀ (s : State) (d : Nat), s.pch.testLimit = some d → s.pch.firewood = .waitDischarge → s.dirtyBytes ≤ d →
    exec .firewoodDischargeStart s = .next { s with pch.firewood := .discharging }) ∧
  (∀ (us esr mv mj : Nat) (s : State), s.pch.firewood = .discharging → mj = bankEnergy (5 * us) 4 32000 esr →
    (1000 ≤ us → us ≤ 100000 → esr ≤ 1000 → 1650 ≤ mj →
      exec (.firewoodTestEnd us esr mv) s = .next ({ s with pch.bankMv := mv }.testPasses (5 * us / 4) esr mj mv)) ∧
    ((us < 1000 ∨ 100000 < us) →
      exec (.firewoodTestEnd us esr mv) s = .next ({ s with pch.bankMv := mv }.testFails (5 * us / 4) esr mj mv 2)) ∧
    (1000 ≤ us → us ≤ 100000 → 1000 < esr →
      exec (.firewoodTestEnd us esr mv) s = .next ({ s with pch.bankMv := mv }.testFails (5 * us / 4) esr mj mv 3)) ∧
    (1000 ≤ us → us ≤ 100000 → esr ≤ 1000 → mj < 1650 →
      exec (.firewoodTestEnd us esr mv) s = .next ({ s with pch.bankMv := mv }.testFails (5 * us / 4) esr mj mv 4))) ∧
  (∀ (ms : Nat) (s : State), ms ≤ 20000 →
    ((s.pch.firewood = .charging ∨ s.pch.firewood = .restoring) → exec (.chargeComplete ms) s =
      .next { s with pch.bankMv := 32000, pch.firewood := .ready }) ∧
    (s.pch.firewood = .failed → exec (.chargeComplete ms) s = .next { s with pch.bankMv := 32000, pch.firewood := .failed }))

/-- event records and freezes (R577, R578, R579, R580, R584, R586).
JSR, while powered, writes the first event of its queue, one a µs: one that is equal to the last record but for a time within 1 s merges with it, another is appended with the next sequence number; a fatal one sets FATAL_EVENT. A write of TRUE to RECORDER_FREEZE begins a freeze and is counted; one of FALSE, and its expiry after 10 s, end it with its record.
Its conclusion for each of these rows is that exec answers a next state, the row's own effect, under conditions on the
state and the operands alone: EVENT_WRITE, RECORDER_FREEZE, FREEZE_EXPIRY. -/
def Obligations.RecorderCommands : Prop :=
  (∀ (s u : State) (e : Event) (l : List Event), s.jsr.queue = e :: l → s.jsr.powered = true →
    s.jsr.wroteAt ≠ some s.now → u = { s with jsr.queue := l, jsr.wroteAt := some s.now }.queueDropped →
    exec .eventWrite s = .next (u.writeEvent e 0)) ∧
  (∀ (s : State) (e : Event) (r : Record) (l : List Record), s.jsr.freeze = none → severity e.code ≠ 3 → s.jsr.records = r :: l →
    (r.merges e = true → s.writeEvent e 0 = { s with jsr.records := r.again :: l }.bump 0xC008 0x02 1) ∧
    (r.merges e = false → (s.writeEvent e 0).jsr.records = { ev := e, count := 0, flags := 0, seq := s.jsr.nextSeq } :: r :: l ∧
      (s.writeEvent e 0).jsr.nextSeq = (s.jsr.nextSeq + 1) % 2 ^ 32)) ∧
  (∀ (s : State) (e : Event), severity e.code = 3 → ∃ u : State, s.writeEvent e 0 = u ∧ u.jsr.fatal = true) ∧
  (∀ (r : Requester) (s : State), s.takesWrite r 0xC006 0 (.num 1) → s.jsr.freeze = none → exec (.recorderFreeze r (.num 1)) s =
    .next (s.writeAnswered (({ s with jsr.freeze := some (s.now, r) }.putNum 0xC006 0 1).bump 0xC008 0x06 1) r 0xC006 0)) ∧
  (∀ (r : Requester) (s : State), s.takesWrite r 0xC006 0 (.num 0) → exec (.recorderFreeze r (.num 0)) s =
    .next (s.writeAnswered (s.endFreeze 1) r 0xC006 0)) ∧
  (∀ (s : State) (start : Nat) (r : Requester), s.jsr.freeze = some (start, r) → start + 10000000 ≤ s.now →
    exec .freezeExpiry s = .next (s.endFreeze 2) ∧ (s.endFreeze 2).jsr.freeze = none)

/-- Kiln tests (R592, R593, R594, R596, R597, R598).
A write of KILN_REQUEST with each test code, that is taken, names a unit with that test (the vault test with its confirmation) which may be tested now, and comes while the limits hold and no request runs, starts the test, or waits while another test runs. The targeted test of an isolated unit that is due starts where the limits hold, and is refused where they do not. Measured limits that hold let the first waiting test start; a limit measured broken abandons a test in progress, which then waits. A test's end is kept, counted and recorded; a failed unit is retired; one that passed a requested test is given back, one that passed its targeted test is classed transient.
Its conclusion for each of these rows is that exec answers a next state, the row's own effect, under conditions on the
state and the operands alone: KILN_LOGIC, KILN_MEMORY, KILN_LOGIC_MEMORY, KILN_HOLD_UP, KILN_VAULT_MEMORY, KILN_TARGETED_START, KILN_LIMITS_MET, KILN_LIMITS_LOST, KILN_TEST_END. -/
def Obligations.KilnCommands : Prop :=
  (∀ (r : Requester) (v : OdVal) (s t : State) (b : Bytes) (u : UnitId) (code : Nat), s.takesWrite r 0xE102 0 v →
    b = window (valBytes v) 8 0 8 → u = UnitId.ofWord (numAt b 0 2) → code = numAt b 2 1 → u.testable code = true →
    numAt b 4 4 = (if code = 5 then 0x5641554C else 0) → s.notTestable u = false → s.isHolder u = false →
    s.lastOfKind u = false → s.requestRuns = false → s.msv.kiln.limitsOk = true →
    (s.msv.kiln.test = none → t = s.startTest u code true) →
    (s.msv.kiln.test.isSome = true → t = { s with msv.kiln.waiting := s.msv.kiln.waiting ++ [(u, code, true)] }) →
    (code = 1 → exec (.kilnLogic r v) s = .next (s.writeAnswered t r 0xE102 0)) ∧
    (code = 2 → exec (.kilnMemory r v) s = .next (s.writeAnswered t r 0xE102 0)) ∧
    (code = 3 → exec (.kilnLogicMemory r v) s = .next (s.writeAnswered t r 0xE102 0)) ∧
    (code = 4 → exec (.kilnHoldUp r v) s = .next (s.writeAnswered t r 0xE102 0)) ∧
    (code = 5 → exec (.kilnVaultMemory r v) s = .next (s.writeAnswered t r 0xE102 0))) ∧
  (∀ (u : UnitId) (s : State), u.replicated = true → s.kilnFree u = true → s.msv.kiln.due.any (fun d => d.1 == u) = true →
    (s.health u).state = 1 →
    (s.msv.kiln.limitsOk = true → exec (.kilnTargetedStart u) s = .next (s.startTest u u.targetedTest false)) ∧
    (s.msv.kiln.limitsOk = false → exec (.kilnTargetedStart u) s = .next
      ({ s with msv.kiln.due := s.msv.kiln.due.filter fun d => d.1 != u }.kilnRefused u u.targetedTest s.msv.kiln.brokenLimit.1
        s.msv.kiln.brokenLimit.2 false))) ∧
  (∀ (mv : Nat) (celsius ppm : Int) (s : State), limitsHold mv celsius ppm = true → exec (.kilnLimitsMet mv celsius ppm) s =
    .next { s with msv.kiln.limitMv := mv, msv.kiln.limitC := celsius, msv.kiln.limitPpm := ppm, msv.kiln.limitsOk := true }.startWaiting) ∧
  (∀ (celsius : Int) (s u : State), 105 < celsius → u = { s with msv.kiln := { s.msv.kiln with limitC := celsius, limitsOk := false } } →
    (s.msv.kiln.test = none → exec (.kilnLimitsLost 3 celsius) s = .next u) ∧
    (∀ v code at_ q, s.msv.kiln.test = some (v, code, at_, q) → exec (.kilnLimitsLost 3 celsius) s =
      .next ((u.kilnRefused v code 3 celsius q).limitFrom s.dirtyLimit))) ∧
  (∀ (failures address failBit us : Nat) (s u v w : State) (d : UnitId) (code at_ b : Nat) (q : Bool), s.msv.kiln.test = some (d, code, at_, q) →
    (s.gap = false ∨ d.isWarden = true) →
    u = ({ s with msv.kiln.test := none }.kilnEnded d code 1 us failures address failBit).bump 0xE111 0x01 1 →
    b = (u.takeFree 6).1 → v = (u.takeFree 6).2 → d.replicated = true →
    exec (.kilnTestEnd 1 failures address failBit us) s =
      .next (((((v.raise 0xE805 d.word code b address).bump 0xE111 0x03 1).retireUnit d code).limitFrom s.dirtyLimit).startWaiting) ∧
    (w = ((({ s with msv.kiln.test := none }.kilnEnded d code 0 us failures address failBit).bump 0xE111 0x01 1).raise 0xE004 d.word
        code (clampU 32 us) (if q then 0 else 1)).bump 0xE111 0x02 1 →
      (q = true → exec (.kilnTestEnd 0 failures address failBit us) s = .next ((w.limitFrom s.dirtyLimit).giveBack d).startWaiting) ∧
      (q = false → exec (.kilnTestEnd 0 failures address failBit us) s =
        .next ((w.limitFrom s.dirtyLimit).classTransient d).startWaiting)))

/-- the trace unit (R599, R600, R601, R602, R603, R604).
A write of TRACE_CONTROL turns the unit off or arms it once or continuously with the settings in force. An entry is that of an event that the unit has seen. While fewer than two entries were taken in its core cycle: while the unit is armed one that meets no trigger is recorded where its kind is enabled, and one that meets a trigger, or a write of 1 to TRIGGER_NOW, starts the capture; during the capture an enabled entry takes one of the places left. A read-out capture re-arms the unit in continuous mode and turns it off in once mode; re-arming arms it.
Its conclusion for each of these rows is that exec answers a next state, the row's own effect, under conditions on the
state and the operands alone: TRACE_OFF, TRACE_ARM_ONCE, TRACE_ARM_CONTINUOUS, TRIGGER_NOW, TRACE_ENTRY, CAPTURE_READOUT, TRACE_REARM. -/
def Obligations.TraceCommands : Prop :=
  (∀ (r : Requester) (s : State), (s.takesWrite r 0xE200 0 (.num 0) → exec (.traceOff r (.num 0)) s =
      .next (s.writeAnswered (s.put 0xE200 0 (.num 0)).traceOff r 0xE200 0)) ∧
    (s.takesWrite r 0xE200 0 (.num 1) → exec (.traceArmOnce r (.num 1)) s =
      .next (s.writeAnswered ((s.put 0xE200 0 (.num 1)).armTrace false) r 0xE200 0)) ∧
    (s.takesWrite r 0xE200 0 (.num 2) → exec (.traceArmContinuous r (.num 2)) s =
      .next (s.writeAnswered ((s.put 0xE200 0 (.num 2)).armTrace true) r 0xE200 0)) ∧
    (s.takesWrite r 0xE208 0 (.num 1) → s.msv.trace.state = 1 → exec (.triggerNow r (.num 1)) s =
      .next (s.writeAnswered (s.triggerTrace 4 (s.msv.trace.entryOf 0xB 0 0 0)) r 0xE208 0))) ∧
  (∀ (kind source task data : Nat) (s u : State) (d : Nat × Nat × Option Nat × Nat) (e : Nat × Nat × Nat × Nat × Nat),
    s.msv.trace.due.find? (dueIs kind source task data) = some d → u = { s with msv.trace.due := s.msv.trace.due.erase d } →
    e = s.msv.trace.entryOf kind source (task % 2 ^ 32) data → s.traceRoom = true →
    (s.msv.trace.state = 1 → s.msv.trace.triggerOf kind data ≠ 0 → exec (.traceEntry kind source task data) s =
      .next (u.traceTaken.triggerTrace (s.msv.trace.triggerOf kind data) e)) ∧
    (s.msv.trace.state = 1 → s.msv.trace.triggerOf kind data = 0 → bit s.msv.trace.mask kind = true →
      exec (.traceEntry kind source task data) s =
        .next { u.traceTaken with msv.trace.ring := (e :: s.msv.trace.ring).take traceRing }) ∧
    (s.msv.trace.state = 2 → bit s.msv.trace.mask kind = true → exec (.traceEntry kind source task data) s =
      .next { u.traceTaken with msv.trace.ring := e :: s.msv.trace.ring, msv.trace.postLeft := s.msv.trace.postLeft - 1 }.captureDone)) ∧
  (∀ s : State, s.msv.trace.state = 3 → s.msv.trace.readOut = true →
    (s.msv.trace.continuous = true → exec .captureReadout s = .next { s with msv.trace.state := 4 }) ∧
    (s.msv.trace.continuous = false → exec .captureReadout s = .next { s with msv.trace.state := 0 })) ∧
  (∀ s : State, s.msv.trace.state = 4 → exec .traceRearm s = .next (s.armTrace true) ∧ (s.armTrace true).msv.trace.state = 1 ∧
    (s.armTrace true).msv.trace.ring = [])

/-- private transfers of the service port (R608, R609, R610, R611).
While the AON domain has power: a private write is refused with a NACK and counted while a request is held or a response has not been read; else, after a wake from Doze, one whose length or CRC is wrong is counted and a good one is served. A private read returns the response, which is then read, or a NACK where there is none. A response not read within 1 s is gone and counted.
Its conclusion for each of these rows is that exec answers a next state, the row's own effect, under conditions on the
state and the operands alone: PRIVATE_WRITE, PRIVATE_READ, RESPONSE_EXPIRY. -/
def Obligations.ServicePortTransfers : Prop :=
  (∀ (b : Bytes) (s : State), s.aonOn = true →
    (s.svcBusy = true → exec (.privateWrite b) s = .next ((s.bump 0xE321 0x03 1).emit .i3cNack)) ∧
    (s.svcBusy = false → parseRequest b = none → exec (.privateWrite b) s = .next (s.wakeUp.bump 0xE321 0x02 1)) ∧
    (∀ f, s.svcBusy = false → parseRequest b = some f → exec (.privateWrite b) s = .next (s.wakeUp.svcRequest f))) ∧
  (∀ s : State, s.aonOn = true → (∀ r t q, s.msv.service.response = some (r, t, q) →
      exec .privateRead s = .next ({ s with msv.service.response := some (r, t, true) }.emit (.i3cRead r.bytes))) ∧
    (s.msv.service.response = none → exec .privateRead s = .next (s.emit .i3cNack))) ∧
  (∀ (s : State) r (t : Nat), s.msv.service.response = some (r, t, false) → t + 1000000 ≤ s.now →
    exec .responseExpiry s = .next ({ s with msv.service.response := none }.bump 0xE321 0x04 1))

/-- common commands of the service port (R608).
While the AON domain has power: ENTDAA, and SETDASA to the static address, give a target without a dynamic address the one assigned; RSTDAA takes it; ENEC and DISEC with bit 0 enable and disable in-band interrupts; SETMWL and SETMRL set their maximum, never above 1,048, and GETMWL and GETMRL return it; GETPID, GETBCR and GETDCR return the provisional ID, 0x02 and 0x00; GETSTATUS returns two bytes that the spec leaves open; every other command is answered with a NACK.
Its conclusion for each of these rows is that exec answers a next state, the row's own effect, under conditions on the
state and the operands alone: ENTDAA, SETDASA, RSTDAA, ENEC, DISEC, SETMWL, SETMRL, GETMWL, GETMRL, GETPID, GETBCR, GETDCR, GETSTATUS, UNLISTED_COMMON_COMMAND. -/
def Obligations.CommonCommands : Prop :=
  ∀ s : State, s.aonOn = true →
    (∀ a, s.msv.service.dynAddr = 0 → exec (.entdaa a) s = .next ({ s with msv.service.dynAddr := a % 128 }.emit .i3cAck) ∧
      exec (.setdasa 0x3A a) s = .next ({ s with msv.service.dynAddr := a % 128 }.emit .i3cAck)) ∧
    exec .rstdaa s = .next ({ s with msv.service.dynAddr := 0 }.emit .i3cAck) ∧
    (∀ m, bit m 0 = true → exec (.enec m) s = .next ({ s with msv.service.events := true }.emit .i3cAck) ∧
      exec (.disec m) s = .next ({ s with msv.service.events := false }.emit .i3cAck)) ∧
    (∀ n, exec (.setmwl n) s = .next ({ s with msv.service.mwl := min n 1048 }.emit .i3cAck) ∧
      exec (.setmrl n) s = .next ({ s with msv.service.mrl := min n 1048 }.emit .i3cAck)) ∧
    exec .getmwl s = .next (s.emit (.i3cBytes (natBytes 2 s.msv.service.mwl))) ∧
    exec .getmrl s = .next (s.emit (.i3cBytes (natBytes 2 s.msv.service.mrl))) ∧
    exec .getpid s = .next (s.emit (.i3cBytes (natBytes 6 s.provisionalId))) ∧
    exec .getbcr s = .next (s.emit (.i3cBytes [0x02])) ∧ exec .getdcr s = .next (s.emit (.i3cBytes [0x00])) ∧
    exec .getstatus s = .next ((s.takeFree 20).2.emit (.i3cBytes (natBytes 2 (s.takeFree 20).1))) ∧
    (∀ c, c < 256 → exec (.unlistedCommonCommand c) s = .next (s.emit .i3cNack))

/-- firmware staging, activation and the rollback floor (R614, R615, R616, R617, R619).
A window of FW_IMAGE has its effect on the staging and is answered with its status; a staging with no window for 10 s is dropped. A write of 1 to FW_STAGE_CONTROL with a slot staged, outside start-up, is counted and starts the activation's drain; a write of 2 empties every slot being staged or staged. A write of the lowest unwritten element of FW_FLOOR with a version above the floor and not above the running one is kept for good, and every slot below it fails.
Its conclusion for each of these rows is that exec answers a next state, the row's own effect, under conditions on the
state and the operands alone: FW_IMAGE_WINDOW, FW_STAGING_EXPIRY, FW_ACTIVATE, FW_ABANDON, FW_FLOOR. -/
def Obligations.FirmwareCommands : Prop :=
  (∀ (off len : Nat) (d : Bytes) (s : State), exec (.fwImageWindow off len d) s = .next
    ((s.imageWindow off len d).1.emit (.dictAnswer .service 0xE310 0 (s.imageWindow off len d).2.1 (s.imageWindow off len d).2.2
      (s.imageWindow off len d).1.now))) ∧
  (∀ (s : State) (len : Nat) (d : Bytes), s.sanitizing = false → s.pch.power = .ready → 336 ≤ len → len ≤ 67108864 → d.length < len →
    ∃ t : State, s.imageWindow 0 len d = (t, stOk, 0) ∧ t.msv.fwStaged = some (len, d, s.now) ∧ (t.slot s.stagingTarget).state = 1) ∧
  (∀ (s : State) x, s.msv.fwStaged = some x → x.2.2 + 10000000 ≤ s.now → exec .fwStagingExpiry s = .next s.dropStaging) ∧
  (∀ (r : Requester) (s : State), s.takesWrite r 0xE302 0 (.num 1) → (s.slotIn 2).isSome = true → s.pch.power ≠ .startUp →
    exec (.fwActivate r (.num 1)) s =
      .next (s.writeAnswered (((s.putNum 0xE302 0 1).bump 0xE321 0x06 1).startDrain .activation) r 0xE302 0)) ∧
  (∀ (r : Requester) (s : State), s.takesWrite r 0xE302 0 (.num 2) → ∃ t : State, exec (.fwAbandon r (.num 2)) s =
    .next (s.writeAnswered t r 0xE302 0) ∧ t.msv.fwStaged = none ∧ t.slotIn 1 = none ∧ t.slotIn 2 = none) ∧
  (∀ (i n : Nat) (r : Requester) (s t : State) (e : EntryRow), 1 ≤ i → i ≤ 32 → writeGate s r 0xE305 i (.num n) = stOk →
    s.writesHeld = false → s.msv.held = [] → writeLock s 0xE305 i = stOk → entryAt 0xE305 i = some e → e.rangeOk (.num n) = true → e.access = .w1 →
    s.freeFloor = some i → s.fwFloor < n → n ≤ s.fwVersion → t = (s.putNum 0xE305 i n).failBelow n →
    exec (.fwFloor i r (.num n)) s =
      .next (s.writeAnswered { t with msv.written1 := odKey 0xE305 i :: t.msv.written1 } r 0xE305 i))

end
end

