-- ==== Sys2Proof/Laws/KeepsBase.lean ====
section
/-!
SUPPORT. What every step keeps: the relation `Keeps` between the state before and after an operation, its closure
under the forms operations are written in, and the base operations.
-/
namespace Sys2Proof.Machine

theorem odInsert_mem {l : List (Nat × OdVal)} {k : Nat} {v : OdVal} {e : Nat × OdVal} (h : e ∈ odInsert l k v) :
    e = (k, v) ∨ e ∈ l := by
  induction l with
  | nil => simpa [odInsert] using h
  | cons a l ih =>
    unfold odInsert at h
    split at h
    · simpa [List.mem_cons] using h
    · split at h
      · rcases List.mem_cons.mp h with h | h
        · exact .inl h
        · exact .inr (List.mem_cons_of_mem _ h)
      · rcases List.mem_cons.mp h with h | h
        · exact .inr (h ▸ List.mem_cons_self)
        · exact (ih h).imp_right (List.mem_cons_of_mem _)

theorem odInsert_rising {l : List (Nat × OdVal)} {k : Nat} {v : OdVal} (h : Rising l) : Rising (odInsert l k v) := by
  induction l with
  | nil => simp [odInsert, Rising]
  | cons a l ih =>
    have h1 := List.pairwise_cons.mp h
    unfold odInsert
    split
    · rename_i hk
      refine List.pairwise_cons.mpr ⟨fun e he => ?_, h⟩
      rcases List.mem_cons.mp he with rfl | he
      · exact hk
      · exact Nat.lt_trans hk (h1.1 e he)
    · split
      · rename_i hk
        refine List.pairwise_cons.mpr ⟨fun e he => ?_, h1.2⟩
        have := h1.1 e he
        simp only at this ⊢; omega
      · refine List.pairwise_cons.mpr ⟨fun e he => ?_, ih h1.2⟩
        rcases odInsert_mem he with rfl | he
        · simp only; omega
        · exact h1.1 e he

theorem odErase_sublist (l : List (Nat × OdVal)) (k : Nat) : (odErase l k).Sublist l := by
  induction l with
  | nil => exact .slnil
  | cons a l ih =>
    unfold odErase
    split
    · exact List.sublist_cons_self ..
    · exact ih.cons_cons a

structure Kept where
  pending : List Instr
  out : List Out
  od : List (Nat × OdVal)
  version : Nat
  stripe : Nat
  journal : Nat
  charcoal : Nat
  written1 : List Nat
  dead : Bool
  tiles : Nat
  banks : Nat
  engines : Nat
  pipelines : Nat
  ladders : Nat
  lanes : Nat
  queue : Nat
  aon : Nat
  closed : Nat
  records : Nat

@[reducible] def State.kept (s : State) : Kept :=
  { pending := s.pending, out := s.out, od := s.od, version := s.plc.versionCounter, stripe := s.plc.stripeCounter,
    journal := s.plc.journalSeq, charcoal := s.plc.charcoal, written1 := s.msv.written1, dead := s.pch.outOfService,
    tiles := s.mta.tiles.length, banks := s.asu.banks.length, engines := s.pae.engines.length,
    pipelines := s.cpx.pipelines.length, ladders := s.cpx.ladders.length, lanes := s.cqc.lanes.length,
    queue := s.jsr.queue.length, aon := s.jsr.aon.length, closed := s.cqc.closed.length, records := s.jsr.written }

def Kept.wf (k : Kept) : Prop :=
  Rising k.od ∧ k.tiles = 64 ∧ k.banks = 32 ∧ k.engines = 8 ∧ k.pipelines = 16 ∧ k.ladders = 4 ∧ k.lanes = 8
    ∧ k.queue ≤ 1024 ∧ k.aon ≤ 64 ∧ k.closed ≤ 8760

/-- The invariant of the statements is `Kept.wf`. -/
theorem State.wellShaped_iff (s : State) : s.wellShaped ↔ s.kept.wf := Iff.rfl

structure Kept.Le (a b : Kept) : Prop where
  pending : b.pending = a.pending
  out : a.out <+: b.out
  wf : a.wf → b.wf
  version : a.version ≤ b.version
  stripe : a.stripe ≤ b.stripe
  journal : a.journal ≤ b.journal
  charcoal : a.charcoal ≠ 0 → b.charcoal = a.charcoal
  written1 : a.written1 ⊆ b.written1
  dead : a.dead = true → b.dead = true
  records : a.records ≤ b.records

def Keeps (s t : State) : Prop := s.kept.Le t.kept

theorem Keeps.refl (s : State) : Keeps s s := ⟨rfl, List.prefix_rfl, id, Nat.le_refl _, Nat.le_refl _, Nat.le_refl _, fun _ => rfl, fun _ h => h, id, Nat.le_refl _⟩
theorem Keeps.trans {s t u : State} (h : Keeps s t) (g : Keeps t u) : Keeps s u :=
  ⟨g.pending.trans h.pending, h.out.trans g.out, fun w => g.wf (h.wf w), Nat.le_trans h.version g.version,
   Nat.le_trans h.stripe g.stripe, Nat.le_trans h.journal g.journal,
   fun c => (g.charcoal (by rw [h.charcoal c]; exact c)).trans (h.charcoal c), fun _ m => g.written1 (h.written1 m), fun d => g.dead (h.dead d), Nat.le_trans h.records g.records⟩
theorem Keeps.eq {s t u : State} (h : Keeps s t) (e : u.kept = t.kept) : Keeps s u := by
  unfold Keeps; rw [e]; exact h
theorem Keeps.upd {s t : State} {a b c d e f g i j k l m n o p q r} (_ : a = t.pending) (w : (State.mk a b c d e f g i j k l m n o p q r).kept = t.kept) (h : Keeps s t) : Keeps s (State.mk a b c d e f g i j k l m n o p q r) := h.eq w
theorem Keeps.ite {s a b : State} {c : Prop} [Decidable c] (ha : Keeps s a) (hb : Keeps s b) : Keeps s (if c then a else b) := by split <;> assumption
theorem Keeps.foldl {α} {s v : State} {l : List α} {f : State → α → State} (hf : ∀ t x, Keeps s t → Keeps s (f t x)) (h : Keeps s v) : Keeps s (l.foldl f v) := by
  induction l generalizing v with
  | nil => exact h
  | cons a l ih => exact ih (hf _ _ h)

/-- Every state an option of a state holds is kept. -/
def KeepsO (s : State) (o : Option State) : Prop := ∀ t, o = some t → Keeps s t
def KeepsOP {α} (s : State) (o : Option (α × State)) : Prop := ∀ a t, o = some (a, t) → Keeps s t
def KeepsR (s : State) (o : Host.Outcome State Fault Refusal) : Prop := ∀ t, o = .next t → Keeps s t

theorem Keeps.of2 {α} {s t : State} {a : α} {e : α × State} (w : e = (a, t)) (h : Keeps s e.2) : Keeps s t := by rw [w] at h; exact h
theorem Keeps.of22 {α β} {s t : State} {a : α} {b : β} {e : α × β × State} (w : e = (a, b, t)) (h : Keeps s e.2.2) : Keeps s t := by
  rw [w] at h; exact h
theorem Keeps.of1 {α} {s t : State} {a : α} {e : State × α} (w : e = (t, a)) (h : Keeps s e.1) : Keeps s t := by rw [w] at h; exact h
theorem Keeps.ofO {s t : State} {e : Option State} (w : e = some t) (h : KeepsO s e) : Keeps s t := h _ w
theorem Keeps.ofOP {α} {s t : State} {a : α} {e : Option (α × State)} (w : e = some (a, t)) (h : KeepsOP s e) : Keeps s t := h _ _ w
theorem Keeps.foldl2 {α β} {s : State} {l : List β} {f : α × State → β → α × State} {p : α × State}
    (hf : ∀ p x, Keeps s p.2 → Keeps s (f p x).2) (h : Keeps s p.2) : Keeps s (l.foldl f p).2 := by
  induction l generalizing p with
  | nil => exact h
  | cons a l ih => exact ih (hf _ _ h)
theorem KeepsO.map {s : State} {o : Option State} {f : State → State} (h : KeepsO s o) (hf : ∀ t, Keeps s t → Keeps s (f t)) :
    KeepsO s (o.map f) := by
  intro t e
  cases o with
  | none => cases e
  | some u => cases e; exact hf _ (h _ rfl)
theorem KeepsOP.map {α} {s : State} {o : Option State} {f : State → α × State} (h : KeepsO s o)
    (hf : ∀ t, Keeps s t → Keeps s (f t).2) : KeepsOP s (o.map f) := by
  intro a t e
  cases o with
  | none => cases e
  | some u => exact Keeps.of2 (Option.some.inj e) (hf _ (h _ rfl))
theorem KeepsOP.mapP {α β} {s : State} {o : Option (α × State)} {f : α × State → β × State} (h : KeepsOP s o)
    (hf : ∀ p, Keeps s p.2 → Keeps s (f p).2) : KeepsOP s (o.map f) := by
  intro a t e
  cases o with
  | none => cases e
  | some u => exact Keeps.of2 (Option.some.inj e) (hf _ (h _ _ rfl))
theorem Keeps.getD {s u : State} {o : Option State} (h : KeepsO s o) (g : Keeps s u) : Keeps s (o.getD u) := by
  cases o with
  | none => exact g
  | some v => exact h _ rfl
theorem KeepsO.none {s : State} : KeepsO s none := fun _ e => by cases e
theorem KeepsO.some {s t : State} (h : Keeps s t) : KeepsO s (some t) := fun _ e => by cases e; exact h
theorem KeepsOP.none {α} {s : State} : KeepsOP (α := α) s none := fun _ _ e => by cases e
theorem KeepsOP.some {α} {s t : State} {a : α} (h : Keeps s t) : KeepsOP s (some (a, t)) := fun _ _ e => by cases e; exact h
theorem KeepsR.next {s t : State} (h : Keeps s t) : KeepsR s (.next t) := fun _ e => by cases e; exact h
theorem KeepsR.stop {s : State} {r} : KeepsR s (.refused r) := fun _ e => by cases e
theorem KeepsR.fault {s : State} {r} : KeepsR s (.fault r) := fun _ e => by cases e

end Sys2Proof.Machine
end

