-- ==== Sys2Proof/Laws/KeepsOps.lean ====
section
/-!
SUPPORT. Every operation and command of Machine/Ops.lean keeps what `Keeps` says.
-/
namespace Sys2Proof.Machine

theorem State.put_keeps {s0 s : State} (h : Keeps s0 s) (a1 a2 a3) : Keeps s0 (State.put s a1 a2 a3) :=
  h.trans ⟨rfl, List.prefix_rfl, fun w => ⟨odInsert_rising w.1, w.2⟩, Nat.le_refl _, Nat.le_refl _, Nat.le_refl _,
    fun _ => rfl, fun _ m => m, id, Nat.le_refl _⟩

theorem State.putNum_keeps {s0 s : State} (h : Keeps s0 s) (a1 a2 a3) : Keeps s0 (State.putNum s a1 a2 a3) := by
  unfold State.putNum
  repeat' first
    | with_reducible assumption
    | with_reducible apply State.put_keeps

theorem State.putBytes_keeps {s0 s : State} (h : Keeps s0 s) (a1 a2 a3) : Keeps s0 (State.putBytes s a1 a2 a3) := by
  unfold State.putBytes
  repeat' first
    | with_reducible assumption
    | with_reducible apply State.put_keeps

theorem State.bump_keeps {s0 s : State} (h : Keeps s0 s) (a1 a2 a3) : Keeps s0 (State.bump s a1 a2 a3) := by
  unfold State.bump
  repeat' first
    | with_reducible assumption
    | (extract_lets +onlyGivenNames x; clear_value x; revert x; intro y)
    | with_reducible apply State.putNum_keeps

theorem State.traced_keeps {s0 s : State} (h : Keeps s0 s) (a1 a2 a3 a4) : Keeps s0 (State.traced s a1 a2 a3 a4) := by
  exact h.eq rfl

theorem State.transfer_keeps {s0 s : State} (h : Keeps s0 s) (a1 a2 a3 a4 a5 a6 a7) : Keeps s0 (State.transfer s a1 a2 a3 a4 a5 a6 a7) := by
  unfold State.transfer
  repeat' first
    | with_reducible assumption
    | (extract_lets +onlyGivenNames x; clear_value x; revert x; intro y)
    | (with_reducible apply Keeps.upd
       with_reducible exact rfl
       first
         | with_reducible exact rfl
         | simp +zetaDelta [State.kept])

theorem State.control_keeps {s0 s : State} (h : Keeps s0 s) (a1 a2) : Keeps s0 (State.control s a1 a2) := by
  unfold State.control
  repeat' first
    | with_reducible assumption
    | (extract_lets +onlyGivenNames x; clear_value x; revert x; intro y)
    | (with_reducible apply Keeps.upd
       with_reducible exact rfl
       first
         | with_reducible exact rfl
         | simp +zetaDelta [State.kept])

theorem State.raise_keeps {s0 s : State} (h : Keeps s0 s) (a1 a2 a3 a4 a5) : Keeps s0 (State.raise s a1 a2 a3 a4 a5) := by
  unfold State.raise
  extract_lets e
  clear_value e
  repeat' split
  · rename_i h1 h2
    apply State.bump_keeps
    refine (h.trans ⟨rfl, List.prefix_rfl, fun w => ?_, Nat.le_refl _, Nat.le_refl _, Nat.le_refl _,
      fun _ => rfl, fun _ m => m, id, Nat.le_refl _⟩)
    obtain ⟨w1, w2, w3, w4, w5, w6, w7, w8, w9⟩ := w
    exact ⟨w1, w2, w3, w4, w5, w6, w7, by simp [State.kept]; omega, w9⟩
  · apply State.bump_keeps
    exact h.eq rfl
  · rename_i h1 h2
    refine h.trans ⟨rfl, List.prefix_rfl, fun w => ?_, Nat.le_refl _, Nat.le_refl _, Nat.le_refl _,
      fun _ => rfl, fun _ m => m, id, Nat.le_refl _⟩
    obtain ⟨w1, w2, w3, w4, w5, w6, w7, w8, w9, w10⟩ := w
    exact ⟨w1, w2, w3, w4, w5, w6, w7, w8, by simp [State.kept]; omega, w10⟩
  · apply State.bump_keeps
    exact h.eq rfl

theorem State.emit_keeps {s0 s : State} (h : Keeps s0 s) (a1) : Keeps s0 (State.emit s a1) :=
  h.trans ⟨rfl, List.prefix_append .., id, Nat.le_refl _, Nat.le_refl _, Nat.le_refl _, fun _ => rfl, fun _ m => m, id, Nat.le_refl _⟩

theorem State.setPort_keeps {s0 s : State} (h : Keeps s0 s) (a1 a2) : Keeps s0 (State.setPort s a1 a2) := by
  unfold State.setPort
  repeat' first
    | with_reducible assumption
    | (extract_lets +onlyGivenNames x; clear_value x; revert x; intro y)
    | split
    | (with_reducible apply Keeps.upd
       with_reducible exact rfl
       first
         | with_reducible exact rfl
         | simp +zetaDelta [State.kept])

theorem State.mapPort_keeps {s0 s : State} (h : Keeps s0 s) (a1 a2) : Keeps s0 (State.mapPort s a1 a2) := by
  unfold State.mapPort
  repeat' first
    | with_reducible assumption
    | with_reducible apply State.setPort_keeps

theorem State.pbump_keeps {s0 s : State} (h : Keeps s0 s) (a1 a2 a3) : Keeps s0 (State.pbump s a1 a2 a3) := by
  unfold State.pbump
  repeat' first
    | with_reducible assumption
    | with_reducible apply State.bump_keeps

theorem State.mapSession_keeps {s0 s : State} (h : Keeps s0 s) (a1 a2) : Keeps s0 (State.mapSession s a1 a2) := by
  unfold State.mapSession
  repeat' first
    | with_reducible assumption
    | (extract_lets +onlyGivenNames x; clear_value x; revert x; intro y)
    | (with_reducible apply Keeps.upd
       with_reducible exact rfl
       first
         | with_reducible exact rfl
         | simp +zetaDelta [State.kept])

theorem State.dropSession_keeps {s0 s : State} (h : Keeps s0 s) (a1) : Keeps s0 (State.dropSession s a1) := by
  unfold State.dropSession
  repeat' first
    | with_reducible assumption
    | (extract_lets +onlyGivenNames x; clear_value x; revert x; intro y)
    | (with_reducible apply Keeps.upd
       with_reducible exact rfl
       first
         | with_reducible exact rfl
         | simp +zetaDelta [State.kept])

theorem State.mapTrs_keeps {s0 s : State} (h : Keeps s0 s) (a1 a2) : Keeps s0 (State.mapTrs s a1 a2) := by
  unfold State.mapTrs
  repeat' first
    | with_reducible assumption
    | (extract_lets +onlyGivenNames x; (let z : Cqc := x; clear z); revert x; intro y)
    | (with_reducible apply Keeps.upd
       with_reducible exact rfl
       first
         | with_reducible exact rfl
         | simp +zetaDelta [State.kept])

theorem State.putKey_keeps {s0 s : State} (h : Keeps s0 s) (a1) : Keeps s0 (State.putKey s a1) := by
  unfold State.putKey
  repeat' first
    | with_reducible assumption
    | (extract_lets +onlyGivenNames x; (let z : Asu := x; clear z); revert x; intro y)
    | (with_reducible apply Keeps.upd
       with_reducible exact rfl
       first
         | with_reducible exact rfl
         | simp +zetaDelta [State.kept])

theorem State.mapKey_keeps {s0 s : State} (h : Keeps s0 s) (a1 a2 a3) : Keeps s0 (State.mapKey s a1 a2 a3) := by
  unfold State.mapKey
  repeat' first
    | with_reducible assumption
    | (extract_lets +onlyGivenNames x; (let z : Asu := x; clear z); revert x; intro y)
    | (with_reducible apply Keeps.upd
       with_reducible exact rfl
       first
         | with_reducible exact rfl
         | simp +zetaDelta [State.kept])

theorem State.mapTile_keeps {s0 s : State} (h : Keeps s0 s) (a1 a2) : Keeps s0 (State.mapTile s a1 a2) := by
  unfold State.mapTile
  repeat' first
    | with_reducible assumption
    | (extract_lets +onlyGivenNames x; (let z : Mta := x; clear z); revert x; intro y)
    | (with_reducible apply Keeps.upd
       with_reducible exact rfl
       first
         | with_reducible exact rfl
         | simp +zetaDelta [State.kept])

theorem State.mapWarden_keeps {s0 s : State} (h : Keeps s0 s) (a1 a2) : Keeps s0 (State.mapWarden s a1 a2) := by
  unfold State.mapWarden
  repeat' first
    | with_reducible assumption
    | (extract_lets +onlyGivenNames x; clear_value x; revert x; intro y)
    | split
    | (with_reducible apply Keeps.upd
       with_reducible exact rfl
       first
         | with_reducible exact rfl
         | simp +zetaDelta [State.kept])

theorem State.takeDraw_keeps {s0 s : State} (h : Keeps s0 s) (a1) : Keeps s0 (State.takeDraw s a1).2 := by
  unfold State.takeDraw
  repeat' first
    | with_reducible assumption
    | (extract_lets +onlyGivenNames x; (let z : Cpx := x; clear z); revert x; intro y)
    | dsimp only
    | (with_reducible apply Keeps.upd
       with_reducible exact rfl
       first
         | with_reducible exact rfl
         | simp +zetaDelta [State.kept])

theorem State.takeFree_keeps {s0 s : State} (h : Keeps s0 s) (a1) : Keeps s0 (State.takeFree s a1).2 := by
  unfold State.takeFree
  repeat' first
    | with_reducible assumption
    | (extract_lets +onlyGivenNames x; (let z : Cpx := x; clear z); revert x; intro y)
    | dsimp only
    | (with_reducible apply Keeps.upd
       with_reducible exact rfl
       first
         | with_reducible exact rfl
         | simp +zetaDelta [State.kept])

theorem State.mapHealth_keeps {s0 s : State} (h : Keeps s0 s) (a1 a2) : Keeps s0 (State.mapHealth s a1 a2) := by
  unfold State.mapHealth
  repeat' first
    | with_reducible assumption
    | (extract_lets +onlyGivenNames x; (let z : Msv := x; clear z); revert x; intro y)
    | (with_reducible apply Keeps.upd
       with_reducible exact rfl
       first
         | with_reducible exact rfl
         | simp +zetaDelta [State.kept])

end Sys2Proof.Machine
end

