-- ==== Sys2Proof/Laws/KeepsOperands.lean ====
section
/-!
SUPPORT. Every operation and command of Machine/Operands.lean keeps what `Keeps` says.
-/
namespace Sys2Proof.Machine

theorem State.tracedWrite_keeps {s0 s : State} (h : Keeps s0 s) (a1 a2 a3 a4) : Keeps s0 (State.tracedWrite s a1 a2 a3 a4) :=
  h.eq rfl

theorem State.lastWrite_keeps {s0 s : State} (h : Keeps s0 s) (a1 a2 a3 a4) : Keeps s0 (State.lastWrite s a1 a2 a3 a4) := by
  unfold State.lastWrite
  repeat' first
    | with_reducible assumption
    | with_reducible apply State.tracedWrite_keeps
    | with_reducible apply State.putBytes_keeps

theorem State.refuseWrite_keeps {s0 s : State} (h : Keeps s0 s) (a1 a2 a3 a4) : Keeps s0 (State.refuseWrite s a1 a2 a3 a4) := by
  unfold State.refuseWrite
  repeat' first
    | with_reducible assumption
    | with_reducible apply State.lastWrite_keeps

theorem State.lockedWrite_keeps {s0 s : State} (h : Keeps s0 s) (a1 a2 a3) : Keeps s0 (State.lockedWrite s a1 a2 a3) := by
  unfold State.lockedWrite
  repeat' first
    | with_reducible assumption
    | with_reducible apply State.lastWrite_keeps
    | with_reducible apply State.raise_keeps
    | with_reducible apply State.bump_keeps

theorem Keeps.written {s t : State} (h : Keeps s t) (k : Nat) :
    Keeps s { t with msv.written1 := k :: t.msv.written1 } :=
  h.trans ⟨rfl, List.prefix_rfl, id, Nat.le_refl _, Nat.le_refl _, Nat.le_refl _, fun _ => rfl,
    fun _ m => List.mem_cons_of_mem _ m, id, Nat.le_refl _⟩

theorem applyWrite_keeps {s0 s : State} (a1 a2 a3 a4 a5) (he1 : ∀ r i u v t, Keeps s0 t → Keeps s0 (a1 r i u v t).1)
    (h : Keeps s0 s) : Keeps s0 (applyWrite a1 a2 a3 a4 a5 s).1 := by
  have g := he1 a2 a3 a4 a5 s h
  unfold applyWrite
  generalize a1 a2 a3 a4 a5 s = e at g ⊢
  obtain ⟨s', st⟩ := e
  replace g : Keeps s0 s' := g
  have g2 : Keeps s0 (s'.control (wholeUnit 0xE) (entryUnit a3)) := State.control_keeps g ..
  dsimp only
  generalize s'.control (wholeUnit 0xE) (entryUnit a3) = s2 at g2 ⊢
  repeat' first
    | with_reducible assumption
    | with_reducible apply State.lockedWrite_keeps
    | with_reducible apply State.refuseWrite_keeps
    | with_reducible apply State.lastWrite_keeps
    | with_reducible apply State.bump_keeps
    | with_reducible apply Keeps.written
    | with_reducible refine Keeps.ite ?_ ?_
    | split

theorem State.park_keeps {s0 s : State} (h : Keeps s0 s) (a1) : Keeps s0 (State.park s a1) := by
  unfold State.park
  repeat' first
    | with_reducible assumption
    | (extract_lets +onlyGivenNames x; (let z : Asu := x; clear z); revert x; intro y)
    | (with_reducible apply Keeps.upd
       with_reducible exact rfl
       first
         | with_reducible exact rfl
         | simp +zetaDelta [State.kept])

theorem State.takeWrite_keeps {s0 s : State} (a1 a2 a3 a4 a5) (he1 : ∀ r i u v t, Keeps s0 t → Keeps s0 (a1 r i u v t).1) (h : Keeps s0 s) : Keeps s0 (State.takeWrite s a1 a2 a3 a4 a5).1 := by
  have g := applyWrite_keeps a1 a2 a3 a4 a5 he1 h
  unfold State.takeWrite
  dsimp only
  generalize applyWrite a1 a2 a3 a4 a5 s = e at g ⊢
  split
  · exact h
  · split
    · exact h.eq rfl
    · split
      · exact h.eq rfl
      · split
        · exact State.park_keeps g ..
        · exact g

theorem State.ownWrite_keeps {s0 s : State} (a1 a2 a3 a4 a5) (he1 : ∀ r i u v t, Keeps s0 t → Keeps s0 (a1 r i u v t).1) (h : Keeps s0 s) : Keeps s0 (State.ownWrite s a1 a2 a3 a4 a5) := by
  unfold State.ownWrite
  repeat' first
    | with_reducible assumption
    | with_reducible refine Keeps.of1 ‹_› ?_
    | with_reducible apply State.takeWrite_keeps
    | with_reducible apply State.emit_keeps
    | split

end Sys2Proof.Machine
end

