-- ==== Sys2Proof/Laws/KeepsTime.lean ====
section
/-!
SUPPORT. Every operation and command of Machine/Time.lean keeps what `Keeps` says.
-/
namespace Sys2Proof.Machine

theorem State.mapAccount_keeps {s0 s : State} (h : Keeps s0 s) (a1 a2) : Keeps s0 (State.mapAccount s a1 a2) := by
  unfold State.mapAccount
  repeat' first
    | with_reducible assumption
    | (extract_lets +onlyGivenNames x; (let z : Cqc := x; clear z); revert x; intro y)
    | (with_reducible apply Keeps.upd
       with_reducible exact rfl
       first
         | with_reducible exact rfl
         | simp +zetaDelta [State.kept])

theorem State.frameWakes_keeps {s0 s : State} (h : Keeps s0 s) : Keeps s0 (State.frameWakes s) := by
  unfold State.frameWakes
  repeat' first
    | with_reducible assumption
    | (extract_lets +onlyGivenNames x; (let z : Pch := x; clear z); revert x; intro y)
    | (with_reducible apply Keeps.upd
       with_reducible exact rfl
       first
         | with_reducible exact rfl
         | simp +zetaDelta [State.kept])

/-- The Queue unit's epoch ring grows and stays within its 8,760 records; nothing else that is kept changes. -/
theorem Keeps.ring {s t : State} (h : Keeps s t) {c : Cqc} (hl : c.lanes = t.cqc.lanes) (hc : c.closed.length ≤ 8760) :
    Keeps s { t with cqc := c } :=
  h.trans ⟨rfl, List.prefix_rfl, fun w => by
    obtain ⟨w1, w2, w3, w4, w5, w6, w7, w8, w9, _⟩ := w
    exact ⟨w1, w2, w3, w4, w5, w6, by simpa [State.kept, hl] using w7, w8, w9, hc⟩, Nat.le_refl _, Nat.le_refl _, Nat.le_refl _, fun _ => rfl, fun _ m => m, id, Nat.le_refl _⟩

theorem Cqc.record_lanes (c : Cqc) (l : List ClosedEpoch) : (c.record l).lanes = c.lanes := rfl

theorem Cqc.record_closed (c : Cqc) (l : List ClosedEpoch) : (c.record l).closed.length ≤ 8760 := by
  unfold Cqc.record; exact List.length_take_le ..

theorem State.closeEpoch_keeps {s0 s : State} (h : Keeps s0 s) (a1) : Keeps s0 (State.closeEpoch s a1) :=
  State.bump_keeps (h.ring (Cqc.record_lanes ..) (Cqc.record_closed ..)) ..

theorem State.openEpoch_keeps {s0 s : State} (h : Keeps s0 s) (a1) : Keeps s0 (State.openEpoch s a1) := by
  unfold State.openEpoch
  repeat' first
    | with_reducible assumption
    | (extract_lets +onlyGivenNames x; (let z : Cqc := x; clear z); revert x; intro y)
    | (with_reducible apply Keeps.upd
       with_reducible exact rfl
       first
         | with_reducible exact rfl
         | simp +zetaDelta [State.kept])

theorem State.advanceEpoch_keeps {s0 s : State} (h : Keeps s0 s) (a1) : Keeps s0 (State.advanceEpoch s a1) := by
  unfold State.advanceEpoch
  extract_lets wall e s1 start
  have h1 : Keeps s0 s1 := State.closeEpoch_keeps h a1
  split
  · exact State.openEpoch_keeps (h1.ring (Cqc.record_lanes ..) (Cqc.record_closed ..)) _
  · exact h

theorem State.stepWall_keeps {s0 s : State} (h : Keeps s0 s) (a1 a2) : Keeps s0 (State.stepWall s a1 a2) := by
  unfold State.stepWall
  repeat' first
    | with_reducible assumption
    | (extract_lets +onlyGivenNames x
       first
         | (refine (fun (hx : Keeps s0 x) => ?_) ?_; clear_value x; revert x; intro y hy; rotate_left; subst x)
         | ((first | (let z : Pch := x; clear z) | (let z : Cqc := x; clear z) | clear_value x); revert x; intro y))
    | with_reducible apply State.putBytes_keeps
    | with_reducible apply State.raise_keeps
    | with_reducible apply State.bump_keeps
    | with_reducible apply State.advanceEpoch_keeps
    | with_reducible refine Keeps.ite ?_ ?_
    | (with_reducible apply Keeps.upd
       with_reducible exact rfl
       first
         | with_reducible exact rfl
         | simp +zetaDelta [State.kept])

theorem State.steer_keeps {s0 s : State} (h : Keeps s0 s) (a1) : Keeps s0 (State.steer s a1) := by
  unfold State.steer
  repeat' first
    | with_reducible assumption
    | (extract_lets +onlyGivenNames x
       first
         | (refine (fun (hx : Keeps s0 x) => ?_) ?_; clear_value x; revert x; intro y hy; rotate_left; subst x)
         | ((let z : Pch := x; clear z); revert x; intro y))
    | with_reducible apply State.putNum_keeps
    | with_reducible apply State.stepWall_keeps
    | with_reducible refine Keeps.ite ?_ ?_
    | (with_reducible apply Keeps.upd
       with_reducible exact rfl
       first
         | with_reducible exact rfl
         | simp +zetaDelta [State.kept])

theorem State.slewTick_keeps {s0 s : State} (h : Keeps s0 s) : Keeps s0 (State.slewTick s) := by
  unfold State.slewTick
  repeat' first
    | with_reducible assumption
    | (extract_lets +onlyGivenNames x; (first | (let z : Pch := x; clear z) | clear_value x); revert x; intro y)
    | with_reducible refine Keeps.ite ?_ ?_
    | (with_reducible apply Keeps.upd
       with_reducible exact rfl
       first
         | with_reducible exact rfl
         | simp +zetaDelta [State.kept])

theorem execEpochClose_keeps {s0 s : State} (h : Keeps s0 s) : KeepsR s0 (execEpochClose s) := by
  unfold execEpochClose
  repeat' first
    | with_reducible assumption
    | with_reducible apply State.frameWakes_keeps
    | with_reducible apply State.advanceEpoch_keeps
    | with_reducible apply KeepsR.next
    | split

theorem execByteSecondsSample_keeps {s0 s : State} (h : Keeps s0 s) : KeepsR s0 (execByteSecondsSample s) := by
  unfold execByteSecondsSample
  repeat' first
    | with_reducible assumption
    | (extract_lets +onlyGivenNames x; (let z : Cqc := x; clear z); revert x; intro y)
    | with_reducible apply KeepsR.next
    | split
    | (with_reducible apply Keeps.upd
       with_reducible exact rfl
       first
         | with_reducible exact rfl
         | simp +zetaDelta [State.kept])

theorem execMeteringCheckpoint_keeps {s0 s : State} (h : Keeps s0 s) : KeepsR s0 (execMeteringCheckpoint s) := by
  unfold execMeteringCheckpoint
  repeat' first
    | with_reducible assumption
    | (extract_lets +onlyGivenNames x; (let z : Cqc := x; clear z); revert x; intro y)
    | with_reducible apply KeepsR.next
    | split
    | (with_reducible apply Keeps.upd
       with_reducible exact rfl
       first
         | with_reducible exact rfl
         | simp +zetaDelta [State.kept])

theorem Keeps.epoch {s t : State} (h : Keeps s t) (e : Epoch) : Keeps s { t with cqc.epoch := e } := h.eq rfl

theorem epochLengthEffect_keeps {s0 s : State} (h : Keeps s0 s) (br bi bu bv) : Keeps s0 (epochLengthEffect br bi bu bv s).1 := by
  unfold epochLengthEffect
  repeat' first
    | with_reducible assumption
    | (extract_lets +onlyGivenNames x
       first
         | (refine (fun (hx : Keeps s0 x) => ?_) ?_; clear_value x; revert x; intro y hy; rotate_left; subst x)
         | (clear_value x; revert x; intro y))
    | with_reducible apply State.put_keeps
    | with_reducible apply State.closeEpoch_keeps
    | with_reducible apply State.openEpoch_keeps
    | split

theorem execEpochLength_keeps {s0 s : State} (h : Keeps s0 s) (a1 a2) : KeepsR s0 (execEpochLength a1 a2 s) := by
  unfold execEpochLength
  repeat' first
    | with_reducible assumption
    | with_reducible apply State.ownWrite_keeps
    | with_reducible apply epochLengthEffect_keeps
    | with_reducible apply KeepsR.next
    | intro _

theorem wallTimeEffect_keeps {s0 s : State} (h : Keeps s0 s) (br bi bu bv) : Keeps s0 (wallTimeEffect br bi bu bv s).1 := by
  unfold wallTimeEffect
  repeat' first
    | with_reducible assumption
    | with_reducible apply State.putNum_keeps
    | with_reducible apply State.stepWall_keeps
    | split

theorem execWallTime_keeps {s0 s : State} (h : Keeps s0 s) (a1 a2) : KeepsR s0 (execWallTime a1 a2 s) := by
  unfold execWallTime
  repeat' first
    | with_reducible assumption
    | with_reducible apply State.ownWrite_keeps
    | with_reducible apply wallTimeEffect_keeps
    | with_reducible apply KeepsR.next
    | intro _

theorem execUtcOffsetChange_keeps {s0 s : State} (h : Keeps s0 s) (a1) : KeepsR s0 (execUtcOffsetChange a1 s) := by
  unfold execUtcOffsetChange
  repeat' first
    | with_reducible assumption
    | (extract_lets +onlyGivenNames x; clear_value x; revert x; intro y)
    | with_reducible apply State.stepWall_keeps
    | with_reducible apply KeepsR.next
    | split
    | (with_reducible apply Keeps.upd
       with_reducible exact rfl
       first
         | with_reducible exact rfl
         | simp +zetaDelta [State.kept])

end Sys2Proof.Machine
end

