-- ==== Sys2Proof/Laws/KeepsPorts.lean ====
section
/-!
SUPPORT. Every operation and command of Machine/Ports.lean keeps what `Keeps` says.
-/
namespace Sys2Proof.Machine

theorem State.enqueue_keeps {s0 s : State} (h : Keeps s0 s) (a1 a2 a3 a4) : Keeps s0 (State.enqueue s a1 a2 a3 a4) := by
  unfold State.enqueue
  repeat' first
    | with_reducible assumption
    | with_reducible apply State.mapPort_keeps

theorem State.bypass_keeps {s0 s : State} (h : Keeps s0 s) (a1 a2) : Keeps s0 (State.bypass s a1 a2) := by
  unfold State.bypass
  repeat' first
    | with_reducible assumption
    | with_reducible apply State.mapPort_keeps

theorem State.setPartition_keeps {s0 s : State} (h : Keeps s0 s) (a1 a2 a3) : Keeps s0 (State.setPartition s a1 a2 a3) := by
  unfold State.setPartition
  repeat' first
    | with_reducible assumption
    | with_reducible apply State.mapPort_keeps

theorem State.sendPause_keeps {s0 s : State} (h : Keeps s0 s) (a1 a2 a3) : Keeps s0 (State.sendPause s a1 a2 a3) := by
  unfold State.sendPause
  repeat' first
    | with_reducible assumption
    | (extract_lets +onlyGivenNames x; clear_value x; revert x; intro y)
    | with_reducible apply State.pbump_keeps
    | with_reducible apply State.mapPort_keeps
    | with_reducible apply State.bypass_keeps

theorem State.flowCheck_keeps {s0 s : State} (h : Keeps s0 s) (a1 a2) : Keeps s0 (State.flowCheck s a1 a2) := by
  unfold State.flowCheck
  repeat' first
    | with_reducible assumption
    | (extract_lets +onlyGivenNames x; clear_value x; revert x; intro y)
    | with_reducible apply State.sendPause_keeps
    | with_reducible apply State.mapPort_keeps
    | with_reducible refine Keeps.ite ?_ ?_

theorem State.release_keeps {s0 s : State} (h : Keeps s0 s) (a1 a2 a3) : Keeps s0 (State.release s a1 a2 a3) := by
  unfold State.release
  repeat' first
    | with_reducible assumption
    | with_reducible apply State.flowCheck_keeps
    | with_reducible apply State.setPartition_keeps

theorem State.capture_keeps {s0 s : State} (h : Keeps s0 s) (a1 a2 a3) : Keeps s0 (State.capture s a1 a2 a3) := by
  unfold State.capture
  repeat' first
    | with_reducible assumption
    | (extract_lets +onlyGivenNames x; clear_value x; revert x; intro y)
    | with_reducible apply State.pbump_keeps
    | with_reducible apply State.setPort_keeps
    | with_reducible refine Keeps.ite ?_ ?_

end Sys2Proof.Machine
end

