-- ==== Sys2Proof/Laws/KeepsBuffer.lean ====
section
/-!
SUPPORT. Every operation and command of Machine/Buffer.lean keeps what `Keeps` says.
-/
namespace Sys2Proof.Machine

theorem State.eccFound_keeps {s0 s : State} (h : Keeps s0 s) (a1) : Keeps s0 (State.eccFound s a1) := by
  unfold State.eccFound
  repeat' first
    | with_reducible assumption
    | with_reducible apply State.raise_keeps
    | with_reducible apply State.bump_keeps
    | with_reducible refine Keeps.ite ?_ ?_

theorem State.bufferRead_keeps {s0 s : State} (h : Keeps s0 s) (a1) : Keeps s0 (State.bufferRead s a1).2 := by
  unfold State.bufferRead
  repeat' first
    | with_reducible assumption
    | (extract_lets +onlyGivenNames x; clear_value x; revert x; intro y)
    | with_reducible apply State.eccFound_keeps
    | with_reducible refine Keeps.foldl (fun t x ht => ?_) ?_
    | split
    | (with_reducible apply Keeps.upd
       with_reducible exact rfl
       first
         | with_reducible exact rfl
         | simp +zetaDelta [State.kept])

theorem State.trimReadCache_keeps {s0 s : State} (h : Keeps s0 s) : Keeps s0 (State.trimReadCache s) := by
  unfold State.trimReadCache
  repeat' first
    | with_reducible assumption
    | (extract_lets +onlyGivenNames x; clear_value x; revert x; intro y)
    | (with_reducible apply Keeps.upd
       with_reducible exact rfl
       first
         | with_reducible exact rfl
         | simp +zetaDelta [State.kept])

theorem State.cacheValue_keeps {s0 s : State} (h : Keeps s0 s) (a1 a2 a3) : Keeps s0 (State.cacheValue s a1 a2 a3) := by
  unfold State.cacheValue
  repeat' first
    | with_reducible assumption
    | (extract_lets +onlyGivenNames x; clear_value x; revert x; intro y)
    | with_reducible apply State.trimReadCache_keeps
    | (with_reducible apply Keeps.upd
       with_reducible exact rfl
       first
         | with_reducible exact rfl
         | simp +zetaDelta [State.kept])

theorem State.readCached_keeps {s0 s : State} (h : Keeps s0 s) (a1 a2 a3) : Keeps s0 (State.readCached s a1 a2 a3).2 := by
  unfold State.readCached
  repeat' first
    | with_reducible assumption
    | (extract_lets +onlyGivenNames x; clear_value x; revert x; intro y)
    | with_reducible refine Keeps.of2 ‹_› ?_
    | with_reducible apply State.bufferRead_keeps
    | split
    | dsimp only
    | (with_reducible apply Keeps.upd
       with_reducible exact rfl
       first
         | with_reducible exact rfl
         | simp +zetaDelta [State.kept])

end Sys2Proof.Machine
end

