-- ==== Sys2Proof/Laws/KeepsFabric.lean ====
section
/-!
SUPPORT. Every operation and command of Machine/Fabric.lean keeps what `Keeps` says.
-/
namespace Sys2Proof.Machine

theorem State.fetch_keeps {s0 s : State} (h : Keeps s0 s) (a1 a2 a3 a4 a5 a6) : Keeps s0 (State.fetch s a1 a2 a3 a4 a5 a6) := by
  unfold State.fetch
  repeat' first
    | with_reducible assumption
    | with_reducible apply State.transfer_keeps

theorem State.bind_keeps {s0 s : State} (h : Keeps s0 s) (a1 a2) : Keeps s0 (State.bind s a1 a2) := by
  unfold State.bind
  repeat' first
    | with_reducible assumption
    | (extract_lets +onlyGivenNames x; (let z : Cpx := x; clear z); revert x; intro y)
    | with_reducible apply State.bump_keeps
    | (with_reducible apply Keeps.upd
       with_reducible exact rfl
       first
         | with_reducible exact rfl
         | simp +zetaDelta [State.kept])

theorem State.keepModulePage_keeps {s0 s : State} (h : Keeps s0 s) : Keeps s0 (State.keepModulePage s) := by
  unfold State.keepModulePage
  repeat' first
    | with_reducible assumption
    | with_reducible apply State.bind_keeps
    | with_reducible refine Keeps.ite ?_ ?_
    | split

theorem State.dealOver_keeps {s0 s : State} (h : Keeps s0 s) (a1 a2) : Keeps s0 (State.dealOver s a1 a2) := by
  unfold State.dealOver
  extract_lets shares keys u
  have hu : Keeps s0 u := Keeps.foldl (fun t e ht => by
    have g : Keeps s0 { t with cpx.pipelines := t.cpx.pipelines.modify e.1.1 fun p =>
        { p.take { job := a2, bytes := e.1.2, cycles := a2.mode.cycles e.1.2, combines := a2.mode.tagged && e.2 == 0 } with keys := keys } } :=
      ht.eq (by simp [State.kept])
    dsimp only
    split
    · exact g
    · with_reducible apply State.transfer_keeps
      with_reducible apply State.transfer_keeps
      exact g) h
  clear_value u
  split
  · exact hu.eq rfl
  · exact hu

theorem State.deal_keeps {s0 s : State} (h : Keeps s0 s) (a1) : Keeps s0 (State.deal s a1) := by
  unfold State.deal
  split
  · split
    · exact State.dealOver_keeps (State.bind_keeps h ..) ..
    · exact h.eq rfl
  · exact State.dealOver_keeps h ..

theorem State.crypt_keeps {s0 s : State} (h : Keeps s0 s) (a1 a2 a3 a4 a5 a6 a7 a8 a9 a10) : Keeps s0 (State.crypt s a1 a2 a3 a4 a5 a6 a7 a8 a9 a10) := by
  unfold State.crypt
  repeat' first
    | with_reducible assumption
    | (extract_lets +onlyGivenNames x; (let z : Cpx := x; clear z); revert x; intro y)
    | with_reducible apply State.deal_keeps
    | with_reducible refine Keeps.ite ?_ ?_
    | (with_reducible apply Keeps.upd
       with_reducible exact rfl
       first
         | with_reducible exact rfl
         | simp +zetaDelta [State.kept])

theorem State.ecbBlocks_keeps {s0 s : State} (h : Keeps s0 s) (a1 a2) : Keeps s0 (State.ecbBlocks s a1 a2) := by
  unfold State.ecbBlocks
  repeat' first
    | with_reducible assumption
    | with_reducible apply State.crypt_keeps

theorem State.macBlocks_keeps {s0 s : State} (h : Keeps s0 s) (a1 a2 a3) : Keeps s0 (State.macBlocks s a1 a2 a3) := by
  unfold State.macBlocks
  repeat' first
    | with_reducible assumption
    | with_reducible apply State.crypt_keeps
    | with_reducible apply State.ecbBlocks_keeps
    | with_reducible apply State.bump_keeps

theorem State.checkValue_keeps {s0 s : State} (h : Keeps s0 s) (a1) : Keeps s0 (State.checkValue s a1) := by
  unfold State.checkValue
  repeat' first
    | with_reducible assumption
    | with_reducible apply State.crypt_keeps
    | with_reducible apply State.ecbBlocks_keeps
    | with_reducible apply State.bump_keeps

theorem State.dealWaiting_keeps {s0 s : State} (h : Keeps s0 s) : Keeps s0 (State.dealWaiting s) := by
  unfold State.dealWaiting
  repeat' first
    | with_reducible assumption
    | (extract_lets +onlyGivenNames x
       first
         | (refine (fun (hx : Keeps s0 x) => ?_) ?_; clear_value x; revert x; intro y hy; rotate_left; subst x)
         | ((first | (let z : Cpx := x; clear z) | clear_value x); revert x; intro y))
    | with_reducible apply State.keepModulePage_keeps
    | with_reducible apply State.deal_keeps
    | with_reducible refine Keeps.foldl (fun t x ht => ?_) ?_
    | (with_reducible apply Keeps.upd
       with_reducible exact rfl
       first
         | with_reducible exact rfl
         | simp +zetaDelta [State.kept])

theorem State.runPipelines_keeps {s0 s : State} (h : Keeps s0 s) (a1) : Keeps s0 (State.runPipelines s a1) := by
  unfold State.runPipelines
  repeat' first
    | with_reducible assumption
    | (extract_lets +onlyGivenNames x; (let z : Cpx := x; clear z); revert x; intro y)
    | with_reducible apply State.dealWaiting_keeps
    | (with_reducible apply Keeps.upd
       with_reducible exact rfl
       first
         | with_reducible exact rfl
         | simp +zetaDelta [State.kept])

theorem Keeps.sharing {s t : State} (h : Keeps s t) {l : List Pipeline} (e : l.length = t.cpx.pipelines.length) :
    Keeps s { t with cpx.pipelines := l } := h.eq (by simp [State.kept, e])

theorem State.pipelineOut_keeps {s0 s : State} (h : Keeps s0 s) (a1 a2) : Keeps s0 (State.pipelineOut s a1 a2) := by
  unfold State.pipelineOut
  extract_lets l redo first left p s1
  have h1 : Keeps s0 s1 := h.sharing (by simp [left])
  clear_value s1
  exact Keeps.foldl (fun t e ht => State.deal_keeps ht _) (State.keepModulePage_keeps h1)

end Sys2Proof.Machine
end

