-- ==== Sys2Proof/Laws/KeepsWire.lean ====
section
/-!
SUPPORT. Every operation and command of Machine/Wire.lean keeps what `Keeps` says.
-/
namespace Sys2Proof.Machine

theorem State.respond_keeps {s0 s : State} (h : Keeps s0 s) (a1 a2) : Keeps s0 (State.respond s a1 a2) := by
  unfold State.respond
  repeat' first
    | with_reducible assumption
    | with_reducible apply State.enqueue_keeps

theorem State.announceAddresses_keeps {s0 s : State} (h : Keeps s0 s) (a1) : Keeps s0 (State.announceAddresses s a1) := by
  unfold State.announceAddresses
  repeat' first
    | with_reducible assumption
    | (extract_lets +onlyGivenNames x; refine (fun (hx : Keeps s0 x) => ?_) ?_; clear_value x; revert x; intro y hy; rotate_left; subst x)
    | with_reducible apply State.respond_keeps
    | with_reducible refine Keeps.ite ?_ ?_
    | with_reducible refine Keeps.foldl (fun t x ht => ?_) ?_

end Sys2Proof.Machine
end

