-- ==== Sys2Proof/Laws/KeepsTasks.lean ====
section
/-!
SUPPORT. Every operation and command of Machine/Tasks.lean keeps what `Keeps` says.
-/
namespace Sys2Proof.Machine

theorem State.dropRun_keeps {s0 s : State} (h : Keeps s0 s) (a1) : Keeps s0 (State.dropRun s a1) := by
  unfold State.dropRun
  repeat' first
    | with_reducible assumption
    | (extract_lets +onlyGivenNames x; (let z : Pae := x; clear z); revert x; intro y)
    | (with_reducible apply Keeps.upd
       with_reducible exact rfl
       first
         | with_reducible exact rfl
         | simp +zetaDelta [State.kept])

theorem State.freeTrs_keeps {s0 s : State} (h : Keeps s0 s) (a1) : Keeps s0 (State.freeTrs s a1) := by
  unfold State.freeTrs
  repeat' first
    | with_reducible assumption
    | (extract_lets +onlyGivenNames x
       first
         | (refine (fun (hx : Keeps s0 x) => ?_) ?_; clear_value x; revert x; intro y hy; rotate_left; subst x)
         | ((first | (let z : Plc := x; clear z) | (let z : Cqc := x; clear z)); revert x; intro y))
    | with_reducible apply State.dropRun_keeps
    | (with_reducible apply Keeps.upd
       with_reducible exact rfl
       first
         | with_reducible exact rfl
         | simp +zetaDelta [State.kept])

theorem State.finish_keeps {s0 s : State} (h : Keeps s0 s) (a1 a2 a3 a4 a5) : Keeps s0 (State.finish s a1 a2 a3 a4 a5) := by
  unfold State.finish
  repeat' first
    | with_reducible assumption
    | with_reducible apply State.mapTrs_keeps

theorem State.fail_keeps {s0 s : State} (h : Keeps s0 s) (a1 a2 a3) : Keeps s0 (State.fail s a1 a2 a3) := by
  unfold State.fail
  repeat' first
    | with_reducible assumption
    | with_reducible apply State.finish_keeps

theorem State.meter_keeps {s0 s : State} (h : Keeps s0 s) (a1 a2 a3 a4) : Keeps s0 (State.meter s a1 a2 a3 a4) := by
  unfold State.meter
  repeat' first
    | with_reducible assumption
    | with_reducible apply State.mapAccount_keeps
    | with_reducible refine Keeps.ite ?_ ?_

theorem State.respondWith_keeps {s0 s : State} (h : Keeps s0 s) (a1 a2) : Keeps s0 (State.respondWith s a1 a2) := by
  unfold State.respondWith
  repeat' first
    | with_reducible assumption
    | with_reducible apply State.mapSession_keeps

theorem State.remember_keeps {s0 s : State} (h : Keeps s0 s) (a1 a2) : Keeps s0 (State.remember s a1 a2) := by
  unfold State.remember
  repeat' first
    | with_reducible assumption
    | (extract_lets +onlyGivenNames x; clear_value x; revert x; intro y)
    | with_reducible apply State.mapSession_keeps
    | with_reducible refine Keeps.ite ?_ ?_
    | (with_reducible apply Keeps.upd
       with_reducible exact rfl
       first
         | with_reducible exact rfl
         | simp +zetaDelta [State.kept])

theorem State.tracedDone_keeps {s0 s : State} (h : Keeps s0 s) (a1 a2 a3) : Keeps s0 (State.tracedDone s a1 a2 a3) :=
  State.traced_keeps h ..

theorem State.post_keeps {s0 s : State} (h : Keeps s0 s) (a1 a2 a3 a4 a5 a6 a7 a8 a9 a10 a11 a12 a13) : Keeps s0 (State.post s a1 a2 a3 a4 a5 a6 a7 a8 a9 a10 a11 a12 a13) := by
  unfold State.post
  repeat' first
    | with_reducible assumption
    | (extract_lets +onlyGivenNames x
       first
         | (refine (fun (hx : Keeps s0 x) => ?_) ?_; clear_value x; revert x; intro y hy; rotate_left; subst x)
         | (clear_value x; revert x; intro y))
    | with_reducible apply State.meter_keeps
    | with_reducible apply State.tracedDone_keeps
    | with_reducible apply State.bump_keeps
    | with_reducible apply State.remember_keeps
    | with_reducible apply State.respondWith_keeps
    | with_reducible refine Keeps.ite ?_ ?_

theorem State.answer_keeps {s0 s : State} (h : Keeps s0 s) (a1 a2 a3 a4 a5 a6 a7) : Keeps s0 (State.answer s a1 a2 a3 a4 a5 a6 a7) := by
  unfold State.answer
  repeat' first
    | with_reducible assumption
    | with_reducible apply State.post_keeps

end Sys2Proof.Machine
end

