-- ==== Sys2Proof/Laws/KeepsDataPorts.lean ====
section
/-!
SUPPORT. Every operation and command of Machine/DataPorts.lean keeps what `Keeps` says.
-/
namespace Sys2Proof.Machine

theorem State.hold_keeps {s0 s : State} (h : Keeps s0 s) (a1 a2) : Keeps s0 (State.hold s a1 a2) := by
  unfold State.hold
  repeat' first
    | with_reducible assumption
    | (extract_lets +onlyGivenNames x
       first
         | (refine (fun (hx : Keeps s0 x) => ?_) ?_; clear_value x; revert x; intro y hy; rotate_left; subst x)
         | (clear_value x; revert x; intro y))
    | with_reducible apply State.setPartition_keeps
    | with_reducible apply State.mapPort_keeps
    | with_reducible apply State.flowCheck_keeps
    | split

theorem State.handle_keeps {s0 s : State} (h : Keeps s0 s) (a1 a2) : Keeps s0 (State.handle s a1 a2) := by
  unfold State.handle
  repeat' first
    | with_reducible assumption
    | (extract_lets +onlyGivenNames x; clear_value x; revert x; intro y)
    | with_reducible apply State.hold_keeps
    | with_reducible apply State.pbump_keeps
    | with_reducible apply State.respond_keeps
    | with_reducible apply State.mapPort_keeps
    | with_reducible refine Keeps.ite ?_ ?_
    | split

theorem State.receive_keeps {s0 s : State} (h : Keeps s0 s) (a1 a2) : Keeps s0 (State.receive s a1 a2) := by
  unfold State.receive
  repeat' first
    | with_reducible assumption
    | (extract_lets +onlyGivenNames x
       first
         | (refine (fun (hx : Keeps s0 x) => ?_) ?_; clear_value x; revert x; intro y hy; rotate_left; subst x)
         | (clear_value x; revert x; intro y))
    | with_reducible apply State.pbump_keeps
    | with_reducible apply State.capture_keeps
    | with_reducible apply State.bump_keeps
    | with_reducible apply State.handle_keeps
    | with_reducible refine Keeps.ite ?_ ?_
    | split

theorem execFrameReceive_keeps {s0 s : State} (h : Keeps s0 s) (a1 a2) : KeepsR s0 (execFrameReceive a1 a2 s) := by
  unfold execFrameReceive
  repeat' first
    | with_reducible assumption
    | with_reducible apply State.receive_keeps
    | with_reducible apply State.frameWakes_keeps
    | with_reducible apply State.pbump_keeps
    | with_reducible apply KeepsR.next
    | with_reducible apply KeepsR.stop
    | split

theorem State.takeInbox_keeps {s0 s : State} (h : Keeps s0 s) (a1 a2) : KeepsOP s0 (State.takeInbox s a1 a2) := by
  unfold State.takeInbox
  repeat' first
    | with_reducible assumption
    | with_reducible apply State.release_keeps
    | with_reducible apply State.mapPort_keeps
    | with_reducible apply KeepsOP.none
    | with_reducible apply KeepsOP.some
    | split

theorem State.pauseFrame_keeps {s0 s : State} (h : Keeps s0 s) (a1 a2) : Keeps s0 (State.pauseFrame s a1 a2) := by
  unfold State.pauseFrame
  repeat' first
    | with_reducible assumption
    | (extract_lets +onlyGivenNames x
       first
         | (refine (fun (hx : Keeps s0 x) => ?_) ?_; clear_value x; revert x; intro y hy; rotate_left; subst x)
         | (clear_value x; revert x; intro y))
    | with_reducible apply State.mapPort_keeps
    | with_reducible apply State.pbump_keeps
    | with_reducible refine Keeps.ite ?_ ?_
    | split

theorem execPfcFrameRx_keeps {s0 s : State} (h : Keeps s0 s) (a1) : KeepsR s0 (execPfcFrameRx a1 s) := by
  unfold execPfcFrameRx
  repeat' first
    | with_reducible assumption
    | with_reducible refine Keeps.ofOP ‹_› ?_
    | with_reducible apply State.takeInbox_keeps
    | with_reducible apply State.pauseFrame_keeps
    | with_reducible apply KeepsR.next
    | split

theorem execPfcRefresh_keeps {s0 s : State} (h : Keeps s0 s) (a1 a2) : KeepsR s0 (execPfcRefresh a1 a2 s) := by
  unfold execPfcRefresh
  repeat' first
    | with_reducible assumption
    | with_reducible apply State.sendPause_keeps
    | with_reducible apply KeepsR.next
    | with_reducible apply KeepsR.fault
    | split

theorem execPauseExpiry_keeps {s0 s : State} (h : Keeps s0 s) (a1 a2) : KeepsR s0 (execPauseExpiry a1 a2 s) := by
  unfold execPauseExpiry
  repeat' first
    | with_reducible assumption
    | with_reducible apply State.mapPort_keeps
    | with_reducible apply KeepsR.next
    | with_reducible apply KeepsR.fault
    | split

theorem execPauseWatchdog_keeps {s0 s : State} (h : Keeps s0 s) (a1 a2) : KeepsR s0 (execPauseWatchdog a1 a2 s) := by
  unfold execPauseWatchdog
  repeat' first
    | with_reducible assumption
    | (extract_lets +onlyGivenNames x; clear_value x; revert x; intro y)
    | with_reducible apply State.raise_keeps
    | with_reducible apply State.pbump_keeps
    | with_reducible apply State.mapPort_keeps
    | with_reducible apply KeepsR.next
    | with_reducible apply KeepsR.fault
    | split

theorem execPauseHonourResume_keeps {s0 s : State} (h : Keeps s0 s) (a1 a2) : KeepsR s0 (execPauseHonourResume a1 a2 s) := by
  unfold execPauseHonourResume
  repeat' first
    | with_reducible assumption
    | with_reducible apply State.mapPort_keeps
    | with_reducible apply KeepsR.next
    | with_reducible apply KeepsR.fault
    | split

theorem State.gateSuspend_keeps {s0 s : State} (h : Keeps s0 s) (a1) : Keeps s0 (State.gateSuspend s a1) := by
  unfold State.gateSuspend
  repeat' first
    | with_reducible assumption
    | with_reducible apply State.raise_keeps
    | with_reducible apply State.mapPort_keeps
    | split

theorem State.sendLldp_keeps {s0 s : State} (h : Keeps s0 s) (a1) : Keeps s0 (State.sendLldp s a1) := by
  unfold State.sendLldp
  repeat' first
    | with_reducible assumption
    | with_reducible apply State.respond_keeps

theorem execLinkUp_keeps {s0 s : State} (h : Keeps s0 s) (a1 a2) : KeepsR s0 (execLinkUp a1 a2 s) := by
  unfold execLinkUp
  repeat' first
    | with_reducible assumption
    | (extract_lets +onlyGivenNames x
       first
         | (refine (fun (hx : Keeps s0 x) => ?_) ?_; clear_value x; revert x; intro y hy; rotate_left; subst x)
         | (clear_value x; revert x; intro y))
    | with_reducible apply State.mapPort_keeps
    | with_reducible apply State.announceAddresses_keeps
    | with_reducible apply State.raise_keeps
    | with_reducible apply State.sendLldp_keeps
    | with_reducible apply State.gateSuspend_keeps
    | with_reducible apply KeepsR.next
    | split

theorem State.linkFalls_keeps {s0 s : State} (h : Keeps s0 s) (a1) : Keeps s0 (State.linkFalls s a1) := by
  unfold State.linkFalls
  repeat' first
    | with_reducible assumption
    | (extract_lets +onlyGivenNames x; clear_value x; revert x; intro y)
    | with_reducible apply State.raise_keeps
    | with_reducible apply State.pbump_keeps
    | with_reducible apply State.mapPort_keeps
    | with_reducible refine Keeps.ite ?_ ?_

theorem execLinkDown_keeps {s0 s : State} (h : Keeps s0 s) (a1) : KeepsR s0 (execLinkDown a1 s) := by
  unfold execLinkDown
  repeat' first
    | with_reducible assumption
    | with_reducible apply State.linkFalls_keeps
    | with_reducible apply KeepsR.next

theorem execTrainingFailure_keeps {s0 s : State} (h : Keeps s0 s) (a1 a2) : KeepsR s0 (execTrainingFailure a1 a2 s) := by
  unfold execTrainingFailure
  repeat' first
    | with_reducible assumption
    | (extract_lets +onlyGivenNames x; clear_value x; revert x; intro y)
    | with_reducible apply State.mapPort_keeps
    | with_reducible apply State.raise_keeps
    | with_reducible apply State.pbump_keeps
    | with_reducible apply KeepsR.next
    | with_reducible apply KeepsR.fault
    | split

theorem execLinkPartnerDetect_keeps {s0 s : State} (h : Keeps s0 s) (a1) : KeepsR s0 (execLinkPartnerDetect a1 s) := by
  unfold execLinkPartnerDetect
  repeat' first
    | with_reducible assumption
    | with_reducible apply State.mapPort_keeps
    | with_reducible apply KeepsR.next
    | split

theorem execLpiEntry_keeps {s0 s : State} (h : Keeps s0 s) (a1) : KeepsR s0 (execLpiEntry a1 s) := by
  unfold execLpiEntry
  repeat' first
    | with_reducible assumption
    | (extract_lets +onlyGivenNames x; clear_value x; revert x; intro y)
    | with_reducible apply State.pbump_keeps
    | with_reducible apply State.mapPort_keeps
    | with_reducible apply KeepsR.next
    | split

theorem execLpiExit_keeps {s0 s : State} (h : Keeps s0 s) (a1) : KeepsR s0 (execLpiExit a1 s) := by
  unfold execLpiExit
  repeat' first
    | with_reducible assumption
    | with_reducible apply State.mapPort_keeps
    | with_reducible apply KeepsR.next
    | split

theorem execLpiRxEntry_keeps {s0 s : State} (h : Keeps s0 s) (a1) : KeepsR s0 (execLpiRxEntry a1 s) := by
  unfold execLpiRxEntry
  repeat' first
    | with_reducible assumption
    | with_reducible apply State.pbump_keeps
    | with_reducible apply State.mapPort_keeps
    | with_reducible apply KeepsR.next
    | split

theorem execLpiRxExit_keeps {s0 s : State} (h : Keeps s0 s) (a1) : KeepsR s0 (execLpiRxExit a1 s) := by
  unfold execLpiRxExit
  repeat' first
    | with_reducible assumption
    | with_reducible apply State.mapPort_keeps
    | with_reducible apply KeepsR.next

theorem execLldpRx_keeps {s0 s : State} (h : Keeps s0 s) (a1) : KeepsR s0 (execLldpRx a1 s) := by
  unfold execLldpRx
  repeat' first
    | with_reducible assumption
    | with_reducible refine Keeps.ofOP ‹_› ?_
    | with_reducible apply State.takeInbox_keeps
    | with_reducible apply State.mapPort_keeps
    | with_reducible apply State.putNum_keeps
    | with_reducible apply KeepsR.next
    | split

theorem execLldpTimer_keeps {s0 s : State} (h : Keeps s0 s) (a1) : KeepsR s0 (execLldpTimer a1 s) := by
  unfold execLldpTimer
  repeat' first
    | with_reducible assumption
    | with_reducible apply State.mapPort_keeps
    | with_reducible apply State.sendLldp_keeps
    | with_reducible apply KeepsR.next
    | split

theorem State.measured_keeps {s0 s : State} (h : Keeps s0 s) (a1 a2) : Keeps s0 (State.measured s a1 a2) := by
  unfold State.measured
  repeat' first
    | with_reducible assumption
    | (extract_lets +onlyGivenNames x
       first
         | (refine (fun (hx : Keeps s0 x) => ?_) ?_; clear_value x; revert x; intro y hy; rotate_left; subst x)
         | (clear_value x; revert x; intro y))
    | with_reducible apply State.putNum_keeps
    | with_reducible apply State.steer_keeps
    | with_reducible refine Keeps.ite ?_ ?_
    | (with_reducible apply Keeps.upd
       with_reducible exact rfl
       first
         | with_reducible exact rfl
         | simp +zetaDelta [State.kept])

theorem State.syncPair_keeps {s0 s : State} (h : Keeps s0 s) (a1 a2) : Keeps s0 (State.syncPair s a1 a2) := by
  unfold State.syncPair
  repeat' first
    | with_reducible assumption
    | (extract_lets +onlyGivenNames x; clear_value x; revert x; intro y)
    | (with_reducible apply Keeps.upd
       with_reducible exact rfl
       first
         | with_reducible exact rfl
         | simp +zetaDelta [State.kept])

theorem State.announce_keeps {s0 s : State} (h : Keeps s0 s) (a1 a2 a3 a4 a5 a6) : Keeps s0 (State.announce s a1 a2 a3 a4 a5 a6) := by
  unfold State.announce
  repeat' first
    | with_reducible assumption
    | (extract_lets +onlyGivenNames x
       first
         | (refine (fun (hx : Keeps s0 x) => ?_) ?_; clear_value x; revert x; intro y hy; rotate_left; subst x)
         | (clear_value x; revert x; intro y))
    | with_reducible apply State.putBytes_keeps
    | with_reducible apply State.raise_keeps
    | with_reducible refine Keeps.ite ?_ ?_
    | split
    | (with_reducible apply Keeps.upd
       with_reducible exact rfl
       first
         | with_reducible exact rfl
         | simp +zetaDelta [State.kept])

theorem State.ptpMessage_keeps {s0 s : State} (h : Keeps s0 s) (a1 a2) : Keeps s0 (State.ptpMessage s a1 a2) := by
  unfold State.ptpMessage
  repeat' first
    | with_reducible assumption
    | (extract_lets +onlyGivenNames x; clear_value x; revert x; intro y)
    | with_reducible apply State.announce_keeps
    | with_reducible apply State.syncPair_keeps
    | with_reducible apply State.measured_keeps
    | with_reducible refine Keeps.ite ?_ ?_
    | split
    | (with_reducible apply Keeps.upd
       with_reducible exact rfl
       first
         | with_reducible exact rfl
         | simp +zetaDelta [State.kept])

theorem execPtpMessageRx_keeps {s0 s : State} (h : Keeps s0 s) (a1) : KeepsR s0 (execPtpMessageRx a1 s) := by
  unfold execPtpMessageRx
  repeat' first
    | with_reducible assumption
    | with_reducible refine Keeps.ofOP ‹_› ?_
    | with_reducible apply State.takeInbox_keeps
    | with_reducible apply State.ptpMessage_keeps
    | with_reducible apply KeepsR.next
    | split

theorem execDelayReqDue_keeps {s0 s : State} (h : Keeps s0 s) : KeepsR s0 (execDelayReqDue s) := by
  unfold execDelayReqDue
  repeat' first
    | with_reducible assumption
    | (extract_lets +onlyGivenNames x; clear_value x; revert x; intro y)
    | with_reducible apply State.respond_keeps
    | with_reducible apply KeepsR.next
    | split
    | (with_reducible apply Keeps.upd
       with_reducible exact rfl
       first
         | with_reducible exact rfl
         | simp +zetaDelta [State.kept])

theorem execPtpAnnounceTimeout_keeps {s0 s : State} (h : Keeps s0 s) : KeepsR s0 (execPtpAnnounceTimeout s) := by
  unfold execPtpAnnounceTimeout
  repeat' first
    | with_reducible assumption
    | (extract_lets +onlyGivenNames x; clear_value x; revert x; intro y)
    | with_reducible apply KeepsR.next
    | split
    | (with_reducible apply Keeps.upd
       with_reducible exact rfl
       first
         | with_reducible exact rfl
         | simp +zetaDelta [State.kept])

theorem execCaptureFreezeExpiry_keeps {s0 s : State} (h : Keeps s0 s) (a1) : KeepsR s0 (execCaptureFreezeExpiry a1 s) := by
  unfold execCaptureFreezeExpiry
  repeat' first
    | with_reducible assumption
    | with_reducible apply State.mapPort_keeps
    | with_reducible apply State.putNum_keeps
    | with_reducible apply KeepsR.next
    | split

theorem State.takeMeasure_keeps {s0 s : State} (h : Keeps s0 s) (a1 a2) : Keeps s0 (State.takeMeasure s a1 a2) := by
  unfold State.takeMeasure
  extract_lets ns sub s1
  exact State.traced_keeps (Keeps.ite (State.putNum_keeps h ..) h) ..

theorem State.sendOut_keeps {s0 s : State} (h : Keeps s0 s) (a1 a2 a3 a4 a5) : Keeps s0 (State.sendOut s a1 a2 a3 a4 a5) := by
  unfold State.sendOut
  repeat' first
    | with_reducible assumption
    | (extract_lets +onlyGivenNames x
       first
         | (refine (fun (hx : Keeps s0 x) => ?_) ?_; clear_value x; revert x; intro y hy; rotate_left; subst x)
         | (clear_value x; revert x; intro y))
    | with_reducible apply State.mapPort_keeps
    | with_reducible apply State.takeMeasure_keeps
    | with_reducible apply State.emit_keeps
    | with_reducible apply State.pbump_keeps
    | with_reducible refine Keeps.ite ?_ ?_
    | split
    | (with_reducible apply Keeps.upd
       with_reducible exact rfl
       first
         | with_reducible exact rfl
         | simp +zetaDelta [State.kept])

theorem execFrameTransmit_keeps {s0 s : State} (h : Keeps s0 s) (a1) : KeepsR s0 (execFrameTransmit a1 s) := by
  unfold execFrameTransmit
  repeat' first
    | with_reducible assumption
    | (extract_lets +onlyGivenNames x; clear_value x; revert x; intro y)
    | with_reducible apply State.sendOut_keeps
    | with_reducible apply State.mapPort_keeps
    | with_reducible apply KeepsR.next
    | split

end Sys2Proof.Machine
end

