-- ==== Sys2Proof/Laws/KeepsTransport.lean ====
section
/-!
SUPPORT. Every operation and command of Machine/Transport.lean keeps what `Keeps` says.
-/
namespace Sys2Proof.Machine

theorem State.carryOut_keeps {s0 s : State} (h : Keeps s0 s) (a1 a2 a3) : Keeps s0 (State.carryOut s a1 a2 a3) := by
  unfold State.carryOut
  repeat' first
    | with_reducible assumption
    | (extract_lets +onlyGivenNames x
       first
         | (refine (fun (hx : Keeps s0 x) => ?_) ?_; clear_value x; revert x; intro y hy; rotate_left; subst x)
         | (clear_value x; revert x; intro y))
    | with_reducible apply State.crypt_keeps
    | with_reducible apply State.transfer_keeps
    | with_reducible refine Keeps.ite ?_ ?_
    | split

theorem State.dispatch_keeps {s0 s : State} (h : Keeps s0 s) (a1 a2 a3) : KeepsOP s0 (State.dispatch s a1 a2 a3) := by
  unfold State.dispatch
  repeat' first
    | with_reducible assumption
    | (extract_lets +onlyGivenNames x
       first
         | (refine (fun (hx : Keeps s0 x) => ?_) ?_; clear_value x; revert x; intro y hy; rotate_left; subst x)
         | (clear_value x; revert x; intro y))
    | with_reducible apply State.mapSession_keeps
    | with_reducible apply State.macBlocks_keeps
    | with_reducible apply State.bump_keeps
    | with_reducible apply State.carryOut_keeps
    | with_reducible apply State.enqueue_keeps
    | with_reducible apply KeepsOP.none
    | with_reducible apply KeepsOP.some
    | split

theorem State.endSession_keeps {s0 s : State} (h : Keeps s0 s) (a1) : Keeps s0 (State.endSession s a1) := by
  unfold State.endSession
  repeat' first
    | with_reducible assumption
    | (extract_lets +onlyGivenNames x
       first
         | (refine (fun (hx : Keeps s0 x) => ?_) ?_; clear_value x; revert x; intro y hy; rotate_left; subst x)
         | ((first | (let z : Pae := x; clear z) | (let z : Cqc := x; clear z) | clear_value x); revert x; intro y))
    | with_reducible apply State.dropSession_keeps
    | with_reducible apply State.freeTrs_keeps
    | with_reducible refine Keeps.ite ?_ ?_
    | with_reducible refine Keeps.foldl (fun t x ht => ?_) ?_
    | split
    | (with_reducible apply Keeps.upd
       with_reducible exact rfl
       first
         | with_reducible exact rfl
         | simp +zetaDelta [State.kept])

theorem State.endSessions_keeps {s0 s : State} (h : Keeps s0 s) (a1) : Keeps s0 (State.endSessions s a1) := by
  unfold State.endSessions
  repeat' first
    | with_reducible assumption
    | with_reducible apply State.endSession_keeps
    | with_reducible refine Keeps.foldl (fun t x ht => ?_) ?_

theorem State.exhausted_keeps {s0 s : State} (h : Keeps s0 s) (a1) : Keeps s0 (State.exhausted s a1) := by
  unfold State.exhausted
  repeat' first
    | with_reducible assumption
    | with_reducible apply State.raise_keeps
    | with_reducible apply State.endSession_keeps

theorem State.sendAck_keeps {s0 s : State} (h : Keeps s0 s) (a1 a2) : Keeps s0 (State.sendAck s a1 a2) := by
  unfold State.sendAck
  repeat' first
    | with_reducible assumption
    | with_reducible refine Keeps.ofOP ‹_› ?_
    | with_reducible apply State.dispatch_keeps
    | with_reducible apply State.exhausted_keeps
    | split

theorem State.sendFrom_keeps {s0 s : State} (h : Keeps s0 s) (a1 a2) : KeepsO s0 (State.sendFrom s a1 a2) := by
  unfold State.sendFrom
  repeat' first
    | with_reducible assumption
    | with_reducible refine Keeps.ofOP ‹_› ?_
    | with_reducible apply State.dispatch_keeps
    | with_reducible apply State.bufferRead_keeps
    | with_reducible apply State.exhausted_keeps
    | with_reducible apply State.mapSession_keeps
    | with_reducible apply KeepsO.none
    | with_reducible apply KeepsO.some
    | split

theorem State.sendNext_keeps {s0 s : State} (h : Keeps s0 s) (a1) : KeepsO s0 (State.sendNext s a1) := by
  unfold State.sendNext
  repeat' first
    | with_reducible assumption
    | with_reducible apply State.sendFrom_keeps

theorem State.resend_keeps {s0 s : State} (h : Keeps s0 s) (a1 a2 a3) : Keeps s0 (State.resend s a1 a2 a3) := by
  unfold State.resend
  repeat' first
    | with_reducible assumption
    | (extract_lets +onlyGivenNames x
       first
         | (refine (fun (hx : Keeps s0 x) => ?_) ?_; clear_value x; revert x; intro y hy; rotate_left; subst x)
         | (clear_value x; revert x; intro y))
    | with_reducible refine Keeps.ofOP ‹_› ?_
    | with_reducible apply State.mapSession_keeps
    | with_reducible apply State.dispatch_keeps
    | with_reducible apply State.bufferRead_keeps
    | with_reducible apply State.exhausted_keeps
    | with_reducible refine Keeps.ite ?_ ?_
    | split

theorem State.voidFragment_keeps {s0 s : State} (h : Keeps s0 s) (a1) : Keeps s0 (State.voidFragment s a1) := by
  unfold State.voidFragment
  repeat' first
    | with_reducible assumption
    | (extract_lets +onlyGivenNames x
       first
         | (refine (fun (hx : Keeps s0 x) => ?_) ?_; clear_value x; revert x; intro y hy; rotate_left; subst x)
         | (clear_value x; revert x; intro y))
    | with_reducible apply State.mapSession_keeps
    | with_reducible apply State.resend_keeps
    | split

theorem State.ackFields_keeps {s0 s : State} (h : Keeps s0 s) (a1 a2 a3 a4) : Keeps s0 (State.ackFields s a1 a2 a3 a4) := by
  unfold State.ackFields
  repeat' first
    | with_reducible assumption
    | (extract_lets +onlyGivenNames x; refine (fun (hx : Keeps s0 x) => ?_) ?_; clear_value x; revert x; intro y hy; rotate_left; subst x)
    | with_reducible apply State.mapSession_keeps
    | with_reducible apply State.endSession_keeps
    | with_reducible apply State.bump_keeps
    | with_reducible apply State.resend_keeps
    | with_reducible refine Keeps.ite ?_ ?_
    | with_reducible refine Keeps.foldl (fun t x ht => ?_) ?_
    | split

end Sys2Proof.Machine
end

