-- ==== Sys2Proof/Laws/KeepsFragments.lean ====
section
/-!
SUPPORT. Every operation and command of Machine/Fragments.lean keeps what `Keeps` says.
-/
namespace Sys2Proof.Machine

theorem State.answerDescs_keeps {s0 s : State} (h : Keeps s0 s) (a1 a2 a3) : Keeps s0 (State.answerDescs s a1 a2 a3) := by
  unfold State.answerDescs
  repeat' first
    | with_reducible assumption
    | with_reducible apply State.answer_keeps
    | with_reducible refine Keeps.foldl (fun t x ht => ?_) ?_
    | split

theorem State.clearLanes_keeps {s0 s : State} (h : Keeps s0 s) (a1) : Keeps s0 (State.clearLanes s a1) := by
  unfold State.clearLanes
  repeat' first
    | with_reducible assumption
    | (extract_lets +onlyGivenNames x; (let z : Cqc := x; clear z); revert x; intro y)
    | (with_reducible apply Keeps.upd
       with_reducible exact rfl
       first
         | with_reducible exact rfl
         | simp +zetaDelta [State.kept])

theorem State.answerLanes_keeps {s0 s : State} (h : Keeps s0 s) (a1 a2) : Keeps s0 (State.answerLanes s a1 a2) := by
  unfold State.answerLanes
  repeat' first
    | with_reducible assumption
    | with_reducible apply State.answerDescs_keeps
    | with_reducible apply State.clearLanes_keeps

theorem State.resetEffect_keeps {s0 s : State} (h : Keeps s0 s) (a1) : Keeps s0 (State.resetEffect s a1) := by
  unfold State.resetEffect
  repeat' first
    | with_reducible assumption
    | (extract_lets +onlyGivenNames x
       first
         | (refine (fun (hx : Keeps s0 x) => ?_) ?_; clear_value x; revert x; intro y hy; rotate_left; subst x)
         | (let z : _ → _ := x; clear z; subst x)
         | ((first | (let z : Pae := x; clear z) | (let z : Cqc := x; clear z) | clear_value x); revert x; intro y))
    | with_reducible apply State.clearLanes_keeps
    | with_reducible apply State.raise_keeps
    | with_reducible apply State.bump_keeps
    | with_reducible apply State.mapTrs_keeps
    | dsimp only
    | (with_reducible apply Keeps.upd
       with_reducible exact rfl
       first
         | with_reducible exact rfl
         | simp +zetaDelta [State.kept])

theorem State.beginDrain_keeps {s0 s : State} (h : Keeps s0 s) (a1) : Keeps s0 (State.beginDrain s a1) := by
  unfold State.beginDrain
  extract_lets c s1
  have h1 : Keeps s0 s1 := State.bump_keeps (h.eq rfl) ..
  clear_value s1
  exact State.answerLanes_keeps h1 ..

theorem State.traceStart_keeps {s0 s : State} (h : Keeps s0 s) (a1) : Keeps s0 (State.traceStart s a1) := by
  unfold State.traceStart
  split
  · exact Keeps.ite h (State.traced_keeps h ..)
  · exact h

theorem State.startAdmin_keeps {s0 s : State} (h : Keeps s0 s) (a1) : Keeps s0 (State.startAdmin s a1) := by
  unfold State.startAdmin
  extract_lets s1
  have h1 : Keeps s0 s1 := State.traceStart_keeps (State.mapTrs_keeps h ..) ..
  clear_value s1
  have h2 : Keeps s0 { s1 with cqc.policyBefore := s1.cqc.policy } := h1.eq rfl
  exact Keeps.ite (State.resetEffect_keeps h1 ..) (Keeps.ite (State.beginDrain_keeps h2 ..) h1)

theorem State.releaseTask_keeps {s0 s : State} (h : Keeps s0 s) (a1) : Keeps s0 (State.releaseTask s a1) := by
  unfold State.releaseTask
  repeat' first
    | with_reducible assumption
    | with_reducible apply State.mapTrs_keeps
    | with_reducible apply State.startAdmin_keeps
    | with_reducible refine Keeps.ite ?_ ?_

theorem State.releaseSome_keeps {s0 s : State} (h : Keeps s0 s) (a1) : Keeps s0 (State.releaseSome a1 s) := by
  induction a1 generalizing s with
  | zero =>
    unfold State.releaseSome
    repeat' first
      | with_reducible assumption
  | succ n ih =>
    unfold State.releaseSome
    repeat' first
      | with_reducible assumption
      | with_reducible apply State.releaseTask_keeps
      | with_reducible apply ih
      | split

theorem State.releaseHeld_keeps {s0 s : State} (h : Keeps s0 s) : Keeps s0 (State.releaseHeld s) := by
  unfold State.releaseHeld
  repeat' first
    | with_reducible assumption
    | with_reducible apply State.releaseSome_keeps

theorem State.noSession_keeps {s0 s : State} (h : Keeps s0 s) (a1 a2) : Keeps s0 (State.noSession s a1 a2) := by
  unfold State.noSession
  repeat' first
    | with_reducible assumption
    | (extract_lets +onlyGivenNames x
       first
         | (refine (fun (hx : Keeps s0 x) => ?_) ?_; clear_value x; revert x; intro y hy; rotate_left; subst x)
         | (clear_value x; revert x; intro y))
    | with_reducible apply State.bump_keeps
    | with_reducible apply State.respond_keeps
    | with_reducible refine Keeps.ite ?_ ?_
    | (with_reducible apply Keeps.upd
       with_reducible exact rfl
       first
         | with_reducible exact rfl
         | simp +zetaDelta [State.kept])

theorem State.sendReply_keeps {s0 s : State} (h : Keeps s0 s) (a1 a2 a3) : Keeps s0 (State.sendReply s a1 a2 a3) := by
  unfold State.sendReply
  repeat' first
    | with_reducible assumption
    | (extract_lets +onlyGivenNames x; clear_value x; revert x; intro y)
    | with_reducible apply State.bump_keeps
    | with_reducible apply State.enqueue_keeps

theorem State.refuseHandshake_keeps {s0 s : State} (h : Keeps s0 s) (a1 a2 a3 a4 a5 a6) : Keeps s0 (State.refuseHandshake s a1 a2 a3 a4 a5 a6) := by
  unfold State.refuseHandshake
  repeat' first
    | with_reducible assumption
    | (extract_lets +onlyGivenNames x; clear_value x; revert x; intro y)
    | with_reducible apply State.bump_keeps
    | with_reducible apply State.sendReply_keeps

theorem State.adopt_keeps {s0 s : State} (h : Keeps s0 s) (a1 a2) : Keeps s0 (State.adopt s a1 a2) := by
  unfold State.adopt
  repeat' first
    | with_reducible assumption
    | (extract_lets +onlyGivenNames x; (let z : Cqc := x; clear z); revert x; intro y)
    | split
    | (with_reducible apply Keeps.upd
       with_reducible exact rfl
       first
         | with_reducible exact rfl
         | simp +zetaDelta [State.kept])

theorem State.abandon_keeps {s0 s : State} (h : Keeps s0 s) (a1 a2) : Keeps s0 (State.abandon s a1 a2) := by
  unfold State.abandon
  repeat' first
    | with_reducible assumption
    | (extract_lets +onlyGivenNames x
       first
         | (refine (fun (hx : Keeps s0 x) => ?_) ?_; clear_value x; revert x; intro y hy; rotate_left; subst x)
         | ((let z : Cqc := x; clear z); revert x; intro y))
    | with_reducible apply State.dropRun_keeps
    | with_reducible apply State.finish_keeps
    | with_reducible apply State.mapTrs_keeps
    | (with_reducible apply Keeps.upd
       with_reducible exact rfl
       first
         | with_reducible exact rfl
         | simp +zetaDelta [State.kept])

theorem State.badRequest_keeps {s0 s : State} (h : Keeps s0 s) (a1 a2 a3 a4) : Keeps s0 (State.badRequest s a1 a2 a3 a4) := by
  unfold State.badRequest
  repeat' first
    | with_reducible assumption
    | (extract_lets +onlyGivenNames x
       first
         | (refine (fun (hx : Keeps s0 x) => ?_) ?_; clear_value x; revert x; intro y hy; rotate_left; subst x)
         | (let z : _ → _ := x; clear z; subst x)
         | ((first | (let z : Cqc := x; clear z) | clear_value x); revert x; intro y))
    | with_reducible apply State.mapSession_keeps
    | with_reducible apply State.abandon_keeps
    | with_reducible apply State.freeTrs_keeps
    | with_reducible apply State.clearLanes_keeps
    | with_reducible apply State.answer_keeps
    | with_reducible refine Keeps.ite ?_ ?_
    | with_reducible refine Keeps.foldl (fun t x ht => ?_) ?_
    | split
    | dsimp only
    | (with_reducible apply Keeps.upd
       with_reducible exact rfl
       first
         | with_reducible exact rfl
         | simp +zetaDelta [State.kept])

theorem State.present_keeps {s0 s : State} (h : Keeps s0 s) (a1 a2 a3 a4) : Keeps s0 (State.present s a1 a2 a3 a4) := by
  unfold State.present
  repeat' first
    | with_reducible assumption
    | (extract_lets +onlyGivenNames x; (first | (let z : Cqc := x; clear z) | clear_value x); revert x; intro y)
    | with_reducible apply State.transfer_keeps
    | (with_reducible apply Keeps.upd
       with_reducible exact rfl
       first
         | with_reducible exact rfl
         | simp +zetaDelta [State.kept])

theorem State.stageData_keeps {s0 s : State} (h : Keeps s0 s) (a1 a2) : Keeps s0 (State.stageData s a1 a2) := by
  unfold State.stageData
  repeat' first
    | with_reducible assumption
    | with_reducible apply State.transfer_keeps
    | with_reducible refine Keeps.ite ?_ ?_

theorem State.place_keeps {s0 s : State} (h : Keeps s0 s) (a1 a2 a3) : Keeps s0 (State.place s a1 a2 a3) := by
  unfold State.place
  repeat' first
    | with_reducible assumption
    | (extract_lets +onlyGivenNames x
       first
         | (refine (fun (hx : Keeps s0 x) => ?_) ?_; clear_value x; revert x; intro y hy; rotate_left; subst x)
         | ((first | (let z : Cqc := x; clear z) | clear_value x); revert x; intro y))
    | with_reducible apply State.stageData_keeps
    | with_reducible apply State.badRequest_keeps
    | with_reducible apply State.mapSession_keeps
    | with_reducible apply State.present_keeps
    | with_reducible refine Keeps.ite ?_ ?_
    | split
    | (with_reducible apply Keeps.upd
       with_reducible exact rfl
       first
         | with_reducible exact rfl
         | simp +zetaDelta [State.kept])

theorem State.accept_keeps {s0 s : State} (h : Keeps s0 s) (a1 a2 a3) : Keeps s0 (State.accept s a1 a2 a3) := by
  unfold State.accept
  repeat' first
    | with_reducible assumption
    | (extract_lets +onlyGivenNames x; refine (fun (hx : Keeps s0 x) => ?_) ?_; clear_value x; revert x; intro y hy; rotate_left; subst x)
    | with_reducible apply State.adopt_keeps
    | with_reducible apply State.mapSession_keeps
    | with_reducible apply State.badRequest_keeps
    | with_reducible apply State.place_keeps
    | with_reducible refine Keeps.ite ?_ ?_
    | split

theorem State.ackLater_keeps {s0 s : State} (h : Keeps s0 s) (a1 a2) : Keeps s0 (State.ackLater s a1 a2) := by
  unfold State.ackLater
  repeat' first
    | with_reducible assumption
    | with_reducible apply State.sendAck_keeps
    | with_reducible apply State.mapSession_keeps
    | with_reducible refine Keeps.ite ?_ ?_

theorem State.openSeal_keeps {s0 s : State} (h : Keeps s0 s) (a1 a2) : Keeps s0 (State.openSeal s a1 a2) := by
  unfold State.openSeal
  repeat' first
    | with_reducible assumption
    | with_reducible apply State.bump_keeps
    | with_reducible apply State.crypt_keeps

theorem State.authentic_keeps {s0 s : State} (h : Keeps s0 s) (a1 a2) : Keeps s0 (State.authentic s a1 a2) := by
  unfold State.authentic
  repeat' first
    | with_reducible assumption
    | (extract_lets +onlyGivenNames x; refine (fun (hx : Keeps s0 x) => ?_) ?_; clear_value x; revert x; intro y hy; rotate_left; subst x)
    | with_reducible apply State.macBlocks_keeps
    | with_reducible apply State.bump_keeps
    | with_reducible apply State.openSeal_keeps
    | with_reducible apply State.mapSession_keeps
    | with_reducible apply State.ackFields_keeps
    | with_reducible refine Keeps.ite ?_ ?_
    | split

theorem State.halfOpenFragment_keeps {s0 s : State} (h : Keeps s0 s) (a1 a2 a3) : Keeps s0 (State.halfOpenFragment s a1 a2 a3) := by
  unfold State.halfOpenFragment
  repeat' first
    | with_reducible assumption
    | (extract_lets +onlyGivenNames x
       first
         | (refine (fun (hx : Keeps s0 x) => ?_) ?_; clear_value x; revert x; intro y hy; rotate_left; subst x)
         | (clear_value x; revert x; intro y))
    | with_reducible apply State.bump_keeps
    | with_reducible apply State.ackLater_keeps
    | with_reducible apply State.sendReply_keeps
    | with_reducible refine Keeps.ite ?_ ?_
    | (with_reducible apply Keeps.upd
       with_reducible exact rfl
       first
         | with_reducible exact rfl
         | simp +zetaDelta [State.kept])

theorem State.message_keeps {s0 s : State} (h : Keeps s0 s) (a1 a2 a3) : Keeps s0 (State.message s a1 a2 a3) := by
  unfold State.message
  repeat' first
    | with_reducible assumption
    | (extract_lets +onlyGivenNames x
       first
         | (refine (fun (hx : Keeps s0 x) => ?_) ?_; clear_value x; revert x; intro y hy; rotate_left; subst x)
         | (clear_value x; revert x; intro y))
    | with_reducible apply State.bump_keeps
    | with_reducible apply State.mapSession_keeps
    | with_reducible apply State.ackLater_keeps
    | with_reducible apply State.releaseHeld_keeps
    | with_reducible apply State.accept_keeps
    | with_reducible refine Keeps.ite ?_ ?_

theorem State.spent_keeps {s0 s : State} (h : Keeps s0 s) (a1 a2) : Keeps s0 (State.spent s a1 a2) := by
  unfold State.spent
  repeat' first
    | with_reducible assumption
    | with_reducible apply State.exhausted_keeps
    | with_reducible refine Keeps.ite ?_ ?_
    | split

theorem State.dropped_keeps {s0 s : State} (h : Keeps s0 s) (a1 a2) : Keeps s0 (State.dropped s a1 a2) := by
  unfold State.dropped
  repeat' first
    | with_reducible assumption
    | (extract_lets +onlyGivenNames x; refine (fun (hx : Keeps s0 x) => ?_) ?_; clear_value x; revert x; intro y hy; rotate_left; subst x)
    | with_reducible apply State.bump_keeps
    | with_reducible apply State.openSeal_keeps
    | with_reducible refine Keeps.ite ?_ ?_
    | split

theorem State.fragment_keeps {s0 s : State} (h : Keeps s0 s) (a1 a2) : Keeps s0 (State.fragment s a1 a2) := by
  unfold State.fragment
  repeat' first
    | with_reducible assumption
    | (extract_lets +onlyGivenNames x
       first
         | (refine (fun (hx : Keeps s0 x) => ?_) ?_; clear_value x; revert x; intro y hy; rotate_left; subst x)
         | (clear_value x; revert x; intro y))
    | with_reducible refine Keeps.of2 ‹_› ?_
    | with_reducible apply State.dropped_keeps
    | with_reducible apply State.refuseHandshake_keeps
    | with_reducible apply State.bump_keeps
    | with_reducible apply State.noSession_keeps
    | with_reducible apply State.bufferRead_keeps
    | with_reducible apply State.authentic_keeps
    | with_reducible apply State.spent_keeps
    | with_reducible apply State.halfOpenFragment_keeps
    | with_reducible apply State.message_keeps
    | with_reducible refine Keeps.ite ?_ ?_
    | split
    | (with_reducible apply Keeps.upd
       with_reducible exact rfl
       first
         | with_reducible exact rfl
         | simp +zetaDelta [State.kept])

theorem State.ackFragment_keeps {s0 s : State} (h : Keeps s0 s) (a1 a2) : Keeps s0 (State.ackFragment s a1 a2) := by
  unfold State.ackFragment
  repeat' first
    | with_reducible assumption
    | (extract_lets +onlyGivenNames x; refine (fun (hx : Keeps s0 x) => ?_) ?_; clear_value x; revert x; intro y hy; rotate_left; subst x)
    | with_reducible apply State.dropped_keeps
    | with_reducible apply State.refuseHandshake_keeps
    | with_reducible apply State.bump_keeps
    | with_reducible apply State.noSession_keeps
    | with_reducible apply State.authentic_keeps
    | with_reducible apply State.sendAck_keeps
    | with_reducible apply State.mapSession_keeps
    | with_reducible apply State.spent_keeps
    | with_reducible refine Keeps.ite ?_ ?_
    | split

theorem State.takeIn_keeps {s0 s : State} (h : Keeps s0 s) (a1 a2) : Keeps s0 (State.takeIn s a1 a2) := by
  unfold State.takeIn
  repeat' first
    | with_reducible assumption
    | (extract_lets +onlyGivenNames x
       first
         | (refine (fun (hx : Keeps s0 x) => ?_) ?_; clear_value x; revert x; intro y hy; rotate_left; subst x)
         | (clear_value x; revert x; intro y))
    | with_reducible apply State.transfer_keeps
    | (with_reducible apply Keeps.upd
       with_reducible exact rfl
       first
         | with_reducible exact rfl
         | simp +zetaDelta [State.kept])

theorem execFragmentRx_keeps {s0 s : State} (h : Keeps s0 s) (a1) : KeepsR s0 (execFragmentRx a1 s) := by
  unfold execFragmentRx
  repeat' first
    | with_reducible assumption
    | with_reducible apply State.release_keeps
    | with_reducible apply State.fragment_keeps
    | with_reducible apply State.takeIn_keeps
    | with_reducible apply State.mapPort_keeps
    | with_reducible apply KeepsR.next
    | split

theorem execAckOnly_keeps {s0 s : State} (h : Keeps s0 s) (a1) : KeepsR s0 (execAckOnly a1 s) := by
  unfold execAckOnly
  repeat' first
    | with_reducible assumption
    | with_reducible apply State.release_keeps
    | with_reducible apply State.ackFragment_keeps
    | with_reducible apply State.takeIn_keeps
    | with_reducible apply State.mapPort_keeps
    | with_reducible apply KeepsR.next
    | split

theorem execAckDue_keeps {s0 s : State} (h : Keeps s0 s) (a1) : KeepsR s0 (execAckDue a1 s) := by
  unfold execAckDue
  repeat' first
    | with_reducible assumption
    | with_reducible apply State.sendAck_keeps
    | with_reducible apply KeepsR.next
    | split

theorem execFragmentSend_keeps {s0 s : State} (h : Keeps s0 s) (a1) : KeepsR s0 (execFragmentSend a1 s) := by
  unfold execFragmentSend
  repeat' first
    | with_reducible assumption
    | with_reducible refine Keeps.ofO ‹_› ?_
    | with_reducible apply State.sendNext_keeps
    | with_reducible apply KeepsR.next
    | split

theorem State.sessionDies_keeps {s0 s : State} (h : Keeps s0 s) (a1 a2) : Keeps s0 (State.sessionDies s a1 a2) := by
  unfold State.sessionDies
  repeat' first
    | with_reducible assumption
    | with_reducible apply State.endSession_keeps
    | with_reducible apply State.raise_keeps
    | with_reducible apply State.bump_keeps
    | split

theorem execRtoExpiry_keeps {s0 s : State} (h : Keeps s0 s) (a1) : KeepsR s0 (execRtoExpiry a1 s) := by
  unfold execRtoExpiry
  repeat' first
    | with_reducible assumption
    | (extract_lets +onlyGivenNames x; refine (fun (hx : Keeps s0 x) => ?_) ?_; clear_value x; revert x; intro y hy; rotate_left; subst x)
    | with_reducible apply State.sessionDies_keeps
    | with_reducible apply State.mapSession_keeps
    | with_reducible apply State.bump_keeps
    | with_reducible apply State.resend_keeps
    | with_reducible apply State.sendAck_keeps
    | with_reducible apply KeepsR.next
    | split

theorem execSessionIdleExpiry_keeps {s0 s : State} (h : Keeps s0 s) (a1) : KeepsR s0 (execSessionIdleExpiry a1 s) := by
  unfold execSessionIdleExpiry
  repeat' first
    | with_reducible assumption
    | with_reducible apply State.sessionDies_keeps
    | with_reducible apply KeepsR.next
    | split

theorem execHalfOpenExpiry_keeps {s0 s : State} (h : Keeps s0 s) (a1) : KeepsR s0 (execHalfOpenExpiry a1 s) := by
  unfold execHalfOpenExpiry
  repeat' first
    | with_reducible assumption
    | with_reducible apply State.endSession_keeps
    | with_reducible apply KeepsR.next
    | split

theorem execEpochGraceExpiry_keeps {s0 s : State} (h : Keeps s0 s) (a1) : KeepsR s0 (execEpochGraceExpiry a1 s) := by
  unfold execEpochGraceExpiry
  repeat' first
    | with_reducible assumption
    | with_reducible apply State.mapSession_keeps
    | with_reducible apply KeepsR.next

theorem execReplayEntryExpiry_keeps {s0 s : State} (h : Keeps s0 s) (a1 a2) : KeepsR s0 (execReplayEntryExpiry a1 a2 s) := by
  unfold execReplayEntryExpiry
  repeat' first
    | with_reducible assumption
    | (extract_lets +onlyGivenNames x
       first
         | (refine (fun (hx : Keeps s0 x) => ?_) ?_; clear_value x; revert x; intro y hy; rotate_left; subst x)
         | (let z : _ → _ := x; clear z; subst x)
         | (clear_value x; revert x; intro y))
    | with_reducible apply State.mapSession_keeps
    | with_reducible apply KeepsR.next
    | dsimp only
    | (with_reducible apply Keeps.upd
       with_reducible exact rfl
       first
         | with_reducible exact rfl
         | simp +zetaDelta [State.kept])

theorem execSessionIdRelease_keeps {s0 s : State} (h : Keeps s0 s) (a1) : KeepsR s0 (execSessionIdRelease a1 s) := by
  unfold execSessionIdRelease
  repeat' first
    | with_reducible assumption
    | (extract_lets +onlyGivenNames x; clear_value x; revert x; intro y)
    | with_reducible apply KeepsR.next
    | (with_reducible apply Keeps.upd
       with_reducible exact rfl
       first
         | with_reducible exact rfl
         | simp +zetaDelta [State.kept])

theorem gateCommitEffect_keeps {s0 s : State} (h : Keeps s0 s) (a1 br bi bu bv) : Keeps s0 (gateCommitEffect a1 br bi bu bv s).1 := by
  unfold gateCommitEffect
  repeat' first
    | with_reducible assumption
    | (extract_lets +onlyGivenNames x; clear_value x; revert x; intro y)
    | with_reducible apply State.putNum_keeps
    | with_reducible apply State.mapPort_keeps
    | split

theorem execGateCommit_keeps {s0 s : State} (h : Keeps s0 s) (a1 a2 a3) : KeepsR s0 (execGateCommit a1 a2 a3 s) := by
  unfold execGateCommit
  repeat' first
    | with_reducible assumption
    | with_reducible apply State.ownWrite_keeps
    | with_reducible apply gateCommitEffect_keeps
    | with_reducible apply KeepsR.next
    | intro _

theorem execGateSwitch_keeps {s0 s : State} (h : Keeps s0 s) (a1) : KeepsR s0 (execGateSwitch a1 s) := by
  unfold execGateSwitch
  repeat' first
    | with_reducible assumption
    | (extract_lets +onlyGivenNames x
       first
         | (refine (fun (hx : Keeps s0 x) => ?_) ?_; clear_value x; revert x; intro y hy; rotate_left; subst x)
         | (clear_value x; revert x; intro y))
    | with_reducible apply State.setPort_keeps
    | with_reducible apply State.pbump_keeps
    | with_reducible apply State.putNum_keeps
    | with_reducible apply State.voidFragment_keeps
    | with_reducible apply KeepsR.next
    | with_reducible refine Keeps.foldl (fun t x ht => ?_) ?_
    | split

end Sys2Proof.Machine
end

