-- ==== Sys2Proof/Laws/KeepsUnits.lean ====
section
/-!
SUPPORT. Every operation and command of Machine/Units.lean keeps what `Keeps` says.
-/
namespace Sys2Proof.Machine

theorem State.wantMask_keeps {s0 s : State} (h : Keeps s0 s) (a1 a2) : Keeps s0 (State.wantMask s a1 a2) := by
  unfold State.wantMask
  repeat' first
    | with_reducible assumption
    | (extract_lets +onlyGivenNames x; clear_value x; revert x; intro y)
    | split
    | (with_reducible apply Keeps.upd
       with_reducible exact rfl
       first
         | with_reducible exact rfl
         | simp +zetaDelta [State.kept])

theorem State.unmeasure_keeps {s0 s : State} (h : Keeps s0 s) (a1) : Keeps s0 (State.unmeasure s a1) := by
  unfold State.unmeasure
  repeat' first
    | with_reducible assumption
    | (extract_lets +onlyGivenNames x; (first | (let z : Cqc := x; clear z) | clear_value x); revert x; intro y)
    | (with_reducible apply Keeps.upd
       with_reducible exact rfl
       first
         | with_reducible exact rfl
         | simp +zetaDelta [State.kept])

theorem State.degradeReads_keeps {s0 s : State} (h : Keeps s0 s) (a1) : Keeps s0 (State.degradeReads s a1) := by
  unfold State.degradeReads
  repeat' first
    | with_reducible assumption
    | (extract_lets +onlyGivenNames x; (first | (let z : Cqc := x; clear z) | clear_value x); revert x; intro y)
    | (with_reducible apply Keeps.upd
       with_reducible exact rfl
       first
         | with_reducible exact rfl
         | simp +zetaDelta [State.kept])

theorem State.tileOut_keeps {s0 s : State} (h : Keeps s0 s) (a1) : Keeps s0 (State.tileOut s a1) := by
  unfold State.tileOut
  repeat' first
    | with_reducible assumption
    | (extract_lets +onlyGivenNames x; clear_value x; revert x; intro y)
    | with_reducible apply State.mapTile_keeps
    | with_reducible apply State.degradeReads_keeps
    | with_reducible apply State.unmeasure_keeps

theorem State.unitOut_keeps {s0 s : State} (h : Keeps s0 s) (a1 a2) : Keeps s0 (State.unitOut s a1 a2) := by
  unfold State.unitOut
  repeat' first
    | with_reducible assumption
    | (extract_lets +onlyGivenNames x; (first | (let z : Asu := x; clear z) | (let z : Pae := x; clear z)); revert x; intro y)
    | with_reducible apply State.linkFalls_keeps
    | with_reducible apply State.pipelineOut_keeps
    | with_reducible apply State.tileOut_keeps
    | split
    | (with_reducible apply Keeps.upd
       with_reducible exact rfl
       first
         | with_reducible exact rfl
         | simp +zetaDelta [State.kept])

theorem State.isolate_keeps {s0 s : State} (h : Keeps s0 s) (a1 a2) : Keeps s0 (State.isolate s a1 a2) := by
  unfold State.isolate
  repeat' first
    | with_reducible assumption
    | (extract_lets +onlyGivenNames x
       first
         | (refine (fun (hx : Keeps s0 x) => ?_) ?_; clear_value x; revert x; intro y hy; rotate_left; subst x)
         | ((first | (let z : Msv := x; clear z) | clear_value x); revert x; intro y))
    | with_reducible apply State.wantMask_keeps
    | with_reducible apply State.unitOut_keeps
    | with_reducible apply State.mapHealth_keeps
    | with_reducible apply State.raise_keeps
    | with_reducible refine Keeps.ite ?_ ?_
    | (with_reducible apply Keeps.upd
       with_reducible exact rfl
       first
         | with_reducible exact rfl
         | simp +zetaDelta [State.kept])

end Sys2Proof.Machine
end

