-- ==== Sys2Proof/Laws/KeepsRules.lean ====
section
/-!
SUPPORT. Every operation and command of Machine/Rules.lean keeps what `Keeps` says.
-/
namespace Sys2Proof.Machine

theorem State.classify_keeps {s0 s : State} (h : Keeps s0 s) (a1 a2 a3) : Keeps s0 (State.classify s a1 a2 a3).2 := by
  unfold State.classify
  repeat' first
    | with_reducible assumption
    | (extract_lets +onlyGivenNames x
       first
         | (refine (fun (hx : Keeps s0 x) => ?_) ?_; clear_value x; revert x; intro y hy; rotate_left; subst x)
         | (clear_value x; revert x; intro y))
    | with_reducible apply State.bump_keeps
    | with_reducible apply State.traced_keeps
    | split

theorem State.classifyScan_keeps {s0 s : State} (h : Keeps s0 s) (a1 a2 a3) : Keeps s0 (State.classifyScan s a1 a2 a3).2 := by
  unfold State.classifyScan
  repeat' first
    | with_reducible assumption
    | (extract_lets +onlyGivenNames x
       first
         | (refine (fun (hx : Keeps s0 x) => ?_) ?_; clear_value x; revert x; intro y hy; rotate_left; subst x)
         | (clear_value x; revert x; intro y))
    | with_reducible apply State.bump_keeps
    | with_reducible apply State.traced_keeps
    | split

theorem State.acceptRule_keeps {s0 s : State} (h : Keeps s0 s) (a1) : Keeps s0 (State.acceptRule s a1).1 := by
  unfold State.acceptRule
  repeat' first
    | with_reducible assumption
    | (extract_lets +onlyGivenNames x; (let z : Asu := x; clear z); revert x; intro y)
    | with_reducible apply State.putBytes_keeps
    | split
    | (with_reducible apply Keeps.upd
       with_reducible exact rfl
       first
         | with_reducible exact rfl
         | simp +zetaDelta [State.kept])

theorem ruleCommandEffect_keeps {s0 s : State} (h : Keeps s0 s) (br bi bu bv) : Keeps s0 (ruleCommandEffect br bi bu bv s).1 := by
  unfold ruleCommandEffect
  repeat' first
    | with_reducible assumption
    | with_reducible apply State.acceptRule_keeps
    | split

theorem ruleRow_keeps {s0 s : State} (h : Keeps s0 s) (a1 a2 a3) : Keeps s0 (ruleRow a1 a2 a3 s) := by
  unfold ruleRow
  repeat' first
    | with_reducible assumption
    | with_reducible apply State.ownWrite_keeps
    | with_reducible apply ruleCommandEffect_keeps
    | with_reducible refine Keeps.ite ?_ ?_
    | intro _

theorem execRuleInsert_keeps {s0 s : State} (h : Keeps s0 s) (a1 a2) : KeepsR s0 (execRuleInsert a1 a2 s) := by
  unfold execRuleInsert
  repeat' first
    | with_reducible assumption
    | with_reducible apply ruleRow_keeps
    | with_reducible apply KeepsR.next

theorem execRuleReplace_keeps {s0 s : State} (h : Keeps s0 s) (a1 a2) : KeepsR s0 (execRuleReplace a1 a2 s) := by
  unfold execRuleReplace
  repeat' first
    | with_reducible assumption
    | with_reducible apply ruleRow_keeps
    | with_reducible apply KeepsR.next

theorem execRuleDelete_keeps {s0 s : State} (h : Keeps s0 s) (a1 a2) : KeepsR s0 (execRuleDelete a1 a2 s) := by
  unfold execRuleDelete
  repeat' first
    | with_reducible assumption
    | with_reducible apply ruleRow_keeps
    | with_reducible apply KeepsR.next

theorem execRuleUpdateWrite_keeps {s0 s : State} (h : Keeps s0 s) : KeepsR s0 (execRuleUpdateWrite s) := by
  unfold execRuleUpdateWrite
  repeat' first
    | with_reducible assumption
    | (extract_lets +onlyGivenNames x
       first
         | (refine (fun (hx : Keeps s0 x) => ?_) ?_; clear_value x; revert x; intro y hy; rotate_left; subst x)
         | ((first | (let z : Asu := x; clear z) | (let z : Pae := x; clear z) | clear_value x); revert x; intro y))
    | with_reducible apply State.bump_keeps
    | with_reducible apply KeepsR.next
    | split
    | (with_reducible apply Keeps.upd
       with_reducible exact rfl
       first
         | with_reducible exact rfl
         | simp +zetaDelta [State.kept])

theorem execRuleScrub_keeps {s0 s : State} (h : Keeps s0 s) (a1) : KeepsR s0 (execRuleScrub a1 s) := by
  unfold execRuleScrub
  repeat' first
    | with_reducible assumption
    | (extract_lets +onlyGivenNames x; (let z : Asu := x; clear z); revert x; intro y)
    | with_reducible apply State.raise_keeps
    | with_reducible apply State.bump_keeps
    | with_reducible apply KeepsR.next
    | split
    | (with_reducible apply Keeps.upd
       with_reducible exact rfl
       first
         | with_reducible exact rfl
         | simp +zetaDelta [State.kept])

theorem ruleWidthEffect_keeps {s0 s : State} (h : Keeps s0 s) (br bi bu bv) : Keeps s0 (ruleWidthEffect br bi bu bv s).1 := by
  unfold ruleWidthEffect
  repeat' first
    | with_reducible assumption
    | (extract_lets +onlyGivenNames x; clear_value x; revert x; intro y)
    | with_reducible apply State.put_keeps
    | split

theorem predImageEffect_keeps {s0 s : State} (h : Keeps s0 s) (a1 br bi bu bv) : Keeps s0 (predImageEffect a1 br bi bu bv s).1 := by
  unfold predImageEffect
  repeat' first
    | with_reducible assumption
    | (extract_lets +onlyGivenNames x; (first | (let z : Asu := x; clear z) | (let z : Pae := x; clear z) | clear_value x); revert x; intro y)
    | split
    | dsimp only
    | (with_reducible apply Keeps.upd
       with_reducible exact rfl
       first
         | with_reducible exact rfl
         | simp +zetaDelta [State.kept])

theorem execPredImageWrite_keeps {s0 s : State} (h : Keeps s0 s) (a1 a2 a3) : KeepsR s0 (execPredImageWrite a1 a2 a3 s) := by
  unfold execPredImageWrite
  repeat' first
    | with_reducible assumption
    | with_reducible apply State.ownWrite_keeps
    | with_reducible apply predImageEffect_keeps
    | with_reducible apply KeepsR.next
    | with_reducible apply KeepsR.fault
    | split
    | intro _

theorem predClearEffect_keeps {s0 s : State} (h : Keeps s0 s) (br bi bu bv) : Keeps s0 (predClearEffect br bi bu bv s).1 := by
  unfold predClearEffect
  repeat' first
    | with_reducible assumption
    | (extract_lets +onlyGivenNames x; (first | (let z : Asu := x; clear z) | (let z : Pae := x; clear z) | clear_value x); revert x; intro y)
    | split
    | dsimp only
    | (with_reducible apply Keeps.upd
       with_reducible exact rfl
       first
         | with_reducible exact rfl
         | simp +zetaDelta [State.kept])

theorem execPredClear_keeps {s0 s : State} (h : Keeps s0 s) (a1 a2) : KeepsR s0 (execPredClear a1 a2 s) := by
  unfold execPredClear
  repeat' first
    | with_reducible assumption
    | with_reducible apply State.ownWrite_keeps
    | with_reducible apply predClearEffect_keeps
    | with_reducible apply KeepsR.next
    | intro _

end Sys2Proof.Machine
end

