-- ==== Sys2Proof/Laws/KeepsIndex.lean ====
section
/-!
SUPPORT. Every operation and command of Machine/Index.lean keeps what `Keeps` says.
-/
namespace Sys2Proof.Machine

theorem State.mapPage_keeps {s0 s : State} (h : Keeps s0 s) (a1 a2) : Keeps s0 (State.mapPage s a1 a2) := by
  unfold State.mapPage
  repeat' first
    | with_reducible assumption
    | (extract_lets +onlyGivenNames x; (let z : Asu := x; clear z); revert x; intro y)
    | (with_reducible apply Keeps.upd
       with_reducible exact rfl
       first
         | with_reducible exact rfl
         | simp +zetaDelta [State.kept])

theorem State.wantPage_keeps {s0 s : State} (h : Keeps s0 s) (a1) : Keeps s0 (State.wantPage s a1) := by
  unfold State.wantPage
  repeat' first
    | with_reducible assumption
    | with_reducible apply State.mapPage_keeps

theorem State.touchPage_keeps {s0 s : State} (h : Keeps s0 s) (a1) : Keeps s0 (State.touchPage s a1) := by
  unfold State.touchPage
  repeat' first
    | with_reducible assumption
    | (extract_lets +onlyGivenNames x
       first
         | (refine (fun (hx : Keeps s0 x) => ?_) ?_; clear_value x; revert x; intro y hy; rotate_left; subst x)
         | ((let z : Asu := x; clear z); revert x; intro y))
    | with_reducible apply State.mapPage_keeps
    | (with_reducible apply Keeps.upd
       with_reducible exact rfl
       first
         | with_reducible exact rfl
         | simp +zetaDelta [State.kept])

theorem State.evict_keeps {s0 s : State} (h : Keeps s0 s) : Keeps s0 (State.evict s) := by
  unfold State.evict
  repeat' first
    | with_reducible assumption
    | (extract_lets +onlyGivenNames x; clear_value x; revert x; intro y)
    | with_reducible apply State.bump_keeps
    | with_reducible apply State.mapPage_keeps
    | with_reducible refine Keeps.ite ?_ ?_
    | split

theorem State.newPage_keeps {s0 s : State} (h : Keeps s0 s) (a1 a2 a3 a4) : Keeps s0 (State.newPage s a1 a2 a3 a4).2 := by
  unfold State.newPage
  repeat' first
    | with_reducible assumption
    | (extract_lets +onlyGivenNames x
       first
         | (refine (fun (hx : Keeps s0 x) => ?_) ?_; clear_value x; revert x; intro y hy; rotate_left; subst x)
         | ((first | (let z : Asu := x; clear z) | clear_value x); revert x; intro y))
    | with_reducible apply State.evict_keeps
    | dsimp only
    | (with_reducible apply Keeps.upd
       with_reducible exact rfl
       first
         | with_reducible exact rfl
         | simp +zetaDelta [State.kept])

theorem State.readPage_keeps {s0 s : State} (h : Keeps s0 s) (a1) : Keeps s0 (State.readPage s a1) := by
  unfold State.readPage
  repeat' first
    | with_reducible assumption
    | with_reducible refine Keeps.of2 ‹_› ?_
    | with_reducible apply State.bufferRead_keeps
    | with_reducible apply State.mapPage_keeps
    | split

theorem State.readPages_keeps {s0 s : State} (h : Keeps s0 s) (a1) : Keeps s0 (State.readPages s a1) := by
  unfold State.readPages
  repeat' first
    | with_reducible assumption
    | with_reducible apply State.readPage_keeps
    | with_reducible refine Keeps.ite ?_ ?_
    | with_reducible refine Keeps.foldl (fun t x ht => ?_) ?_

theorem State.changePage_keeps {s0 s : State} (h : Keeps s0 s) (a1 a2) : Keeps s0 (State.changePage s a1 a2) := by
  unfold State.changePage
  repeat' first
    | with_reducible assumption
    | with_reducible apply State.mapPage_keeps

theorem State.touchDirAt_keeps {s0 s : State} (h : Keeps s0 s) (a1 a2 a3) : Keeps s0 (State.touchDirAt s a1 a2 a3) := by
  unfold State.touchDirAt
  repeat' first
    | with_reducible assumption
    | with_reducible apply State.changePage_keeps
    | with_reducible apply State.newPage_keeps
    | with_reducible apply State.mapPage_keeps
    | split

theorem State.touchDir_keeps {s0 s : State} (h : Keeps s0 s) (a1 a2 a3) : Keeps s0 (State.touchDir s a1 a2 a3) := by
  unfold State.touchDir
  repeat' first
    | with_reducible assumption
    | with_reducible apply State.touchDirAt_keeps
    | with_reducible refine Keeps.ite ?_ ?_
    | with_reducible refine Keeps.foldl (fun t x ht => ?_) ?_

theorem State.invalidate_keeps {s0 s : State} (h : Keeps s0 s) (a1 a2) : Keeps s0 (State.invalidate s a1 a2) := by
  unfold State.invalidate
  repeat' first
    | with_reducible assumption
    | (extract_lets +onlyGivenNames x; (let z : Asu := x; clear z); revert x; intro y)
    | (with_reducible apply Keeps.upd
       with_reducible exact rfl
       first
         | with_reducible exact rfl
         | simp +zetaDelta [State.kept])

theorem State.changeAbove_keeps {s0 s : State} (h : Keeps s0 s) (a1 a2 a3 a4) : Keeps s0 (State.changeAbove s a1 a2 a3 a4) := by
  unfold State.changeAbove
  repeat' first
    | with_reducible assumption
    | with_reducible apply State.changePage_keeps
    | with_reducible refine Keeps.foldl (fun t x ht => ?_) ?_

theorem State.fitTree_keeps {s0 s : State} (h : Keeps s0 s) (a1 a2 a3) : Keeps s0 (State.fitTree s a1 a2 a3) := by
  unfold State.fitTree
  repeat' first
    | with_reducible assumption
    | (extract_lets +onlyGivenNames x
       first
         | (refine (fun (hx : Keeps s0 x) => ?_) ?_; clear_value x; revert x; intro y hy; rotate_left; subst x)
         | ((first | (let z : Asu := x; clear z) | clear_value x); revert x; intro y))
    | with_reducible apply State.newPage_keeps
    | with_reducible apply State.mapPage_keeps
    | with_reducible refine Keeps.foldl (fun t x ht => ?_) ?_
    | (with_reducible apply Keeps.upd
       with_reducible exact rfl
       first
         | with_reducible exact rfl
         | simp +zetaDelta [State.kept])

theorem State.fitTrees_keeps {s0 s : State} (h : Keeps s0 s) : Keeps s0 (State.fitTrees s) := by
  unfold State.fitTrees
  repeat' first
    | with_reducible assumption
    | (extract_lets +onlyGivenNames x; clear_value x; revert x; intro y)
    | with_reducible apply State.fitTree_keeps
    | with_reducible refine Keeps.foldl (fun t x ht => ?_) ?_

theorem State.chainBucket_keeps {s0 s : State} (h : Keeps s0 s) (a1 a2) : Keeps s0 (State.chainBucket s a1 a2) := by
  unfold State.chainBucket
  repeat' first
    | with_reducible assumption
    | (extract_lets +onlyGivenNames x; (first | (let z : Asu := x; clear z) | clear_value x); revert x; intro y)
    | with_reducible apply State.touchDirAt_keeps
    | (with_reducible apply Keeps.upd
       with_reducible exact rfl
       first
         | with_reducible exact rfl
         | simp +zetaDelta [State.kept])

theorem State.fitChains_keeps {s0 s : State} (h : Keeps s0 s) : Keeps s0 (State.fitChains s) := by
  unfold State.fitChains
  repeat' first
    | with_reducible assumption
    | (extract_lets +onlyGivenNames x
       first
         | (refine (fun (hx : Keeps s0 x) => ?_) ?_; clear_value x; revert x; intro y hy; rotate_left; subst x)
         | ((first | (let z : Asu := x; clear z) | clear_value x); revert x; intro y))
    | with_reducible apply State.chainBucket_keeps
    | with_reducible refine Keeps.foldl (fun t x ht => ?_) ?_
    | (with_reducible apply Keeps.upd
       with_reducible exact rfl
       first
         | with_reducible exact rfl
         | simp +zetaDelta [State.kept])

theorem State.moveEntries_keeps {s0 s : State} (h : Keeps s0 s) (a1 a2 a3) : Keeps s0 (State.moveEntries s a1 a2 a3) := by
  unfold State.moveEntries
  repeat' first
    | with_reducible assumption
    | (extract_lets +onlyGivenNames x; clear_value x; revert x; intro y)
    | with_reducible apply State.mapKey_keeps
    | with_reducible apply State.touchDir_keeps
    | with_reducible apply State.invalidate_keeps
    | with_reducible refine Keeps.foldl (fun t x ht => ?_) ?_

theorem State.splitPage_keeps {s0 s : State} (h : Keeps s0 s) (a1 a2) : Keeps s0 (State.splitPage s a1 a2) := by
  unfold State.splitPage
  repeat' first
    | with_reducible assumption
    | (extract_lets +onlyGivenNames x; clear_value x; revert x; intro y)
    | with_reducible apply State.newPage_keeps
    | with_reducible apply State.moveEntries_keeps
    | with_reducible apply State.changeAbove_keeps
    | with_reducible apply State.changePage_keeps
    | split

theorem State.seat_keeps {s0 s : State} (h : Keeps s0 s) (a1 a2 a3 a4) : Keeps s0 (State.seat s a1 a2 a3 a4).2.2 := by
  unfold State.seat
  repeat' first
    | with_reducible assumption
    | (extract_lets +onlyGivenNames x; refine (fun (hx : Keeps s0 x) => ?_) ?_; clear_value x; revert x; intro y hy; rotate_left; subst x)
    | with_reducible apply State.newPage_keeps
    | with_reducible apply State.splitPage_keeps
    | split

theorem State.dropEmpty_keeps {s0 s : State} (h : Keeps s0 s) : Keeps s0 (State.dropEmpty s) := by
  unfold State.dropEmpty
  repeat' first
    | with_reducible assumption
    | (extract_lets +onlyGivenNames x; (let z : Asu := x; clear z); revert x; intro y)
    | with_reducible apply State.fitChains_keeps
    | with_reducible apply State.fitTrees_keeps
    | (with_reducible apply Keeps.upd
       with_reducible exact rfl
       first
         | with_reducible exact rfl
         | simp +zetaDelta [State.kept])

theorem State.mapBank_keeps {s0 s : State} (h : Keeps s0 s) (a1 a2) : Keeps s0 (State.mapBank s a1 a2) := by
  unfold State.mapBank
  repeat' first
    | with_reducible assumption
    | (extract_lets +onlyGivenNames x; (let z : Asu := x; clear z); revert x; intro y)
    | (with_reducible apply Keeps.upd
       with_reducible exact rfl
       first
         | with_reducible exact rfl
         | simp +zetaDelta [State.kept])

theorem State.camFault_keeps {s0 s : State} (h : Keeps s0 s) (a1 a2) : Keeps s0 (State.camFault s a1 a2) := by
  unfold State.camFault
  repeat' first
    | with_reducible assumption
    | (extract_lets +onlyGivenNames x
       first
         | (refine (fun (hx : Keeps s0 x) => ?_) ?_; clear_value x; revert x; intro y hy; rotate_left; subst x)
         | (let z : _ → _ := x; clear z; subst x))
    | with_reducible apply State.raise_keeps
    | with_reducible apply State.bump_keeps
    | with_reducible apply State.mapBank_keeps
    | with_reducible apply State.isolate_keeps
    | with_reducible refine Keeps.ite ?_ ?_

theorem State.queueInsert_keeps {s0 s : State} (h : Keeps s0 s) (a1 a2) : Keeps s0 (State.queueInsert s a1 a2) := by
  unfold State.queueInsert
  repeat' first
    | with_reducible assumption
    | (extract_lets +onlyGivenNames x; (first | (let z : Asu := x; clear z) | clear_value x); revert x; intro y)
    | (with_reducible apply Keeps.upd
       with_reducible exact rfl
       first
         | with_reducible exact rfl
         | simp +zetaDelta [State.kept])

theorem State.camInsert_keeps {s0 s : State} (h : Keeps s0 s) (a1) : Keeps s0 (State.camInsert s a1) := by
  unfold State.camInsert
  repeat' first
    | with_reducible assumption
    | with_reducible apply State.queueInsert_keeps
    | split

theorem State.walker_keeps {s0 s : State} (h : Keeps s0 s) (a1 a2 a3 a4 a5) : Keeps s0 (State.walker s a1 a2 a3 a4 a5).2 := by
  unfold State.walker
  repeat' first
    | with_reducible assumption
    | (extract_lets +onlyGivenNames x
       first
         | (refine (fun (hx : Keeps s0 x) => ?_) ?_; clear_value x; revert x; intro y hy; rotate_left; subst x)
         | (clear_value x; revert x; intro y))
    | with_reducible apply State.touchPage_keeps
    | with_reducible apply State.camInsert_keeps
    | with_reducible apply State.wantPage_keeps
    | with_reducible refine Keeps.foldl (fun t x ht => ?_) ?_
    | split

theorem State.falseHit_keeps {s0 s : State} (h : Keeps s0 s) (a1 a2 a3 a4 a5) : Keeps s0 (State.falseHit s a1 a2 a3 a4 a5) := by
  unfold State.falseHit
  repeat' first
    | with_reducible assumption
    | with_reducible apply State.bump_keeps
    | with_reducible apply State.camFault_keeps
    | with_reducible refine Keeps.ite ?_ ?_

theorem State.lookup_keeps {s0 s : State} (h : Keeps s0 s) (a1 a2 a3 a4 a5 a6) : Keeps s0 (State.lookup s a1 a2 a3 a4 a5 a6).2 := by
  unfold State.lookup
  repeat' first
    | with_reducible assumption
    | (extract_lets +onlyGivenNames x; refine (fun (hx : Keeps s0 x) => ?_) ?_; clear_value x; revert x; intro y hy; rotate_left; subst x)
    | with_reducible apply State.walker_keeps
    | with_reducible apply State.bump_keeps
    | with_reducible apply State.traced_keeps
    | with_reducible apply State.wantPage_keeps
    | with_reducible apply State.mapBank_keeps
    | with_reducible apply State.touchPage_keeps
    | with_reducible apply State.falseHit_keeps
    | split

theorem State.bankWrite_keeps {s0 s : State} (h : Keeps s0 s) (a1) : Keeps s0 (State.bankWrite s a1) := by
  unfold State.bankWrite
  repeat' first
    | with_reducible assumption
    | (extract_lets +onlyGivenNames x
       first
         | (refine (fun (hx : Keeps s0 x) => ?_) ?_; clear_value x; revert x; intro y hy; rotate_left; subst x)
         | ((let z : Asu := x; clear z); revert x; intro y))
    | with_reducible apply State.mapBank_keeps
    | with_reducible apply State.bump_keeps
    | with_reducible refine Keeps.ite ?_ ?_
    | split
    | (with_reducible apply Keeps.upd
       with_reducible exact rfl
       first
         | with_reducible exact rfl
         | simp +zetaDelta [State.kept])

theorem execCamUpdateCycle_keeps {s0 s : State} (h : Keeps s0 s) : KeepsR s0 (execCamUpdateCycle s) := by
  unfold execCamUpdateCycle
  repeat' first
    | with_reducible assumption
    | (extract_lets +onlyGivenNames x
       first
         | (refine (fun (hx : Keeps s0 x) => ?_) ?_; clear_value x; revert x; intro y hy; rotate_left; subst x)
         | ((let z : Asu := x; clear z); revert x; intro y))
    | with_reducible apply State.bankWrite_keeps
    | with_reducible apply KeepsR.next
    | with_reducible refine Keeps.foldl (fun t x ht => ?_) ?_
    | (with_reducible apply Keeps.upd
       with_reducible exact rfl
       first
         | with_reducible exact rfl
         | simp +zetaDelta [State.kept])

theorem State.preload_keeps {s0 s : State} (h : Keeps s0 s) (a1) : Keeps s0 (State.preload s a1) := by
  unfold State.preload
  repeat' first
    | with_reducible assumption
    | with_reducible apply State.queueInsert_keeps
    | with_reducible refine Keeps.ite ?_ ?_
    | with_reducible refine Keeps.foldl (fun t x ht => ?_) ?_

theorem State.preloadAll_keeps {s0 s : State} (h : Keeps s0 s) : Keeps s0 (State.preloadAll s) := by
  unfold State.preloadAll
  repeat' first
    | with_reducible assumption
    | with_reducible apply State.preload_keeps
    | with_reducible refine Keeps.foldl (fun t x ht => ?_) ?_

theorem State.bankReturns_keeps {s0 s : State} (h : Keeps s0 s) (a1) : Keeps s0 (State.bankReturns s a1) := by
  unfold State.bankReturns
  repeat' first
    | with_reducible assumption
    | with_reducible apply State.preload_keeps
    | with_reducible apply State.mapBank_keeps
    | with_reducible refine Keeps.ite ?_ ?_
    | split

theorem State.banksReturn_keeps {s0 s : State} (h : Keeps s0 s) : Keeps s0 (State.banksReturn s) := by
  unfold State.banksReturn
  repeat' first
    | with_reducible assumption
    | with_reducible apply State.bankReturns_keeps
    | with_reducible refine Keeps.foldl (fun t x ht => ?_) ?_

theorem camWidthEffect_keeps {s0 s : State} (h : Keeps s0 s) (a1 br bi bu bv) : Keeps s0 (camWidthEffect a1 br bi bu bv s).1 := by
  unfold camWidthEffect
  repeat' first
    | with_reducible assumption
    | (extract_lets +onlyGivenNames x
       first
         | (refine (fun (hx : Keeps s0 x) => ?_) ?_; clear_value x; revert x; intro y hy; rotate_left; subst x)
         | (clear_value x; revert x; intro y))
    | with_reducible apply State.mapBank_keeps
    | with_reducible apply State.preload_keeps
    | with_reducible apply State.put_keeps

theorem execCamBankWidth_keeps {s0 s : State} (h : Keeps s0 s) (a1 a2 a3) : KeepsR s0 (execCamBankWidth a1 a2 a3 s) := by
  unfold execCamBankWidth
  repeat' first
    | with_reducible assumption
    | with_reducible apply State.ownWrite_keeps
    | with_reducible apply camWidthEffect_keeps
    | with_reducible apply KeepsR.next
    | with_reducible apply KeepsR.fault
    | split
    | intro _

theorem State.splitBucket_keeps {s0 s : State} (h : Keeps s0 s) (a1) : Keeps s0 (State.splitBucket s a1) := by
  unfold State.splitBucket
  repeat' first
    | with_reducible assumption
    | (extract_lets +onlyGivenNames x
       first
         | (refine (fun (hx : Keeps s0 x) => ?_) ?_; clear_value x; revert x; intro y hy; rotate_left; subst x)
         | ((let z : Asu := x; clear z); revert x; intro y))
    | with_reducible apply State.touchDirAt_keeps
    | with_reducible refine Keeps.ite ?_ ?_
    | split
    | (with_reducible apply Keeps.upd
       with_reducible exact rfl
       first
         | with_reducible exact rfl
         | simp +zetaDelta [State.kept])

theorem execDirectorySplit_keeps {s0 s : State} (h : Keeps s0 s) : KeepsR s0 (execDirectorySplit s) := by
  unfold execDirectorySplit
  repeat' first
    | with_reducible assumption
    | (extract_lets +onlyGivenNames x
       first
         | (refine (fun (hx : Keeps s0 x) => ?_) ?_; clear_value x; revert x; intro y hy; rotate_left; subst x)
         | ((first | (let z : Asu := x; clear z) | clear_value x); revert x; intro y))
    | with_reducible apply State.readPages_keeps
    | with_reducible apply State.wantPage_keeps
    | with_reducible apply State.splitBucket_keeps
    | with_reducible apply State.fitChains_keeps
    | with_reducible apply KeepsR.next
    | split
    | (with_reducible apply Keeps.upd
       with_reducible exact rfl
       first
         | with_reducible exact rfl
         | simp +zetaDelta [State.kept])

theorem execPageJoin_keeps {s0 s : State} (h : Keeps s0 s) (a1 a2) : KeepsR s0 (execPageJoin a1 a2 s) := by
  unfold execPageJoin
  repeat' first
    | with_reducible assumption
    | (extract_lets +onlyGivenNames x
       first
         | (refine (fun (hx : Keeps s0 x) => ?_) ?_; clear_value x; revert x; intro y hy; rotate_left; subst x)
         | (clear_value x; revert x; intro y))
    | with_reducible apply State.readPages_keeps
    | with_reducible apply State.dropEmpty_keeps
    | with_reducible apply State.changePage_keeps
    | with_reducible apply State.moveEntries_keeps
    | with_reducible apply State.changeAbove_keeps
    | with_reducible apply KeepsR.next
    | split

theorem pinReevaluateEffect_keeps {s0 s : State} (h : Keeps s0 s) (br bi bu bv) : Keeps s0 (pinReevaluateEffect br bi bu bv s).1 := by
  unfold pinReevaluateEffect
  repeat' first
    | with_reducible assumption
    | (extract_lets +onlyGivenNames x; (let z : Asu := x; clear z); revert x; intro y)
    | split
    | dsimp only
    | (with_reducible apply Keeps.upd
       with_reducible exact rfl
       first
         | with_reducible exact rfl
         | simp +zetaDelta [State.kept])

theorem execPinReevaluate_keeps {s0 s : State} (h : Keeps s0 s) (a1 a2) : KeepsR s0 (execPinReevaluate a1 a2 s) := by
  unfold execPinReevaluate
  repeat' first
    | with_reducible assumption
    | with_reducible apply State.ownWrite_keeps
    | with_reducible apply pinReevaluateEffect_keeps
    | with_reducible apply KeepsR.next
    | intro _

theorem State.seatMap_keeps {s0 s : State} (h : Keeps s0 s) (a1 a2 a3 a4) : Keeps s0 (State.seatMap s a1 a2 a3 a4).2.2 := by
  unfold State.seatMap
  repeat' first
    | with_reducible assumption
    | (extract_lets +onlyGivenNames x
       first
         | (refine (fun (hx : Keeps s0 x) => ?_) ?_; clear_value x; revert x; intro y hy; rotate_left; subst x)
         | (clear_value x; revert x; intro y))
    | with_reducible apply State.raise_keeps
    | with_reducible apply State.bump_keeps
    | with_reducible apply State.mapPage_keeps
    | with_reducible apply State.newPage_keeps
    | with_reducible refine Keeps.foldl2 (fun t x ht => ?_) ?_
    | split

theorem State.dropMapPages_keeps {s0 s : State} (h : Keeps s0 s) : Keeps s0 (State.dropMapPages s) := by
  unfold State.dropMapPages
  repeat' first
    | with_reducible assumption
    | (extract_lets +onlyGivenNames x; (let z : Asu := x; clear z); revert x; intro y)
    | (with_reducible apply Keeps.upd
       with_reducible exact rfl
       first
         | with_reducible exact rfl
         | simp +zetaDelta [State.kept])

theorem State.reseatMap_keeps {s0 s : State} (h : Keeps s0 s) (a1) : Keeps s0 (State.reseatMap s a1) := by
  unfold State.reseatMap
  repeat' first
    | with_reducible assumption
    | (extract_lets +onlyGivenNames x; refine (fun (hx : Keeps s0 x) => ?_) ?_; clear_value x; revert x; intro y hy; rotate_left; subst x)
    | with_reducible apply State.mapKey_keeps
    | with_reducible apply State.seatMap_keeps
    | with_reducible apply State.dropMapPages_keeps
    | with_reducible refine Keeps.ite ?_ ?_
    | split

theorem State.seatRetention_keeps {s0 s : State} (h : Keeps s0 s) (a1 a2) : Keeps s0 (State.seatRetention s a1 a2).2 := by
  unfold State.seatRetention
  repeat' first
    | with_reducible assumption
    | with_reducible apply State.mapPage_keeps
    | with_reducible apply State.newPage_keeps
    | split

theorem State.dropRetention_keeps {s0 s : State} (h : Keeps s0 s) : Keeps s0 (State.dropRetention s) := by
  unfold State.dropRetention
  repeat' first
    | with_reducible assumption
    | (extract_lets +onlyGivenNames x; (let z : Asu := x; clear z); revert x; intro y)
    | (with_reducible apply Keeps.upd
       with_reducible exact rfl
       first
         | with_reducible exact rfl
         | simp +zetaDelta [State.kept])

theorem State.pruneOlder_keeps {s0 s : State} (h : Keeps s0 s) : Keeps s0 (State.pruneOlder s) := by
  unfold State.pruneOlder
  repeat' first
    | with_reducible assumption
    | (extract_lets +onlyGivenNames x
       first
         | (refine (fun (hx : Keeps s0 x) => ?_) ?_; clear_value x; revert x; intro y hy; rotate_left; subst x)
         | ((first | (let z : Asu := x; clear z) | clear_value x); revert x; intro y))
    | with_reducible apply State.touchDir_keeps
    | with_reducible apply State.changePage_keeps
    | with_reducible apply State.invalidate_keeps
    | with_reducible apply State.dropRetention_keeps
    | with_reducible apply State.dropEmpty_keeps
    | with_reducible refine Keeps.ite ?_ ?_
    | with_reducible refine Keeps.foldl (fun t x ht => ?_) ?_
    | (with_reducible apply Keeps.upd
       with_reducible exact rfl
       first
         | with_reducible exact rfl
         | simp +zetaDelta [State.kept])

end Sys2Proof.Machine
end

