-- ==== Sys2Proof/Laws/KeepsStripes.lean ====
section
/-!
SUPPORT. Every operation and command of Machine/Stripes.lean keeps what `Keeps` says.
-/
namespace Sys2Proof.Machine

theorem State.limitFrom_keeps {s0 s : State} (h : Keeps s0 s) (a1) : Keeps s0 (State.limitFrom s a1) := by
  unfold State.limitFrom
  repeat' first
    | with_reducible assumption
    | with_reducible apply State.bump_keeps
    | with_reducible refine Keeps.ite ?_ ?_

theorem State.takeSlot_keeps {s0 s : State} (h : Keeps s0 s) (a1 a2 a3) : Keeps s0 (State.takeSlot s a1 a2 a3) := by
  unfold State.takeSlot
  repeat' first
    | with_reducible assumption
    | (extract_lets +onlyGivenNames x; (let z : Plc := x; clear z); revert x; intro y)
    | (with_reducible apply Keeps.upd
       with_reducible exact rfl
       first
         | with_reducible exact rfl
         | simp +zetaDelta [State.kept])

theorem State.mapStripe_keeps {s0 s : State} (h : Keeps s0 s) (a1 a2) : Keeps s0 (State.mapStripe s a1 a2) := by
  unfold State.mapStripe
  repeat' first
    | with_reducible assumption
    | (extract_lets +onlyGivenNames x; (let z : Plc := x; clear z); revert x; intro y)
    | (with_reducible apply Keeps.upd
       with_reducible exact rfl
       first
         | with_reducible exact rfl
         | simp +zetaDelta [State.kept])

theorem State.seatShards_keeps {s0 s : State} (h : Keeps s0 s) (a1 a2 a3) : Keeps s0 (State.seatShards s a1 a2 a3).2 := by
  unfold State.seatShards
  repeat' first
    | with_reducible assumption
    | (extract_lets +onlyGivenNames x; clear_value x; revert x; intro y)
    | with_reducible apply State.takeSlot_keeps
    | with_reducible refine Keeps.foldl2 (fun t x ht => ?_) ?_

theorem State.newStripe_keeps {s0 s : State} (h : Keeps s0 s) (a1 a2 a3 a4) : Keeps s0 (State.newStripe s a1 a2 a3 a4).2 := by
  unfold State.newStripe
  extract_lets id p x
  apply State.bump_keeps
  exact h.trans ⟨rfl, List.prefix_rfl, fun w => w, Nat.le_refl _, Nat.le_succ _, Nat.le_refl _,
    fun _ => rfl, fun _ m => m, fun d => d, Nat.le_refl _⟩

theorem State.giveShards_keeps {s0 s : State} (h : Keeps s0 s) (a1 a2) : KeepsO s0 (State.giveShards s a1 a2) := by
  unfold State.giveShards
  repeat' first
    | with_reducible assumption
    | (extract_lets +onlyGivenNames x; clear_value x; revert x; intro y)
    | with_reducible refine Keeps.of2 ‹_› ?_
    | with_reducible apply State.regionFor_keeps
    | with_reducible apply State.seatShards_keeps
    | with_reducible apply State.mapStripe_keeps
    | with_reducible apply KeepsO.none
    | with_reducible apply KeepsO.some
    | split

theorem State.seal_keeps {s0 s : State} (h : Keeps s0 s) (a1) : KeepsO s0 (State.seal s a1) := by
  unfold State.seal
  repeat' first
    | with_reducible assumption
    | with_reducible apply State.bump_keeps
    | with_reducible apply State.giveShards_keeps
    | with_reducible apply KeepsO.none
    | with_reducible refine KeepsO.map ?_ (fun t ht => ?_)
    | split

theorem State.buildStripe_keeps {s0 s : State} (h : Keeps s0 s) (a1 a2 a3 a4 a5) : KeepsOP s0 (State.buildStripe s a1 a2 a3 a4 a5) := by
  unfold State.buildStripe
  repeat' first
    | with_reducible assumption
    | with_reducible apply State.newStripe_keeps
    | with_reducible apply State.giveShards_keeps
    | with_reducible refine KeepsOP.map ?_ (fun t ht => ?_)

theorem State.packExtent_keeps {s0 s : State} (h : Keeps s0 s) (a1 a2 a3 a4) : KeepsOP s0 (State.packExtent s a1 a2 a3 a4) := by
  unfold State.packExtent
  repeat' first
    | with_reducible assumption
    | (extract_lets +onlyGivenNames x
       first
         | (let z : _ → _ := x; clear z; subst x)
         | (clear_value x; revert x; intro y))
    | with_reducible refine Keeps.ofO ‹_› ?_
    | with_reducible apply State.newStripe_keeps
    | with_reducible apply State.mapStripe_keeps
    | with_reducible apply State.seal_keeps
    | with_reducible apply KeepsOP.none
    | with_reducible apply KeepsOP.some
    | split
    | dsimp only

theorem State.sealFull_keeps {s0 s : State} (h : Keeps s0 s) (a1 a2 a3) : Keeps s0 (State.sealFull s a1 a2 a3) := by
  unfold State.sealFull
  repeat' first
    | with_reducible assumption
    | with_reducible apply State.seal_keeps
    | with_reducible refine Keeps.getD ?_ ?_
    | with_reducible refine Keeps.ite ?_ ?_
    | split

theorem State.placeStripes_keeps {s0 s : State} (h : Keeps s0 s) (a1 a2 a3 a4 a5 a6 a7) : Keeps s0 (State.placeStripes s a1 a2 a3 a4 a5 a6 a7).2 := by
  induction a5 generalizing s a6 a7 with
  | zero =>
    unfold State.placeStripes
    repeat' first
      | with_reducible assumption
  | succ n ih =>
    unfold State.placeStripes
    repeat' first
      | with_reducible assumption
      | (extract_lets +onlyGivenNames x; clear_value x; revert x; intro y)
      | with_reducible refine Keeps.ofOP ‹_› ?_
      | with_reducible apply State.buildStripe_keeps
      | with_reducible apply ih
      | split

theorem State.placeMore_keeps {s0 s : State} (h : Keeps s0 s) (a1 a2 a3 a4 a5) : Keeps s0 (State.placeMore s a1 a2 a3 a4 a5).2 := by
  unfold State.placeMore
  repeat' first
    | with_reducible assumption
    | (extract_lets +onlyGivenNames x; clear_value x; revert x; intro y)
    | with_reducible refine Keeps.ofOP ‹_› ?_
    | with_reducible apply State.packExtent_keeps
    | with_reducible apply State.sealFull_keeps
    | with_reducible apply State.placeStripes_keeps
    | split

theorem State.readyActive_keeps {s0 s : State} (h : Keeps s0 s) : Keeps s0 (State.readyActive s) := by
  unfold State.readyActive
  repeat' first
    | with_reducible assumption
    | (extract_lets +onlyGivenNames x; (let z : Pch := x; clear z); revert x; intro y)
    | with_reducible refine Keeps.ite ?_ ?_
    | split
    | (with_reducible apply Keeps.upd
       with_reducible exact rfl
       first
         | with_reducible exact rfl
         | simp +zetaDelta [State.kept])

theorem State.releaseStripes_keeps {s0 s : State} (h : Keeps s0 s) : Keeps s0 (State.releaseStripes s) := by
  unfold State.releaseStripes
  repeat' first
    | with_reducible assumption
    | (extract_lets +onlyGivenNames x; (first | (let z : Plc := x; clear z) | clear_value x); revert x; intro y)
    | (with_reducible apply Keeps.upd
       with_reducible exact rfl
       first
         | with_reducible exact rfl
         | simp +zetaDelta [State.kept])

end Sys2Proof.Machine
end

