-- ==== Sys2Proof/Laws/KeepsQueue.lean ====
section
/-!
SUPPORT. Every operation and command of Machine/Queue.lean keeps what `Keeps` says.
-/
namespace Sys2Proof.Machine

theorem State.expressArrival_keeps {s0 s : State} (h : Keeps s0 s) (a1) : Keeps s0 (State.expressArrival s a1) := by
  unfold State.expressArrival
  repeat' first
    | with_reducible assumption
    | (extract_lets +onlyGivenNames x
       first
         | (refine (fun (hx : Keeps s0 x) => ?_) ?_; clear_value x; revert x; intro y hy; rotate_left; subst x)
         | ((first | (let z : Cqc := x; clear z) | clear_value x); revert x; intro y))
    | with_reducible apply State.bump_keeps
    | with_reducible refine Keeps.ite ?_ ?_
    | (with_reducible apply Keeps.upd
       with_reducible exact rfl
       first
         | with_reducible exact rfl
         | simp +zetaDelta [State.kept])

theorem State.openCursor_keeps {s0 s : State} (h : Keeps s0 s) (a1 a2 a3 a4) : Keeps s0 (State.openCursor s a1 a2 a3 a4).2 := by
  unfold State.openCursor
  repeat' first
    | with_reducible assumption
    | (extract_lets +onlyGivenNames x; (first | (let z : Pae := x; clear z) | clear_value x); revert x; intro y)
    | dsimp only
    | (with_reducible apply Keeps.upd
       with_reducible exact rfl
       first
         | with_reducible exact rfl
         | simp +zetaDelta [State.kept])

theorem State.scanCursor_keeps {s0 s : State} (h : Keeps s0 s) (a1 a2 a3) : Keeps s0 (State.scanCursor s a1 a2 a3).2 := by
  unfold State.scanCursor
  repeat' first
    | with_reducible assumption
    | (extract_lets +onlyGivenNames x; (first | (let z : Pae := x; clear z) | clear_value x); revert x; intro y)
    | with_reducible apply State.openCursor_keeps
    | split
    | dsimp only
    | (with_reducible apply Keeps.upd
       with_reducible exact rfl
       first
         | with_reducible exact rfl
         | simp +zetaDelta [State.kept])

theorem State.allocate_keeps {s0 s : State} (h : Keeps s0 s) (a1 a2 a3) : Keeps s0 (State.allocate s a1 a2 a3) := by
  have hp : ∀ t, Keeps s0 (if a2.opcode = opScan then s.scanCursor a1 a2 t else (0, s)).2 := by
    intro t
    split
    · exact State.scanCursor_keeps h ..
    · exact h
  unfold State.allocate
  extract_lets tenant
  have hp := hp tenant
  clear_value tenant
  split
  rename_i cur s1 e
  have h1 : Keeps s0 s1 := Keeps.of2 e hp
  clear hp h e
  extract_lets gen held whole t s2 cq pl s3 s4 s5
  have h2 : Keeps s0 s2 := Keeps.ite (State.bump_keeps h1 ..) h1
  clear_value s2
  have h3 : Keeps s0 s3 := h2.eq rfl
  clear_value s3
  have h5 : Keeps s0 s5 := State.traced_keeps (State.bump_keeps (Keeps.ite (State.mapSession_keeps h3 ..) h3) ..) ..
  clear_value s5
  exact Keeps.ite h5 (State.startAdmin_keeps h5 ..)

theorem State.replayAnswer_keeps {s0 s : State} (h : Keeps s0 s) (a1 a2 a3) : Keeps s0 (State.replayAnswer s a1 a2 a3) := by
  unfold State.replayAnswer
  repeat' first
    | with_reducible assumption
    | (extract_lets +onlyGivenNames x; refine (fun (hx : Keeps s0 x) => ?_) ?_; clear_value x; revert x; intro y hy; rotate_left; subst x)
    | with_reducible apply State.meter_keeps
    | with_reducible apply State.tracedDone_keeps
    | with_reducible apply State.respondWith_keeps

theorem State.handOver_keeps {s0 s : State} (h : Keeps s0 s) (a1 a2) : KeepsO s0 (State.handOver s a1 a2) := by
  unfold State.handOver
  repeat' first
    | with_reducible assumption
    | with_reducible apply State.sendFrom_keeps
    | with_reducible apply KeepsO.some
    | split

theorem State.admitHead_keeps {s0 s : State} (h : Keeps s0 s) (a1 a2) : Keeps s0 (State.admitHead s a1 a2) := by
  unfold State.admitHead
  repeat' first
    | with_reducible assumption
    | (extract_lets +onlyGivenNames x; refine (fun (hx : Keeps s0 x) => ?_) ?_; clear_value x; revert x; intro y hy; rotate_left; subst x)
    | with_reducible apply State.expressArrival_keeps
    | with_reducible apply State.bump_keeps
    | with_reducible apply State.replayAnswer_keeps
    | with_reducible apply State.releaseHeld_keeps
    | with_reducible apply State.handOver_keeps
    | with_reducible apply State.answer_keeps
    | with_reducible apply State.allocate_keeps
    | with_reducible refine Keeps.getD ?_ ?_
    | split

theorem State.stall_keeps {s0 s : State} (h : Keeps s0 s) (a1 a2 a3) : Keeps s0 (State.stall s a1 a2 a3) := by
  unfold State.stall
  repeat' first
    | with_reducible assumption
    | (extract_lets +onlyGivenNames x
       first
         | (let z : _ → _ := x; clear z; subst x)
         | ((let z : Cqc := x; clear z); revert x; intro y))
    | with_reducible apply State.bump_keeps
    | with_reducible refine Keeps.ite ?_ ?_
    | split
    | dsimp only
    | (with_reducible apply Keeps.upd
       with_reducible exact rfl
       first
         | with_reducible exact rfl
         | simp +zetaDelta [State.kept])

theorem State.tryLanes_keeps {s0 s : State} (h : Keeps s0 s) (a1) : Keeps s0 (State.tryLanes s a1) := by
  induction a1 generalizing s with
  | nil =>
    unfold State.tryLanes
    repeat' first
      | with_reducible assumption
  | cons c l ih =>
    unfold State.tryLanes
    repeat' first
      | with_reducible assumption
      | (extract_lets +onlyGivenNames x; (first | (let z : Cqc := x; clear z) | clear_value x); revert x; intro y)
      | with_reducible apply State.admitHead_keeps
      | with_reducible apply State.stall_keeps
      | with_reducible refine Keeps.ite ?_ ?_
      | with_reducible apply ih
      | split
      | (with_reducible apply Keeps.upd
         with_reducible exact rfl
         first
           | with_reducible exact rfl
           | simp +zetaDelta [State.kept])

theorem execAdmission_keeps {s0 s : State} (h : Keeps s0 s) : KeepsR s0 (execAdmission s) := by
  unfold execAdmission
  repeat' first
    | with_reducible assumption
    | (extract_lets +onlyGivenNames x
       first
         | (refine (fun (hx : Keeps s0 x) => ?_) ?_; clear_value x; revert x; intro y hy; rotate_left; subst x)
         | ((first | (let z : Cqc := x; clear z) | clear_value x); revert x; intro y))
    | with_reducible apply State.bump_keeps
    | with_reducible apply State.readyActive_keeps
    | with_reducible apply State.tryLanes_keeps
    | with_reducible apply KeepsR.next
    | split
    | (with_reducible apply Keeps.upd
       with_reducible exact rfl
       first
         | with_reducible exact rfl
         | simp +zetaDelta [State.kept])

theorem State.dropCursor_keeps {s0 s : State} (h : Keeps s0 s) (a1) : Keeps s0 (State.dropCursor s a1) := by
  unfold State.dropCursor
  repeat' first
    | with_reducible assumption
    | (extract_lets +onlyGivenNames x; (let z : Pae := x; clear z); revert x; intro y)
    | with_reducible apply State.pruneOlder_keeps
    | (with_reducible apply Keeps.upd
       with_reducible exact rfl
       first
         | with_reducible exact rfl
         | simp +zetaDelta [State.kept])

theorem classifyAll_keeps {s0 s : State} (h : Keeps s0 s) (a1 a2 a3 a4) : Keeps s0 (classifyAll s a1 a2 a3 a4).2 := by
  induction a3 generalizing s a4 with
  | nil =>
    unfold classifyAll
    repeat' first
      | with_reducible assumption
  | cons c l ih =>
    unfold classifyAll
    repeat' first
      | with_reducible assumption
      | with_reducible refine Keeps.of2 ‹_› ?_
      | with_reducible apply State.classify_keeps
      | with_reducible apply ih
      | split

theorem State.refuseTenant_keeps {s0 s : State} (h : Keeps s0 s) (a1) : Keeps s0 (State.refuseTenant s a1) := by
  unfold State.refuseTenant
  repeat' first
    | with_reducible assumption
    | (extract_lets +onlyGivenNames x; refine (fun (hx : Keeps s0 x) => ?_) ?_; clear_value x; revert x; intro y hy; rotate_left; subst x)
    | with_reducible apply State.dropCursor_keeps
    | with_reducible apply State.finish_keeps
    | with_reducible refine Keeps.ite ?_ ?_

theorem State.runPredicates_keeps {s0 s : State} (h : Keeps s0 s) (a1 a2 a3) : Keeps s0 (State.runPredicates s a1 a2 a3) := by
  unfold State.runPredicates
  repeat' first
    | with_reducible assumption
    | with_reducible apply State.transfer_keeps
    | with_reducible refine Keeps.foldl (fun t x ht => ?_) ?_

theorem State.classifyTask_keeps {s0 s : State} (h : Keeps s0 s) (a1 a2) : Keeps s0 (State.classifyTask s a1 a2) := by
  unfold State.classifyTask
  repeat' first
    | with_reducible assumption
    | (extract_lets +onlyGivenNames x
       first
         | (refine (fun (hx : Keeps s0 x) => ?_) ?_; clear_value x; revert x; intro y hy; rotate_left; subst x)
         | ((first | (let z : Cqc := x; clear z) | clear_value x); revert x; intro y))
    | with_reducible apply State.refuseTenant_keeps
    | with_reducible apply classifyAll_keeps
    | with_reducible apply State.runPredicates_keeps
    | with_reducible apply State.finish_keeps
    | with_reducible apply State.bump_keeps
    | with_reducible apply State.crypt_keeps
    | with_reducible apply State.mapTrs_keeps
    | with_reducible refine Keeps.ite ?_ ?_
    | with_reducible refine Keeps.foldl (fun t x ht => ?_) ?_
    | (with_reducible apply Keeps.upd
       with_reducible exact rfl
       first
         | with_reducible exact rfl
         | simp +zetaDelta [State.kept])

theorem State.classifyBatch_keeps {s0 s : State} (h : Keeps s0 s) (a1) : Keeps s0 (State.classifyBatch s a1) := by
  unfold State.classifyBatch
  repeat' first
    | with_reducible assumption
    | with_reducible apply State.finish_keeps
    | with_reducible apply State.fail_keeps
    | with_reducible apply State.classifyTask_keeps
    | split

theorem execCommandStart_keeps {s0 s : State} (h : Keeps s0 s) : KeepsR s0 (execCommandStart s) := by
  unfold execCommandStart
  repeat' first
    | with_reducible assumption
    | (extract_lets +onlyGivenNames x; refine (fun (hx : Keeps s0 x) => ?_) ?_; clear_value x; revert x; intro y hy; rotate_left; subst x)
    | with_reducible apply State.mapTrs_keeps
    | with_reducible apply State.transfer_keeps
    | with_reducible apply State.refuseTenant_keeps
    | with_reducible apply State.classifyTask_keeps
    | with_reducible apply State.classifyBatch_keeps
    | with_reducible apply State.traceStart_keeps
    | with_reducible apply KeepsR.next
    | split

theorem execKeyLockJoin_keeps {s0 s : State} (h : Keeps s0 s) (a1) : KeepsR s0 (execKeyLockJoin a1 s) := by
  unfold execKeyLockJoin
  repeat' first
    | with_reducible assumption
    | (extract_lets +onlyGivenNames x
       first
         | (refine (fun (hx : Keeps s0 x) => ?_) ?_; clear_value x; revert x; intro y hy; rotate_left; subst x)
         | ((first | (let z : Cqc := x; clear z) | clear_value x); revert x; intro y))
    | with_reducible apply State.classifyBatch_keeps
    | with_reducible apply State.traceStart_keeps
    | with_reducible apply State.mapTrs_keeps
    | with_reducible apply State.bump_keeps
    | with_reducible apply KeepsR.next
    | split
    | (with_reducible apply Keeps.upd
       with_reducible exact rfl
       first
         | with_reducible exact rfl
         | simp +zetaDelta [State.kept])

theorem State.indexRead_keeps {s0 s : State} (h : Keeps s0 s) (a1) : Keeps s0 (State.indexRead s a1) := by
  unfold State.indexRead
  repeat' first
    | with_reducible assumption
    | with_reducible apply State.fetch_keeps

theorem State.lookFor_keeps {s0 s : State} (h : Keeps s0 s) (a1 a2 a3 a4) : Keeps s0 (State.lookFor s a1 a2 a3 a4).2 := by
  unfold State.lookFor
  repeat' first
    | with_reducible assumption
    | with_reducible refine Keeps.of2 ‹_› ?_
    | with_reducible apply State.lookup_keeps
    | with_reducible apply State.readPages_keeps
    | with_reducible apply State.indexRead_keeps
    | with_reducible apply State.mapTrs_keeps
    | split

theorem State.headChecks_keeps {s0 s : State} (h : Keeps s0 s) (a1 a2 a3 a4) : Keeps s0 (State.headChecks s a1 a2 a3 a4).2 := by
  induction a3 generalizing s a2 a4 with
  | nil =>
    unfold State.headChecks
    repeat' first
      | with_reducible assumption
  | cons c l ih =>
    unfold State.headChecks
    repeat' first
      | with_reducible assumption
      | (extract_lets +onlyGivenNames x; clear_value x; revert x; intro y)
      | with_reducible refine Keeps.of2 ‹_› ?_
      | with_reducible apply State.lookFor_keeps
      | with_reducible apply ih
      | split

theorem State.headWrite_keeps {s0 s : State} (h : Keeps s0 s) (a1) : Keeps s0 (State.headWrite s a1) := by
  unfold State.headWrite
  repeat' first
    | with_reducible assumption
    | (extract_lets +onlyGivenNames x; clear_value x; revert x; intro y)
    | with_reducible refine Keeps.of2 ‹_› ?_
    | with_reducible apply State.headChecks_keeps
    | with_reducible apply State.finish_keeps
    | with_reducible apply State.mapTrs_keeps
    | with_reducible refine Keeps.ite ?_ ?_
    | split

theorem State.headLock_keeps {s0 s : State} (h : Keeps s0 s) (a1) : Keeps s0 (State.headLock s a1) := by
  unfold State.headLock
  repeat' first
    | with_reducible assumption
    | (extract_lets +onlyGivenNames x; clear_value x; revert x; intro y)
    | with_reducible apply State.fail_keeps
    | with_reducible apply State.mapTrs_keeps
    | with_reducible refine Keeps.ite ?_ ?_
    | split

theorem execKeyChainHead_keeps {s0 s : State} (h : Keeps s0 s) (a1) : KeepsR s0 (execKeyChainHead a1 s) := by
  unfold execKeyChainHead
  repeat' first
    | with_reducible assumption
    | (extract_lets +onlyGivenNames x; refine (fun (hx : Keeps s0 x) => ?_) ?_; clear_value x; revert x; intro y hy; rotate_left; subst x)
    | with_reducible apply State.mapTrs_keeps
    | with_reducible apply State.headLock_keeps
    | with_reducible apply State.headWrite_keeps
    | with_reducible apply KeepsR.next
    | split

theorem State.complete_keeps {s0 s : State} (h : Keeps s0 s) (a1) : Keeps s0 (State.complete s a1) := by
  unfold State.complete
  repeat' first
    | with_reducible assumption
    | (extract_lets +onlyGivenNames x
       first
         | (refine (fun (hx : Keeps s0 x) => ?_) ?_; clear_value x; revert x; intro y hy; rotate_left; subst x)
         | ((let z : Cqc := x; clear z); revert x; intro y))
    | with_reducible apply State.transfer_keeps
    | with_reducible apply State.post_keeps
    | with_reducible apply State.mapSession_keeps
    | with_reducible apply State.bump_keeps
    | with_reducible apply State.readyActive_keeps
    | with_reducible apply State.releaseHeld_keeps
    | with_reducible apply State.freeTrs_keeps
    | with_reducible refine Keeps.ite ?_ ?_
    | (with_reducible apply Keeps.upd
       with_reducible exact rfl
       first
         | with_reducible exact rfl
         | simp +zetaDelta [State.kept])

theorem State.completeTask_keeps {s0 s : State} (h : Keeps s0 s) (a1) : Keeps s0 (State.completeTask s a1) := by
  unfold State.completeTask
  split
  · exact State.complete_keeps h ..
  · exact h

theorem State.postNow_keeps {s0 s : State} (h : Keeps s0 s) (a1) : KeepsO s0 (State.postNow s a1) := by
  unfold State.postNow
  repeat' first
    | with_reducible assumption
    | with_reducible apply State.complete_keeps
    | with_reducible apply State.sendFrom_keeps
    | with_reducible apply KeepsO.none
    | with_reducible apply KeepsO.some
    | split

theorem execPostCompletion_keeps {s0 s : State} (h : Keeps s0 s) (a1) : KeepsR s0 (execPostCompletion a1 s) := by
  unfold execPostCompletion
  repeat' first
    | with_reducible assumption
    | with_reducible apply State.postNow_keeps
    | with_reducible apply KeepsR.next
    | with_reducible refine Keeps.getD ?_ ?_
    | split

theorem execFlushComplete_keeps {s0 s : State} (h : Keeps s0 s) (a1) : KeepsR s0 (execFlushComplete a1 s) := by
  unfold execFlushComplete
  repeat' first
    | with_reducible assumption
    | with_reducible apply State.bump_keeps
    | with_reducible apply State.finish_keeps
    | with_reducible apply KeepsR.next
    | split

theorem execClientLeaseExpiry_keeps {s0 s : State} (h : Keeps s0 s) (a1 a2) : KeepsR s0 (execClientLeaseExpiry a1 a2 s) := by
  unfold execClientLeaseExpiry
  repeat' first
    | with_reducible assumption
    | (extract_lets +onlyGivenNames x; (let z : Cqc := x; clear z); revert x; intro y)
    | with_reducible apply KeepsR.next
    | (with_reducible apply Keeps.upd
       with_reducible exact rfl
       first
         | with_reducible exact rfl
         | simp +zetaDelta [State.kept])

theorem execCursorExpiry_keeps {s0 s : State} (h : Keeps s0 s) (a1) : KeepsR s0 (execCursorExpiry a1 s) := by
  unfold execCursorExpiry
  repeat' first
    | with_reducible assumption
    | (extract_lets +onlyGivenNames x; (let z : Pae := x; clear z); revert x; intro y)
    | with_reducible apply State.pruneOlder_keeps
    | with_reducible apply KeepsR.next
    | (with_reducible apply Keeps.upd
       with_reducible exact rfl
       first
         | with_reducible exact rfl
         | simp +zetaDelta [State.kept])

theorem execHoldPendingExpiry_keeps {s0 s : State} (h : Keeps s0 s) : KeepsR s0 (execHoldPendingExpiry s) := by
  unfold execHoldPendingExpiry
  repeat' first
    | with_reducible assumption
    | (extract_lets +onlyGivenNames x; (let z : Cqc := x; clear z); revert x; intro y)
    | with_reducible apply State.raise_keeps
    | with_reducible apply KeepsR.next
    | split
    | (with_reducible apply Keeps.upd
       with_reducible exact rfl
       first
         | with_reducible exact rfl
         | simp +zetaDelta [State.kept])

theorem State.startDrain_keeps {s0 s : State} (h : Keeps s0 s) (a1) : Keeps s0 (State.startDrain s a1) := by
  unfold State.startDrain
  repeat' first
    | with_reducible assumption
    | (extract_lets +onlyGivenNames x
       first
         | (refine (fun (hx : Keeps s0 x) => ?_) ?_; clear_value x; revert x; intro y hy; rotate_left; subst x)
         | ((let z : Cqc := x; clear z); revert x; intro y))
    | with_reducible apply State.releaseHeld_keeps
    | with_reducible apply State.beginDrain_keeps
    | with_reducible apply State.completeTask_keeps
    | with_reducible apply State.finish_keeps
    | split
    | (with_reducible apply Keeps.upd
       with_reducible exact rfl
       first
         | with_reducible exact rfl
         | simp +zetaDelta [State.kept])

end Sys2Proof.Machine
end

