-- ==== Sys2Proof/Laws/KeepsMedia.lean ====
section
/-!
SUPPORT. Every operation and command of Machine/Media.lean keeps what `Keeps` says.
-/
namespace Sys2Proof.Machine

theorem State.queueDie_keeps {s0 s : State} (h : Keeps s0 s) (a1 a2 a3 a4) : Keeps s0 (State.queueDie s a1 a2 a3 a4) := by
  unfold State.queueDie
  repeat' first
    | with_reducible assumption
    | with_reducible apply State.mapTile_keeps

theorem State.queueRead_keeps {s0 s : State} (h : Keeps s0 s) (a1 a2 a3 a4 a5) : Keeps s0 (State.queueRead s a1 a2 a3 a4 a5) := by
  unfold State.queueRead
  repeat' first
    | with_reducible assumption
    | (extract_lets +onlyGivenNames x; refine (fun (hx : Keeps s0 x) => ?_) ?_; clear_value x; revert x; intro y hy; rotate_left; subst x)
    | with_reducible apply State.bump_keeps
    | with_reducible apply State.queueDie_keeps
    | with_reducible apply State.transfer_keeps
    | with_reducible refine Keeps.ite ?_ ?_
    | split

theorem State.queueProgram_keeps {s0 s : State} (h : Keeps s0 s) (a1 a2 a3) : Keeps s0 (State.queueProgram s a1 a2 a3) := by
  unfold State.queueProgram
  repeat' first
    | with_reducible assumption
    | (extract_lets +onlyGivenNames x; refine (fun (hx : Keeps s0 x) => ?_) ?_; clear_value x; revert x; intro y hy; rotate_left; subst x)
    | with_reducible apply State.mapTile_keeps
    | with_reducible apply State.queueDie_keeps
    | with_reducible apply State.mapStripe_keeps
    | split

theorem State.mapShard_keeps {s0 s : State} (h : Keeps s0 s) (a1 a2 a3) : Keeps s0 (State.mapShard s a1 a2 a3) := by
  unfold State.mapShard
  repeat' first
    | with_reducible assumption
    | with_reducible apply State.mapStripe_keeps

theorem State.logLost_keeps {s0 s : State} (h : Keeps s0 s) (a1) : Keeps s0 (State.logLost s a1) := by
  unfold State.logLost
  repeat' first
    | with_reducible assumption
    | (extract_lets +onlyGivenNames x; (first | (let z : Plc := x; clear z) | clear_value x); revert x; intro y)
    | with_reducible apply State.bump_keeps
    | with_reducible refine Keeps.ite ?_ ?_
    | (with_reducible apply Keeps.upd
       with_reducible exact rfl
       first
         | with_reducible exact rfl
         | simp +zetaDelta [State.kept])

theorem State.unlogLost_keeps {s0 s : State} (h : Keeps s0 s) (a1 a2) : Keeps s0 (State.unlogLost s a1 a2) := by
  unfold State.unlogLost
  repeat' first
    | with_reducible assumption
    | (extract_lets +onlyGivenNames x; (let z : Plc := x; clear z); revert x; intro y)
    | (with_reducible apply Keeps.upd
       with_reducible exact rfl
       first
         | with_reducible exact rfl
         | simp +zetaDelta [State.kept])

theorem State.loseKeys_keeps {s0 s : State} (h : Keeps s0 s) (a1 a2) : Keeps s0 (State.loseKeys s a1 a2) := by
  unfold State.loseKeys
  repeat' first
    | with_reducible assumption
    | (extract_lets +onlyGivenNames x; refine (fun (hx : Keeps s0 x) => ?_) ?_; clear_value x; revert x; intro y hy; rotate_left; subst x)
    | with_reducible apply State.logLost_keeps
    | with_reducible apply State.mapKey_keeps
    | with_reducible apply State.raise_keeps
    | with_reducible refine Keeps.foldl (fun t x ht => ?_) ?_
    | split

theorem State.loseStripe_keeps {s0 s : State} (h : Keeps s0 s) (a1) : Keeps s0 (State.loseStripe s a1) := by
  unfold State.loseStripe
  repeat' first
    | with_reducible assumption
    | (extract_lets +onlyGivenNames x
       first
         | (refine (fun (hx : Keeps s0 x) => ?_) ?_; clear_value x; revert x; intro y hy; rotate_left; subst x)
         | ((first | (let z : Plc := x; clear z) | (let z : Cqc := x; clear z) | clear_value x); revert x; intro y))
    | with_reducible apply State.mapStripe_keeps
    | with_reducible apply State.loseKeys_keeps
    | with_reducible refine Keeps.ite ?_ ?_
    | split
    | (with_reducible apply Keeps.upd
       with_reducible exact rfl
       first
         | with_reducible exact rfl
         | simp +zetaDelta [State.kept])

theorem State.readDirtyShard_keeps {s0 s : State} (h : Keeps s0 s) (a1 a2) : Keeps s0 (State.readDirtyShard s a1 a2) := by
  unfold State.readDirtyShard
  repeat' first
    | with_reducible assumption
    | (extract_lets +onlyGivenNames x
       first
         | (refine (fun (hx : Keeps s0 x) => ?_) ?_; clear_value x; revert x; intro y hy; rotate_left; subst x)
         | (clear_value x; revert x; intro y))
    | with_reducible apply State.bufferRead_keeps
    | with_reducible apply State.loseStripe_keeps
    | with_reducible refine Keeps.ite ?_ ?_
    | with_reducible refine Keeps.foldl (fun t x ht => ?_) ?_

theorem State.readDirty_keeps {s0 s : State} (h : Keeps s0 s) (a1 a2) : Keeps s0 (State.readDirty s a1 a2) := by
  unfold State.readDirty
  repeat' first
    | with_reducible assumption
    | with_reducible apply State.readDirtyShard_keeps
    | with_reducible refine Keeps.ite ?_ ?_
    | with_reducible refine Keeps.foldl (fun t x ht => ?_) ?_

theorem State.enterCharcoal_keeps {s0 s : State} (h : Keeps s0 s) (a1) : Keeps s0 (State.enterCharcoal s a1) := by
  unfold State.enterCharcoal
  split
  · exact h
  · rename_i hc
    have hc : s.plc.charcoal = 0 := by simpa using hc
    extract_lets x y z
    have hy : Keeps s0 y := by
      apply State.raise_keeps
      exact h.trans ⟨rfl, List.prefix_rfl, fun w => w, Nat.le_refl _, Nat.le_refl _, Nat.le_refl _, fun c => absurd hc c,
        fun _ m => m, fun d => d, Nat.le_refl _⟩
    clear_value y
    apply State.releaseStripes_keeps
    exact Keeps.foldl (fun t u ht => State.fail_keeps (State.mapTrs_keeps ht _ _) _ _ _) hy

theorem State.checkCharcoal_keeps {s0 s : State} (h : Keeps s0 s) : Keeps s0 (State.checkCharcoal s) := by
  unfold State.checkCharcoal
  repeat' first
    | with_reducible assumption
    | with_reducible apply State.enterCharcoal_keeps
    | with_reducible refine Keeps.ite ?_ ?_

end Sys2Proof.Machine
end

