-- ==== Sys2Proof/Laws/KeepsKeyOps.lean ====
section
/-!
SUPPORT. Every operation and command of Machine/KeyOps.lean keeps what `Keeps` says.
-/
namespace Sys2Proof.Machine

theorem State.readAround_keeps {s0 s : State} (h : Keeps s0 s) (a1 a2 a3 a4 a5) : Keeps s0 (State.readAround s a1 a2 a3 a4 a5) := by
  unfold State.readAround
  repeat' first
    | with_reducible assumption
    | (extract_lets +onlyGivenNames x
       first
         | (refine (fun (hx : Keeps s0 x) => ?_) ?_; clear_value x; revert x; intro y hy; rotate_left; subst x)
         | (clear_value x; revert x; intro y))
    | with_reducible apply State.bump_keeps
    | with_reducible apply State.queueRead_keeps
    | with_reducible apply State.transfer_keeps
    | with_reducible apply State.crypt_keeps
    | with_reducible refine Keeps.ite ?_ ?_
    | with_reducible refine Keeps.foldl (fun t x ht => ?_) ?_

theorem State.fetchPart_keeps {s0 s : State} (h : Keeps s0 s) (a1 a2 a3 a4) : Keeps s0 (State.fetchPart s a1 a2 a3 a4) := by
  unfold State.fetchPart
  repeat' first
    | with_reducible assumption
    | (extract_lets +onlyGivenNames x; clear_value x; revert x; intro y)
    | with_reducible apply State.readAround_keeps
    | with_reducible apply State.queueRead_keeps
    | with_reducible refine Keeps.ite ?_ ?_
    | with_reducible refine Keeps.foldl (fun t x ht => ?_) ?_
    | split

theorem State.fetchParts_keeps {s0 s : State} (h : Keeps s0 s) (a1 a2 a3 a4) : Keeps s0 (State.fetchParts s a1 a2 a3 a4) := by
  induction a4 generalizing s a3 with
  | nil =>
    unfold State.fetchParts
    repeat' first
      | with_reducible assumption
  | cons c l ih =>
    unfold State.fetchParts
    repeat' first
      | with_reducible assumption
      | with_reducible apply State.fetchPart_keeps
      | with_reducible apply ih

theorem State.find_keeps {s0 s : State} (h : Keeps s0 s) (a1) : Keeps s0 (State.find s a1).2 := by
  unfold State.find
  repeat' first
    | with_reducible assumption
    | with_reducible apply State.lookFor_keeps

theorem State.readDirtyOf_keeps {s0 s : State} (h : Keeps s0 s) (a1 a2) : Keeps s0 (State.readDirtyOf s a1 a2) := by
  unfold State.readDirtyOf
  repeat' first
    | with_reducible assumption
    | (extract_lets +onlyGivenNames x; clear_value x; revert x; intro y)
    | with_reducible apply State.readDirty_keeps
    | with_reducible refine Keeps.ite ?_ ?_
    | with_reducible refine Keeps.foldl (fun t x ht => ?_) ?_
    | split

theorem State.serveGet_keeps {s0 s : State} (h : Keeps s0 s) (a1 a2) : Keeps s0 (State.serveGet s a1 a2) := by
  unfold State.serveGet
  repeat' first
    | with_reducible assumption
    | (extract_lets +onlyGivenNames x; clear_value x; revert x; intro y)
    | with_reducible apply State.fail_keeps
    | with_reducible apply State.readCached_keeps
    | with_reducible apply State.fetchParts_keeps
    | with_reducible apply State.bump_keeps
    | with_reducible apply State.cacheValue_keeps
    | with_reducible apply State.fetch_keeps
    | with_reducible apply State.transfer_keeps
    | with_reducible apply State.mapTrs_keeps
    | with_reducible apply State.finish_keeps
    | with_reducible refine Keeps.ite ?_ ?_

theorem State.fromTile_keeps {s0 s : State} (h : Keeps s0 s) (a1) : Keeps s0 (State.fromTile s a1) := by
  unfold State.fromTile
  repeat' first
    | with_reducible assumption
    | with_reducible apply State.mapTrs_keeps

theorem execGet_keeps {s0 s : State} (h : Keeps s0 s) (a1) : KeepsR s0 (execGet a1 s) := by
  unfold execGet
  repeat' first
    | with_reducible assumption
    | (extract_lets +onlyGivenNames x; refine (fun (hx : Keeps s0 x) => ?_) ?_; clear_value x; revert x; intro y hy; rotate_left; subst x)
    | with_reducible refine Keeps.of2 ‹_› ?_
    | with_reducible apply State.find_keeps
    | with_reducible apply State.fromTile_keeps
    | with_reducible apply State.fail_keeps
    | with_reducible apply State.readPages_keeps
    | with_reducible apply State.wantPage_keeps
    | with_reducible apply State.readDirtyOf_keeps
    | with_reducible apply State.serveGet_keeps
    | with_reducible apply KeepsR.next
    | split

theorem execHead_keeps {s0 s : State} (h : Keeps s0 s) (a1) : KeepsR s0 (execHead a1 s) := by
  unfold execHead
  repeat' first
    | with_reducible assumption
    | with_reducible refine Keeps.of2 ‹_› ?_
    | with_reducible apply State.find_keeps
    | with_reducible apply State.fromTile_keeps
    | with_reducible apply State.fail_keeps
    | with_reducible apply State.finish_keeps
    | with_reducible apply KeepsR.next
    | split

theorem State.encryptValue_keeps {s0 s : State} (h : Keeps s0 s) (a1 a2 a3 a4 a5) : Keeps s0 (State.encryptValue s a1 a2 a3 a4 a5) := by
  unfold State.encryptValue
  repeat' first
    | with_reducible assumption
    | (extract_lets +onlyGivenNames x
       first
         | (refine (fun (hx : Keeps s0 x) => ?_) ?_; clear_value x; revert x; intro y hy; rotate_left; subst x)
         | (clear_value x; revert x; intro y))
    | with_reducible apply State.bump_keeps
    | with_reducible apply State.crypt_keeps
    | with_reducible refine Keeps.ite ?_ ?_

theorem State.placeChanges_keeps {s0 s : State} (h : Keeps s0 s) (a1 a2 a3) : Keeps s0 (State.placeChanges s a1 a2 a3).2 := by
  induction a3 generalizing s a2 with
  | nil =>
    unfold State.placeChanges
    exact h
  | cons c l ih =>
    unfold State.placeChanges
    split
    · exact ih h _
    · split
      · exact h
      · split
        rename_i e s1 he
        have h1 := Keeps.of2 he (State.placeMore_keeps h ..)
        extract_lets n s2 c2
        have h2 : Keeps s0 s2 := State.encryptValue_keeps h1 ..
        split
        · exact ih h2 _
        · exact h2

theorem State.writeStep_keeps {s0 s : State} (h : Keeps s0 s) (a1) : Keeps s0 (State.writeStep s a1) := by
  unfold State.writeStep
  repeat' first
    | with_reducible assumption
    | (extract_lets +onlyGivenNames x; clear_value x; revert x; intro y)
    | with_reducible apply State.fail_keeps
    | with_reducible apply State.placeChanges_keeps
    | with_reducible apply State.raise_keeps
    | with_reducible apply State.bump_keeps
    | with_reducible apply State.mapTrs_keeps
    | with_reducible refine Keeps.ite ?_ ?_

theorem State.writeRow_keeps {s0 s : State} (h : Keeps s0 s) (a1 a2) : Keeps s0 (State.writeRow s a1 a2) := by
  unfold State.writeRow
  repeat' first
    | with_reducible assumption
    | with_reducible apply State.writeStep_keeps
    | split

theorem execPut_keeps {s0 s : State} (h : Keeps s0 s) (a1) : KeepsR s0 (execPut a1 s) := by
  unfold execPut
  repeat' first
    | with_reducible assumption
    | with_reducible apply State.writeRow_keeps
    | with_reducible apply KeepsR.next

theorem execPutIf_keeps {s0 s : State} (h : Keeps s0 s) (a1) : KeepsR s0 (execPutIf a1 s) := by
  unfold execPutIf
  repeat' first
    | with_reducible assumption
    | with_reducible apply State.writeRow_keeps
    | with_reducible apply KeepsR.next

theorem execDelete_keeps {s0 s : State} (h : Keeps s0 s) (a1) : KeepsR s0 (execDelete a1 s) := by
  unfold execDelete
  repeat' first
    | with_reducible assumption
    | with_reducible apply State.writeRow_keeps
    | with_reducible apply KeepsR.next

theorem execPunch_keeps {s0 s : State} (h : Keeps s0 s) (a1) : KeepsR s0 (execPunch a1 s) := by
  unfold execPunch
  repeat' first
    | with_reducible assumption
    | with_reducible apply State.writeRow_keeps
    | with_reducible apply KeepsR.next

theorem execAppend_keeps {s0 s : State} (h : Keeps s0 s) (a1) : KeepsR s0 (execAppend a1 s) := by
  unfold execAppend
  repeat' first
    | with_reducible assumption
    | with_reducible apply State.writeRow_keeps
    | with_reducible apply KeepsR.next

theorem execBatch_keeps {s0 s : State} (h : Keeps s0 s) (a1) : KeepsR s0 (execBatch a1 s) := by
  unfold execBatch
  repeat' first
    | with_reducible assumption
    | with_reducible apply State.writeRow_keeps
    | with_reducible apply KeepsR.next

theorem State.grantLease_keeps {s0 s : State} (h : Keeps s0 s) (a1 a2 a3) : Keeps s0 (State.grantLease s a1 a2 a3) := by
  unfold State.grantLease
  repeat' first
    | with_reducible assumption
    | (extract_lets +onlyGivenNames x; (first | (let z : Cqc := x; clear z) | clear_value x); revert x; intro y)
    | with_reducible refine Keeps.ite ?_ ?_
    | (with_reducible apply Keeps.upd
       with_reducible exact rfl
       first
         | with_reducible exact rfl
         | simp +zetaDelta [State.kept])

theorem execLock_keeps {s0 s : State} (h : Keeps s0 s) (a1) : KeepsR s0 (execLock a1 s) := by
  unfold execLock
  repeat' first
    | with_reducible assumption
    | (extract_lets +onlyGivenNames x
       first
         | (refine (fun (hx : Keeps s0 x) => ?_) ?_; clear_value x; revert x; intro y hy; rotate_left; subst x)
         | (clear_value x; revert x; intro y))
    | with_reducible apply State.grantLease_keeps
    | with_reducible apply State.finish_keeps
    | with_reducible apply KeepsR.next
    | split

theorem execUnlock_keeps {s0 s : State} (h : Keeps s0 s) (a1) : KeepsR s0 (execUnlock a1 s) := by
  unfold execUnlock
  repeat' first
    | with_reducible assumption
    | (extract_lets +onlyGivenNames x
       first
         | (refine (fun (hx : Keeps s0 x) => ?_) ?_; clear_value x; revert x; intro y hy; rotate_left; subst x)
         | ((first | (let z : Cqc := x; clear z) | clear_value x); revert x; intro y))
    | with_reducible apply State.fail_keeps
    | with_reducible apply State.finish_keeps
    | with_reducible apply KeepsR.next
    | split
    | (with_reducible apply Keeps.upd
       with_reducible exact rfl
       first
         | with_reducible exact rfl
         | simp +zetaDelta [State.kept])

theorem State.sealThese_keeps {s0 s : State} (h : Keeps s0 s) (a1) : Keeps s0 (State.sealThese s a1) := by
  unfold State.sealThese
  repeat' first
    | with_reducible assumption
    | with_reducible refine Keeps.ofO ‹_› ?_
    | with_reducible apply State.seal_keeps
    | with_reducible refine Keeps.foldl (fun t x ht => ?_) ?_
    | split

theorem execFlush_keeps {s0 s : State} (h : Keeps s0 s) (a1) : KeepsR s0 (execFlush a1 s) := by
  unfold execFlush
  repeat' first
    | with_reducible assumption
    | (extract_lets +onlyGivenNames x
       first
         | (refine (fun (hx : Keeps s0 x) => ?_) ?_; clear_value x; revert x; intro y hy; rotate_left; subst x)
         | (clear_value x; revert x; intro y))
    | with_reducible apply State.sealThese_keeps
    | with_reducible apply State.mapTrs_keeps
    | with_reducible apply KeepsR.next
    | split

end Sys2Proof.Machine
end

