-- ==== Sys2Proof/Laws/KeepsCommit.lean ====
section
/-!
SUPPORT. Every operation and command of Machine/Commit.lean keeps what `Keeps` says.
-/
namespace Sys2Proof.Machine

theorem State.awaitJournal_keeps {s0 s : State} (h : Keeps s0 s) : Keeps s0 (State.awaitJournal s) := by
  unfold State.awaitJournal
  repeat' first
    | with_reducible assumption
    | (extract_lets +onlyGivenNames x; (let z : Plc := x; clear z); revert x; intro y)
    | with_reducible apply State.bump_keeps
    | with_reducible refine Keeps.ite ?_ ?_
    | (with_reducible apply Keeps.upd
       with_reducible exact rfl
       first
         | with_reducible exact rfl
         | simp +zetaDelta [State.kept])

theorem State.journalAppend_keeps {s0 s : State} (h : Keeps s0 s) (a1 a2 a3 a4 a5) : Keeps s0 (State.journalAppend s a1 a2 a3 a4 a5) := by
  unfold State.journalAppend
  extract_lets s1 r p
  have h1 : Keeps s0 s1 := State.transfer_keeps h ..
  exact h1.trans ⟨rfl, List.prefix_rfl, fun w => w, Nat.le_refl _, Nat.le_refl _, Nat.le_succ _, fun _ => rfl,
    fun _ m => m, fun d => d, Nat.le_refl _⟩

theorem State.voidPlaces_keeps {s0 s : State} (h : Keeps s0 s) : Keeps s0 (State.voidPlaces s) := by
  unfold State.voidPlaces
  repeat' first
    | with_reducible assumption
    | (extract_lets +onlyGivenNames x; (let z : Plc := x; clear z); revert x; intro y)
    | (with_reducible apply Keeps.upd
       with_reducible exact rfl
       first
         | with_reducible exact rfl
         | simp +zetaDelta [State.kept])

theorem State.dirtyPages_keeps {s0 s : State} (h : Keeps s0 s) (a1 a2) : Keeps s0 (State.dirtyPages s a1 a2) := by
  unfold State.dirtyPages
  repeat' first
    | with_reducible assumption
    | with_reducible apply State.changePage_keeps
    | with_reducible refine Keeps.foldl (fun t x ht => ?_) ?_

theorem State.writeRelocation_keeps {s0 s : State} (h : Keeps s0 s) (a1 a2 a3) : Keeps s0 (State.writeRelocation s a1 a2 a3) := by
  unfold State.writeRelocation
  repeat' first
    | with_reducible assumption
    | (extract_lets +onlyGivenNames x; clear_value x; revert x; intro y)
    | with_reducible apply State.bump_keeps
    | with_reducible apply State.dirtyPages_keeps
    | with_reducible apply State.journalAppend_keeps

theorem State.relocate_keeps {s0 s : State} (h : Keeps s0 s) (a1 a2 a3) {a4 : State → State} (h4 : Keeps s0 (a4 s)) :
    Keeps s0 (State.relocate s a1 a2 a3 a4) := by
  unfold State.relocate
  split
  · exact State.writeRelocation_keeps h4 ..
  · exact State.bump_keeps h ..

theorem State.relocateStripe_keeps {s0 s : State} (h : Keeps s0 s) (a1) : Keeps s0 (State.relocateStripe s a1) := by
  unfold State.relocateStripe
  repeat' first
    | with_reducible assumption
    | with_reducible apply State.writeRelocation_keeps
    | with_reducible refine Keeps.foldl (fun t x ht => ?_) ?_

theorem State.readChanges_keeps {s0 s : State} (h : Keeps s0 s) (a1) : Keeps s0 (State.readChanges s a1) := by
  unfold State.readChanges
  repeat' first
    | with_reducible assumption
    | with_reducible apply State.readPages_keeps
    | with_reducible refine Keeps.foldl (fun t x ht => ?_) ?_

theorem State.olderAfter_keeps {s0 s : State} (h : Keeps s0 s) (a1 a2 a3) : Keeps s0 (State.olderAfter s a1 a2 a3).2 := by
  unfold State.olderAfter
  repeat' first
    | with_reducible assumption
    | (extract_lets +onlyGivenNames x; clear_value x; revert x; intro y)
    | with_reducible apply State.seatRetention_keeps
    | split

theorem State.removeEntry_keeps {s0 s : State} (h : Keeps s0 s) (a1 a2) : Keeps s0 (State.removeEntry s a1 a2) := by
  unfold State.removeEntry
  repeat' first
    | with_reducible assumption
    | (extract_lets +onlyGivenNames x
       first
         | (refine (fun (hx : Keeps s0 x) => ?_) ?_; clear_value x; revert x; intro y hy; rotate_left; subst x)
         | ((let z : Asu := x; clear z); revert x; intro y))
    | with_reducible apply State.touchDir_keeps
    | with_reducible apply State.changePage_keeps
    | with_reducible apply State.invalidate_keeps
    | (with_reducible apply Keeps.upd
       with_reducible exact rfl
       first
         | with_reducible exact rfl
         | simp +zetaDelta [State.kept])

theorem State.treeFor_keeps {s0 s : State} (h : Keeps s0 s) (a1 a2 a3) : Keeps s0 (State.treeFor s a1 a2 a3).2 := by
  unfold State.treeFor
  repeat' first
    | with_reducible assumption
    | with_reducible apply State.raise_keeps
    | with_reducible apply State.bump_keeps
    | split

theorem State.useAfter_keeps {s0 s : State} (h : Keeps s0 s) (a1 a2) : Keeps s0 (State.useAfter s a1 a2) := by
  unfold State.useAfter
  repeat' first
    | with_reducible assumption
    | (extract_lets +onlyGivenNames x; clear_value x; revert x; intro y)
    | with_reducible apply State.mapAccount_keeps

theorem State.writeEntry_keeps {s0 s : State} (h : Keeps s0 s) (a1 a2 a3 a4 a5) : Keeps s0 (State.writeEntry s a1 a2 a3 a4 a5) := by
  unfold State.writeEntry
  repeat' first
    | with_reducible assumption
    | (extract_lets +onlyGivenNames x
       first
         | (refine (fun (hx : Keeps s0 x) => ?_) ?_; clear_value x; revert x; intro y hy; rotate_left; subst x)
         | (clear_value x; revert x; intro y))
    | with_reducible apply State.dirtyPages_keeps
    | with_reducible apply State.olderAfter_keeps
    | with_reducible apply State.treeFor_keeps
    | with_reducible apply State.removeEntry_keeps
    | with_reducible apply State.seat_keeps
    | with_reducible apply State.touchDir_keeps
    | with_reducible apply State.putKey_keeps
    | with_reducible apply State.seatMap_keeps
    | with_reducible apply State.mapKey_keeps
    | with_reducible apply State.logLost_keeps
    | with_reducible apply State.unlogLost_keeps
    | with_reducible refine Keeps.ite ?_ ?_
    | split

theorem State.dropEntry_keeps {s0 s : State} (h : Keeps s0 s) (a1 a2 a3) : Keeps s0 (State.dropEntry s a1 a2 a3) := by
  unfold State.dropEntry
  repeat' first
    | with_reducible assumption
    | with_reducible apply State.olderAfter_keeps
    | with_reducible apply State.unlogLost_keeps
    | with_reducible apply State.dirtyPages_keeps
    | with_reducible apply State.removeEntry_keeps
    | with_reducible apply State.mapKey_keeps
    | with_reducible apply State.invalidate_keeps
    | with_reducible refine Keeps.ite ?_ ?_
    | split

theorem State.applyChange_keeps {s0 s : State} (h : Keeps s0 s) (a1 a2 a3) : Keeps s0 (State.applyChange s a1 a2 a3).2.2 := by
  unfold State.applyChange
  repeat' first
    | with_reducible assumption
    | (extract_lets +onlyGivenNames x
       first
         | (refine (fun (hx : Keeps s0 x) => ?_) ?_; clear_value x; revert x; intro y hy; rotate_left; subst x)
         | (clear_value x; revert x; intro y))
    | with_reducible apply State.useAfter_keeps
    | with_reducible apply State.dropEntry_keeps
    | with_reducible apply State.writeEntry_keeps
    | split

theorem State.applyChanges_keeps {s0 s : State} (h : Keeps s0 s) (a1 a2 a3 a4) : Keeps s0 (State.applyChanges s a1 a2 a3 a4).2 := by
  induction a4 generalizing s a3 with
  | nil =>
    unfold State.applyChanges
    repeat' first
      | with_reducible assumption
  | cons c l ih =>
    unfold State.applyChanges
    repeat' first
      | with_reducible assumption
      | with_reducible apply State.applyChange_keeps
      | with_reducible apply ih

theorem Keeps.drawn {s t : State} (h : Keeps s t) (n : Nat) : Keeps s { t with plc.versionCounter := t.plc.versionCounter + n } :=
  h.trans ⟨rfl, List.prefix_rfl, fun w => w, Nat.le_add_right .., Nat.le_refl _, Nat.le_refl _, fun _ => rfl, fun _ m => m, id,
    Nat.le_refl _⟩

theorem State.reserve_keeps {s0 s : State} (h : Keeps s0 s) (a1) : Keeps s0 (State.reserve s a1) := by
  unfold State.reserve
  extract_lets v place p s1 s2
  have h1 : Keeps s0 s1 := h.drawn _
  clear_value s1
  have h2 : Keeps s0 s2 := State.journalAppend_keeps h1 ..
  clear_value s2
  exact State.mapTrs_keeps h2 ..

theorem State.commit_keeps {s0 s : State} (h : Keeps s0 s) (a1 a2) : Keeps s0 (State.commit s a1 a2) := by
  unfold State.commit
  repeat' first
    | with_reducible assumption
    | (extract_lets +onlyGivenNames x; (first | (let z : Plc := x; clear z) | clear_value x); revert x; intro y)
    | with_reducible apply State.applyChanges_keeps
    | with_reducible apply State.mapStripe_keeps
    | with_reducible apply State.mapTrs_keeps
    | with_reducible apply State.releaseStripes_keeps
    | with_reducible apply State.dropEmpty_keeps
    | with_reducible apply State.dropMapPages_keeps
    | with_reducible apply State.finish_keeps
    | with_reducible refine Keeps.foldl (fun t x ht => ?_) ?_
    | (with_reducible apply Keeps.upd
       with_reducible exact rfl
       first
         | with_reducible exact rfl
         | simp +zetaDelta [State.kept])

theorem execCommit_keeps {s0 s : State} (h : Keeps s0 s) (a1) : KeepsR s0 (execCommit a1 s) := by
  unfold execCommit
  repeat' first
    | with_reducible assumption
    | (extract_lets +onlyGivenNames x; refine (fun (hx : Keeps s0 x) => ?_) ?_; clear_value x; revert x; intro y hy; rotate_left; subst x)
    | with_reducible apply State.readChanges_keeps
    | with_reducible apply State.wantPage_keeps
    | with_reducible apply State.commit_keeps
    | with_reducible apply State.enterCharcoal_keeps
    | with_reducible apply State.bump_keeps
    | with_reducible apply State.mapTrs_keeps
    | with_reducible apply State.reserve_keeps
    | with_reducible apply KeepsR.next
    | split

theorem State.loseMapPage_keeps {s0 s : State} (h : Keeps s0 s) (a1) : Keeps s0 (State.loseMapPage s a1) := by
  unfold State.loseMapPage
  repeat' first
    | with_reducible assumption
    | (extract_lets +onlyGivenNames x
       first
         | (refine (fun (hx : Keeps s0 x) => ?_) ?_; clear_value x; revert x; intro y hy; rotate_left; subst x)
         | (clear_value x; revert x; intro y))
    | with_reducible apply State.mapKey_keeps
    | with_reducible apply State.releaseStripes_keeps
    | with_reducible apply State.dropMapPages_keeps
    | with_reducible apply State.loseKeys_keeps
    | with_reducible refine Keeps.foldl (fun t x ht => ?_) ?_

theorem State.endTenantCursors_keeps {s0 s : State} (h : Keeps s0 s) (a1) : Keeps s0 (State.endTenantCursors s a1) := by
  unfold State.endTenantCursors
  repeat' first
    | with_reducible assumption
    | (extract_lets +onlyGivenNames x; (let z : Pae := x; clear z); revert x; intro y)
    | with_reducible apply State.pruneOlder_keeps
    | (with_reducible apply Keeps.upd
       with_reducible exact rfl
       first
         | with_reducible exact rfl
         | simp +zetaDelta [State.kept])

theorem State.pageTransfer_keeps {s0 s : State} (h : Keeps s0 s) (a1) : Keeps s0 (State.pageTransfer s a1) := by
  unfold State.pageTransfer
  repeat' first
    | with_reducible assumption
    | (extract_lets +onlyGivenNames x; clear_value x; revert x; intro y)
    | with_reducible apply State.transfer_keeps
    | split

theorem State.losePage_keeps {s0 s : State} (h : Keeps s0 s) (a1) : Keeps s0 (State.losePage s a1) := by
  unfold State.losePage
  repeat' first
    | with_reducible assumption
    | (extract_lets +onlyGivenNames x; (let z : Asu := x; clear z); revert x; intro y)
    | with_reducible apply State.endTenantCursors_keeps
    | with_reducible apply State.loseMapPage_keeps
    | with_reducible apply State.mapPage_keeps
    | with_reducible refine Keeps.ite ?_ ?_
    | (with_reducible apply Keeps.upd
       with_reducible exact rfl
       first
         | with_reducible exact rfl
         | simp +zetaDelta [State.kept])

theorem State.framePage_keeps {s0 s : State} (h : Keeps s0 s) (a1) : Keeps s0 (State.framePage s a1) := by
  unfold State.framePage
  repeat' first
    | with_reducible assumption
    | (extract_lets +onlyGivenNames x
       first
         | (refine (fun (hx : Keeps s0 x) => ?_) ?_; clear_value x; revert x; intro y hy; rotate_left; subst x)
         | ((let z : Asu := x; clear z); revert x; intro y))
    | with_reducible apply State.mapPage_keeps
    | with_reducible apply State.traced_keeps
    | with_reducible apply State.bump_keeps
    | (with_reducible apply Keeps.upd
       with_reducible exact rfl
       first
         | with_reducible exact rfl
         | simp +zetaDelta [State.kept])

theorem State.rebuildPage_keeps {s0 s : State} (h : Keeps s0 s) (a1) : Keeps s0 (State.rebuildPage s a1) := by
  unfold State.rebuildPage
  repeat' first
    | with_reducible assumption
    | (extract_lets +onlyGivenNames x
       first
         | (refine (fun (hx : Keeps s0 x) => ?_) ?_; clear_value x; revert x; intro y hy; rotate_left; subst x)
         | (clear_value x; revert x; intro y))
    | with_reducible apply State.losePage_keeps
    | with_reducible apply State.queueRead_keeps
    | with_reducible apply State.bump_keeps
    | with_reducible apply State.framePage_keeps
    | with_reducible apply State.mapShard_keeps
    | with_reducible refine Keeps.ite ?_ ?_
    | with_reducible refine Keeps.foldl (fun t x ht => ?_) ?_
    | split

theorem State.pageIn_keeps {s0 s : State} (h : Keeps s0 s) (a1 a2) : Keeps s0 (State.pageIn s a1 a2) := by
  unfold State.pageIn
  repeat' first
    | with_reducible assumption
    | (extract_lets +onlyGivenNames x; refine (fun (hx : Keeps s0 x) => ?_) ?_; clear_value x; revert x; intro y hy; rotate_left; subst x)
    | with_reducible apply State.evict_keeps
    | with_reducible apply State.pageTransfer_keeps
    | with_reducible apply State.framePage_keeps
    | with_reducible apply State.rebuildPage_keeps
    | with_reducible refine Keeps.ite ?_ ?_

theorem execPageInComplete_keeps {s0 s : State} (h : Keeps s0 s) (a1 a2) : KeepsR s0 (execPageInComplete a1 a2 s) := by
  unfold execPageInComplete
  repeat' first
    | with_reducible assumption
    | with_reducible apply State.pageIn_keeps
    | with_reducible apply KeepsR.next
    | split

theorem execIndexPageRebuild_keeps {s0 s : State} (h : Keeps s0 s) (a1) : KeepsR s0 (execIndexPageRebuild a1 s) := by
  unfold execIndexPageRebuild
  repeat' first
    | with_reducible assumption
    | (extract_lets +onlyGivenNames x; refine (fun (hx : Keeps s0 x) => ?_) ?_; clear_value x; revert x; intro y hy; rotate_left; subst x)
    | with_reducible apply State.evict_keeps
    | with_reducible apply State.bump_keeps
    | with_reducible apply State.mapPage_keeps
    | with_reducible apply KeepsR.next
    | split

end Sys2Proof.Machine
end

