-- ==== Sys2Proof/Laws/KeepsScan.lean ====
section
/-!
SUPPORT. Every operation and command of Machine/Scan.lean keeps what `Keeps` says.
-/
namespace Sys2Proof.Machine

theorem State.mapEngine_keeps {s0 s : State} (h : Keeps s0 s) (a1 a2) : Keeps s0 (State.mapEngine s a1 a2) := by
  unfold State.mapEngine
  repeat' first
    | with_reducible assumption
    | (extract_lets +onlyGivenNames x; (let z : Pae := x; clear z); revert x; intro y)
    | (with_reducible apply Keeps.upd
       with_reducible exact rfl
       first
         | with_reducible exact rfl
         | simp +zetaDelta [State.kept])

theorem State.mapRun_keeps {s0 s : State} (h : Keeps s0 s) (a1 a2) : Keeps s0 (State.mapRun s a1 a2) := by
  unfold State.mapRun
  repeat' first
    | with_reducible assumption
    | (extract_lets +onlyGivenNames x; (let z : Pae := x; clear z); revert x; intro y)
    | (with_reducible apply Keeps.upd
       with_reducible exact rfl
       first
         | with_reducible exact rfl
         | simp +zetaDelta [State.kept])

theorem State.takeEngine_keeps {s0 s : State} (h : Keeps s0 s) (a1) : Keeps s0 (State.takeEngine s a1) := by
  unfold State.takeEngine
  repeat' first
    | with_reducible assumption
    | (extract_lets +onlyGivenNames x
       first
         | (refine (fun (hx : Keeps s0 x) => ?_) ?_; clear_value x; revert x; intro y hy; rotate_left; subst x)
         | (clear_value x; revert x; intro y))
    | with_reducible apply State.bump_keeps
    | with_reducible apply State.transfer_keeps
    | with_reducible apply State.mapEngine_keeps
    | with_reducible apply State.mapRun_keeps
    | with_reducible refine Keeps.ite ?_ ?_
    | split

theorem State.freeEngine_keeps {s0 s : State} (h : Keeps s0 s) (a1) : Keeps s0 (State.freeEngine s a1) := by
  unfold State.freeEngine
  repeat' first
    | with_reducible assumption
    | with_reducible apply State.mapEngine_keeps
    | split

theorem State.refuseScan_keeps {s0 s : State} (h : Keeps s0 s) (a1 a2 a3) : Keeps s0 (State.refuseScan s a1 a2 a3) := by
  unfold State.refuseScan
  repeat' first
    | with_reducible assumption
    | (extract_lets +onlyGivenNames x; refine (fun (hx : Keeps s0 x) => ?_) ?_; clear_value x; revert x; intro y hy; rotate_left; subst x)
    | with_reducible apply State.dropCursor_keeps
    | with_reducible apply State.finish_keeps
    | with_reducible refine Keeps.ite ?_ ?_

theorem State.startPage_keeps {s0 s : State} (h : Keeps s0 s) (a1 a2) : Keeps s0 (State.startPage s a1 a2) := by
  unfold State.startPage
  repeat' first
    | with_reducible assumption
    | (extract_lets +onlyGivenNames x
       first
         | (refine (fun (hx : Keeps s0 x) => ?_) ?_; clear_value x; revert x; intro y hy; rotate_left; subst x)
         | ((first | (let z : Pae := x; clear z) | clear_value x); revert x; intro y))
    | with_reducible apply State.mapTrs_keeps
    | with_reducible apply State.takeEngine_keeps
    | (with_reducible apply Keeps.upd
       with_reducible exact rfl
       first
         | with_reducible exact rfl
         | simp +zetaDelta [State.kept])

theorem State.firstPage_keeps {s0 s : State} (h : Keeps s0 s) (a1 a2) : Keeps s0 (State.firstPage s a1 a2) := by
  unfold State.firstPage
  repeat' first
    | with_reducible assumption
    | (extract_lets +onlyGivenNames x
       first
         | (refine (fun (hx : Keeps s0 x) => ?_) ?_; clear_value x; revert x; intro y hy; rotate_left; subst x)
         | ((let z : Pae := x; clear z); revert x; intro y))
    | with_reducible apply State.refuseScan_keeps
    | with_reducible apply State.classifyScan_keeps
    | with_reducible apply State.mapTrs_keeps
    | with_reducible apply State.startPage_keeps
    | with_reducible apply State.finish_keeps
    | with_reducible refine Keeps.ite ?_ ?_
    | split
    | (with_reducible apply Keeps.upd
       with_reducible exact rfl
       first
         | with_reducible exact rfl
         | simp +zetaDelta [State.kept])

theorem execScan_keeps {s0 s : State} (h : Keeps s0 s) (a1) : KeepsR s0 (execScan a1 s) := by
  unfold execScan
  repeat' first
    | with_reducible assumption
    | with_reducible apply State.refuseScan_keeps
    | with_reducible apply State.firstPage_keeps
    | with_reducible apply State.startPage_keeps
    | with_reducible apply State.finish_keeps
    | with_reducible apply State.traceStart_keeps
    | with_reducible apply KeepsR.next
    | split

theorem State.finishPage_keeps {s0 s : State} (h : Keeps s0 s) (a1 a2) : Keeps s0 (State.finishPage s a1 a2) := by
  unfold State.finishPage
  repeat' first
    | with_reducible assumption
    | (extract_lets +onlyGivenNames x
       first
         | (refine (fun (hx : Keeps s0 x) => ?_) ?_; clear_value x; revert x; intro y hy; rotate_left; subst x)
         | (let z : _ → _ := x; clear z; subst x)
         | ((first | (let z : Pae := x; clear z) | clear_value x); revert x; intro y))
    | with_reducible apply State.bump_keeps
    | with_reducible apply State.freeEngine_keeps
    | with_reducible apply State.mapRun_keeps
    | with_reducible apply State.finish_keeps
    | with_reducible apply State.dropCursor_keeps
    | with_reducible refine Keeps.ite ?_ ?_
    | split
    | (with_reducible apply Keeps.upd
       with_reducible exact rfl
       first
         | with_reducible exact rfl
         | simp +zetaDelta [State.kept])

theorem WalkStep.entry_keeps {s0 : State} {w : WalkStep} (h : Keeps s0 w.s) (r k) : Keeps s0 (WalkStep.entry w r k).s := by
  have hb := State.bump_keeps h 0x6010 0x02 1
  unfold WalkStep.entry
  try dsimp only
  split
  · exact hb
  · split
    · exact hb
    · have h3 := fun n => State.bump_keeps (State.bump_keeps hb 0x6010 0x03 1) 0x6010 0x06 n
      split
      · exact h3 _
      · have h5 : ∀ {u : State}, Keeps s0 u → ∀ a1 a2, Keeps s0 (match u.trs? a1 with
            | some t => u.runPredicates t t.cls a2
            | none => u) := by
          intro u hu a1 a2
          split
          · exact State.runPredicates_keeps hu ..
          · exact hu
        have h4 := State.classify_keeps (h5 (h3 (imageCycles r.image k.key)) r.task [k.key]) r.tenant k.key
        split
        · exact State.bump_keeps (h4 _) ..
        · exact State.bump_keeps (h4 _) ..

theorem WalkStep.walk_keeps {s0 : State} (r l) {w : WalkStep} (h : Keeps s0 w.s) : Keeps s0 (WalkStep.walk r w l).s := by
  induction l generalizing w with
  | nil => exact h
  | cons k l ih =>
    unfold WalkStep.walk
    split
    · exact h
    · try dsimp only
      split
      · exact WalkStep.entry_keeps h _ _
      · exact ih (WalkStep.entry_keeps h _ _)

theorem State.walkStep_keeps {s0 s : State} (h : Keeps s0 s) (a1 a2) : Keeps s0 (State.walkStep s a1 a2) := by
  unfold State.walkStep
  extract_lets l first pages chunk retained path s1
  have h1 : Keeps s0 s1 := State.readPages_keeps h _
  clear_value s1
  split
  · exact State.wantPage_keeps h1 _
  · have hw := WalkStep.walk_keeps (s0 := s0) a2 chunk
      (w := { s := s1, listed := [], position := a2.position, runs := 0, full := false, ended := false }) h1
    try dsimp only
    split
    · exact State.finishPage_keeps (State.mapRun_keeps hw _ _) _ _
    · exact State.mapRun_keeps hw _ _

theorem execScanStep_keeps {s0 s : State} (h : Keeps s0 s) (a1) : KeepsR s0 (execScanStep a1 s) := by
  unfold execScanStep
  repeat' first
    | with_reducible assumption
    | (extract_lets +onlyGivenNames x; refine (fun (hx : Keeps s0 x) => ?_) ?_; clear_value x; revert x; intro y hy; rotate_left; subst x)
    | with_reducible apply State.takeEngine_keeps
    | with_reducible apply State.walkStep_keeps
    | with_reducible apply State.transfer_keeps
    | with_reducible apply State.indexRead_keeps
    | with_reducible apply KeepsR.next
    | split

theorem State.reloadImage_keeps {s0 s : State} (h : Keeps s0 s) (a1) : Keeps s0 (State.reloadImage s a1) := by
  unfold State.reloadImage
  repeat' first
    | with_reducible assumption
    | (extract_lets +onlyGivenNames x; refine (fun (hx : Keeps s0 x) => ?_) ?_; clear_value x; revert x; intro y hy; rotate_left; subst x)
    | with_reducible apply State.transfer_keeps
    | with_reducible apply State.bump_keeps
    | split

theorem execImageMemoryError_keeps {s0 s : State} (h : Keeps s0 s) (a1 a2) : KeepsR s0 (execImageMemoryError a1 a2 s) := by
  unfold execImageMemoryError
  repeat' first
    | with_reducible assumption
    | (extract_lets +onlyGivenNames x; refine (fun (hx : Keeps s0 x) => ?_) ?_; clear_value x; revert x; intro y hy; rotate_left; subst x)
    | with_reducible apply State.raise_keeps
    | with_reducible apply State.bump_keeps
    | with_reducible apply State.isolate_keeps
    | with_reducible apply State.reloadImage_keeps
    | with_reducible apply KeepsR.next
    | with_reducible apply KeepsR.fault
    | split

end Sys2Proof.Machine
end

