-- ==== Sys2Proof/Laws/KeepsCipher.lean ====
section
/-!
SUPPORT. Every operation and command of Machine/Cipher.lean keeps what `Keeps` says.
-/
namespace Sys2Proof.Machine

theorem State.setPage_keeps {s0 s : State} (h : Keeps s0 s) (a1) : Keeps s0 (State.setPage s a1) := by
  unfold State.setPage
  repeat' first
    | with_reducible assumption
    | (extract_lets +onlyGivenNames x
       first
         | (refine (fun (hx : Keeps s0 x) => ?_) ?_; clear_value x; revert x; intro y hy; rotate_left; subst x)
         | ((first | (let z : Cpx := x; clear z) | clear_value x); revert x; intro y))
    | with_reducible apply State.raise_keeps
    | with_reducible refine Keeps.ite ?_ ?_
    | (with_reducible apply Keeps.upd
       with_reducible exact rfl
       first
         | with_reducible exact rfl
         | simp +zetaDelta [State.kept])

theorem State.clearRegisters_keeps {s0 s : State} (h : Keeps s0 s) (a1) : Keeps s0 (State.clearRegisters s a1) := by
  unfold State.clearRegisters
  repeat' first
    | with_reducible assumption
    | (extract_lets +onlyGivenNames x; (let z : Cpx := x; clear z); revert x; intro y)
    | (with_reducible apply Keeps.upd
       with_reducible exact rfl
       first
         | with_reducible exact rfl
         | simp +zetaDelta [State.kept])

theorem State.settlePage_keeps {s0 s : State} (h : Keeps s0 s) (a1) : Keeps s0 (State.settlePage s a1) := by
  unfold State.settlePage
  repeat' first
    | with_reducible assumption
    | (extract_lets +onlyGivenNames x; clear_value x; revert x; intro y)
    | with_reducible apply State.setPage_keeps
    | with_reducible apply State.takeDraw_keeps
    | with_reducible apply State.checkValue_keeps
    | with_reducible refine Keeps.ite ?_ ?_

theorem keyWriteEffect_keeps {s0 s : State} (h : Keeps s0 s) (br bi bu bv) : Keeps s0 (keyWriteEffect br bi bu bv s).1 := by
  unfold keyWriteEffect
  repeat' first
    | with_reducible assumption
    | (extract_lets +onlyGivenNames x; clear_value x; revert x; intro y)
    | with_reducible apply State.settlePage_keeps
    | with_reducible apply State.checkValue_keeps
    | split

theorem execKeyPageWrite_keeps {s0 s : State} (h : Keeps s0 s) (a1 a2 a3 a4) : KeepsR s0 (execKeyPageWrite a1 a2 a3 a4 s) := by
  unfold execKeyPageWrite
  repeat' first
    | with_reducible assumption
    | with_reducible apply State.ownWrite_keeps
    | with_reducible apply keyWriteEffect_keeps
    | with_reducible apply KeepsR.next
    | with_reducible apply KeepsR.fault
    | split
    | intro _

theorem State.clearPage_keeps {s0 s : State} (h : Keeps s0 s) (a1) : Keeps s0 (State.clearPage s a1) := by
  unfold State.clearPage
  repeat' first
    | with_reducible assumption
    | (extract_lets +onlyGivenNames x; clear_value x; revert x; intro y)
    | with_reducible apply State.setPage_keeps
    | with_reducible apply State.clearRegisters_keeps

theorem State.destroyPage_keeps {s0 s : State} (h : Keeps s0 s) (a1) : Keeps s0 (State.destroyPage s a1) := by
  unfold State.destroyPage
  repeat' first
    | with_reducible assumption
    | with_reducible apply State.endSessions_keeps
    | with_reducible apply State.clearPage_keeps

theorem State.destroyTenantPages_keeps {s0 s : State} (h : Keeps s0 s) : Keeps s0 (State.destroyTenantPages s) := by
  unfold State.destroyTenantPages
  repeat' first
    | with_reducible assumption
    | with_reducible apply State.clearPage_keeps
    | with_reducible refine Keeps.foldl (fun t x ht => ?_) ?_

theorem adminClearEffect_keeps {s0 s : State} (h : Keeps s0 s) (br bi bu bv) : Keeps s0 (adminClearEffect br bi bu bv s).1 := by
  unfold adminClearEffect
  repeat' first
    | with_reducible assumption
    | with_reducible apply State.destroyPage_keeps

theorem execAdminPageClear_keeps {s0 s : State} (h : Keeps s0 s) (a1 a2) : KeepsR s0 (execAdminPageClear a1 a2 s) := by
  unfold execAdminPageClear
  repeat' first
    | with_reducible assumption
    | with_reducible apply State.ownWrite_keeps
    | with_reducible apply adminClearEffect_keeps
    | with_reducible apply KeepsR.next
    | intro _

theorem execRngHealthFail_keeps {s0 s : State} (h : Keeps s0 s) (a1 a2) : KeepsR s0 (execRngHealthFail a1 a2 s) := by
  unfold execRngHealthFail
  repeat' first
    | with_reducible assumption
    | (extract_lets +onlyGivenNames x
       first
         | (refine (fun (hx : Keeps s0 x) => ?_) ?_; clear_value x; revert x; intro y hy; rotate_left; subst x)
         | ((let z : Cpx := x; clear z); revert x; intro y))
    | with_reducible apply State.raise_keeps
    | with_reducible apply State.bump_keeps
    | with_reducible apply KeepsR.next
    | with_reducible apply KeepsR.fault
    | split
    | (with_reducible apply Keeps.upd
       with_reducible exact rfl
       first
         | with_reducible exact rfl
         | simp +zetaDelta [State.kept])

theorem execRngStartupTestDone_keeps {s0 s : State} (h : Keeps s0 s) : KeepsR s0 (execRngStartupTestDone s) := by
  unfold execRngStartupTestDone
  repeat' first
    | with_reducible assumption
    | (extract_lets +onlyGivenNames x
       first
         | (refine (fun (hx : Keeps s0 x) => ?_) ?_; clear_value x; revert x; intro y hy; rotate_left; subst x)
         | ((first | (let z : Cpx := x; clear z) | clear_value x); revert x; intro y))
    | with_reducible apply State.settlePage_keeps
    | with_reducible apply KeepsR.next
    | with_reducible refine Keeps.foldl (fun t x ht => ?_) ?_
    | split
    | (with_reducible apply Keeps.upd
       with_reducible exact rfl
       first
         | with_reducible exact rfl
         | simp +zetaDelta [State.kept])

theorem execRngReseed_keeps {s0 s : State} (h : Keeps s0 s) : KeepsR s0 (execRngReseed s) := by
  unfold execRngReseed
  repeat' first
    | with_reducible assumption
    | (extract_lets +onlyGivenNames x; (let z : Cpx := x; clear z); revert x; intro y)
    | with_reducible apply State.bump_keeps
    | with_reducible apply KeepsR.next
    | split
    | (with_reducible apply Keeps.upd
       with_reducible exact rfl
       first
         | with_reducible exact rfl
         | simp +zetaDelta [State.kept])

theorem State.drawUntil_keeps {s0 s : State} (h : Keeps s0 s) (a1 a2 a3) : Keeps s0 (State.drawUntil s a1 a2 a3).2 := by
  induction a3 generalizing s with
  | zero =>
    unfold State.drawUntil
    repeat' first
      | with_reducible assumption
  | succ n ih =>
    unfold State.drawUntil
    repeat' first
      | with_reducible assumption
      | with_reducible refine Keeps.of2 ‹_› ?_
      | with_reducible apply State.takeDraw_keeps
      | with_reducible apply ih
      | split

theorem State.putFirst_keeps {s0 s : State} (h : Keeps s0 s) (a1 a2) : Keeps s0 (State.putFirst s a1 a2) := by
  unfold State.putFirst
  repeat' first
    | with_reducible assumption
    | (extract_lets +onlyGivenNames x; (let z : Cpx := x; clear z); revert x; intro y)
    | (with_reducible apply Keeps.upd
       with_reducible exact rfl
       first
         | with_reducible exact rfl
         | simp +zetaDelta [State.kept])

theorem execPipelineParity_keeps {s0 s : State} (h : Keeps s0 s) (a1 a2 a3) : KeepsR s0 (execPipelineParity a1 a2 a3 s) := by
  unfold execPipelineParity
  repeat' first
    | with_reducible assumption
    | (extract_lets +onlyGivenNames x
       first
         | (refine (fun (hx : Keeps s0 x) => ?_) ?_; clear_value x; revert x; intro y hy; rotate_left; subst x)
         | (clear_value x; revert x; intro y))
    | with_reducible apply State.putFirst_keeps
    | with_reducible apply State.raise_keeps
    | with_reducible apply State.bump_keeps
    | with_reducible apply State.isolate_keeps
    | with_reducible apply KeepsR.next
    | with_reducible apply KeepsR.fault
    | split

theorem execPipelineRebind_keeps {s0 s : State} (h : Keeps s0 s) (a1 a2) : KeepsR s0 (execPipelineRebind a1 a2 s) := by
  unfold execPipelineRebind
  repeat' first
    | with_reducible assumption
    | with_reducible apply State.dealWaiting_keeps
    | with_reducible apply State.bind_keeps
    | with_reducible apply KeepsR.next
    | with_reducible apply KeepsR.fault
    | split

theorem State.queueJob_keeps {s0 s : State} (h : Keeps s0 s) (a1) : Keeps s0 (State.queueJob s a1) := by
  unfold State.queueJob
  repeat' first
    | with_reducible assumption
    | (extract_lets +onlyGivenNames x; (let z : Cpx := x; clear z); revert x; intro y)
    | (with_reducible apply Keeps.upd
       with_reducible exact rfl
       first
         | with_reducible exact rfl
         | simp +zetaDelta [State.kept])

theorem State.dropStaleJobs_keeps {s0 s : State} (h : Keeps s0 s) : Keeps s0 (State.dropStaleJobs s) := by
  unfold State.dropStaleJobs
  repeat' first
    | with_reducible assumption
    | (extract_lets +onlyGivenNames x; (let z : Cpx := x; clear z); revert x; intro y)
    | (with_reducible apply Keeps.upd
       with_reducible exact rfl
       first
         | with_reducible exact rfl
         | simp +zetaDelta [State.kept])

theorem execPkJobStart_keeps {s0 s : State} (h : Keeps s0 s) : KeepsR s0 (execPkJobStart s) := by
  unfold execPkJobStart
  repeat' first
    | with_reducible assumption
    | (extract_lets +onlyGivenNames x
       first
         | (refine (fun (hx : Keeps s0 x) => ?_) ?_; clear_value x; revert x; intro y hy; rotate_left; subst x)
         | ((let z : Cpx := x; clear z); revert x; intro y))
    | with_reducible apply State.dropStaleJobs_keeps
    | with_reducible apply KeepsR.next
    | split
    | (with_reducible apply Keeps.upd
       with_reducible exact rfl
       first
         | with_reducible exact rfl
         | simp +zetaDelta [State.kept])

theorem State.endDictJob_keeps {s0 s : State} (h : Keeps s0 s) (a1 a2 a3) : Keeps s0 (State.endDictJob s a1 a2 a3) := by
  unfold State.endDictJob
  repeat' first
    | with_reducible assumption
    | (extract_lets +onlyGivenNames x
       first
         | (refine (fun (hx : Keeps s0 x) => ?_) ?_; clear_value x; revert x; intro y hy; rotate_left; subst x)
         | ((first | (let z : Cpx := x; clear z) | clear_value x); revert x; intro y))
    | with_reducible refine Keeps.of1 ‹_› ?_
    | with_reducible apply State.putBytes_keeps
    | with_reducible apply State.bump_keeps
    | with_reducible apply State.emit_keeps
    | with_reducible apply State.finish_keeps
    | with_reducible refine Keeps.ite ?_ ?_
    | split
    | (with_reducible apply Keeps.upd
       with_reducible exact rfl
       first
         | with_reducible exact rfl
         | simp +zetaDelta [State.kept])

theorem pkJobEffect_keeps {s0 s : State} (h : Keeps s0 s) (a1 br bi bu bv) : Keeps s0 (pkJobEffect a1 br bi bu bv s).1 := by
  unfold pkJobEffect
  repeat' first
    | with_reducible assumption
    | (extract_lets +onlyGivenNames x; clear_value x; revert x; intro y)
    | with_reducible apply State.put_keeps
    | with_reducible apply State.queueJob_keeps
    | split

theorem pkRow_keeps {s0 s : State} (h : Keeps s0 s) (a1 a2 a3) : Keeps s0 (pkRow a1 a2 a3 s) := by
  unfold pkRow
  repeat' first
    | with_reducible assumption
    | with_reducible refine Keeps.of1 ‹_› ?_
    | with_reducible apply State.takeWrite_keeps
    | with_reducible apply pkJobEffect_keeps
    | with_reducible apply State.emit_keeps
    | with_reducible refine Keeps.ite ?_ ?_
    | split
    | intro _

theorem execPkMultiplyP256_keeps {s0 s : State} (h : Keeps s0 s) (a1 a2) : KeepsR s0 (execPkMultiplyP256 a1 a2 s) := by
  unfold execPkMultiplyP256
  repeat' first
    | with_reducible assumption
    | with_reducible apply pkRow_keeps
    | with_reducible apply KeepsR.next

theorem execPkMultiplyP384_keeps {s0 s : State} (h : Keeps s0 s) (a1 a2) : KeepsR s0 (execPkMultiplyP384 a1 a2 s) := by
  unfold execPkMultiplyP384
  repeat' first
    | with_reducible assumption
    | with_reducible apply pkRow_keeps
    | with_reducible apply KeepsR.next

theorem execPkVerifyP256_keeps {s0 s : State} (h : Keeps s0 s) (a1 a2) : KeepsR s0 (execPkVerifyP256 a1 a2 s) := by
  unfold execPkVerifyP256
  repeat' first
    | with_reducible assumption
    | with_reducible apply pkRow_keeps
    | with_reducible apply KeepsR.next

theorem execPkVerifyP384_keeps {s0 s : State} (h : Keeps s0 s) (a1 a2) : KeepsR s0 (execPkVerifyP384 a1 a2 s) := by
  unfold execPkVerifyP384
  repeat' first
    | with_reducible assumption
    | with_reducible apply pkRow_keeps
    | with_reducible apply KeepsR.next

theorem State.signedStatement_keeps {s0 s : State} (h : Keeps s0 s) (a1) : Keeps s0 (State.signedStatement s a1).2 := by
  unfold State.signedStatement
  repeat' first
    | with_reducible assumption
    | (extract_lets +onlyGivenNames x; clear_value x; revert x; intro y)
    | with_reducible apply State.drawUntil_keeps

theorem execAttest_keeps {s0 s : State} (h : Keeps s0 s) (a1) : KeepsR s0 (execAttest a1 s) := by
  unfold execAttest
  repeat' first
    | with_reducible assumption
    | with_reducible apply State.queueJob_keeps
    | with_reducible apply State.mapTrs_keeps
    | with_reducible apply KeepsR.next
    | split

theorem State.endAttest_keeps {s0 s : State} (h : Keeps s0 s) (a1) : Keeps s0 (State.endAttest s a1).2 := by
  unfold State.endAttest
  repeat' first
    | with_reducible assumption
    | with_reducible refine Keeps.of2 ‹_› ?_
    | with_reducible apply State.signedStatement_keeps
    | with_reducible apply State.finish_keeps
    | split

theorem State.refuse_keeps {s0 s : State} (h : Keeps s0 s) (a1 a2 a3 a4) : Keeps s0 (State.refuse s a1 a2 a3 a4) := by
  unfold State.refuse
  repeat' first
    | with_reducible assumption
    | with_reducible apply State.refuseHandshake_keeps

theorem State.openSession_keeps {s0 s : State} (h : Keeps s0 s) (a1 a2 a3 a4 a5) : Keeps s0 (State.openSession s a1 a2 a3 a4 a5) := by
  unfold State.openSession
  repeat' first
    | with_reducible assumption
    | (extract_lets +onlyGivenNames x
       first
         | (refine (fun (hx : Keeps s0 x) => ?_) ?_; clear_value x; revert x; intro y hy; rotate_left; subst x)
         | (clear_value x; revert x; intro y))
    | with_reducible apply State.sendReply_keeps
    | with_reducible apply State.macBlocks_keeps
    | (with_reducible apply Keeps.upd
       with_reducible exact rfl
       first
         | with_reducible exact rfl
         | simp +zetaDelta [State.kept])

theorem State.endOpen_keeps {s0 s : State} (h : Keeps s0 s) (a1) : Keeps s0 (State.endOpen s a1).2 := by
  unfold State.endOpen
  repeat' first
    | with_reducible assumption
    | (extract_lets +onlyGivenNames x; clear_value x; revert x; intro y)
    | with_reducible refine Keeps.of2 ‹_› ?_
    | with_reducible apply State.bump_keeps
    | with_reducible apply State.refuse_keeps
    | with_reducible apply State.drawUntil_keeps
    | with_reducible apply State.takeDraw_keeps
    | with_reducible apply State.openSession_keeps
    | split

theorem State.confirmSession_keeps {s0 s : State} (h : Keeps s0 s) (a1 a2 a3 a4) : Keeps s0 (State.confirmSession s a1 a2 a3 a4) := by
  unfold State.confirmSession
  repeat' first
    | with_reducible assumption
    | (extract_lets +onlyGivenNames x; clear_value x; revert x; intro y)
    | with_reducible apply State.mapSession_keeps
    | with_reducible apply State.respondWith_keeps
    | with_reducible apply State.macBlocks_keeps
    | with_reducible apply State.sendNext_keeps
    | with_reducible refine Keeps.getD ?_ ?_
    | (with_reducible apply Keeps.upd
       with_reducible exact rfl
       first
         | with_reducible exact rfl
         | simp +zetaDelta [State.kept])

theorem State.endConfirm_keeps {s0 s : State} (h : Keeps s0 s) (a1) : Keeps s0 (State.endConfirm s a1) := by
  unfold State.endConfirm
  repeat' first
    | with_reducible assumption
    | with_reducible apply State.endSession_keeps
    | with_reducible apply State.bump_keeps
    | with_reducible apply State.refuse_keeps
    | with_reducible apply State.confirmSession_keeps
    | split

theorem State.endJob_keeps {s0 s : State} (h : Keeps s0 s) (a1) : Keeps s0 (State.endJob s a1).2 := by
  unfold State.endJob
  repeat' first
    | with_reducible assumption
    | with_reducible apply State.endOpen_keeps
    | with_reducible apply State.endConfirm_keeps
    | with_reducible apply State.endAttest_keeps
    | with_reducible apply State.endDictJob_keeps
    | split

theorem execPkJobComplete_keeps {s0 s : State} (h : Keeps s0 s) (a1) : KeepsR s0 (execPkJobComplete a1 s) := by
  unfold execPkJobComplete
  repeat' first
    | with_reducible assumption
    | (extract_lets +onlyGivenNames x; (let z : Cpx := x; clear z); revert x; intro y)
    | with_reducible refine Keeps.of2 ‹_› ?_
    | with_reducible apply State.endJob_keeps
    | with_reducible apply State.bump_keeps
    | with_reducible apply KeepsR.next
    | with_reducible apply KeepsR.fault
    | split
    | (with_reducible apply Keeps.upd
       with_reducible exact rfl
       first
         | with_reducible exact rfl
         | simp +zetaDelta [State.kept])

end Sys2Proof.Machine
end

