-- ==== Sys2Proof/Laws/KeepsHandshake.lean ====
section
/-!
SUPPORT. Every operation and command of Machine/Handshake.lean keeps what `Keeps` says.
-/
namespace Sys2Proof.Machine

theorem State.takeHandshake_keeps {s0 s : State} (h : Keeps s0 s) (a1) : KeepsOP s0 (State.takeHandshake s a1) := by
  unfold State.takeHandshake
  repeat' first
    | with_reducible assumption
    | (extract_lets +onlyGivenNames x; clear_value x; revert x; intro y)
    | with_reducible apply KeepsOP.none
    | with_reducible apply KeepsOP.some
    | split
    | (with_reducible apply Keeps.upd
       with_reducible exact rfl
       first
         | with_reducible exact rfl
         | simp +zetaDelta [State.kept])

theorem State.repeatReply_keeps {s0 s : State} (h : Keeps s0 s) (a1) : Keeps s0 (State.repeatReply s a1) := by
  unfold State.repeatReply
  repeat' first
    | with_reducible assumption
    | with_reducible apply State.sendReply_keeps
    | split

theorem execSessionOpen_keeps {s0 s : State} (h : Keeps s0 s) : KeepsR s0 (execSessionOpen s) := by
  unfold execSessionOpen
  repeat' first
    | with_reducible assumption
    | with_reducible refine Keeps.ofOP ‹_› ?_
    | with_reducible apply State.takeHandshake_keeps
    | with_reducible apply State.repeatReply_keeps
    | with_reducible apply State.refuse_keeps
    | with_reducible apply State.queueJob_keeps
    | with_reducible apply KeepsR.next
    | split

theorem execSessionConfirm_keeps {s0 s : State} (h : Keeps s0 s) : KeepsR s0 (execSessionConfirm s) := by
  unfold execSessionConfirm
  repeat' first
    | with_reducible assumption
    | (extract_lets +onlyGivenNames x; refine (fun (hx : Keeps s0 x) => ?_) ?_; clear_value x; revert x; intro y hy; rotate_left; subst x)
    | with_reducible refine Keeps.ofOP ‹_› ?_
    | with_reducible apply State.takeHandshake_keeps
    | with_reducible apply State.refuse_keeps
    | with_reducible apply State.macBlocks_keeps
    | with_reducible apply State.queueJob_keeps
    | with_reducible apply State.endSession_keeps
    | with_reducible apply KeepsR.next
    | split

theorem execSessionClose_keeps {s0 s : State} (h : Keeps s0 s) (a1) : KeepsR s0 (execSessionClose a1 s) := by
  unfold execSessionClose
  repeat' first
    | with_reducible assumption
    | with_reducible apply State.finish_keeps
    | with_reducible apply KeepsR.next
    | split

end Sys2Proof.Machine
end

