-- ==== Sys2Proof/Laws/KeepsPlacement.lean ====
section
/-!
SUPPORT. Every operation and command of Machine/Placement.lean keeps what `Keeps` says.
-/
namespace Sys2Proof.Machine

theorem State.sendShard_keeps {s0 s : State} (h : Keeps s0 s) (a1 a2 a3 a4) : Keeps s0 (State.sendShard s a1 a2 a3 a4) := by
  unfold State.sendShard
  repeat' first
    | with_reducible assumption
    | with_reducible apply State.queueProgram_keeps
    | with_reducible apply State.transfer_keeps
    | with_reducible apply State.mapShard_keeps

theorem execStripeDrain_keeps {s0 s : State} (h : Keeps s0 s) (a1) : KeepsR s0 (execStripeDrain a1 s) := by
  unfold execStripeDrain
  repeat' first
    | with_reducible assumption
    | (extract_lets +onlyGivenNames x
       first
         | (refine (fun (hx : Keeps s0 x) => ?_) ?_; clear_value x; revert x; intro y hy; rotate_left; subst x)
         | (clear_value x; revert x; intro y))
    | with_reducible apply State.readDirty_keeps
    | with_reducible apply State.sendShard_keeps
    | with_reducible apply KeepsR.next
    | with_reducible refine Keeps.foldl (fun t x ht => ?_) ?_
    | split

theorem State.endForcedDrain_keeps {s0 s : State} (h : Keeps s0 s) : Keeps s0 (State.endForcedDrain s) := by
  unfold State.endForcedDrain
  repeat' first
    | with_reducible assumption
    | (extract_lets +onlyGivenNames x; (let z : Pch := x; clear z); revert x; intro y)
    | with_reducible apply State.limitFrom_keeps
    | with_reducible refine Keeps.ite ?_ ?_
    | (with_reducible apply Keeps.upd
       with_reducible exact rfl
       first
         | with_reducible exact rfl
         | simp +zetaDelta [State.kept])

theorem State.loseBroken_keeps {s0 s : State} (h : Keeps s0 s) : Keeps s0 (State.loseBroken s) := by
  unfold State.loseBroken
  repeat' first
    | with_reducible assumption
    | with_reducible apply State.loseStripe_keeps
    | with_reducible refine Keeps.foldl (fun t x ht => ?_) ?_

theorem State.endRebuild_keeps {s0 s : State} (h : Keeps s0 s) : Keeps s0 (State.endRebuild s) := by
  unfold State.endRebuild
  repeat' first
    | with_reducible assumption
    | (extract_lets +onlyGivenNames x
       first
         | (refine (fun (hx : Keeps s0 x) => ?_) ?_; clear_value x; revert x; intro y hy; rotate_left; subst x)
         | ((first | (let z : Plc := x; clear z) | clear_value x); revert x; intro y))
    | with_reducible apply State.readyActive_keeps
    | with_reducible apply State.raise_keeps
    | with_reducible refine Keeps.ite ?_ ?_
    | (with_reducible apply Keeps.upd
       with_reducible exact rfl
       first
         | with_reducible exact rfl
         | simp +zetaDelta [State.kept])

theorem State.joinRebuild_keeps {s0 s : State} (h : Keeps s0 s) (a1) : Keeps s0 (State.joinRebuild s a1) := by
  unfold State.joinRebuild
  repeat' first
    | with_reducible assumption
    | (extract_lets +onlyGivenNames x
       first
         | (refine (fun (hx : Keeps s0 x) => ?_) ?_; clear_value x; revert x; intro y hy; rotate_left; subst x)
         | ((first | (let z : Plc := x; clear z) | clear_value x); revert x; intro y))
    | with_reducible apply State.loseBroken_keeps
    | with_reducible apply State.raise_keeps
    | with_reducible refine Keeps.ite ?_ ?_
    | (with_reducible apply Keeps.upd
       with_reducible exact rfl
       first
         | with_reducible exact rfl
         | simp +zetaDelta [State.kept])

theorem State.startRebuild_keeps {s0 s : State} (h : Keeps s0 s) (a1) : Keeps s0 (State.startRebuild s a1) := by
  unfold State.startRebuild
  repeat' first
    | with_reducible assumption
    | with_reducible apply State.endRebuild_keeps
    | with_reducible apply State.checkCharcoal_keeps
    | with_reducible apply State.joinRebuild_keeps

theorem State.releaseFlush_keeps {s0 s : State} (h : Keeps s0 s) : Keeps s0 (State.releaseFlush s) := by
  unfold State.releaseFlush
  repeat' first
    | with_reducible assumption
    | (extract_lets +onlyGivenNames x; (first | (let z : Plc := x; clear z) | clear_value x); revert x; intro y)
    | with_reducible refine Keeps.ite ?_ ?_
    | (with_reducible apply Keeps.upd
       with_reducible exact rfl
       first
         | with_reducible exact rfl
         | simp +zetaDelta [State.kept])

theorem State.wroteOut_keeps {s0 s : State} (h : Keeps s0 s) (a1) : Keeps s0 (State.wroteOut s a1) := by
  unfold State.wroteOut
  repeat' first
    | with_reducible assumption
    | (extract_lets +onlyGivenNames x
       first
         | (refine (fun (hx : Keeps s0 x) => ?_) ?_; clear_value x; revert x; intro y hy; rotate_left; subst x)
         | ((let z : Plc := x; clear z); revert x; intro y))
    | with_reducible apply State.mapStripe_keeps
    | with_reducible apply State.bump_keeps
    | (with_reducible apply Keeps.upd
       with_reducible exact rfl
       first
         | with_reducible exact rfl
         | simp +zetaDelta [State.kept])

theorem State.clearPosted_keeps {s0 s : State} (h : Keeps s0 s) : Keeps s0 (State.clearPosted s) := by
  unfold State.clearPosted
  repeat' first
    | with_reducible assumption
    | (extract_lets +onlyGivenNames x; (let z : Cqc := x; clear z); revert x; intro y)
    | (with_reducible apply Keeps.upd
       with_reducible exact rfl
       first
         | with_reducible exact rfl
         | simp +zetaDelta [State.kept])

theorem State.settleStripe_keeps {s0 s : State} (h : Keeps s0 s) (a1) : Keeps s0 (State.settleStripe s a1) := by
  unfold State.settleStripe
  repeat' first
    | with_reducible assumption
    | (extract_lets +onlyGivenNames x
       first
         | (refine (fun (hx : Keeps s0 x) => ?_) ?_; clear_value x; revert x; intro y hy; rotate_left; subst x)
         | (clear_value x; revert x; intro y))
    | with_reducible apply State.mapStripe_keeps
    | with_reducible apply State.wroteOut_keeps
    | with_reducible apply State.joinRebuild_keeps
    | with_reducible apply State.readyActive_keeps
    | with_reducible apply State.endForcedDrain_keeps
    | with_reducible apply State.releaseFlush_keeps
    | with_reducible apply State.clearPosted_keeps
    | with_reducible refine Keeps.ite ?_ ?_
    | split

theorem execShardProgramDone_keeps {s0 s : State} (h : Keeps s0 s) (a1 a2) : KeepsR s0 (execShardProgramDone a1 a2 s) := by
  unfold execShardProgramDone
  repeat' first
    | with_reducible assumption
    | (extract_lets +onlyGivenNames x
       first
         | (refine (fun (hx : Keeps s0 x) => ?_) ?_; clear_value x; revert x; intro y hy; rotate_left; subst x)
         | ((first | (let z : Plc := x; clear z) | clear_value x); revert x; intro y))
    | with_reducible apply State.mapShard_keeps
    | with_reducible apply State.settleStripe_keeps
    | with_reducible apply State.bump_keeps
    | with_reducible apply State.mapStripe_keeps
    | with_reducible apply State.endRebuild_keeps
    | with_reducible apply KeepsR.next
    | split
    | (with_reducible apply Keeps.upd
       with_reducible exact rfl
       first
         | with_reducible exact rfl
         | simp +zetaDelta [State.kept])

theorem State.replaceShard_keeps {s0 s : State} (h : Keeps s0 s) (a1 a2 a3 a4) : Keeps s0 (State.replaceShard s a1 a2 a3 a4) := by
  unfold State.replaceShard
  repeat' first
    | with_reducible assumption
    | (extract_lets +onlyGivenNames x
       first
         | (refine (fun (hx : Keeps s0 x) => ?_) ?_; clear_value x; revert x; intro y hy; rotate_left; subst x)
         | ((first | (let z : Plc := x; clear z) | clear_value x); revert x; intro y))
    | with_reducible apply State.takeSlot_keeps
    | with_reducible apply State.mapShard_keeps
    | with_reducible apply State.relocateStripe_keeps
    | with_reducible apply State.checkCharcoal_keeps
    | with_reducible apply State.sendShard_keeps
    | with_reducible refine Keeps.ite ?_ ?_
    | (with_reducible apply Keeps.upd
       with_reducible exact rfl
       first
         | with_reducible exact rfl
         | simp +zetaDelta [State.kept])

theorem execProgramReplacement_keeps {s0 s : State} (h : Keeps s0 s) (a1 a2) : KeepsR s0 (execProgramReplacement a1 a2 s) := by
  unfold execProgramReplacement
  repeat' first
    | with_reducible assumption
    | (extract_lets +onlyGivenNames x; clear_value x; revert x; intro y)
    | with_reducible apply State.enterCharcoal_keeps
    | with_reducible apply State.awaitJournal_keeps
    | with_reducible apply State.bump_keeps
    | with_reducible apply State.replaceShard_keeps
    | with_reducible apply KeepsR.next
    | split

theorem execPackSealTimeout_keeps {s0 s : State} (h : Keeps s0 s) (a1) : KeepsR s0 (execPackSealTimeout a1 s) := by
  unfold execPackSealTimeout
  repeat' first
    | with_reducible assumption
    | (extract_lets +onlyGivenNames x; clear_value x; revert x; intro y)
    | with_reducible apply State.seal_keeps
    | with_reducible apply KeepsR.next
    | with_reducible refine Keeps.getD ?_ ?_
    | split

theorem State.addMove_keeps {s0 s : State} (h : Keeps s0 s) (a1 a2 a3 a4 a5 a6) : Keeps s0 (State.addMove s a1 a2 a3 a4 a5 a6) := by
  unfold State.addMove
  repeat' first
    | with_reducible assumption
    | (extract_lets +onlyGivenNames x; (first | (let z : Plc := x; clear z) | clear_value x); revert x; intro y)
    | with_reducible apply State.mapTile_keeps
    | with_reducible apply State.takeSlot_keeps
    | split
    | (with_reducible apply Keeps.upd
       with_reducible exact rfl
       first
         | with_reducible exact rfl
         | simp +zetaDelta [State.kept])

theorem State.programMove_keeps {s0 s : State} (h : Keeps s0 s) (a1) : Keeps s0 (State.programMove s a1) := by
  unfold State.programMove
  repeat' first
    | with_reducible assumption
    | (extract_lets +onlyGivenNames x; clear_value x; revert x; intro y)
    | with_reducible apply State.queueDie_keeps
    | with_reducible apply State.transfer_keeps
    | split

theorem State.startMoves_keeps {s0 s : State} (h : Keeps s0 s) (a1 a2 a3 a4 a5) : Keeps s0 (State.startMoves s a1 a2 a3 a4 a5) := by
  unfold State.startMoves
  repeat' first
    | with_reducible assumption
    | with_reducible apply State.queueDie_keeps
    | with_reducible apply State.transfer_keeps
    | with_reducible apply State.addMove_keeps
    | with_reducible refine Keeps.ite ?_ ?_
    | with_reducible refine Keeps.foldl (fun t x ht => ?_) ?_
    | split

theorem State.dropMoves_keeps {s0 s : State} (h : Keeps s0 s) (a1) : Keeps s0 (State.dropMoves s a1) := by
  unfold State.dropMoves
  repeat' first
    | with_reducible assumption
    | (extract_lets +onlyGivenNames x; (let z : Plc := x; clear z); revert x; intro y)
    | (with_reducible apply Keeps.upd
       with_reducible exact rfl
       first
         | with_reducible exact rfl
         | simp +zetaDelta [State.kept])

theorem State.handForErase_keeps {s0 s : State} (h : Keeps s0 s) (a1 a2 a3 a4) : Keeps s0 (State.handForErase s a1 a2 a3 a4) := by
  unfold State.handForErase
  repeat' first
    | with_reducible assumption
    | (extract_lets +onlyGivenNames x; refine (fun (hx : Keeps s0 x) => ?_) ?_; clear_value x; revert x; intro y hy; rotate_left; subst x)
    | with_reducible apply State.mapTile_keeps
    | with_reducible apply State.queueDie_keeps
    | with_reducible refine Keeps.ite ?_ ?_

theorem State.emptied_keeps {s0 s : State} (h : Keeps s0 s) (a1 a2 a3 a4 a5) : Keeps s0 (State.emptied s a1 a2 a3 a4 a5) := by
  unfold State.emptied
  repeat' first
    | with_reducible assumption
    | (extract_lets +onlyGivenNames x; refine (fun (hx : Keeps s0 x) => ?_) ?_; clear_value x; revert x; intro y hy; rotate_left; subst x)
    | with_reducible apply State.mapTile_keeps
    | with_reducible apply State.handForErase_keeps
    | with_reducible apply State.bump_keeps
    | with_reducible refine Keeps.ite ?_ ?_

theorem State.finishMove_keeps {s0 s : State} (h : Keeps s0 s) (a1) : Keeps s0 (State.finishMove s a1) := by
  unfold State.finishMove
  repeat' first
    | with_reducible assumption
    | (extract_lets +onlyGivenNames x
       first
         | (refine (fun (hx : Keeps s0 x) => ?_) ?_; clear_value x; revert x; intro y hy; rotate_left; subst x)
         | ((first | (let z : Plc := x; clear z) | clear_value x); revert x; intro y))
    | with_reducible apply State.bump_keeps
    | with_reducible apply State.dropMoves_keeps
    | with_reducible apply State.relocateStripe_keeps
    | with_reducible apply State.mapShard_keeps
    | with_reducible apply State.emptied_keeps
    | with_reducible refine Keeps.ite ?_ ?_
    | with_reducible refine Keeps.foldl (fun t x ht => ?_) ?_
    | (with_reducible apply Keeps.upd
       with_reducible exact rfl
       first
         | with_reducible exact rfl
         | simp +zetaDelta [State.kept])

theorem State.landMove_keeps {s0 s : State} (h : Keeps s0 s) (a1) : Keeps s0 (State.landMove s a1) := by
  unfold State.landMove
  repeat' first
    | with_reducible assumption
    | (extract_lets +onlyGivenNames x; (let z : Plc := x; clear z); revert x; intro y)
    | with_reducible apply State.finishMove_keeps
    | with_reducible apply State.awaitJournal_keeps
    | with_reducible refine Keeps.ite ?_ ?_
    | (with_reducible apply Keeps.upd
       with_reducible exact rfl
       first
         | with_reducible exact rfl
         | simp +zetaDelta [State.kept])

theorem State.landMoves_keeps {s0 s : State} (h : Keeps s0 s) : Keeps s0 (State.landMoves s) := by
  unfold State.landMoves
  repeat' first
    | with_reducible assumption
    | with_reducible apply State.landMove_keeps
    | with_reducible refine Keeps.foldl (fun t x ht => ?_) ?_

theorem State.emptyBlock_keeps {s0 s : State} (h : Keeps s0 s) (a1 a2 a3 a4 a5) : Keeps s0 (State.emptyBlock s a1 a2 a3 a4 a5) := by
  unfold State.emptyBlock
  repeat' first
    | with_reducible assumption
    | with_reducible apply State.emptied_keeps
    | with_reducible apply State.startMoves_keeps
    | with_reducible refine Keeps.ite ?_ ?_

theorem execGcStep_keeps {s0 s : State} (h : Keeps s0 s) (a1 a2 a3 a4) : KeepsR s0 (execGcStep a1 a2 a3 a4 s) := by
  unfold execGcStep
  repeat' first
    | with_reducible assumption
    | (extract_lets +onlyGivenNames x
       first
         | (refine (fun (hx : Keeps s0 x) => ?_) ?_; clear_value x; revert x; intro y hy; rotate_left; subst x)
         | (clear_value x; revert x; intro y))
    | with_reducible apply State.landMoves_keeps
    | with_reducible apply State.emptyBlock_keeps
    | with_reducible apply KeepsR.next
    | with_reducible apply KeepsR.fault
    | split

theorem State.placeRuns_keeps {s0 s : State} (h : Keeps s0 s) (a1 a2 a3) : KeepsOP s0 (State.placeRuns s a1 a2 a3) := by
  induction a3 generalizing s with
  | nil =>
    unfold State.placeRuns
    repeat' first
      | with_reducible assumption
      | with_reducible apply KeepsOP.some
  | cons c l ih =>
    unfold State.placeRuns
    repeat' first
      | with_reducible assumption
      | with_reducible refine Keeps.of2 ‹_› ?_
      | with_reducible apply State.placeMore_keeps
      | with_reducible apply KeepsOP.none
      | with_reducible refine KeepsOP.mapP ?_ (fun t ht => ?_)
      | with_reducible apply ih
      | split

theorem State.placeSparse_keeps {s0 s : State} (h : Keeps s0 s) (a1 a2 a3) : KeepsOP s0 (State.placeSparse s a1 a2 a3) := by
  induction a3 generalizing s with
  | nil =>
    unfold State.placeSparse
    repeat' first
      | with_reducible assumption
      | with_reducible apply KeepsOP.some
  | cons c l ih =>
    unfold State.placeSparse
    repeat' first
      | with_reducible assumption
      | with_reducible refine Keeps.ofOP ‹_› ?_
      | with_reducible apply State.packExtent_keeps
      | with_reducible apply KeepsOP.none
      | with_reducible refine KeepsOP.mapP ?_ (fun t ht => ?_)
      | with_reducible apply ih
      | split

theorem State.followRepack_keeps {s0 s : State} (h : Keeps s0 s) (a1 a2) : Keeps s0 (State.followRepack s a1 a2) := by
  unfold State.followRepack
  repeat' first
    | with_reducible assumption
    | (extract_lets +onlyGivenNames x
       first
         | (let z : _ → _ := x; clear z; subst x)
         | ((let z : Cqc := x; clear z); revert x; intro y))
    | dsimp only
    | (with_reducible apply Keeps.upd
       with_reducible exact rfl
       first
         | with_reducible exact rfl
         | simp +zetaDelta [State.kept])

theorem Keeps.repacks {s t : State} (h : Keeps s t) (l : List Repack) : Keeps s { t with plc.repacks := l } := h.eq rfl

theorem State.beginRepack_keeps {s0 s : State} (h : Keeps s0 s) (a1) : Keeps s0 (State.beginRepack s a1) := by
  unfold State.beginRepack
  extract_lets c placed
  have hp : KeepsOP s0 placed := by
    unfold placed
    split
    · exact State.placeRuns_keeps h _ _ _
    · split
      · exact State.placeSparse_keeps h _ _ _
      · exact KeepsOP.none
  clear_value placed
  split
  · exact h
  · rename_i l s1
    have h1 : Keeps s0 s1 := hp _ _ rfl
    exact State.bump_keeps (State.bump_keeps ((State.crypt_keeps (State.fetchParts_keeps h1 ..) ..).repacks _) ..) ..

theorem State.endRepack_keeps {s0 s : State} (h : Keeps s0 s) (a1) : Keeps s0 (State.endRepack s a1) := by
  unfold State.endRepack
  repeat' first
    | with_reducible assumption
    | (extract_lets +onlyGivenNames x
       first
         | (refine (fun (hx : Keeps s0 x) => ?_) ?_; clear_value x; revert x; intro y hy; rotate_left; subst x)
         | ((first | (let z : Plc := x; clear z) | clear_value x); revert x; intro y))
    | with_reducible apply State.releaseStripes_keeps
    | with_reducible apply State.relocate_keeps
    | with_reducible apply State.followRepack_keeps
    | with_reducible apply State.mapKey_keeps
    | with_reducible apply State.reseatMap_keeps
    | with_reducible apply State.mapStripe_keeps
    | with_reducible refine Keeps.foldl (fun t x ht => ?_) ?_
    | split
    | (with_reducible apply Keeps.upd
       with_reducible exact rfl
       first
         | with_reducible exact rfl
         | simp +zetaDelta [State.kept])

theorem execRepack_keeps {s0 s : State} (h : Keeps s0 s) (a1 a2) : KeepsR s0 (execRepack a1 a2 s) := by
  unfold execRepack
  repeat' first
    | with_reducible assumption
    | with_reducible apply State.awaitJournal_keeps
    | with_reducible apply State.endRepack_keeps
    | with_reducible apply State.beginRepack_keeps
    | with_reducible apply KeepsR.next
    | split

theorem State.writeRoots_keeps {s0 s : State} (h : Keeps s0 s) : Keeps s0 (State.writeRoots s) := by
  unfold State.writeRoots
  repeat' first
    | with_reducible assumption
    | (extract_lets +onlyGivenNames x
       first
         | (refine (fun (hx : Keeps s0 x) => ?_) ?_; clear_value x; revert x; intro y hy; rotate_left; subst x)
         | ((let z : Plc := x; clear z); revert x; intro y))
    | with_reducible apply State.journalAppend_keeps
    | (with_reducible apply Keeps.upd
       with_reducible exact rfl
       first
         | with_reducible exact rfl
         | simp +zetaDelta [State.kept])

theorem State.writeMetadata_keeps {s0 s : State} (h : Keeps s0 s) : KeepsO s0 (State.writeMetadata s) := by
  unfold State.writeMetadata
  extract_lets l
  split
  · exact KeepsO.none
  · intro t e
    obtain ⟨p, hp, rfl⟩ := Option.map_eq_some_iff.mp e
    obtain ⟨id, u⟩ := p
    exact Keeps.foldl (fun t x ht => State.mapPage_keeps ht ..) (State.buildStripe_keeps h _ _ _ _ _ _ _ hp)

theorem State.trimJournal_keeps {s0 s : State} (h : Keeps s0 s) : Keeps s0 (State.trimJournal s) := by
  unfold State.trimJournal
  repeat' first
    | with_reducible assumption
    | (extract_lets +onlyGivenNames x
       first
         | (refine (fun (hx : Keeps s0 x) => ?_) ?_; clear_value x; revert x; intro y hy; rotate_left; subst x)
         | ((let z : Plc := x; clear z); revert x; intro y))
    | with_reducible apply State.releaseFlush_keeps
    | with_reducible apply State.voidPlaces_keeps
    | (with_reducible apply Keeps.upd
       with_reducible exact rfl
       first
         | with_reducible exact rfl
         | simp +zetaDelta [State.kept])

theorem execJournalTrim_keeps {s0 s : State} (h : Keeps s0 s) : KeepsR s0 (execJournalTrim s) := by
  unfold execJournalTrim
  repeat' first
    | with_reducible assumption
    | (extract_lets +onlyGivenNames x; refine (fun (hx : Keeps s0 x) => ?_) ?_; clear_value x; revert x; intro y hy; rotate_left; subst x)
    | with_reducible refine Keeps.ofO ‹_› ?_
    | with_reducible apply State.writeMetadata_keeps
    | with_reducible apply State.landMoves_keeps
    | with_reducible apply State.trimJournal_keeps
    | with_reducible apply State.releaseStripes_keeps
    | with_reducible apply State.writeRoots_keeps
    | with_reducible apply State.awaitJournal_keeps
    | with_reducible apply KeepsR.next
    | split

theorem State.seatRebuilt_keeps {s0 s : State} (h : Keeps s0 s) (a1 a2 a3 a4 a5 a6) : Keeps s0 (State.seatRebuilt s a1 a2 a3 a4 a5 a6) := by
  unfold State.seatRebuilt
  repeat' first
    | with_reducible assumption
    | (extract_lets +onlyGivenNames x
       first
         | (refine (fun (hx : Keeps s0 x) => ?_) ?_; clear_value x; revert x; intro y hy; rotate_left; subst x)
         | ((first | (let z : Plc := x; clear z) | clear_value x); revert x; intro y))
    | with_reducible apply State.takeSlot_keeps
    | with_reducible apply State.sendShard_keeps
    | with_reducible apply State.mapShard_keeps
    | (with_reducible apply Keeps.upd
       with_reducible exact rfl
       first
         | with_reducible exact rfl
         | simp +zetaDelta [State.kept])

theorem KeepsO.mapS {α} {s : State} {o : Option α} {f : α → State} (hf : ∀ a, Keeps s (f a)) : KeepsO s (o.map f) := by
  intro t e
  obtain ⟨a, -, rfl⟩ := Option.map_eq_some_iff.mp e
  exact hf a

theorem State.rebuildShard_keeps {s0 s : State} (h : Keeps s0 s) (a1 a2 a3) : KeepsO s0 (State.rebuildShard s a1 a2 a3) := by
  unfold State.rebuildShard
  split
  · exact KeepsO.some h
  · split
    · exact KeepsO.some h
    · exact KeepsO.mapS fun e => State.seatRebuilt_keeps h _ _ _ _ _ _

theorem State.rebuildShards_keeps {s0 s : State} (h : Keeps s0 s) (a1 a2 a3) : KeepsO s0 (State.rebuildShards s a1 a2 a3) := by
  induction a3 generalizing s with
  | nil =>
    unfold State.rebuildShards
    repeat' first
      | with_reducible assumption
      | with_reducible apply KeepsO.some
  | cons c l ih =>
    unfold State.rebuildShards
    repeat' first
      | with_reducible assumption
      | with_reducible refine Keeps.ofO ‹_› ?_
      | with_reducible apply State.rebuildShard_keeps
      | with_reducible apply KeepsO.none
      | with_reducible apply ih
      | split

theorem execRebuildStripe_keeps {s0 s : State} (h : Keeps s0 s) (a1) : KeepsR s0 (execRebuildStripe a1 s) := by
  unfold execRebuildStripe
  repeat' first
    | with_reducible assumption
    | (extract_lets +onlyGivenNames x
       first
         | (refine (fun (hx : Keeps s0 x) => ?_) ?_; clear_value x; revert x; intro y hy; rotate_left; subst x)
         | (let z : _ → _ := x; clear z; subst x)
         | ((first | (let z : Plc := x; clear z) | clear_value x); revert x; intro y))
    | with_reducible refine Keeps.ofO ‹_› ?_
    | with_reducible apply State.rebuildShards_keeps
    | with_reducible apply State.awaitJournal_keeps
    | with_reducible apply State.queueRead_keeps
    | with_reducible apply State.enterCharcoal_keeps
    | with_reducible apply State.mapStripe_keeps
    | with_reducible apply State.checkCharcoal_keeps
    | with_reducible apply State.relocateStripe_keeps
    | with_reducible apply KeepsR.next
    | with_reducible refine Keeps.foldl (fun t x ht => ?_) ?_
    | split
    | (with_reducible apply Keeps.upd
       with_reducible exact rfl
       first
         | with_reducible exact rfl
         | simp +zetaDelta [State.kept])

theorem execReserveRefill_keeps {s0 s : State} (h : Keeps s0 s) (a1) : KeepsR s0 (execReserveRefill a1 s) := by
  unfold execReserveRefill
  repeat' first
    | with_reducible assumption
    | (extract_lets +onlyGivenNames x; (first | (let z : Plc := x; clear z) | clear_value x); revert x; intro y)
    | with_reducible apply KeepsR.next
    | split
    | (with_reducible apply Keeps.upd
       with_reducible exact rfl
       first
         | with_reducible exact rfl
         | simp +zetaDelta [State.kept])

theorem State.loseSpare_keeps {s0 s : State} (h : Keeps s0 s) (a1) : Keeps s0 (State.loseSpare s a1) := by
  unfold State.loseSpare
  repeat' first
    | with_reducible assumption
    | (extract_lets +onlyGivenNames x
       first
         | (refine (fun (hx : Keeps s0 x) => ?_) ?_; clear_value x; revert x; intro y hy; rotate_left; subst x)
         | (clear_value x; revert x; intro y))
    | with_reducible apply State.mapTile_keeps
    | with_reducible apply State.checkCharcoal_keeps
    | with_reducible apply State.raise_keeps
    | with_reducible refine Keeps.ite ?_ ?_

theorem State.blockOut_keeps {s0 s : State} (h : Keeps s0 s) (a1 a2 a3 a4 a5 a6) : Keeps s0 (State.blockOut s a1 a2 a3 a4 a5 a6) := by
  unfold State.blockOut
  repeat' first
    | with_reducible assumption
    | (extract_lets +onlyGivenNames x
       first
         | (refine (fun (hx : Keeps s0 x) => ?_) ?_; clear_value x; revert x; intro y hy; rotate_left; subst x)
         | (clear_value x; revert x; intro y))
    | with_reducible apply State.mapTile_keeps
    | with_reducible apply State.bump_keeps
    | with_reducible apply State.loseSpare_keeps
    | with_reducible refine Keeps.ite ?_ ?_

theorem State.startLongOp_keeps {s0 s : State} (h : Keeps s0 s) (a1 a2 a3 a4) : Keeps s0 (State.startLongOp s a1 a2 a3 a4) := by
  unfold State.startLongOp
  repeat' first
    | with_reducible assumption
    | (extract_lets +onlyGivenNames x; (first | (let z : Plc := x; clear z) | clear_value x); revert x; intro y)
    | with_reducible apply State.raise_keeps
    | (with_reducible apply Keeps.upd
       with_reducible exact rfl
       first
         | with_reducible exact rfl
         | simp +zetaDelta [State.kept])

theorem State.reclaim_keeps {s0 s : State} (h : Keeps s0 s) (a1) : Keeps s0 (State.reclaim s a1) := by
  unfold State.reclaim
  repeat' first
    | with_reducible assumption
    | (extract_lets +onlyGivenNames x
       first
         | (refine (fun (hx : Keeps s0 x) => ?_) ?_; clear_value x; revert x; intro y hy; rotate_left; subst x)
         | ((first | (let z : Plc := x; clear z) | (let z : Asu := x; clear z) | clear_value x); revert x; intro y))
    | with_reducible apply State.releaseStripes_keeps
    | with_reducible apply State.fitChains_keeps
    | (with_reducible apply Keeps.upd
       with_reducible exact rfl
       first
         | with_reducible exact rfl
         | simp +zetaDelta [State.kept])

theorem State.wipe_keeps {s0 s : State} (h : Keeps s0 s) : Keeps s0 (State.wipe s) := by
  unfold State.wipe
  repeat' first
    | with_reducible assumption
    | (extract_lets +onlyGivenNames x; (first | (let z : Plc := x; clear z) | (let z : Asu := x; clear z) | clear_value x); revert x; intro y)
    | with_reducible apply State.putNum_keeps
    | (with_reducible apply Keeps.upd
       with_reducible exact rfl
       first
         | with_reducible exact rfl
         | simp +zetaDelta [State.kept])

theorem State.mapRegionBlocks_keeps {s0 s : State} (h : Keeps s0 s) (a1) : Keeps s0 (State.mapRegionBlocks s a1) := by
  unfold State.mapRegionBlocks
  repeat' first
    | with_reducible assumption
    | (extract_lets +onlyGivenNames x; (let z : Mta := x; clear z); revert x; intro y)
    | (with_reducible apply Keeps.upd
       with_reducible exact rfl
       first
         | with_reducible exact rfl
         | simp +zetaDelta [State.kept])

theorem State.eraseRegions_keeps {s0 s : State} (h : Keeps s0 s) : Keeps s0 (State.eraseRegions s) := by
  unfold State.eraseRegions
  repeat' first
    | with_reducible assumption
    | (extract_lets +onlyGivenNames x
       first
         | (refine (fun (hx : Keeps s0 x) => ?_) ?_; clear_value x; revert x; intro y hy; rotate_left; subst x)
         | ((first | (let z : Plc := x; clear z) | (let z : Mta := x; clear z)); revert x; intro y))
    | with_reducible apply State.mapRegionBlocks_keeps
    | (with_reducible apply Keeps.upd
       with_reducible exact rfl
       first
         | with_reducible exact rfl
         | simp +zetaDelta [State.kept])

theorem State.endPhase_keeps {s0 s : State} (h : Keeps s0 s) (a1) : Keeps s0 (State.endPhase s a1) := by
  unfold State.endPhase
  repeat' first
    | with_reducible assumption
    | with_reducible apply State.reclaim_keeps
    | with_reducible apply State.wipe_keeps
    | with_reducible apply State.mapRegionBlocks_keeps
    | with_reducible apply State.eraseRegions_keeps
    | with_reducible refine Keeps.ite ?_ ?_

theorem State.endSanitize_keeps {s0 s : State} (h : Keeps s0 s) : Keeps s0 (State.endSanitize s) := by
  unfold State.endSanitize
  repeat' first
    | with_reducible assumption
    | (extract_lets +onlyGivenNames x
       first
         | (refine (fun (hx : Keeps s0 x) => ?_) ?_; clear_value x; revert x; intro y hy; rotate_left; subst x)
         | ((first | (let z : Asu := x; clear z) | (let z : Pae := x; clear z) | (let z : Cqc := x; clear z) | clear_value x); revert x; intro y))
    | with_reducible refine Keeps.of2 ‹_› ?_
    | with_reducible apply State.takeDraw_keeps
    | with_reducible apply State.checkValue_keeps
    | with_reducible apply State.endSessions_keeps
    | split
    | (with_reducible apply Keeps.upd
       with_reducible exact rfl
       first
         | with_reducible exact rfl
         | simp +zetaDelta [State.kept])

theorem State.milestone_keeps {s0 s : State} (h : Keeps s0 s) (a1) : Keeps s0 (State.milestone s a1) := by
  unfold State.milestone
  repeat' first
    | with_reducible assumption
    | with_reducible apply State.journalAppend_keeps

theorem State.retireFailing_keeps {s0 s : State} (h : Keeps s0 s) (a1) : Keeps s0 (State.retireFailing s a1) := by
  unfold State.retireFailing
  repeat' first
    | with_reducible assumption
    | with_reducible apply State.blockOut_keeps
    | with_reducible refine Keeps.ite ?_ ?_
    | with_reducible refine Keeps.foldl (fun t x ht => ?_) ?_

theorem State.endLongOp_keeps {s0 s : State} (h : Keeps s0 s) (a1) : Keeps s0 (State.endLongOp s a1) := by
  unfold State.endLongOp
  repeat' first
    | with_reducible assumption
    | (extract_lets +onlyGivenNames x
       first
         | (refine (fun (hx : Keeps s0 x) => ?_) ?_; clear_value x; revert x; intro y hy; rotate_left; subst x)
         | ((first | (let z : Plc := x; clear z) | clear_value x); revert x; intro y))
    | with_reducible apply State.putNum_keeps
    | with_reducible apply State.readyActive_keeps
    | with_reducible apply State.raise_keeps
    | (with_reducible apply Keeps.upd
       with_reducible exact rfl
       first
         | with_reducible exact rfl
         | simp +zetaDelta [State.kept])

theorem State.longStep_keeps {s0 s : State} (h : Keeps s0 s) (a1 a2) : Keeps s0 (State.longStep s a1 a2) := by
  unfold State.longStep
  repeat' first
    | with_reducible assumption
    | (extract_lets +onlyGivenNames x
       first
         | (refine (fun (hx : Keeps s0 x) => ?_) ?_; clear_value x; revert x; intro y hy; rotate_left; subst x)
         | ((first | (let z : Plc := x; clear z) | clear_value x); revert x; intro y))
    | with_reducible apply State.retireFailing_keeps
    | with_reducible apply State.milestone_keeps
    | with_reducible apply State.endPhase_keeps
    | with_reducible apply State.endSanitize_keeps
    | with_reducible apply State.endLongOp_keeps
    | with_reducible refine Keeps.ite ?_ ?_
    | (with_reducible apply Keeps.upd
       with_reducible exact rfl
       first
         | with_reducible exact rfl
         | simp +zetaDelta [State.kept])

theorem execLongOpStep_keeps {s0 s : State} (h : Keeps s0 s) (a1) : KeepsR s0 (execLongOpStep a1 s) := by
  unfold execLongOpStep
  repeat' first
    | with_reducible assumption
    | (extract_lets +onlyGivenNames x; (let z : Plc := x; clear z); revert x; intro y)
    | with_reducible apply State.awaitJournal_keeps
    | with_reducible apply State.longStep_keeps
    | with_reducible apply State.startLongOp_keeps
    | with_reducible apply KeepsR.next
    | split
    | (with_reducible apply Keeps.upd
       with_reducible exact rfl
       first
         | with_reducible exact rfl
         | simp +zetaDelta [State.kept])

theorem execFlushVerify_keeps {s0 s : State} (h : Keeps s0 s) (a1 a2) : KeepsR s0 (execFlushVerify a1 a2 s) := by
  unfold execFlushVerify
  repeat' first
    | with_reducible assumption
    | (extract_lets +onlyGivenNames x
       first
         | (refine (fun (hx : Keeps s0 x) => ?_) ?_; clear_value x; revert x; intro y hy; rotate_left; subst x)
         | ((let z : Plc := x; clear z); revert x; intro y))
    | with_reducible apply State.loseStripe_keeps
    | with_reducible apply State.settleStripe_keeps
    | with_reducible apply State.mapStripe_keeps
    | with_reducible apply KeepsR.next
    | split
    | (with_reducible apply Keeps.upd
       with_reducible exact rfl
       first
         | with_reducible exact rfl
         | simp +zetaDelta [State.kept])

end Sys2Proof.Machine
end

