-- ==== Sys2Proof/Laws/KeepsTiles.lean ====
section
/-!
SUPPORT. Every operation and command of Machine/Tiles.lean keeps what `Keeps` says.
-/
namespace Sys2Proof.Machine

theorem State.failShard_keeps {s0 s : State} (h : Keeps s0 s) (a1 a2) : Keeps s0 (State.failShard s a1 a2) := by
  unfold State.failShard
  repeat' first
    | with_reducible assumption
    | with_reducible apply State.mapShard_keeps

theorem State.programLost_keeps {s0 s : State} (h : Keeps s0 s) (a1 a2 a3 a4 a5 a6 a7) : Keeps s0 (State.programLost s a1 a2 a3 a4 a5 a6 a7) := by
  unfold State.programLost
  repeat' first
    | with_reducible assumption
    | with_reducible apply State.dropMoves_keeps
    | with_reducible apply State.failShard_keeps
    | split

theorem State.refuseProgram_keeps {s0 s : State} (h : Keeps s0 s) (a1 a2 a3 a4 a5 a6 a7) : Keeps s0 (State.refuseProgram s a1 a2 a3 a4 a5 a6 a7) := by
  unfold State.refuseProgram
  repeat' first
    | with_reducible assumption
    | (extract_lets +onlyGivenNames x
       first
         | (refine (fun (hx : Keeps s0 x) => ?_) ?_; clear_value x; revert x; intro y hy; rotate_left; subst x)
         | (clear_value x; revert x; intro y))
    | with_reducible apply State.raise_keeps
    | with_reducible apply State.bump_keeps
    | with_reducible apply State.blockOut_keeps
    | with_reducible apply State.programLost_keeps

theorem State.begin__keeps {s0 s : State} (h : Keeps s0 s) (a1 a2 a3) : Keeps s0 (State.begin_ s a1 a2 a3) := by
  unfold State.begin_
  repeat' first
    | with_reducible assumption
    | (extract_lets +onlyGivenNames x; refine (fun (hx : Keeps s0 x) => ?_) ?_; clear_value x; revert x; intro y hy; rotate_left; subst x)
    | with_reducible apply State.traced_keeps
    | with_reducible apply State.mapTile_keeps
    | with_reducible apply State.refuseProgram_keeps
    | with_reducible refine Keeps.ite ?_ ?_
    | split

theorem State.startFree_keeps {s0 s : State} (h : Keeps s0 s) (a1 a2) : Keeps s0 (State.startFree s a1 a2) := by
  unfold State.startFree
  repeat' first
    | with_reducible assumption
    | (extract_lets +onlyGivenNames x; let z : _ → _ := x; clear z; subst x)
    | with_reducible apply State.mapTile_keeps
    | with_reducible apply State.begin__keeps
    | with_reducible refine Keeps.ite ?_ ?_
    | split

theorem State.interrupt_keeps {s0 s : State} (h : Keeps s0 s) (a1 a2 a3 a4 a5 a6 a7) : Keeps s0 (State.interrupt s a1 a2 a3 a4 a5 a6 a7) := by
  unfold State.interrupt
  repeat' first
    | with_reducible assumption
    | (extract_lets +onlyGivenNames x; clear_value x; revert x; intro y)
    | with_reducible apply State.begin__keeps
    | with_reducible refine Keeps.ite ?_ ?_

theorem execDieOpStart_keeps {s0 s : State} (h : Keeps s0 s) (a1 a2 a3) : KeepsR s0 (execDieOpStart a1 a2 a3 s) := by
  unfold execDieOpStart
  repeat' first
    | with_reducible assumption
    | (extract_lets +onlyGivenNames x; clear_value x; revert x; intro y)
    | with_reducible apply State.startFree_keeps
    | with_reducible apply State.interrupt_keeps
    | with_reducible apply KeepsR.next
    | with_reducible apply KeepsR.fault
    | split

theorem State.countRead_keeps {s0 s : State} (h : Keeps s0 s) (a1 a2 a3) : Keeps s0 (State.countRead s a1 a2 a3) := by
  unfold State.countRead
  repeat' first
    | with_reducible assumption
    | (extract_lets +onlyGivenNames x
       first
         | (refine (fun (hx : Keeps s0 x) => ?_) ?_; clear_value x; revert x; intro y hy; rotate_left; subst x)
         | (let z : _ → _ := x; clear z; subst x)
         | (clear_value x; revert x; intro y))
    | with_reducible apply State.bump_keeps

theorem State.badShard_keeps {s0 s : State} (h : Keeps s0 s) (a1 a2 a3) : Keeps s0 (State.badShard s a1 a2 a3) := by
  unfold State.badShard
  repeat' first
    | with_reducible assumption
    | (extract_lets +onlyGivenNames x
       first
         | (refine (fun (hx : Keeps s0 x) => ?_) ?_; clear_value x; revert x; intro y hy; rotate_left; subst x)
         | (clear_value x; revert x; intro y))
    | with_reducible apply State.failShard_keeps
    | with_reducible apply State.loseStripe_keeps
    | with_reducible apply State.degradeReads_keeps
    | with_reducible apply State.mapStripe_keeps
    | with_reducible refine Keeps.ite ?_ ?_
    | split

theorem State.bringData_keeps {s0 s : State} (h : Keeps s0 s) (a1 a2 a3 a4 a5 a6) : Keeps s0 (State.bringData s a1 a2 a3 a4 a5 a6) := by
  unfold State.bringData
  repeat' first
    | with_reducible assumption
    | with_reducible apply State.transfer_keeps
    | with_reducible apply State.crypt_keeps
    | with_reducible refine Keeps.ite ?_ ?_
    | split

theorem State.readEnds_keeps {s0 s : State} (h : Keeps s0 s) (a1 a2 a3 a4 a5 a6 a7 a8 a9 a10 a11) : Keeps s0 (State.readEnds s a1 a2 a3 a4 a5 a6 a7 a8 a9 a10 a11) := by
  unfold State.readEnds
  repeat' first
    | with_reducible assumption
    | (extract_lets +onlyGivenNames x
       first
         | (refine (fun (hx : Keeps s0 x) => ?_) ?_; clear_value x; revert x; intro y hy; rotate_left; subst x)
         | (clear_value x; revert x; intro y))
    | with_reducible apply State.badShard_keeps
    | with_reducible apply State.readAround_keeps
    | with_reducible apply State.bump_keeps
    | with_reducible apply State.bringData_keeps
    | with_reducible refine Keeps.ite ?_ ?_
    | split

theorem State.placeAgain_keeps {s0 s : State} (h : Keeps s0 s) (a1 a2 a3) : Keeps s0 (State.placeAgain s a1 a2 a3) := by
  unfold State.placeAgain
  repeat' first
    | with_reducible assumption
    | (extract_lets +onlyGivenNames x; refine (fun (hx : Keeps s0 x) => ?_) ?_; clear_value x; revert x; intro y hy; rotate_left; subst x)
    | with_reducible apply State.bump_keeps
    | with_reducible apply State.addMove_keeps
    | with_reducible apply State.programMove_keeps
    | with_reducible apply State.failShard_keeps
    | with_reducible refine Keeps.ite ?_ ?_
    | split

theorem State.backgroundEnds_keeps {s0 s : State} (h : Keeps s0 s) (a1 a2 a3 a4 a5 a6) : Keeps s0 (State.backgroundEnds s a1 a2 a3 a4 a5 a6) := by
  unfold State.backgroundEnds
  repeat' first
    | with_reducible assumption
    | (extract_lets +onlyGivenNames x
       first
         | (refine (fun (hx : Keeps s0 x) => ?_) ?_; clear_value x; revert x; intro y hy; rotate_left; subst x)
         | ((first | (let z : Plc := x; clear z) | clear_value x); revert x; intro y))
    | with_reducible apply State.dropMoves_keeps
    | with_reducible apply State.badShard_keeps
    | with_reducible apply State.bump_keeps
    | with_reducible apply State.programMove_keeps
    | with_reducible apply State.placeAgain_keeps
    | with_reducible refine Keeps.ite ?_ ?_
    | split
    | (with_reducible apply Keeps.upd
       with_reducible exact rfl
       first
         | with_reducible exact rfl
         | simp +zetaDelta [State.kept])

theorem State.sensed_keeps {s0 s : State} (h : Keeps s0 s) (a1 a2 a3 a4 a5) : Keeps s0 (State.sensed s a1 a2 a3 a4 a5) := by
  unfold State.sensed
  repeat' first
    | with_reducible assumption
    | (extract_lets +onlyGivenNames x
       first
         | (refine (fun (hx : Keeps s0 x) => ?_) ?_; clear_value x; revert x; intro y hy; rotate_left; subst x)
         | (clear_value x; revert x; intro y))
    | with_reducible apply State.countRead_keeps
    | with_reducible apply State.mapTile_keeps

theorem State.sensedRead_keeps {s0 s : State} (h : Keeps s0 s) (a1 a2 a3 a4 a5) : Keeps s0 (State.sensedRead s a1 a2 a3 a4 a5) :=
  State.traced_keeps (State.sensed_keeps h ..) ..

theorem execReadDone_keeps {s0 s : State} (h : Keeps s0 s) (a1 a2 a3 a4) : KeepsR s0 (execReadDone a1 a2 a3 a4 s) := by
  unfold execReadDone
  repeat' first
    | with_reducible assumption
    | (extract_lets +onlyGivenNames x
       first
         | (refine (fun (hx : Keeps s0 x) => ?_) ?_; clear_value x; revert x; intro y hy; rotate_left; subst x)
         | (clear_value x; revert x; intro y))
    | with_reducible apply State.mapTile_keeps
    | with_reducible apply State.sensedRead_keeps
    | with_reducible apply State.readEnds_keeps
    | with_reducible apply State.backgroundEnds_keeps
    | with_reducible apply KeepsR.next
    | with_reducible apply KeepsR.fault
    | split

theorem State.rowProgrammed_keeps {s0 s : State} (h : Keeps s0 s) (a1 a2 a3 a4) : Keeps s0 (State.rowProgrammed s a1 a2 a3 a4) := by
  unfold State.rowProgrammed
  repeat' first
    | with_reducible assumption
    | with_reducible apply State.mapTile_keeps

theorem execProgramDone_keeps {s0 s : State} (h : Keeps s0 s) (a1 a2 a3) : KeepsR s0 (execProgramDone a1 a2 a3 s) := by
  unfold execProgramDone
  repeat' first
    | with_reducible assumption
    | (extract_lets +onlyGivenNames x
       first
         | (refine (fun (hx : Keeps s0 x) => ?_) ?_; clear_value x; revert x; intro y hy; rotate_left; subst x)
         | (clear_value x; revert x; intro y))
    | with_reducible apply State.mapTile_keeps
    | with_reducible apply State.rowProgrammed_keeps
    | with_reducible apply State.landMove_keeps
    | with_reducible apply KeepsR.next
    | with_reducible apply KeepsR.fault
    | split

theorem execProgramFailed_keeps {s0 s : State} (h : Keeps s0 s) (a1 a2 a3) : KeepsR s0 (execProgramFailed a1 a2 a3 s) := by
  unfold execProgramFailed
  repeat' first
    | with_reducible assumption
    | (extract_lets +onlyGivenNames x
       first
         | (let z : _ → _ := x; clear z; subst x)
         | (clear_value x; revert x; intro y))
    | with_reducible apply State.mapTile_keeps
    | with_reducible apply State.raise_keeps
    | with_reducible apply State.bump_keeps
    | with_reducible apply State.blockOut_keeps
    | with_reducible apply State.programLost_keeps
    | with_reducible apply KeepsR.next
    | with_reducible apply KeepsR.fault
    | split

theorem State.freeSlots_keeps {s0 s : State} (h : Keeps s0 s) (a1 a2 a3 a4) : Keeps s0 (State.freeSlots s a1 a2 a3 a4) := by
  unfold State.freeSlots
  repeat' first
    | with_reducible assumption
    | (extract_lets +onlyGivenNames x
       first
         | (let z : _ → _ := x; clear z; subst x)
         | ((first | (let z : Plc := x; clear z) | clear_value x); revert x; intro y))
    | dsimp only
    | (with_reducible apply Keeps.upd
       with_reducible exact rfl
       first
         | with_reducible exact rfl
         | simp +zetaDelta [State.kept])

theorem execEraseDone_keeps {s0 s : State} (h : Keeps s0 s) (a1 a2 a3 a4) : KeepsR s0 (execEraseDone a1 a2 a3 a4 s) := by
  unfold execEraseDone
  repeat' first
    | with_reducible assumption
    | (extract_lets +onlyGivenNames x
       first
         | (refine (fun (hx : Keeps s0 x) => ?_) ?_; clear_value x; revert x; intro y hy; rotate_left; subst x)
         | (clear_value x; revert x; intro y))
    | with_reducible apply State.mapTile_keeps
    | with_reducible apply State.freeSlots_keeps
    | with_reducible apply State.raise_keeps
    | with_reducible apply State.bump_keeps
    | with_reducible apply State.blockOut_keeps
    | with_reducible apply KeepsR.next
    | with_reducible apply KeepsR.fault
    | split

theorem State.failPage_keeps {s0 s : State} (h : Keeps s0 s) (a1 a2 a3 a4) : Keeps s0 (State.failPage s a1 a2 a3 a4) := by
  unfold State.failPage
  repeat' first
    | with_reducible assumption
    | (extract_lets +onlyGivenNames x; refine (fun (hx : Keeps s0 x) => ?_) ?_; clear_value x; revert x; intro y hy; rotate_left; subst x)
    | with_reducible apply State.blockOut_keeps
    | with_reducible apply State.bump_keeps
    | with_reducible apply State.placeAgain_keeps
    | with_reducible refine Keeps.ite ?_ ?_
    | split

theorem execRowVerify_keeps {s0 s : State} (h : Keeps s0 s) (a1 a2 a3 a4 a5 a6) : KeepsR s0 (execRowVerify a1 a2 a3 a4 a5 a6 s) := by
  unfold execRowVerify
  repeat' first
    | with_reducible assumption
    | (extract_lets +onlyGivenNames x
       first
         | (refine (fun (hx : Keeps s0 x) => ?_) ?_; clear_value x; revert x; intro y hy; rotate_left; subst x)
         | (clear_value x; revert x; intro y))
    | with_reducible apply State.sensed_keeps
    | with_reducible apply State.mapTile_keeps
    | with_reducible apply State.raise_keeps
    | with_reducible apply State.bump_keeps
    | with_reducible apply State.failPage_keeps
    | with_reducible apply KeepsR.next
    | with_reducible apply KeepsR.fault
    | with_reducible refine Keeps.foldl (fun t x ht => ?_) ?_
    | split

theorem execRewrite_keeps {s0 s : State} (h : Keeps s0 s) (a1 a2 a3 a4) : KeepsR s0 (execRewrite a1 a2 a3 a4 s) := by
  unfold execRewrite
  repeat' first
    | with_reducible assumption
    | (extract_lets +onlyGivenNames x
       first
         | (refine (fun (hx : Keeps s0 x) => ?_) ?_; clear_value x; revert x; intro y hy; rotate_left; subst x)
         | (clear_value x; revert x; intro y))
    | with_reducible apply State.landMoves_keeps
    | with_reducible apply State.emptyBlock_keeps
    | with_reducible apply KeepsR.next
    | with_reducible apply KeepsR.fault
    | split

theorem execDieTempSample_keeps {s0 s : State} (h : Keeps s0 s) (a1 a2 a3 a4 a5) : KeepsR s0 (execDieTempSample a1 a2 a3 a4 a5 s) := by
  unfold execDieTempSample
  repeat' first
    | with_reducible assumption
    | (extract_lets +onlyGivenNames x
       first
         | (refine (fun (hx : Keeps s0 x) => ?_) ?_; clear_value x; revert x; intro y hy; rotate_left; subst x)
         | (clear_value x; revert x; intro y))
    | with_reducible apply State.raise_keeps
    | with_reducible apply State.putNum_keeps
    | with_reducible apply State.mapTile_keeps
    | with_reducible apply KeepsR.next
    | with_reducible apply KeepsR.fault
    | split

theorem execTileEmberIdle_keeps {s0 s : State} (h : Keeps s0 s) (a1) : KeepsR s0 (execTileEmberIdle a1 s) := by
  unfold execTileEmberIdle
  repeat' first
    | with_reducible assumption
    | (extract_lets +onlyGivenNames x; clear_value x; revert x; intro y)
    | with_reducible apply State.mapTile_keeps
    | with_reducible apply KeepsR.next
    | with_reducible apply KeepsR.fault
    | split

theorem execTilePeatIdle_keeps {s0 s : State} (h : Keeps s0 s) (a1) : KeepsR s0 (execTilePeatIdle a1 s) := by
  unfold execTilePeatIdle
  repeat' first
    | with_reducible assumption
    | (extract_lets +onlyGivenNames x; clear_value x; revert x; intro y)
    | with_reducible apply State.mapTile_keeps
    | with_reducible apply KeepsR.next
    | with_reducible apply KeepsR.fault
    | split

theorem State.wakeTile_keeps {s0 s : State} (h : Keeps s0 s) (a1) : Keeps s0 (State.wakeTile s a1) := by
  unfold State.wakeTile
  repeat' first
    | with_reducible assumption
    | (extract_lets +onlyGivenNames x; clear_value x; revert x; intro y)
    | with_reducible apply State.bump_keeps
    | with_reducible apply State.mapTile_keeps
    | with_reducible refine Keeps.ite ?_ ?_

theorem execTileWake_keeps {s0 s : State} (h : Keeps s0 s) (a1) : KeepsR s0 (execTileWake a1 s) := by
  unfold execTileWake
  repeat' first
    | with_reducible assumption
    | with_reducible apply State.wakeTile_keeps
    | with_reducible apply KeepsR.next
    | with_reducible apply KeepsR.fault
    | split

theorem execTileFault_keeps {s0 s : State} (h : Keeps s0 s) (a1 a2) : KeepsR s0 (execTileFault a1 a2 s) := by
  unfold execTileFault
  repeat' first
    | with_reducible assumption
    | (extract_lets +onlyGivenNames x; clear_value x; revert x; intro y)
    | with_reducible apply State.isolate_keeps
    | with_reducible apply State.raise_keeps
    | with_reducible apply KeepsR.next
    | with_reducible apply KeepsR.fault
    | with_reducible refine Keeps.foldl (fun t x ht => ?_) ?_
    | split

end Sys2Proof.Machine
end

