-- ==== Sys2Proof/Laws/KeepsAdmin.lean ====
section
/-!
SUPPORT. Every operation and command of Machine/Admin.lean keeps what `Keeps` says.
-/
namespace Sys2Proof.Machine

theorem State.endTask_keeps {s0 s : State} (h : Keeps s0 s) (a1 a2 a3) : Keeps s0 (State.endTask s a1 a2 a3) := by
  unfold State.endTask
  repeat' first
    | with_reducible assumption
    | (extract_lets +onlyGivenNames x; refine (fun (hx : Keeps s0 x) => ?_) ?_; clear_value x; revert x; intro y hy; rotate_left; subst x)
    | with_reducible apply State.fail_keeps
    | with_reducible apply State.postNow_keeps
    | with_reducible refine Keeps.ite ?_ ?_
    | with_reducible refine Keeps.getD ?_ ?_
    | split

theorem State.abortTasks_keeps {s0 s : State} (h : Keeps s0 s) (a1) : Keeps s0 (State.abortTasks s a1).2 := by
  induction a1 generalizing s with
  | nil =>
    unfold State.abortTasks
    repeat' first
      | with_reducible assumption
  | cons c l ih =>
    unfold State.abortTasks
    repeat' first
      | with_reducible assumption
      | (extract_lets +onlyGivenNames x; refine (fun (hx : Keeps s0 x) => ?_) ?_; clear_value x; revert x; intro y hy; rotate_left; subst x)
      | with_reducible refine Keeps.ofO ‹_› ?_
      | with_reducible apply State.fail_keeps
      | with_reducible apply State.postNow_keeps
      | with_reducible apply ih
      | split

theorem State.abortDescs_keeps {s0 s : State} (h : Keeps s0 s) (a1) : Keeps s0 (State.abortDescs s a1).2 := by
  induction a1 generalizing s with
  | nil =>
    unfold State.abortDescs
    repeat' first
      | with_reducible assumption
  | cons c l ih =>
    unfold State.abortDescs
    repeat' first
      | with_reducible assumption
      | (extract_lets +onlyGivenNames x
         first
           | (refine (fun (hx : Keeps s0 x) => ?_) ?_; clear_value x; revert x; intro y hy; rotate_left; subst x)
           | ((let z : Cqc := x; clear z); revert x; intro y))
      | with_reducible refine Keeps.ofO ‹_› ?_
      | with_reducible apply State.handOver_keeps
      | with_reducible apply State.bump_keeps
      | with_reducible apply State.answerDescs_keeps
      | with_reducible apply ih
      | split
      | (with_reducible apply Keeps.upd
         with_reducible exact rfl
         first
           | with_reducible exact rfl
           | simp +zetaDelta [State.kept])

theorem State.queueReset_keeps {s0 s : State} (h : Keeps s0 s) (a1) : Keeps s0 (State.queueReset s a1) := by
  unfold State.queueReset
  repeat' first
    | with_reducible assumption
    | with_reducible refine Keeps.of2 ‹_› ?_
    | with_reducible apply State.abortTasks_keeps
    | with_reducible apply State.abortDescs_keeps
    | with_reducible apply State.finish_keeps
    | with_reducible apply State.releaseHeld_keeps
    | with_reducible apply State.pruneOlder_keeps
    | split

theorem execQueueReset_keeps {s0 s : State} (h : Keeps s0 s) (a1) : KeepsR s0 (execQueueReset a1 s) := by
  unfold execQueueReset
  repeat' first
    | with_reducible assumption
    | with_reducible apply State.queueReset_keeps
    | with_reducible apply KeepsR.next
    | split

theorem State.dropStaging_keeps {s0 s : State} (h : Keeps s0 s) : Keeps s0 (State.dropStaging s) := by
  unfold State.dropStaging
  repeat' first
    | with_reducible assumption
    | (extract_lets +onlyGivenNames x
       first
         | (let z : _ → _ := x; clear z; subst x)
         | ((let z : Msv := x; clear z); revert x; intro y))
    | split
    | dsimp only
    | (with_reducible apply Keeps.upd
       with_reducible exact rfl
       first
         | with_reducible exact rfl
         | simp +zetaDelta [State.kept])

theorem State.stopUnstarted_keeps {s0 s : State} (h : Keeps s0 s) (a1) : Keeps s0 (State.stopUnstarted s a1) := by
  unfold State.stopUnstarted
  repeat' first
    | with_reducible assumption
    | with_reducible apply State.endTask_keeps
    | with_reducible refine Keeps.foldl (fun t x ht => ?_) ?_

theorem State.dropDirty_keeps {s0 s : State} (h : Keeps s0 s) (a1) : Keeps s0 (State.dropDirty s a1) := by
  unfold State.dropDirty
  repeat' first
    | with_reducible assumption
    | (extract_lets +onlyGivenNames x; (first | (let z : Plc := x; clear z) | clear_value x); revert x; intro y)
    | (with_reducible apply Keeps.upd
       with_reducible exact rfl
       first
         | with_reducible exact rfl
         | simp +zetaDelta [State.kept])

theorem State.startSanitize_keeps {s0 s : State} (h : Keeps s0 s) (a1) : Keeps s0 (State.startSanitize s a1) := by
  unfold State.startSanitize
  repeat' first
    | with_reducible assumption
    | (extract_lets +onlyGivenNames x
       first
         | (refine (fun (hx : Keeps s0 x) => ?_) ?_; clear_value x; revert x; intro y hy; rotate_left; subst x)
         | ((first | (let z : Plc := x; clear z) | (let z : Asu := x; clear z) | (let z : Pae := x; clear z) | (let z : Cqc := x; clear z) | clear_value x); revert x; intro y))
    | with_reducible apply State.dropStaging_keeps
    | with_reducible apply State.pruneOlder_keeps
    | with_reducible apply State.clearRegisters_keeps
    | with_reducible apply State.dropDirty_keeps
    | with_reducible apply State.endSessions_keeps
    | with_reducible apply State.destroyTenantPages_keeps
    | with_reducible apply State.mapTrs_keeps
    | (with_reducible apply Keeps.upd
       with_reducible exact rfl
       first
         | with_reducible exact rfl
         | simp +zetaDelta [State.kept])

theorem State.runSanitize_keeps {s0 s : State} (h : Keeps s0 s) (a1) : Keeps s0 (State.runSanitize s a1) := by
  unfold State.runSanitize
  repeat' first
    | with_reducible assumption
    | (extract_lets +onlyGivenNames x
       first
         | (refine (fun (hx : Keeps s0 x) => ?_) ?_; clear_value x; revert x; intro y hy; rotate_left; subst x)
         | ((first | (let z : Plc := x; clear z) | clear_value x); revert x; intro y))
    | with_reducible apply State.dropDirty_keeps
    | with_reducible apply State.startLongOp_keeps
    | with_reducible apply State.milestone_keeps
    | with_reducible apply State.finish_keeps
    | split
    | (with_reducible apply Keeps.upd
       with_reducible exact rfl
       first
         | with_reducible exact rfl
         | simp +zetaDelta [State.kept])

theorem State.sanitizeStep_keeps {s0 s : State} (h : Keeps s0 s) (a1 a2) : Keeps s0 (State.sanitizeStep s a1 a2) := by
  unfold State.sanitizeStep
  repeat' first
    | with_reducible assumption
    | (extract_lets +onlyGivenNames x; refine (fun (hx : Keeps s0 x) => ?_) ?_; clear_value x; revert x; intro y hy; rotate_left; subst x)
    | with_reducible apply State.stopUnstarted_keeps
    | with_reducible apply State.startSanitize_keeps
    | with_reducible apply State.runSanitize_keeps
    | with_reducible apply State.awaitJournal_keeps
    | with_reducible refine Keeps.ite ?_ ?_
    | split

theorem execSanitizeCrypto_keeps {s0 s : State} (h : Keeps s0 s) (a1) : KeepsR s0 (execSanitizeCrypto a1 s) := by
  unfold execSanitizeCrypto
  repeat' first
    | with_reducible assumption
    | with_reducible apply State.sanitizeStep_keeps
    | with_reducible apply KeepsR.next

theorem execSanitizeBlockErase_keeps {s0 s : State} (h : Keeps s0 s) (a1) : KeepsR s0 (execSanitizeBlockErase a1 s) := by
  unfold execSanitizeBlockErase
  repeat' first
    | with_reducible assumption
    | with_reducible apply State.sanitizeStep_keeps
    | with_reducible apply KeepsR.next

theorem execSanitizeOverwrite_keeps {s0 s : State} (h : Keeps s0 s) (a1) : KeepsR s0 (execSanitizeOverwrite a1 s) := by
  unfold execSanitizeOverwrite
  repeat' first
    | with_reducible assumption
    | with_reducible apply State.sanitizeStep_keeps
    | with_reducible apply KeepsR.next

theorem State.startFormat_keeps {s0 s : State} (h : Keeps s0 s) (a1 a2) : Keeps s0 (State.startFormat s a1 a2) := by
  unfold State.startFormat
  repeat' first
    | with_reducible assumption
    | (extract_lets +onlyGivenNames x
       first
         | (refine (fun (hx : Keeps s0 x) => ?_) ?_; clear_value x; revert x; intro y hy; rotate_left; subst x)
         | ((first | (let z : Plc := x; clear z) | (let z : Pae := x; clear z) | (let z : Cqc := x; clear z)); revert x; intro y))
    | with_reducible apply State.endSessions_keeps
    | with_reducible apply State.pruneOlder_keeps
    | with_reducible apply State.mapTrs_keeps
    | (with_reducible apply Keeps.upd
       with_reducible exact rfl
       first
         | with_reducible exact rfl
         | simp +zetaDelta [State.kept])

theorem State.detach_keeps {s0 s : State} (h : Keeps s0 s) (a1) : Keeps s0 (State.detach s a1) := by
  unfold State.detach
  repeat' first
    | with_reducible assumption
    | (extract_lets +onlyGivenNames x
       first
         | (refine (fun (hx : Keeps s0 x) => ?_) ?_; clear_value x; revert x; intro y hy; rotate_left; subst x)
         | ((first | (let z : Plc := x; clear z) | (let z : Asu := x; clear z) | (let z : Cqc := x; clear z)); revert x; intro y))
    | with_reducible apply State.dropDirty_keeps
    | (with_reducible apply Keeps.upd
       with_reducible exact rfl
       first
         | with_reducible exact rfl
         | simp +zetaDelta [State.kept])

theorem State.runFormat_keeps {s0 s : State} (h : Keeps s0 s) (a1 a2) : Keeps s0 (State.runFormat s a1 a2) := by
  unfold State.runFormat
  repeat' first
    | with_reducible assumption
    | (extract_lets +onlyGivenNames x
       first
         | (refine (fun (hx : Keeps s0 x) => ?_) ?_; clear_value x; revert x; intro y hy; rotate_left; subst x)
         | ((let z : Plc := x; clear z); revert x; intro y))
    | with_reducible apply State.destroyPage_keeps
    | with_reducible apply State.detach_keeps
    | with_reducible apply State.finish_keeps
    | with_reducible refine Keeps.foldl (fun t x ht => ?_) ?_
    | (with_reducible apply Keeps.upd
       with_reducible exact rfl
       first
         | with_reducible exact rfl
         | simp +zetaDelta [State.kept])

theorem execFormat_keeps {s0 s : State} (h : Keeps s0 s) (a1) : KeepsR s0 (execFormat a1 s) := by
  unfold execFormat
  repeat' first
    | with_reducible assumption
    | (extract_lets +onlyGivenNames x
       first
         | (refine (fun (hx : Keeps s0 x) => ?_) ?_; clear_value x; revert x; intro y hy; rotate_left; subst x)
         | (clear_value x; revert x; intro y))
    | with_reducible apply State.startFormat_keeps
    | with_reducible apply State.runFormat_keeps
    | with_reducible apply KeepsR.next
    | split

theorem State.setPolicy_keeps {s0 s : State} (h : Keeps s0 s) (a1 a2) : Keeps s0 (State.setPolicy s a1 a2) := by
  unfold State.setPolicy
  repeat' first
    | with_reducible assumption
    | (extract_lets +onlyGivenNames x
       first
         | (refine (fun (hx : Keeps s0 x) => ?_) ?_; clear_value x; revert x; intro y hy; rotate_left; subst x)
         | ((let z : Cqc := x; clear z); revert x; intro y))
    | with_reducible apply State.finish_keeps
    | with_reducible apply State.mapTrs_keeps
    | split
    | (with_reducible apply Keeps.upd
       with_reducible exact rfl
       first
         | with_reducible exact rfl
         | simp +zetaDelta [State.kept])

theorem execQuery_keeps {s0 s : State} (h : Keeps s0 s) (a1) : KeepsR s0 (execQuery a1 s) := by
  unfold execQuery
  repeat' first
    | with_reducible assumption
    | with_reducible apply State.setPolicy_keeps
    | with_reducible apply KeepsR.next
    | split

theorem execStayReady_keeps {s0 s : State} (h : Keeps s0 s) (a1) : KeepsR s0 (execStayReady a1 s) := by
  unfold execStayReady
  repeat' first
    | with_reducible assumption
    | with_reducible apply State.setPolicy_keeps
    | with_reducible apply KeepsR.next
    | split

theorem execAuto_keeps {s0 s : State} (h : Keeps s0 s) (a1) : KeepsR s0 (execAuto a1 s) := by
  unfold execAuto
  repeat' first
    | with_reducible assumption
    | with_reducible apply State.setPolicy_keeps
    | with_reducible apply KeepsR.next
    | split

theorem execDozeNow_keeps {s0 s : State} (h : Keeps s0 s) (a1) : KeepsR s0 (execDozeNow a1 s) := by
  unfold execDozeNow
  repeat' first
    | with_reducible assumption
    | with_reducible apply State.setPolicy_keeps
    | with_reducible apply KeepsR.next
    | split

theorem execPrepareHold_keeps {s0 s : State} (h : Keeps s0 s) (a1) : KeepsR s0 (execPrepareHold a1 s) := by
  unfold execPrepareHold
  repeat' first
    | with_reducible assumption
    | (extract_lets +onlyGivenNames x
       first
         | (refine (fun (hx : Keeps s0 x) => ?_) ?_; clear_value x; revert x; intro y hy; rotate_left; subst x)
         | ((let z : Cqc := x; clear z); revert x; intro y))
    | with_reducible apply State.mapTrs_keeps
    | with_reducible apply State.fail_keeps
    | with_reducible apply State.startDrain_keeps
    | with_reducible apply KeepsR.next
    | split
    | (with_reducible apply Keeps.upd
       with_reducible exact rfl
       first
         | with_reducible exact rfl
         | simp +zetaDelta [State.kept])

end Sys2Proof.Machine
end

