-- ==== Sys2Proof/Laws/KeepsTurnpike.lean ====
section
/-!
SUPPORT. Every operation and command of Machine/Turnpike.lean keeps what `Keeps` says.
-/
namespace Sys2Proof.Machine

theorem State.grant_keeps {s0 s : State} (h : Keeps s0 s) (a1 a2 a3 a4) : Keeps s0 (State.grant s a1 a2 a3 a4) := by
  unfold State.grant
  repeat' first
    | with_reducible assumption
    | (extract_lets +onlyGivenNames x
       first
         | (refine (fun (hx : Keeps s0 x) => ?_) ?_; clear_value x; revert x; intro y hy; rotate_left; subst x)
         | (clear_value x; revert x; intro y))
    | with_reducible apply State.bump_keeps
    | with_reducible refine Keeps.ite ?_ ?_
    | (with_reducible apply Keeps.upd
       with_reducible exact rfl
       first
         | with_reducible exact rfl
         | simp +zetaDelta [State.kept])

theorem State.arbitrate_keeps {s0 s : State} (h : Keeps s0 s) (a1 a2 a3) : Keeps s0 (State.arbitrate s a1 a2 a3).2 := by
  unfold State.arbitrate
  repeat' first
    | with_reducible assumption
    | (extract_lets +onlyGivenNames x; clear_value x; revert x; intro y)
    | with_reducible apply State.grant_keeps
    | split

theorem State.fillOpen_keeps {s0 s : State} (h : Keeps s0 s) (a1) : Keeps s0 (State.fillOpen s a1).2 := by
  unfold State.fillOpen
  repeat' first
    | with_reducible assumption
    | (extract_lets +onlyGivenNames x; clear_value x; revert x; intro y)
    | with_reducible apply State.arbitrate_keeps
    | with_reducible refine Keeps.foldl2 (fun t x ht => ?_) ?_

theorem State.swapTo_keeps {s0 s : State} (h : Keeps s0 s) (a1 a2) : Keeps s0 (State.swapTo s a1 a2) := by
  unfold State.swapTo
  repeat' first
    | with_reducible assumption
    | (extract_lets +onlyGivenNames x
       first
         | (refine (fun (hx : Keeps s0 x) => ?_) ?_; clear_value x; revert x; intro y hy; rotate_left; subst x)
         | (clear_value x; revert x; intro y))
    | with_reducible apply State.unmeasure_keeps
    | with_reducible apply State.putNum_keeps
    | with_reducible refine Keeps.ite ?_ ?_
    | (with_reducible apply Keeps.upd
       with_reducible exact rfl
       first
         | with_reducible exact rfl
         | simp +zetaDelta [State.kept])

theorem State.swapDue_keeps {s0 s : State} (h : Keeps s0 s) : Keeps s0 (State.swapDue s) := by
  unfold State.swapDue
  repeat' first
    | with_reducible assumption
    | (extract_lets +onlyGivenNames x
       first
         | (refine (fun (hx : Keeps s0 x) => ?_) ?_; clear_value x; revert x; intro y hy; rotate_left; subst x)
         | (clear_value x; revert x; intro y))
    | with_reducible apply State.swapTo_keeps
    | with_reducible refine Keeps.ite ?_ ?_
    | split
    | (with_reducible apply Keeps.upd
       with_reducible exact rfl
       first
         | with_reducible exact rfl
         | simp +zetaDelta [State.kept])

theorem State.handBack_keeps {s0 s : State} (h : Keeps s0 s) (a1) : Keeps s0 (State.handBack s a1) := by
  unfold State.handBack
  repeat' first
    | with_reducible assumption
    | (extract_lets +onlyGivenNames x
       first
         | (refine (fun (hx : Keeps s0 x) => ?_) ?_; clear_value x; revert x; intro y hy; rotate_left; subst x)
         | ((first | (let z : Plc := x; clear z) | clear_value x); revert x; intro y))
    | with_reducible apply State.mapTile_keeps
    | with_reducible apply State.dropMoves_keeps
    | with_reducible apply State.readAround_keeps
    | with_reducible refine Keeps.foldl (fun t x ht => ?_) ?_
    | split
    | (with_reducible apply Keeps.upd
       with_reducible exact rfl
       first
         | with_reducible exact rfl
         | simp +zetaDelta [State.kept])

theorem State.reissue_keeps {s0 s : State} (h : Keeps s0 s) (a1) : Keeps s0 (State.reissue s a1) := by
  unfold State.reissue
  repeat' first
    | with_reducible assumption
    | (extract_lets +onlyGivenNames x; clear_value x; revert x; intro y)
    | with_reducible apply State.readAround_keeps
    | with_reducible refine Keeps.ite ?_ ?_
    | split
    | (with_reducible apply Keeps.upd
       with_reducible exact rfl
       first
         | with_reducible exact rfl
         | simp +zetaDelta [State.kept])

theorem State.applyMask_keeps {s0 s : State} (h : Keeps s0 s) : Keeps s0 (State.applyMask s) := by
  unfold State.applyMask
  repeat' first
    | with_reducible assumption
    | (extract_lets +onlyGivenNames x
       first
         | (refine (fun (hx : Keeps s0 x) => ?_) ?_; clear_value x; revert x; intro y hy; rotate_left; subst x)
         | (let z : _ → _ := x; clear z; subst x)
         | (clear_value x; revert x; intro y))
    | with_reducible apply State.handBack_keeps
    | with_reducible apply State.reissue_keeps
    | with_reducible refine Keeps.ite ?_ ?_
    | with_reducible refine Keeps.foldl (fun t x ht => ?_) ?_
    | dsimp only
    | (with_reducible apply Keeps.upd
       with_reducible exact rfl
       first
         | with_reducible exact rfl
         | simp +zetaDelta [State.kept])

theorem State.boundary_keeps {s0 s : State} (h : Keeps s0 s) : Keeps s0 (State.boundary s) := by
  unfold State.boundary
  repeat' first
    | with_reducible assumption
    | (extract_lets +onlyGivenNames x
       first
         | (refine (fun (hx : Keeps s0 x) => ?_) ?_; clear_value x; revert x; intro y hy; rotate_left; subst x)
         | (clear_value x; revert x; intro y))
    | with_reducible apply State.applyMask_keeps
    | with_reducible apply State.swapDue_keeps
    | (with_reducible apply Keeps.upd
       with_reducible exact rfl
       first
         | with_reducible exact rfl
         | simp +zetaDelta [State.kept])

theorem State.installTable_keeps {s0 s : State} (h : Keeps s0 s) : Keeps s0 (State.installTable s) := by
  unfold State.installTable
  repeat' first
    | with_reducible assumption
    | (extract_lets +onlyGivenNames x; clear_value x; revert x; intro y)
    | with_reducible refine Keeps.ite ?_ ?_
    | (with_reducible apply Keeps.upd
       with_reducible exact rfl
       first
         | with_reducible exact rfl
         | simp +zetaDelta [State.kept])

theorem State.tracedHop_keeps {s0 s : State} (h : Keeps s0 s) (a1 a2) : Keeps s0 (State.tracedHop a1 s a2) :=
  State.traced_keeps h ..

theorem execSlotFill_keeps {s0 s : State} (h : Keeps s0 s) : KeepsR s0 (execSlotFill s) := by
  unfold execSlotFill
  repeat' first
    | with_reducible assumption
    | (extract_lets +onlyGivenNames x
       first
         | (refine (fun (hx : Keeps s0 x) => ?_) ?_; clear_value x; revert x; intro y hy; rotate_left; subst x)
         | (clear_value x; revert x; intro y))
    | with_reducible apply State.boundary_keeps
    | with_reducible apply State.bump_keeps
    | with_reducible apply State.tracedHop_keeps
    | with_reducible refine Keeps.foldl (fun t x ht => ?_) ?_
    | with_reducible apply State.fillOpen_keeps
    | with_reducible apply KeepsR.next
    | split
    | dsimp only
    | (with_reducible apply Keeps.upd
       with_reducible exact rfl
       first
         | with_reducible exact rfl
         | simp +zetaDelta [State.kept])

theorem tableEffect_keeps {s0 s : State} (h : Keeps s0 s) (br bi bu bv) : Keeps s0 (tableEffect br bi bu bv s).1 := by
  unfold tableEffect
  repeat' first
    | with_reducible assumption
    | (extract_lets +onlyGivenNames x; clear_value x; revert x; intro y)
    | with_reducible apply State.put_keeps
    | (with_reducible apply Keeps.upd
       with_reducible exact rfl
       first
         | with_reducible exact rfl
         | simp +zetaDelta [State.kept])

theorem execSlotTableGenerate_keeps {s0 s : State} (h : Keeps s0 s) : KeepsR s0 (execSlotTableGenerate s) := by
  unfold execSlotTableGenerate
  repeat' first
    | with_reducible assumption
    | (extract_lets +onlyGivenNames x; clear_value x; revert x; intro y)
    | with_reducible apply KeepsR.next
    | split
    | (with_reducible apply Keeps.upd
       with_reducible exact rfl
       first
         | with_reducible exact rfl
         | simp +zetaDelta [State.kept])

theorem execTableSwap_keeps {s0 s : State} (h : Keeps s0 s) : KeepsR s0 (execTableSwap s) := by
  unfold execTableSwap
  repeat' first
    | with_reducible assumption
    | with_reducible apply State.swapDue_keeps
    | with_reducible apply KeepsR.next
    | split

theorem execEndpointMaskChange_keeps {s0 s : State} (h : Keeps s0 s) : KeepsR s0 (execEndpointMaskChange s) := by
  unfold execEndpointMaskChange
  repeat' first
    | with_reducible assumption
    | with_reducible apply State.applyMask_keeps
    | with_reducible apply KeepsR.next
    | split

theorem execThrottleChange_keeps {s0 s : State} (h : Keeps s0 s) : KeepsR s0 (execThrottleChange s) := by
  unfold execThrottleChange
  repeat' first
    | with_reducible assumption
    | (extract_lets +onlyGivenNames x; clear_value x; revert x; intro y)
    | with_reducible apply KeepsR.next
    | split
    | (with_reducible apply Keeps.upd
       with_reducible exact rfl
       first
         | with_reducible exact rfl
         | simp +zetaDelta [State.kept])

theorem execCaseTempSample_keeps {s0 s : State} (h : Keeps s0 s) (a1) : KeepsR s0 (execCaseTempSample a1 s) := by
  unfold execCaseTempSample
  repeat' first
    | with_reducible assumption
    | (extract_lets +onlyGivenNames x
       first
         | (refine (fun (hx : Keeps s0 x) => ?_) ?_; clear_value x; revert x; intro y hy; rotate_left; subst x)
         | ((first | (let z : Pch := x; clear z) | clear_value x); revert x; intro y))
    | with_reducible apply State.bump_keeps
    | with_reducible apply State.putNum_keeps
    | with_reducible apply State.raise_keeps
    | with_reducible apply KeepsR.next
    | split
    | (with_reducible apply Keeps.upd
       with_reducible exact rfl
       first
         | with_reducible exact rfl
         | simp +zetaDelta [State.kept])

end Sys2Proof.Machine
end

