-- ==== Sys2Proof/Laws/KeepsWardens.lean ====
section
/-!
SUPPORT. Every operation and command of Machine/Wardens.lean keeps what `Keeps` says.
-/
namespace Sys2Proof.Machine

theorem State.wardenOut_keeps {s0 s : State} (h : Keeps s0 s) (a1) : Keeps s0 (State.wardenOut s a1) := by
  unfold State.wardenOut
  repeat' first
    | with_reducible assumption
    | with_reducible apply State.isolate_keeps
    | with_reducible apply State.mapWarden_keeps

theorem State.recordSwitch_keeps {s0 s : State} (h : Keeps s0 s) (a1 a2 a3 a4 a5) : Keeps s0 (State.recordSwitch s a1 a2 a3 a4 a5) := by
  unfold State.recordSwitch
  repeat' first
    | with_reducible assumption
    | with_reducible apply State.raise_keeps
    | with_reducible apply State.putBytes_keeps

theorem State.leaseOver_keeps {s0 s : State} (h : Keeps s0 s) (a1 a2 a3) : Keeps s0 (State.leaseOver s a1 a2 a3) := by
  unfold State.leaseOver
  repeat' first
    | with_reducible assumption
    | (extract_lets +onlyGivenNames x
       first
         | (refine (fun (hx : Keeps s0 x) => ?_) ?_; clear_value x; revert x; intro y hy; rotate_left; subst x)
         | (clear_value x; revert x; intro y))
    | with_reducible apply State.mapWarden_keeps
    | with_reducible apply State.raise_keeps
    | with_reducible apply State.recordSwitch_keeps
    | with_reducible refine Keeps.ite ?_ ?_
    | split
    | (with_reducible apply Keeps.upd
       with_reducible exact rfl
       first
         | with_reducible exact rfl
         | simp +zetaDelta [State.kept])

theorem State.endLease_keeps {s0 s : State} (h : Keeps s0 s) (a1 a2 a3) : Keeps s0 (State.endLease s a1 a2 a3) := by
  unfold State.endLease
  repeat' first
    | with_reducible assumption
    | with_reducible apply State.leaseOver_keeps
    | with_reducible apply State.wardenOut_keeps

theorem execLeaseRenewal_keeps {s0 s : State} (h : Keeps s0 s) (a1) : KeepsR s0 (execLeaseRenewal a1 s) := by
  unfold execLeaseRenewal
  repeat' first
    | with_reducible assumption
    | (extract_lets +onlyGivenNames x; clear_value x; revert x; intro y)
    | with_reducible apply State.bump_keeps
    | with_reducible apply KeepsR.next
    | split
    | (with_reducible apply Keeps.upd
       with_reducible exact rfl
       first
         | with_reducible exact rfl
         | simp +zetaDelta [State.kept])

theorem execPairMismatch_keeps {s0 s : State} (h : Keeps s0 s) (a1) : KeepsR s0 (execPairMismatch a1 s) := by
  unfold execPairMismatch
  repeat' first
    | with_reducible assumption
    | (extract_lets +onlyGivenNames x
       first
         | (refine (fun (hx : Keeps s0 x) => ?_) ?_; clear_value x; revert x; intro y hy; rotate_left; subst x)
         | (clear_value x; revert x; intro y))
    | with_reducible apply State.mapWarden_keeps
    | with_reducible apply State.raise_keeps
    | with_reducible apply State.bump_keeps
    | with_reducible apply State.wardenOut_keeps
    | with_reducible apply KeepsR.next
    | split
    | (with_reducible apply Keeps.upd
       with_reducible exact rfl
       first
         | with_reducible exact rfl
         | simp +zetaDelta [State.kept])

theorem execLeaseDrop_keeps {s0 s : State} (h : Keeps s0 s) (a1) : KeepsR s0 (execLeaseDrop a1 s) := by
  unfold execLeaseDrop
  repeat' first
    | with_reducible assumption
    | with_reducible apply State.endLease_keeps
    | with_reducible apply KeepsR.next
    | split

theorem execLeaseExpiry_keeps {s0 s : State} (h : Keeps s0 s) : KeepsR s0 (execLeaseExpiry s) := by
  unfold execLeaseExpiry
  repeat' first
    | with_reducible assumption
    | with_reducible apply State.endLease_keeps
    | with_reducible apply State.bump_keeps
    | with_reducible apply KeepsR.next
    | split

theorem execLeaseGrant_keeps {s0 s : State} (h : Keeps s0 s) : KeepsR s0 (execLeaseGrant s) := by
  unfold execLeaseGrant
  extract_lets early
  split
  · exact KeepsR.next h
  · split
    · exact KeepsR.next h
    · rename_i w _
      have h1 : Keeps s0 { s with wdn.holder := some w, wdn.leaseEnd := s.now + 50 } := h.eq rfl
      extract_lets switch s1 s2
      have h2 : Keeps s0 s2 := State.installTable_keeps (State.mapWarden_keeps (State.mapWarden_keeps h1 ..) ..)
      clear_value s2
      exact KeepsR.next (Keeps.ite (State.bump_keeps h2 ..) h2)

theorem execGatedOutput_keeps {s0 s : State} (h : Keeps s0 s) (a1 a2) : KeepsR s0 (execGatedOutput a1 a2 s) := by
  unfold execGatedOutput
  repeat' first
    | with_reducible assumption
    | with_reducible apply State.raise_keeps
    | with_reducible apply State.bump_keeps
    | with_reducible apply KeepsR.next
    | split

theorem State.closeGap_keeps {s0 s : State} (h : Keeps s0 s) : Keeps s0 (State.closeGap s) := by
  unfold State.closeGap
  repeat' first
    | with_reducible assumption
    | (extract_lets +onlyGivenNames x
       first
         | (refine (fun (hx : Keeps s0 x) => ?_) ?_; clear_value x; revert x; intro y hy; rotate_left; subst x)
         | (clear_value x; revert x; intro y))
    | with_reducible apply State.recordSwitch_keeps
    | with_reducible apply State.putNum_keeps
    | with_reducible refine Keeps.ite ?_ ?_
    | split
    | (with_reducible apply Keeps.upd
       with_reducible exact rfl
       first
         | with_reducible exact rfl
         | simp +zetaDelta [State.kept])

theorem execDeliveryNote_keeps {s0 s : State} (h : Keeps s0 s) (a1 a2 a3) : KeepsR s0 (execDeliveryNote a1 a2 a3 s) := by
  unfold execDeliveryNote
  repeat' first
    | with_reducible assumption
    | (extract_lets +onlyGivenNames x
       first
         | (refine (fun (hx : Keeps s0 x) => ?_) ?_; clear_value x; revert x; intro y hy; rotate_left; subst x)
         | (clear_value x; revert x; intro y))
    | with_reducible apply State.closeGap_keeps
    | with_reducible apply State.wardenOut_keeps
    | with_reducible apply State.raise_keeps
    | with_reducible apply State.bump_keeps
    | with_reducible apply KeepsR.next
    | split
    | (with_reducible apply Keeps.upd
       with_reducible exact rfl
       first
         | with_reducible exact rfl
         | simp +zetaDelta [State.kept])

theorem execStandbyLeavesStep_keeps {s0 s : State} (h : Keeps s0 s) : KeepsR s0 (execStandbyLeavesStep s) := by
  unfold execStandbyLeavesStep
  repeat' first
    | with_reducible assumption
    | with_reducible apply State.mapWarden_keeps
    | with_reducible apply KeepsR.next
    | split

theorem State.wardenTested_keeps {s0 s : State} (h : Keeps s0 s) (a1 a2) : Keeps s0 (State.wardenTested s a1 a2) := by
  unfold State.wardenTested
  repeat' first
    | with_reducible assumption
    | with_reducible apply State.bump_keeps
    | with_reducible apply State.mapWarden_keeps
    | with_reducible refine Keeps.ite ?_ ?_

theorem execResyncStart_keeps {s0 s : State} (h : Keeps s0 s) (a1) : KeepsR s0 (execResyncStart a1 s) := by
  unfold execResyncStart
  repeat' first
    | with_reducible assumption
    | (extract_lets +onlyGivenNames x; clear_value x; revert x; intro y)
    | with_reducible apply State.transfer_keeps
    | with_reducible apply KeepsR.next
    | split
    | (with_reducible apply Keeps.upd
       with_reducible exact rfl
       first
         | with_reducible exact rfl
         | simp +zetaDelta [State.kept])

theorem execResyncComplete_keeps {s0 s : State} (h : Keeps s0 s) : KeepsR s0 (execResyncComplete s) := by
  unfold execResyncComplete
  repeat' first
    | with_reducible assumption
    | (extract_lets +onlyGivenNames x; clear_value x; revert x; intro y)
    | with_reducible apply State.bump_keeps
    | with_reducible apply State.mapWarden_keeps
    | with_reducible apply KeepsR.next
    | split
    | (with_reducible apply Keeps.upd
       with_reducible exact rfl
       first
         | with_reducible exact rfl
         | simp +zetaDelta [State.kept])

theorem execResyncAbandoned_keeps {s0 s : State} (h : Keeps s0 s) (a1) : KeepsR s0 (execResyncAbandoned a1 s) := by
  unfold execResyncAbandoned
  repeat' first
    | with_reducible assumption
    | (extract_lets +onlyGivenNames x; clear_value x; revert x; intro y)
    | with_reducible apply State.raise_keeps
    | with_reducible apply State.bump_keeps
    | with_reducible apply KeepsR.next
    | split
    | (with_reducible apply Keeps.upd
       with_reducible exact rfl
       first
         | with_reducible exact rfl
         | simp +zetaDelta [State.kept])

theorem execWardenRestartDone_keeps {s0 s : State} (h : Keeps s0 s) (a1) : KeepsR s0 (execWardenRestartDone a1 s) := by
  unfold execWardenRestartDone
  repeat' first
    | with_reducible assumption
    | with_reducible apply State.bump_keeps
    | with_reducible apply State.mapWarden_keeps
    | with_reducible apply KeepsR.next
    | split

theorem switchoverEffect_keeps {s0 s : State} (h : Keeps s0 s) (br bi bu bv) : Keeps s0 (switchoverEffect br bi bu bv s).1 := by
  unfold switchoverEffect
  repeat' first
    | with_reducible assumption
    | (extract_lets +onlyGivenNames x; clear_value x; revert x; intro y)
    | split
    | dsimp only
    | (with_reducible apply Keeps.upd
       with_reducible exact rfl
       first
         | with_reducible exact rfl
         | simp +zetaDelta [State.kept])

theorem execSwitchoverRequest_keeps {s0 s : State} (h : Keeps s0 s) (a1 a2) : KeepsR s0 (execSwitchoverRequest a1 a2 s) := by
  unfold execSwitchoverRequest
  repeat' first
    | with_reducible assumption
    | with_reducible apply State.ownWrite_keeps
    | with_reducible apply switchoverEffect_keeps
    | with_reducible apply KeepsR.next
    | intro _

theorem State.clockTakes_keeps {s0 s : State} (h : Keeps s0 s) (a1) : Keeps s0 (State.clockTakes s a1) := by
  unfold State.clockTakes
  extract_lets x y
  have hx : Keeps s0 x := Keeps.ite (State.wardenOut_keeps h _) h
  refine State.mapWarden_keeps (State.mapWarden_keeps ?_ _ _) _ _
  exact hx.eq rfl

theorem execAonClockStop_keeps {s0 s : State} (h : Keeps s0 s) : KeepsR s0 (execAonClockStop s) := by
  unfold execAonClockStop
  split
  · exact KeepsR.next h
  · have hx : Keeps s0 { s with wdn.clockStopped := true } := h.eq rfl
    dsimp only
    split
    · exact KeepsR.next hx
    · exact KeepsR.next (State.clockTakes_keeps hx _)

theorem execAonClockRestore_keeps {s0 s : State} (h : Keeps s0 s) (a1) : KeepsR s0 (execAonClockRestore a1 s) := by
  unfold execAonClockRestore
  split
  · exact KeepsR.next h
  · extract_lets wd pc s1 wake s2 s3
    have h1 : Keeps s0 s1 := h.eq rfl
    have h2 : Keeps s0 s2 := State.mapWarden_keeps (State.mapWarden_keeps h1 ..) ..
    exact KeepsR.next (State.raise_keeps (Keeps.ite (a := s2) h2 (State.bump_keeps h2 ..)) ..)

theorem execUnitIsolate_keeps {s0 s : State} (h : Keeps s0 s) (a1 a2) : KeepsR s0 (execUnitIsolate a1 a2 s) := by
  unfold execUnitIsolate
  repeat' first
    | with_reducible assumption
    | (extract_lets +onlyGivenNames x; clear_value x; revert x; intro y)
    | with_reducible apply State.endLease_keeps
    | with_reducible apply State.wardenOut_keeps
    | with_reducible apply State.isolate_keeps
    | with_reducible apply State.raise_keeps
    | with_reducible apply KeepsR.next
    | with_reducible apply KeepsR.fault
    | split

end Sys2Proof.Machine
end

