-- ==== Sys2Proof/Laws/KeepsRecorder.lean ====
section
/-!
SUPPORT. Every operation and command of Machine/Recorder.lean keeps what `Keeps` says.
-/
namespace Sys2Proof.Machine

/-- The recorder's queue and the AON memory may lose events; records are only added. -/
theorem Keeps.jsr {s t : State} (h : Keeps s t) {j : Jsr} (hq : j.queue.length ≤ max t.jsr.queue.length 1024)
    (ha : j.aon.length ≤ t.jsr.aon.length) (hw : t.jsr.written ≤ j.written) : Keeps s { t with jsr := j } :=
  h.trans ⟨rfl, List.prefix_rfl, fun w => by
    obtain ⟨w1, w2, w3, w4, w5, w6, w7, w8, w9, w10⟩ := w
    have w8 : t.jsr.queue.length ≤ 1024 := w8
    exact ⟨w1, w2, w3, w4, w5, w6, w7, by simp only [State.kept]; omega, Nat.le_trans ha w9, w10⟩,
    Nat.le_refl _, Nat.le_refl _, Nat.le_refl _, fun _ => rfl, fun _ m => m, fun d => d, hw⟩

theorem State.append_keeps {s0 s : State} (h : Keeps s0 s) (a1 a2 a3) : Keeps s0 (State.append s a1 a2 a3) := by
  unfold State.append
  exact h.jsr (Nat.le_max_left ..) (Nat.le_refl _) (Nat.le_succ _)

theorem State.record_keeps {s0 s : State} (h : Keeps s0 s) (a1 a2) : Keeps s0 (State.record s a1 a2) := by
  unfold State.record
  repeat' first
    | with_reducible assumption
    | (extract_lets +onlyGivenNames x; (let z : Jsr := x; clear z); revert x; intro y)
    | with_reducible apply State.bump_keeps
    | with_reducible apply State.append_keeps
    | with_reducible refine Keeps.ite ?_ ?_
    | split
    | (with_reducible apply Keeps.upd
       with_reducible exact rfl
       first
         | with_reducible exact rfl
         | simp +zetaDelta [State.kept])

theorem State.loseStaged_keeps {s0 s : State} (h : Keeps s0 s) : Keeps s0 (State.loseStaged s) := by
  unfold State.loseStaged
  repeat' first
    | with_reducible assumption
    | (extract_lets +onlyGivenNames x; (let z : Jsr := x; clear z); revert x; intro y)
    | with_reducible apply State.bump_keeps
    | (with_reducible apply Keeps.upd
       with_reducible exact rfl
       first
         | with_reducible exact rfl
         | simp +zetaDelta [State.kept])

theorem State.stage_keeps {s0 s : State} (h : Keeps s0 s) (a1) : Keeps s0 (State.stage s a1) := by
  unfold State.stage
  repeat' first
    | with_reducible assumption
    | (extract_lets +onlyGivenNames x; (first | (let z : Jsr := x; clear z) | clear_value x); revert x; intro y)
    | with_reducible apply State.bump_keeps
    | with_reducible apply State.loseStaged_keeps
    | with_reducible refine Keeps.ite ?_ ?_
    | split
    | (with_reducible apply Keeps.upd
       with_reducible exact rfl
       first
         | with_reducible exact rfl
         | simp +zetaDelta [State.kept])

theorem State.writeEvent_keeps {s0 s : State} (h : Keeps s0 s) (a1 a2) : Keeps s0 (State.writeEvent s a1 a2) := by
  unfold State.writeEvent
  repeat' first
    | with_reducible assumption
    | (extract_lets +onlyGivenNames x
       first
         | (refine (fun (hx : Keeps s0 x) => ?_) ?_; clear_value x; revert x; intro y hy; rotate_left; subst x)
         | ((let z : Jsr := x; clear z); revert x; intro y))
    | with_reducible apply State.stage_keeps
    | with_reducible apply State.record_keeps
    | with_reducible refine Keeps.ite ?_ ?_
    | (with_reducible apply Keeps.upd
       with_reducible exact rfl
       first
         | with_reducible exact rfl
         | simp +zetaDelta [State.kept])

theorem State.queueDropped_keeps {s0 s : State} (h : Keeps s0 s) : Keeps s0 (State.queueDropped s) := by
  unfold State.queueDropped
  split
  · exact h
  · exact h.jsr (by simp; omega) (Nat.le_refl _) (Nat.le_refl _)

theorem execEventWrite_keeps {s0 s : State} (h : Keeps s0 s) : KeepsR s0 (execEventWrite s) := by
  unfold execEventWrite
  split
  · exact KeepsR.next h
  · rename_i e l hl
    split
    · exact KeepsR.next h
    · apply KeepsR.next
      apply State.writeEvent_keeps
      apply State.queueDropped_keeps
      exact h.jsr (by simp [hl] <;> omega) (Nat.le_refl _) (Nat.le_refl _)

theorem State.endFreeze_keeps {s0 s : State} (h : Keeps s0 s) (a1) : Keeps s0 (State.endFreeze s a1) := by
  unfold State.endFreeze
  repeat' first
    | with_reducible assumption
    | (extract_lets +onlyGivenNames x
       first
         | (refine (fun (hx : Keeps s0 x) => ?_) ?_; clear_value x; revert x; intro y hy; rotate_left; subst x)
         | ((first | (let z : Jsr := x; clear z) | clear_value x); revert x; intro y))
    | with_reducible apply State.append_keeps
    | with_reducible apply State.putNum_keeps
    | with_reducible refine Keeps.ite ?_ ?_
    | with_reducible refine Keeps.foldl (fun t x ht => ?_) ?_
    | split
    | (with_reducible apply Keeps.upd
       with_reducible exact rfl
       first
         | with_reducible exact rfl
         | simp +zetaDelta [State.kept])

theorem freezeEffect_keeps {s0 s : State} (h : Keeps s0 s) (br bi bu bv) : Keeps s0 (freezeEffect br bi bu bv s).1 := by
  unfold freezeEffect
  repeat' first
    | with_reducible assumption
    | (extract_lets +onlyGivenNames x; (let z : Jsr := x; clear z); revert x; intro y)
    | with_reducible apply State.bump_keeps
    | with_reducible apply State.putNum_keeps
    | with_reducible apply State.endFreeze_keeps
    | split
    | (with_reducible apply Keeps.upd
       with_reducible exact rfl
       first
         | with_reducible exact rfl
         | simp +zetaDelta [State.kept])

theorem execRecorderFreeze_keeps {s0 s : State} (h : Keeps s0 s) (a1 a2) : KeepsR s0 (execRecorderFreeze a1 a2 s) := by
  unfold execRecorderFreeze
  repeat' first
    | with_reducible assumption
    | with_reducible apply State.ownWrite_keeps
    | with_reducible apply freezeEffect_keeps
    | with_reducible apply KeepsR.next
    | intro _

theorem execFreezeExpiry_keeps {s0 s : State} (h : Keeps s0 s) : KeepsR s0 (execFreezeExpiry s) := by
  unfold execFreezeExpiry
  repeat' first
    | with_reducible assumption
    | with_reducible apply State.endFreeze_keeps
    | with_reducible apply KeepsR.next
    | split

theorem State.powerJsr_keeps {s0 s : State} (h : Keeps s0 s) : Keeps s0 (State.powerJsr s) := by
  unfold State.powerJsr
  extract_lets kept lost x s1 s2 j s3 s4
  have h1 : Keeps s0 s1 := h.jsr (Nat.le_max_left ..) (Nat.zero_le _) (Nat.le_refl _)
  clear_value s1
  have h2 : Keeps s0 s2 := Keeps.foldl (fun t e ht => State.record_keeps (State.bump_keeps ht ..) ..) h1
  clear_value s2
  have h3 : Keeps s0 s3 := Keeps.ite (h2.eq rfl) h2
  clear_value s3
  have h4 : Keeps s0 s4 := Keeps.ite h3 (State.append_keeps h3 ..)
  clear_value s4
  exact State.endFreeze_keeps h4 _

end Sys2Proof.Machine
end

