-- ==== Sys2Proof/Laws/KeepsFirmware.lean ====
section
/-!
SUPPORT. Every operation and command of Machine/Firmware.lean keeps what `Keeps` says.
-/
namespace Sys2Proof.Machine

theorem State.mapSlot_keeps {s0 s : State} (h : Keeps s0 s) (a1 a2) : Keeps s0 (State.mapSlot s a1 a2) := by
  unfold State.mapSlot
  repeat' first
    | with_reducible assumption
    | (extract_lets +onlyGivenNames x; (let z : Msv := x; clear z); revert x; intro y)
    | with_reducible refine Keeps.ite ?_ ?_
    | (with_reducible apply Keeps.upd
       with_reducible exact rfl
       first
         | with_reducible exact rfl
         | simp +zetaDelta [State.kept])

theorem State.stageEnd_keeps {s0 s : State} (h : Keeps s0 s) (a1 a2) : Keeps s0 (State.stageEnd s a1 a2).1 := by
  unfold State.stageEnd
  repeat' first
    | with_reducible assumption
    | (extract_lets +onlyGivenNames x
       first
         | (refine (fun (hx : Keeps s0 x) => ?_) ?_; clear_value x; revert x; intro y hy; rotate_left; subst x)
         | ((first | (let z : Msv := x; clear z) | clear_value x); revert x; intro y))
    | with_reducible apply State.bump_keeps
    | with_reducible apply State.mapSlot_keeps
    | split
    | (with_reducible apply Keeps.upd
       with_reducible exact rfl
       first
         | with_reducible exact rfl
         | simp +zetaDelta [State.kept])

theorem State.imageWindow_keeps {s0 s : State} (h : Keeps s0 s) (a1 a2 a3) : Keeps s0 (State.imageWindow s a1 a2 a3).1 := by
  unfold State.imageWindow
  repeat' first
    | with_reducible assumption
    | (extract_lets +onlyGivenNames x
       first
         | (refine (fun (hx : Keeps s0 x) => ?_) ?_; clear_value x; revert x; intro y hy; rotate_left; subst x)
         | ((first | (let z : Msv := x; clear z) | clear_value x); revert x; intro y))
    | with_reducible apply State.mapSlot_keeps
    | with_reducible apply State.stageEnd_keeps
    | split
    | dsimp only
    | (with_reducible apply Keeps.upd
       with_reducible exact rfl
       first
         | with_reducible exact rfl
         | simp +zetaDelta [State.kept])

theorem execFwImageWindow_keeps {s0 s : State} (h : Keeps s0 s) (a1 a2 a3) : KeepsR s0 (execFwImageWindow a1 a2 a3 s) := by
  unfold execFwImageWindow
  repeat' first
    | with_reducible assumption
    | with_reducible apply State.imageWindow_keeps
    | with_reducible apply State.emit_keeps
    | with_reducible apply KeepsR.next

theorem execFwStagingExpiry_keeps {s0 s : State} (h : Keeps s0 s) : KeepsR s0 (execFwStagingExpiry s) := by
  unfold execFwStagingExpiry
  repeat' first
    | with_reducible assumption
    | with_reducible apply State.dropStaging_keeps
    | with_reducible apply KeepsR.next
    | split

theorem stageControlEffect_keeps {s0 s : State} (h : Keeps s0 s) (br bi bu bv) : Keeps s0 (stageControlEffect br bi bu bv s).1 := by
  unfold stageControlEffect
  repeat' first
    | with_reducible assumption
    | (extract_lets +onlyGivenNames x
       first
         | (let z : _ → _ := x; clear z; subst x)
         | ((let z : Msv := x; clear z); revert x; intro y))
    | with_reducible apply State.startDrain_keeps
    | with_reducible apply State.bump_keeps
    | with_reducible apply State.putNum_keeps
    | split
    | dsimp only
    | (with_reducible apply Keeps.upd
       with_reducible exact rfl
       first
         | with_reducible exact rfl
         | simp +zetaDelta [State.kept])

theorem execFwActivate_keeps {s0 s : State} (h : Keeps s0 s) (a1 a2) : KeepsR s0 (execFwActivate a1 a2 s) := by
  unfold execFwActivate
  repeat' first
    | with_reducible assumption
    | with_reducible apply State.ownWrite_keeps
    | with_reducible apply stageControlEffect_keeps
    | with_reducible apply KeepsR.next
    | split
    | intro _

theorem execFwAbandon_keeps {s0 s : State} (h : Keeps s0 s) (a1 a2) : KeepsR s0 (execFwAbandon a1 a2 s) := by
  unfold execFwAbandon
  repeat' first
    | with_reducible assumption
    | with_reducible apply State.ownWrite_keeps
    | with_reducible apply stageControlEffect_keeps
    | with_reducible apply KeepsR.next
    | split
    | intro _

theorem State.failBelow_keeps {s0 s : State} (h : Keeps s0 s) (a1) : Keeps s0 (State.failBelow s a1) := by
  unfold State.failBelow
  repeat' first
    | with_reducible assumption
    | (extract_lets +onlyGivenNames x
       first
         | (let z : _ → _ := x; clear z; subst x)
         | ((let z : Msv := x; clear z); revert x; intro y))
    | split
    | dsimp only
    | (with_reducible apply Keeps.upd
       with_reducible exact rfl
       first
         | with_reducible exact rfl
         | simp +zetaDelta [State.kept])

theorem floorEffect_keeps {s0 s : State} (h : Keeps s0 s) (br bi bu bv) : Keeps s0 (floorEffect br bi bu bv s).1 := by
  unfold floorEffect
  repeat' first
    | with_reducible assumption
    | with_reducible apply State.failBelow_keeps
    | with_reducible apply State.putNum_keeps
    | split

theorem execFwFloor_keeps {s0 s : State} (h : Keeps s0 s) (a1 a2 a3) : KeepsR s0 (execFwFloor a1 a2 a3 s) := by
  unfold execFwFloor
  repeat' first
    | with_reducible assumption
    | with_reducible apply State.ownWrite_keeps
    | with_reducible apply floorEffect_keeps
    | with_reducible apply KeepsR.next
    | with_reducible apply KeepsR.fault
    | split
    | intro _

theorem State.requestFloor_keeps {s0 s : State} (h : Keeps s0 s) (a1 a2) : Keeps s0 (State.requestFloor s a1 a2) := by
  unfold State.requestFloor
  split
  · exact h
  · split
    · exact State.raise_keeps h ..
    · exact State.failBelow_keeps (Keeps.written (State.putNum_keeps h ..) _) _

theorem State.countBoot_keeps {s0 s : State} (h : Keeps s0 s) (a1 a2) : Keeps s0 (State.countBoot s a1 a2) := by
  unfold State.countBoot
  repeat' first
    | with_reducible assumption
    | with_reducible apply State.bump_keeps
    | with_reducible refine Keeps.ite ?_ ?_

theorem State.bootSlot_keeps {s0 s : State} (h : Keeps s0 s) (a1 a2) : Keeps s0 (State.bootSlot s a1 a2) := by
  unfold State.bootSlot
  repeat' first
    | with_reducible assumption
    | (extract_lets +onlyGivenNames x
       first
         | (refine (fun (hx : Keeps s0 x) => ?_) ?_; clear_value x; revert x; intro y hy; rotate_left; subst x)
         | ((first | (let z : Msv := x; clear z) | clear_value x); revert x; intro y))
    | with_reducible apply State.mapSlot_keeps
    | with_reducible apply State.bump_keeps
    | with_reducible apply State.requestFloor_keeps
    | with_reducible refine Keeps.ite ?_ ?_
    | (with_reducible apply Keeps.upd
       with_reducible exact rfl
       first
         | with_reducible exact rfl
         | simp +zetaDelta [State.kept])

theorem State.bootFrom_keeps {s0 s : State} (h : Keeps s0 s) (a1 a2) : Keeps s0 (State.bootFrom s a1 a2).1 := by
  induction a2 generalizing s a1 with
  | nil =>
    unfold State.bootFrom
    repeat' first
      | with_reducible assumption
  | cons c l ih =>
    unfold State.bootFrom
    repeat' first
      | with_reducible assumption
      | (extract_lets +onlyGivenNames x
         first
           | (refine (fun (hx : Keeps s0 x) => ?_) ?_; clear_value x; revert x; intro y hy; rotate_left; subst x)
           | (clear_value x; revert x; intro y))
      | with_reducible apply State.mapSlot_keeps
      | with_reducible apply State.countBoot_keeps
      | with_reducible apply State.bootSlot_keeps
      | with_reducible apply State.raise_keeps
      | with_reducible apply ih
      | split

theorem State.bootFirmware_keeps {s0 s : State} (h : Keeps s0 s) : Keeps s0 (State.bootFirmware s) := by
  unfold State.bootFirmware
  repeat' first
    | with_reducible assumption
    | (extract_lets +onlyGivenNames x; (let z : Pch := x; clear z); revert x; intro y)
    | with_reducible apply State.bootFrom_keeps
    | with_reducible refine Keeps.ite ?_ ?_
    | (with_reducible apply Keeps.upd
       with_reducible exact rfl
       first
         | with_reducible exact rfl
         | simp +zetaDelta [State.kept])

end Sys2Proof.Machine
end

