-- ==== Sys2Proof/Laws/KeepsHealth.lean ====
section
/-!
SUPPORT. Every operation and command of Machine/Health.lean keeps what `Keeps` says.
-/
namespace Sys2Proof.Machine

theorem State.unitIn_keeps {s0 s : State} (h : Keeps s0 s) (a1) : Keeps s0 (State.unitIn s a1) := by
  unfold State.unitIn
  repeat' first
    | with_reducible assumption
    | (extract_lets +onlyGivenNames x; (first | (let z : Asu := x; clear z) | (let z : Pae := x; clear z) | (let z : Cpx := x; clear z) | clear_value x); revert x; intro y)
    | with_reducible apply State.mapTile_keeps
    | split
    | (with_reducible apply Keeps.upd
       with_reducible exact rfl
       first
         | with_reducible exact rfl
         | simp +zetaDelta [State.kept])

theorem State.returnUnit_keeps {s0 s : State} (h : Keeps s0 s) (a1) : Keeps s0 (State.returnUnit s a1) := by
  unfold State.returnUnit
  repeat' first
    | with_reducible assumption
    | with_reducible apply State.mapHealth_keeps
    | with_reducible apply State.wantMask_keeps
    | with_reducible apply State.unitIn_keeps

theorem State.retireUnit_keeps {s0 s : State} (h : Keeps s0 s) (a1 a2) : Keeps s0 (State.retireUnit s a1 a2) := by
  unfold State.retireUnit
  repeat' first
    | with_reducible assumption
    | (extract_lets +onlyGivenNames x
       first
         | (refine (fun (hx : Keeps s0 x) => ?_) ?_; clear_value x; revert x; intro y hy; rotate_left; subst x)
         | (clear_value x; revert x; intro y))
    | with_reducible apply State.wantMask_keeps
    | with_reducible apply State.unitOut_keeps
    | with_reducible apply State.mapHealth_keeps
    | with_reducible apply State.raise_keeps
    | with_reducible apply State.startRebuild_keeps
    | with_reducible apply State.mapTile_keeps
    | with_reducible apply State.wardenTested_keeps
    | with_reducible refine Keeps.ite ?_ ?_

end Sys2Proof.Machine
end

