-- ==== Sys2Proof/Laws/KeepsReset.lean ====
section
/-!
SUPPORT. Every operation and command of Machine/Reset.lean keeps what `Keeps` says.
-/
namespace Sys2Proof.Machine

theorem Keeps.store {s t : State} (h : Keeps s t) {l : List (Nat × OdVal)} (hl : l.Sublist t.od) : Keeps s { t with od := l } :=
  h.trans ⟨rfl, List.prefix_rfl, fun w => ⟨w.1.sublist hl, w.2⟩, Nat.le_refl _, Nat.le_refl _, Nat.le_refl _, fun _ => rfl, fun _ m => m, id, Nat.le_refl _⟩

theorem State.resetEntries_keeps {s0 s : State} (h : Keeps s0 s) : Keeps s0 (State.resetEntries s) := by
  unfold State.resetEntries
  exact h.store List.filter_sublist

theorem State.resetPorts_keeps {s0 s : State} (h : Keeps s0 s) : Keeps s0 (State.resetPorts s) := by
  unfold State.resetPorts
  repeat' first
    | with_reducible assumption
    | (extract_lets +onlyGivenNames x; clear_value x; revert x; intro y)
    | split
    | (with_reducible apply Keeps.upd
       with_reducible exact rfl
       first
         | with_reducible exact rfl
         | simp +zetaDelta [State.kept])

theorem State.resetWte_keeps {s0 s : State} (h : Keeps s0 s) : Keeps s0 (State.resetWte s) := by
  unfold State.resetWte
  repeat' first
    | with_reducible assumption
    | (extract_lets +onlyGivenNames x; clear_value x; revert x; intro y)
    | (with_reducible apply Keeps.upd
       with_reducible exact rfl
       first
         | with_reducible exact rfl
         | simp +zetaDelta [State.kept])

theorem State.resetCqc_keeps {s0 s : State} (h : Keeps s0 s) : Keeps s0 (State.resetCqc s) := by
  unfold State.resetCqc
  exact h.trans ⟨rfl, List.prefix_rfl, fun ⟨w1, w2, w3, w4, w5, w6, _, w8, w9, w10⟩ =>
    ⟨w1, w2, w3, w4, w5, w6, by simp [State.kept, Cqc.reset], w8, w9, w10⟩, Nat.le_refl _, Nat.le_refl _, Nat.le_refl _, fun _ => rfl, fun _ m => m, id, Nat.le_refl _⟩

theorem State.resetTpk_keeps {s0 s : State} (h : Keeps s0 s) : Keeps s0 (State.resetTpk s) := by
  unfold State.resetTpk
  repeat' first
    | with_reducible assumption
    | (extract_lets +onlyGivenNames x; clear_value x; revert x; intro y)
    | (with_reducible apply Keeps.upd
       with_reducible exact rfl
       first
         | with_reducible exact rfl
         | simp +zetaDelta [State.kept])

theorem State.resetAsu_keeps {s0 s : State} (h : Keeps s0 s) (a1) : Keeps s0 (State.resetAsu s a1) := by
  unfold State.resetAsu
  exact h.trans ⟨rfl, List.prefix_rfl, fun ⟨w1, w2, _, w4, w5, w6, w7, w8⟩ =>
    ⟨w1, w2, by simp [State.kept], w4, w5, w6, w7, w8⟩, Nat.le_refl _, Nat.le_refl _, Nat.le_refl _, fun _ => rfl, fun _ m => m, id, Nat.le_refl _⟩

theorem State.resetPae_keeps {s0 s : State} (h : Keeps s0 s) : Keeps s0 (State.resetPae s) := by
  unfold State.resetPae
  repeat' first
    | with_reducible assumption
    | (extract_lets +onlyGivenNames x; (let z : Pae := x; clear z); revert x; intro y)
    | (with_reducible apply Keeps.upd
       with_reducible exact rfl
       first
         | with_reducible exact rfl
         | simp +zetaDelta [State.kept])

theorem State.resetCpx_keeps {s0 s : State} (h : Keeps s0 s) : Keeps s0 (State.resetCpx s) := by
  unfold State.resetCpx
  exact h.trans ⟨rfl, List.prefix_rfl, fun ⟨w1, w2, w3, w4, w5, w6, w7, w8⟩ =>
    ⟨w1, w2, w3, w4, by simpa [State.kept] using w5, by simp [State.kept, Cpx.reset], w7, w8⟩, Nat.le_refl _, Nat.le_refl _, Nat.le_refl _, fun _ => rfl, fun _ m => m, id, Nat.le_refl _⟩

theorem State.resetPlc_keeps {s0 s : State} (h : Keeps s0 s) : Keeps s0 (State.resetPlc s) := by
  unfold State.resetPlc
  repeat' first
    | with_reducible assumption
    | (extract_lets +onlyGivenNames x
       first
         | (refine (fun (hx : Keeps s0 x) => ?_) ?_; clear_value x; revert x; intro y hy; rotate_left; subst x)
         | ((first | (let z : Plc := x; clear z) | clear_value x); revert x; intro y))
    | with_reducible apply State.voidPlaces_keeps
    | with_reducible apply State.dropMoves_keeps
    | with_reducible apply State.dropDirty_keeps
    | with_reducible apply State.releaseStripes_keeps
    | split
    | (with_reducible apply Keeps.upd
       with_reducible exact rfl
       first
         | with_reducible exact rfl
         | simp +zetaDelta [State.kept])

theorem State.resetMta_keeps {s0 s : State} (h : Keeps s0 s) : Keeps s0 (State.resetMta s) := by
  unfold State.resetMta
  repeat' first
    | with_reducible assumption
    | (extract_lets +onlyGivenNames x; (let z : Mta := x; clear z); revert x; intro y)
    | (with_reducible apply Keeps.upd
       with_reducible exact rfl
       first
         | with_reducible exact rfl
         | simp +zetaDelta [State.kept])

theorem State.resetHealth_keeps {s0 s : State} (h : Keeps s0 s) : Keeps s0 (State.resetHealth s) := by
  unfold State.resetHealth
  repeat' first
    | with_reducible assumption
    | (extract_lets +onlyGivenNames x
       first
         | (let z : _ → _ := x; clear z; subst x)
         | ((first | (let z : Msv := x; clear z) | clear_value x); revert x; intro y))
    | dsimp only
    | (with_reducible apply Keeps.upd
       with_reducible exact rfl
       first
         | with_reducible exact rfl
         | simp +zetaDelta [State.kept])

theorem State.segSettle_keeps {s0 s : State} (h : Keeps s0 s) (a1) : Keeps s0 (State.segSettle s a1) := by
  unfold State.segSettle
  repeat' first
    | with_reducible assumption
    | (extract_lets +onlyGivenNames x; (first | (let z : Msv := x; clear z) | clear_value x); revert x; intro y)
    | (with_reducible apply Keeps.upd
       with_reducible exact rfl
       first
         | with_reducible exact rfl
         | simp +zetaDelta [State.kept])

theorem State.resetMsv_keeps {s0 s : State} (h : Keeps s0 s) : Keeps s0 (State.resetMsv s) := by
  unfold State.resetMsv
  repeat' first
    | with_reducible assumption
    | (extract_lets +onlyGivenNames x; (first | (let z : Msv := x; clear z) | clear_value x); revert x; intro y)
    | with_reducible apply State.segSettle_keeps
    | with_reducible apply State.dropStaging_keeps
    | (with_reducible apply Keeps.upd
       with_reducible exact rfl
       first
         | with_reducible exact rfl
         | simp +zetaDelta [State.kept])

theorem State.resetUnits_keeps {s0 s : State} (h : Keeps s0 s) (a1) : Keeps s0 (State.resetUnits s a1) := by
  unfold State.resetUnits
  repeat' first
    | with_reducible assumption
    | (extract_lets +onlyGivenNames x
       first
         | (refine (fun (hx : Keeps s0 x) => ?_) ?_; clear_value x; revert x; intro y hy; rotate_left; subst x)
         | ((first | (let z : Pch := x; clear z) | (let z : Jsr := x; clear z) | clear_value x); revert x; intro y))
    | with_reducible apply State.resetTpk_keeps
    | with_reducible apply State.resetHealth_keeps
    | with_reducible apply State.resetCqc_keeps
    | with_reducible apply State.resetWte_keeps
    | with_reducible apply State.resetPorts_keeps
    | with_reducible apply State.resetMsv_keeps
    | with_reducible apply State.resetMta_keeps
    | with_reducible apply State.resetPlc_keeps
    | with_reducible apply State.resetCpx_keeps
    | with_reducible apply State.pruneOlder_keeps
    | with_reducible apply State.resetPae_keeps
    | with_reducible apply State.resetAsu_keeps
    | split
    | (with_reducible apply Keeps.upd
       with_reducible exact rfl
       first
         | with_reducible exact rfl
         | simp +zetaDelta [State.kept])

theorem State.resetCore_keeps {s0 s : State} (h : Keeps s0 s) (a1) : Keeps s0 (State.resetCore s a1) := by
  unfold State.resetCore
  repeat' first
    | with_reducible assumption
    | with_reducible apply State.resetUnits_keeps
    | with_reducible apply State.resetEntries_keeps

theorem State.unpowerJsr_keeps {s0 s : State} (h : Keeps s0 s) : Keeps s0 (State.unpowerJsr s) := by
  unfold State.unpowerJsr
  extract_lets l x s1 y
  have h1 : Keeps s0 s1 := Keeps.foldl (fun t e ht => State.writeEvent_keeps ht ..)
    (h.jsr (Nat.zero_le _) (Nat.le_refl _) (Nat.le_refl _))
  clear_value s1
  exact h1.jsr (Nat.le_max_left ..) (Nat.le_refl _) (Nat.le_refl _)

theorem State.finishDie_keeps {s0 s : State} (h : Keeps s0 s) (a1 a2) : Keeps s0 (State.finishDie s a1 a2) := by
  unfold State.finishDie
  repeat' first
    | with_reducible assumption
    | (extract_lets +onlyGivenNames x; let z : _ → _ := x; clear z; subst x)
    | with_reducible apply State.rowProgrammed_keeps
    | with_reducible apply State.mapShard_keeps
    | with_reducible refine Keeps.ite ?_ ?_
    | split
    | dsimp only

theorem State.finishPrograms_keeps {s0 s : State} (h : Keeps s0 s) : Keeps s0 (State.finishPrograms s) := by
  unfold State.finishPrograms
  repeat' first
    | with_reducible assumption
    | with_reducible apply State.finishDie_keeps
    | with_reducible refine Keeps.ite ?_ ?_
    | with_reducible refine Keeps.foldl (fun t x ht => ?_) ?_

end Sys2Proof.Machine
end

