-- ==== Sys2Proof/Laws/KeepsPower.lean ====
section
/-!
SUPPORT. Every operation and command of Machine/Power.lean keeps what `Keeps` says.
-/
namespace Sys2Proof.Machine

theorem State.sealPacked_keeps {s0 s : State} (h : Keeps s0 s) : Keeps s0 (State.sealPacked s) := by
  unfold State.sealPacked
  repeat' first
    | with_reducible assumption
    | with_reducible apply State.seal_keeps
    | with_reducible refine Keeps.foldl (fun t x ht => ?_) ?_
    | with_reducible refine Keeps.getD ?_ ?_

theorem State.startFlush_keeps {s0 s : State} (h : Keeps s0 s) (a1) : Keeps s0 (State.startFlush s a1) := by
  unfold State.startFlush
  repeat' first
    | with_reducible assumption
    | (extract_lets +onlyGivenNames x
       first
         | (refine (fun (hx : Keeps s0 x) => ?_) ?_; clear_value x; revert x; intro y hy; rotate_left; subst x)
         | ((first | (let z : Plc := x; clear z) | (let z : Pch := x; clear z) | (let z : Cqc := x; clear z) | clear_value x); revert x; intro y))
    | with_reducible apply State.dropDirty_keeps
    | with_reducible apply State.resetUnits_keeps
    | with_reducible apply State.sealPacked_keeps
    | with_reducible apply State.finishPrograms_keeps
    | with_reducible apply State.settleStripe_keeps
    | with_reducible apply State.bump_keeps
    | with_reducible refine Keeps.foldl (fun t x ht => ?_) ?_
    | (with_reducible apply Keeps.upd
       with_reducible exact rfl
       first
         | with_reducible exact rfl
         | simp +zetaDelta [State.kept])

theorem State.beginStart_keeps {s0 s : State} (h : Keeps s0 s) (a1 a2) : Keeps s0 (State.beginStart s a1 a2) := by
  unfold State.beginStart
  repeat' first
    | with_reducible assumption
    | (extract_lets +onlyGivenNames x
       first
         | (refine (fun (hx : Keeps s0 x) => ?_) ?_; clear_value x; revert x; intro y hy; rotate_left; subst x)
         | ((first | (let z : Pch := x; clear z) | clear_value x); revert x; intro y))
    | with_reducible apply State.resetCore_keeps
    | with_reducible apply State.putBytes_keeps
    | with_reducible apply State.bump_keeps
    | with_reducible apply State.powerJsr_keeps
    | with_reducible refine Keeps.ite ?_ ?_
    | split
    | (with_reducible apply Keeps.upd
       with_reducible exact rfl
       first
         | with_reducible exact rfl
         | simp +zetaDelta [State.kept])

theorem State.aonStart_keeps {s0 s : State} (h : Keeps s0 s) : Keeps s0 (State.aonStart s) := by
  unfold State.aonStart
  repeat' first
    | with_reducible assumption
    | (extract_lets +onlyGivenNames x; (let z : Pch := x; clear z); revert x; intro y)
    | with_reducible apply State.segSettle_keeps
    | (with_reducible apply Keeps.upd
       with_reducible exact rfl
       first
         | with_reducible exact rfl
         | simp +zetaDelta [State.kept])

theorem State.goOff_keeps {s0 s : State} (h : Keeps s0 s) : Keeps s0 (State.goOff s) := by
  unfold State.goOff
  have h1 := h.jsr (j := { s.jsr with aon := [], aonDropped := 0 }) (Nat.le_max_left ..) (Nat.zero_le _) (Nat.le_refl _)
  exact h1.eq rfl

theorem State.holdStart_keeps {s0 s : State} (h : Keeps s0 s) : Keeps s0 (State.holdStart s) := by
  unfold State.holdStart
  repeat' first
    | with_reducible assumption
    | (extract_lets +onlyGivenNames x; (let z : Pch := x; clear z); revert x; intro y)
    | with_reducible apply State.goOff_keeps
    | with_reducible refine Keeps.ite ?_ ?_
    | (with_reducible apply Keeps.upd
       with_reducible exact rfl
       first
         | with_reducible exact rfl
         | simp +zetaDelta [State.kept])

theorem State.unwrapPage_keeps {s0 s : State} (h : Keeps s0 s) (a1) : Keeps s0 (State.unwrapPage s a1) := by
  unfold State.unwrapPage
  repeat' first
    | with_reducible assumption
    | (extract_lets +onlyGivenNames x
       first
         | (let z : _ → _ := x; clear z; subst x)
         | (clear_value x; revert x; intro y))
    | with_reducible apply State.setPage_keeps
    | with_reducible apply State.settlePage_keeps
    | with_reducible refine Keeps.ite ?_ ?_

theorem State.unwrapKeys_keeps {s0 s : State} (h : Keeps s0 s) : Keeps s0 (State.unwrapKeys s) := by
  unfold State.unwrapKeys
  repeat' first
    | with_reducible assumption
    | with_reducible apply State.unwrapPage_keeps
    | with_reducible refine Keeps.foldl (fun t x ht => ?_) ?_

theorem State.replayPages_keeps {s0 s : State} (h : Keeps s0 s) : Keeps s0 (State.replayPages s) := by
  unfold State.replayPages
  repeat' first
    | with_reducible assumption
    | (extract_lets +onlyGivenNames x; (first | (let z : Plc := x; clear z) | (let z : Asu := x; clear z) | clear_value x); revert x; intro y)
    | (with_reducible apply Keeps.upd
       with_reducible exact rfl
       first
         | with_reducible exact rfl
         | simp +zetaDelta [State.kept])

theorem Keeps.ringNext {s t : State} (h : Keeps s t) (n : Nat) : Keeps s { t with plc.ringNext := n } := h.eq rfl

theorem State.stopReplay_keeps {s0 s : State} (h : Keeps s0 s) : Keeps s0 (State.stopReplay s) := by
  unfold State.stopReplay
  split
  · exact h
  · rename_i r later _
    extract_lets pl p s1
    have h2 : Keeps s0 s1 := h.ringNext pl
    clear_value s1
    split
    · exact h2
    · exact State.raise_keeps h2 ..

theorem State.replay_keeps {s0 s : State} (h : Keeps s0 s) : Keeps s0 (State.replay s) := by
  unfold State.replay
  repeat' first
    | with_reducible assumption
    | (extract_lets +onlyGivenNames x
       first
         | (refine (fun (hx : Keeps s0 x) => ?_) ?_; clear_value x; revert x; intro y hy; rotate_left; subst x)
         | ((first | (let z : Plc := x; clear z) | clear_value x); revert x; intro y))
    | with_reducible apply State.replayPages_keeps
    | with_reducible apply State.stopReplay_keeps
    | with_reducible apply State.mapStripe_keeps
    | with_reducible apply State.loseStripe_keeps
    | with_reducible apply State.advanceEpoch_keeps
    | with_reducible refine Keeps.foldl (fun t x ht => ?_) ?_
    | (with_reducible apply Keeps.upd
       with_reducible exact rfl
       first
         | with_reducible exact rfl
         | simp +zetaDelta [State.kept])

theorem State.wardensStart_keeps {s0 s : State} (h : Keeps s0 s) : Keeps s0 (State.wardensStart s) := by
  unfold State.wardensStart
  repeat' first
    | with_reducible assumption
    | (extract_lets +onlyGivenNames x; let z : _ → _ := x; clear z; subst x)
    | with_reducible apply State.mapWarden_keeps
    | with_reducible refine Keeps.ite ?_ ?_

theorem Keeps.outOfService {s t : State} (h : Keeps s t) : Keeps s { t with pch.outOfService := true } :=
  h.trans ⟨rfl, List.prefix_rfl, fun w => w, Nat.le_refl _, Nat.le_refl _, Nat.le_refl _, fun _ => rfl, fun _ m => m,
    fun _ => rfl, Nat.le_refl _⟩

theorem State.powerUpFail_keeps {s0 s : State} (h : Keeps s0 s) (a1) : Keeps s0 (State.powerUpFail s a1) := by
  unfold State.powerUpFail
  split
  · exact h
  split
  rename_i b s1 e
  have h1 := Keeps.of2 e (State.takeFree_keeps h _)
  split
  rename_i a s2 e2
  have h2 := Keeps.of2 e2 (State.takeFree_keeps h1 _)
  have h3 := State.bump_keeps (State.bump_keeps (State.raise_keeps (State.raise_keeps h2 0xE003 a1.word 3 0 0) 0xE805 a1.word 3 b a)
    0xE111 0x01 1) 0xE111 0x03 1
  clear e e2
  split
  · split
    · exact State.retireUnit_keeps h3 ..
    · exact h3.outOfService
  · refine Keeps.foldl (fun t x ht => ?_) h3
    split
    · exact ht
    · exact State.retireUnit_keeps ht ..

theorem State.stepTime_keeps {s0 s : State} (h : Keeps s0 s) (a1 a2) : Keeps s0 (State.stepTime s a1 a2) := by
  unfold State.stepTime
  repeat' first
    | with_reducible assumption
    | (extract_lets +onlyGivenNames x; clear_value x; revert x; intro y)
    | with_reducible apply State.putBytes_keeps

theorem State.startTiles_length (s : State) : s.startTiles.length = s.mta.tiles.length := by simp [State.startTiles]

theorem State.enterReady_keeps {s0 s : State} (h : Keeps s0 s) (a1) : Keeps s0 (State.enterReady s a1) := by
  unfold State.enterReady
  extract_lets before m p s1 s2
  have h1 : Keeps s0 s1 := h.eq (by simp [s1, p, m, State.kept, State.startTiles_length])
  clear_value s1
  exact State.readyActive_keeps (State.raise_keeps (State.limitFrom_keeps h1 _) ..)

theorem State.loadPinned_keeps {s0 s : State} (h : Keeps s0 s) : Keeps s0 (State.loadPinned s) := by
  unfold State.loadPinned
  repeat' first
    | with_reducible assumption
    | with_reducible apply State.pageIn_keeps
    | with_reducible refine Keeps.foldl (fun t x ht => ?_) ?_

theorem execStartupStepDone_keeps {s0 s : State} (h : Keeps s0 s) (a1 a2) : KeepsR s0 (execStartupStepDone a1 a2 s) := by
  unfold execStartupStepDone
  repeat' first
    | with_reducible assumption
    | (extract_lets +onlyGivenNames x
       first
         | (refine (fun (hx : Keeps s0 x) => ?_) ?_; clear_value x; revert x; intro y hy; rotate_left; subst x)
         | ((first | (let z : Msv := x; clear z) | (let z : Pch := x; clear z) | clear_value x); revert x; intro y))
    | with_reducible apply State.powerJsr_keeps
    | with_reducible apply State.stepTime_keeps
    | with_reducible apply State.wardensStart_keeps
    | with_reducible apply State.powerUpFail_keeps
    | with_reducible apply State.bootFirmware_keeps
    | with_reducible apply State.replay_keeps
    | with_reducible apply State.unwrapKeys_keeps
    | with_reducible apply State.loadPinned_keeps
    | with_reducible apply State.enterReady_keeps
    | with_reducible apply State.preloadAll_keeps
    | with_reducible apply KeepsR.next
    | with_reducible apply KeepsR.fault
    | with_reducible refine Keeps.foldl (fun t x ht => ?_) ?_
    | split
    | (with_reducible apply Keeps.upd
       with_reducible exact rfl
       first
         | with_reducible exact rfl
         | simp +zetaDelta [State.kept])

theorem State.lastFlush_keeps {s0 s : State} (h : Keeps s0 s) (a1 a2 a3 a4 a5) : Keeps s0 (State.lastFlush s a1 a2 a3 a4 a5) := by
  unfold State.lastFlush
  repeat' first
    | with_reducible assumption
    | with_reducible apply State.putBytes_keeps

theorem State.flushStripe_keeps {s0 s : State} (h : Keeps s0 s) (a1) : Keeps s0 (State.flushStripe s a1) := by
  unfold State.flushStripe
  repeat' first
    | with_reducible assumption
    | (extract_lets +onlyGivenNames x
       first
         | (refine (fun (hx : Keeps s0 x) => ?_) ?_; clear_value x; revert x; intro y hy; rotate_left; subst x)
         | (let z : _ → _ := x; clear z; subst x)
         | ((first | (let z : Plc := x; clear z) | clear_value x); revert x; intro y))
    | with_reducible refine Keeps.of2 ‹_› ?_
    | with_reducible apply State.takeSlot_keeps
    | with_reducible apply State.mapStripe_keeps
    | with_reducible refine Keeps.foldl2 (fun t x ht => ?_) ?_
    | split
    | (with_reducible apply Keeps.upd
       with_reducible exact rfl
       first
         | with_reducible exact rfl
         | simp +zetaDelta [State.kept])

theorem State.flushDone_keeps {s0 s : State} (h : Keeps s0 s) : Keeps s0 (State.flushDone s) := by
  unfold State.flushDone
  repeat' first
    | with_reducible assumption
    | (extract_lets +onlyGivenNames x
       first
         | (refine (fun (hx : Keeps s0 x) => ?_) ?_; clear_value x; revert x; intro y hy; rotate_left; subst x)
         | ((first | (let z : Pch := x; clear z) | clear_value x); revert x; intro y))
    | with_reducible apply State.flushStripe_keeps
    | with_reducible apply State.trimJournal_keeps
    | with_reducible apply State.writeRoots_keeps
    | with_reducible apply State.journalAppend_keeps
    | with_reducible refine Keeps.foldl (fun t x ht => ?_) ?_
    | (with_reducible apply Keeps.upd
       with_reducible exact rfl
       first
         | with_reducible exact rfl
         | simp +zetaDelta [State.kept])

theorem execFlushEnd_keeps {s0 s : State} (h : Keeps s0 s) (a1 a2 a3) : KeepsR s0 (execFlushEnd a1 a2 a3 s) := by
  unfold execFlushEnd
  repeat' first
    | with_reducible assumption
    | (extract_lets +onlyGivenNames x
       first
         | (refine (fun (hx : Keeps s0 x) => ?_) ?_; clear_value x; revert x; intro y hy; rotate_left; subst x)
         | ((first | (let z : Pch := x; clear z) | clear_value x); revert x; intro y))
    | with_reducible apply State.awaitJournal_keeps
    | with_reducible apply State.raise_keeps
    | with_reducible apply State.flushDone_keeps
    | with_reducible apply State.lastFlush_keeps
    | with_reducible apply State.takeFree_keeps
    | with_reducible apply State.unpowerJsr_keeps
    | with_reducible apply State.beginStart_keeps
    | with_reducible apply State.holdStart_keeps
    | with_reducible apply KeepsR.next
    | split
    | (with_reducible apply Keeps.upd
       with_reducible exact rfl
       first
         | with_reducible exact rfl
         | simp +zetaDelta [State.kept])

theorem State.enterHold_keeps {s0 s : State} (h : Keeps s0 s) : Keeps s0 (State.enterHold s) := by
  unfold State.enterHold
  repeat' first
    | with_reducible assumption
    | (extract_lets +onlyGivenNames x
       first
         | (refine (fun (hx : Keeps s0 x) => ?_) ?_; clear_value x; revert x; intro y hy; rotate_left; subst x)
         | ((first | (let z : Pch := x; clear z) | (let z : Cqc := x; clear z)); revert x; intro y))
    | with_reducible apply State.resetUnits_keeps
    | with_reducible apply State.journalAppend_keeps
    | with_reducible apply State.unpowerJsr_keeps
    | with_reducible apply State.bump_keeps
    | with_reducible apply State.goOff_keeps
    | with_reducible refine Keeps.ite ?_ ?_
    | (with_reducible apply Keeps.upd
       with_reducible exact rfl
       first
         | with_reducible exact rfl
         | simp +zetaDelta [State.kept])

theorem State.mainRemoved_keeps {s0 s : State} (h : Keeps s0 s) (a1) : Keeps s0 (State.mainRemoved s a1) := by
  unfold State.mainRemoved
  repeat' first
    | with_reducible assumption
    | (extract_lets +onlyGivenNames x
       first
         | (refine (fun (hx : Keeps s0 x) => ?_) ?_; clear_value x; revert x; intro y hy; rotate_left; subst x)
         | ((let z : Pch := x; clear z); revert x; intro y))
    | with_reducible apply State.holdStart_keeps
    | with_reducible apply State.unpowerJsr_keeps
    | with_reducible apply State.resetUnits_keeps
    | with_reducible apply State.enterHold_keeps
    | with_reducible apply State.startFlush_keeps
    | with_reducible refine Keeps.ite ?_ ?_
    | split
    | (with_reducible apply Keeps.upd
       with_reducible exact rfl
       first
         | with_reducible exact rfl
         | simp +zetaDelta [State.kept])

theorem execPowerLossDetect_keeps {s0 s : State} (h : Keeps s0 s) (a1) : KeepsR s0 (execPowerLossDetect a1 s) := by
  unfold execPowerLossDetect
  repeat' first
    | with_reducible assumption
    | with_reducible apply State.mainRemoved_keeps
    | with_reducible apply KeepsR.next
    | split

theorem execHoldEntry_keeps {s0 s : State} (h : Keeps s0 s) : KeepsR s0 (execHoldEntry s) := by
  unfold execHoldEntry
  repeat' first
    | with_reducible assumption
    | with_reducible apply State.enterHold_keeps
    | with_reducible apply KeepsR.next
    | split

theorem execAuxRemoved_keeps {s0 s : State} (h : Keeps s0 s) : KeepsR s0 (execAuxRemoved s) := by
  unfold execAuxRemoved
  repeat' first
    | with_reducible assumption
    | (extract_lets +onlyGivenNames x
       first
         | (refine (fun (hx : Keeps s0 x) => ?_) ?_; clear_value x; revert x; intro y hy; rotate_left; subst x)
         | ((let z : Pch := x; clear z); revert x; intro y))
    | with_reducible apply State.goOff_keeps
    | with_reducible apply KeepsR.next
    | split
    | (with_reducible apply Keeps.upd
       with_reducible exact rfl
       first
         | with_reducible exact rfl
         | simp +zetaDelta [State.kept])

theorem execAuxApplied_keeps {s0 s : State} (h : Keeps s0 s) (a1) : KeepsR s0 (execAuxApplied a1 s) := by
  unfold execAuxApplied
  repeat' first
    | with_reducible assumption
    | (extract_lets +onlyGivenNames x
       first
         | (refine (fun (hx : Keeps s0 x) => ?_) ?_; clear_value x; revert x; intro y hy; rotate_left; subst x)
         | ((let z : Pch := x; clear z); revert x; intro y))
    | with_reducible apply State.aonStart_keeps
    | with_reducible apply KeepsR.next
    | split
    | (with_reducible apply Keeps.upd
       with_reducible exact rfl
       first
         | with_reducible exact rfl
         | simp +zetaDelta [State.kept])

theorem State.bankAt_keeps {s0 s : State} (h : Keeps s0 s) (a1) : Keeps s0 (State.bankAt s a1) := by
  unfold State.bankAt
  repeat' first
    | with_reducible assumption
    | (extract_lets +onlyGivenNames x; (let z : Pch := x; clear z); revert x; intro y)
    | split
    | (with_reducible apply Keeps.upd
       with_reducible exact rfl
       first
         | with_reducible exact rfl
         | simp +zetaDelta [State.kept])

theorem State.setTested_keeps {s0 s : State} (h : Keeps s0 s) (a1) : Keeps s0 (State.setTested s a1) := by
  unfold State.setTested
  repeat' first
    | with_reducible assumption
    | (extract_lets +onlyGivenNames x; (let z : Pch := x; clear z); revert x; intro y)
    | (with_reducible apply Keeps.upd
       with_reducible exact rfl
       first
         | with_reducible exact rfl
         | simp +zetaDelta [State.kept])

theorem Keeps.power {s t : State} (h : Keeps s t) (p : Power) (n : Nat) : Keeps s { t with pch.power := p, pch.step := n } := h.eq rfl

theorem State.resumeHold_keeps {s0 s : State} (h : Keeps s0 s) (a1) : Keeps s0 (State.resumeHold s a1) := by
  unfold State.resumeHold
  extract_lets passed s1 s2 s3
  have h3 : Keeps s0 s3 := State.bankAt_keeps (State.advanceEpoch_keeps
    (State.unwrapKeys_keeps (State.wardensStart_keeps (State.beginStart_keeps h _ _))) _) _
  clear_value s3
  split
  · split
    exact State.enterReady_keeps (State.preloadAll_keeps (State.setTested_keeps (Keeps.of2 ‹_› (State.takeFree_keeps h3 _)) _)) _
  · exact h3.power _ _

theorem execMainPowerGood_keeps {s0 s : State} (h : Keeps s0 s) (a1) : KeepsR s0 (execMainPowerGood a1 s) := by
  unfold execMainPowerGood
  repeat' first
    | with_reducible assumption
    | (extract_lets +onlyGivenNames x
       first
         | (refine (fun (hx : Keeps s0 x) => ?_) ?_; clear_value x; revert x; intro y hy; rotate_left; subst x)
         | (let z : _ → _ := x; clear z; subst x)
         | ((let z : Pch := x; clear z); revert x; intro y))
    | with_reducible apply State.beginStart_keeps
    | with_reducible apply State.aonStart_keeps
    | with_reducible apply State.resumeHold_keeps
    | with_reducible apply KeepsR.next
    | split
    | dsimp only
    | (with_reducible apply Keeps.upd
       with_reducible exact rfl
       first
         | with_reducible exact rfl
         | simp +zetaDelta [State.kept])

theorem State.mrstRecognised_keeps {s0 s : State} (h : Keeps s0 s) : Keeps s0 (State.mrstRecognised s) := by
  unfold State.mrstRecognised
  repeat' first
    | with_reducible assumption
    | (extract_lets +onlyGivenNames x
       first
         | (refine (fun (hx : Keeps s0 x) => ?_) ?_; clear_value x; revert x; intro y hy; rotate_left; subst x)
         | ((let z : Pch := x; clear z); revert x; intro y))
    | with_reducible apply State.bump_keeps
    | with_reducible apply State.unpowerJsr_keeps
    | with_reducible apply State.resetUnits_keeps
    | with_reducible apply State.startFlush_keeps
    | with_reducible refine Keeps.ite ?_ ?_
    | split
    | (with_reducible apply Keeps.upd
       with_reducible exact rfl
       first
         | with_reducible exact rfl
         | simp +zetaDelta [State.kept])

theorem State.mrstReleased_keeps {s0 s : State} (h : Keeps s0 s) : Keeps s0 (State.mrstReleased s) := by
  unfold State.mrstReleased
  repeat' first
    | with_reducible assumption
    | (extract_lets +onlyGivenNames x
       first
         | (refine (fun (hx : Keeps s0 x) => ?_) ?_; clear_value x; revert x; intro y hy; rotate_left; subst x)
         | (refine (fun (hx : KeepsO s0 x) => ?_) ?_; clear_value x; revert x; intro y hy; rotate_left; subst x)
         | ((let z : Pch := x; clear z); revert x; intro y))
    | with_reducible apply State.beginStart_keeps
    | with_reducible refine Keeps.ite ?_ ?_
    | (with_reducible apply Keeps.upd
       with_reducible exact rfl
       first
         | with_reducible exact rfl
         | simp +zetaDelta [State.kept])

theorem execMrstNAssert_keeps {s0 s : State} (h : Keeps s0 s) (a1) : KeepsR s0 (execMrstNAssert a1 s) := by
  unfold execMrstNAssert
  repeat' first
    | with_reducible assumption
    | (extract_lets +onlyGivenNames x; (let z : Pch := x; clear z); revert x; intro y)
    | with_reducible refine Keeps.of2 ‹_› ?_
    | with_reducible apply State.bump_keeps
    | with_reducible apply State.takeFree_keeps
    | with_reducible apply State.mrstReleased_keeps
    | with_reducible apply State.mrstRecognised_keeps
    | with_reducible apply KeepsR.next
    | split
    | (with_reducible apply Keeps.upd
       with_reducible exact rfl
       first
         | with_reducible exact rfl
         | simp +zetaDelta [State.kept])

theorem execMrstNRelease_keeps {s0 s : State} (h : Keeps s0 s) : KeepsR s0 (execMrstNRelease s) := by
  unfold execMrstNRelease
  repeat' first
    | with_reducible assumption
    | with_reducible apply State.mrstReleased_keeps
    | with_reducible apply KeepsR.next
    | split

theorem execPwrdisAssert_keeps {s0 s : State} (h : Keeps s0 s) : KeepsR s0 (execPwrdisAssert s) := by
  unfold execPwrdisAssert
  repeat' first
    | with_reducible assumption
    | (extract_lets +onlyGivenNames x
       first
         | (refine (fun (hx : Keeps s0 x) => ?_) ?_; clear_value x; revert x; intro y hy; rotate_left; subst x)
         | ((let z : Pch := x; clear z); revert x; intro y))
    | with_reducible apply State.bump_keeps
    | with_reducible apply State.mainRemoved_keeps
    | with_reducible apply KeepsR.next
    | split
    | (with_reducible apply Keeps.upd
       with_reducible exact rfl
       first
         | with_reducible exact rfl
         | simp +zetaDelta [State.kept])

theorem execPwrdisRelease_keeps {s0 s : State} (h : Keeps s0 s) : KeepsR s0 (execPwrdisRelease s) := by
  unfold execPwrdisRelease
  repeat' first
    | with_reducible assumption
    | (extract_lets +onlyGivenNames x; (let z : Pch := x; clear z); revert x; intro y)
    | with_reducible apply KeepsR.next
    | (with_reducible apply Keeps.upd
       with_reducible exact rfl
       first
         | with_reducible exact rfl
         | simp +zetaDelta [State.kept])

theorem State.endPrepare_keeps {s0 s : State} (h : Keeps s0 s) (a1 a2 a3) : Keeps s0 (State.endPrepare s a1 a2 a3) := by
  unfold State.endPrepare
  repeat' first
    | with_reducible assumption
    | with_reducible apply State.completeTask_keeps
    | with_reducible apply State.finish_keeps
    | with_reducible refine Keeps.foldl (fun t x ht => ?_) ?_

theorem State.drained_keeps {s0 s : State} (h : Keeps s0 s) (a1) : Keeps s0 (State.drained s a1) := by
  unfold State.drained
  repeat' first
    | with_reducible assumption
    | (extract_lets +onlyGivenNames x
       first
         | (refine (fun (hx : Keeps s0 x) => ?_) ?_; clear_value x; revert x; intro y hy; rotate_left; subst x)
         | ((first | (let z : Plc := x; clear z) | (let z : Pch := x; clear z) | (let z : Cqc := x; clear z)); revert x; intro y))
    | with_reducible apply State.journalAppend_keeps
    | with_reducible apply State.endPrepare_keeps
    | split
    | (with_reducible apply Keeps.upd
       with_reducible exact rfl
       first
         | with_reducible exact rfl
         | simp +zetaDelta [State.kept])

theorem execDrainPhaseAdvance_keeps {s0 s : State} (h : Keeps s0 s) : KeepsR s0 (execDrainPhaseAdvance s) := by
  unfold execDrainPhaseAdvance
  repeat' first
    | with_reducible assumption
    | (extract_lets +onlyGivenNames x; (first | (let z : Cqc := x; clear z) | clear_value x); revert x; intro y)
    | with_reducible apply State.sealPacked_keeps
    | with_reducible apply State.drained_keeps
    | with_reducible apply State.completeTask_keeps
    | with_reducible apply State.beginStart_keeps
    | with_reducible apply KeepsR.next
    | with_reducible refine Keeps.foldl (fun t x ht => ?_) ?_
    | split
    | (with_reducible apply Keeps.upd
       with_reducible exact rfl
       first
         | with_reducible exact rfl
         | simp +zetaDelta [State.kept])

theorem execDrainLimitExpiry_keeps {s0 s : State} (h : Keeps s0 s) : KeepsR s0 (execDrainLimitExpiry s) := by
  unfold execDrainLimitExpiry
  repeat' first
    | with_reducible assumption
    | (extract_lets +onlyGivenNames x
       first
         | (refine (fun (hx : Keeps s0 x) => ?_) ?_; clear_value x; revert x; intro y hy; rotate_left; subst x)
         | ((first | (let z : Msv := x; clear z) | (let z : Cqc := x; clear z) | clear_value x); revert x; intro y))
    | with_reducible apply State.endPrepare_keeps
    | with_reducible apply State.readyActive_keeps
    | with_reducible apply State.completeTask_keeps
    | with_reducible apply State.freeTrs_keeps
    | with_reducible apply State.raise_keeps
    | with_reducible apply State.bump_keeps
    | with_reducible apply State.sealPacked_keeps
    | with_reducible apply KeepsR.next
    | with_reducible refine Keeps.foldl (fun t x ht => ?_) ?_
    | split
    | (with_reducible apply Keeps.upd
       with_reducible exact rfl
       first
         | with_reducible exact rfl
         | simp +zetaDelta [State.kept])

theorem State.dozeLink_keeps {s0 s : State} (h : Keeps s0 s) (a1) : Keeps s0 (State.dozeLink s a1) := by
  unfold State.dozeLink
  repeat' first
    | with_reducible assumption
    | with_reducible apply State.pbump_keeps
    | with_reducible apply State.mapPort_keeps
    | with_reducible refine Keeps.ite ?_ ?_

theorem State.dozeTiles_keeps {s0 s : State} (h : Keeps s0 s) (a1) : Keeps s0 (State.dozeTiles s a1) := by
  unfold State.dozeTiles
  exact h.trans ⟨rfl, List.prefix_rfl, fun ⟨w1, _, w3⟩ => ⟨w1, by simp [State.kept], w3⟩, Nat.le_refl _, Nat.le_refl _, Nat.le_refl _, fun _ => rfl, fun _ m => m, id, Nat.le_refl _⟩

theorem State.dozeAdvance_keeps {s0 s : State} (h : Keeps s0 s) (a1) : Keeps s0 (State.dozeAdvance s a1) := by
  unfold State.dozeAdvance
  repeat' first
    | with_reducible assumption
    | (extract_lets +onlyGivenNames x
       first
         | (refine (fun (hx : Keeps s0 x) => ?_) ?_; clear_value x; revert x; intro y hy; rotate_left; subst x)
         | ((first | (let z : Pch := x; clear z) | (let z : Cqc := x; clear z) | clear_value x); revert x; intro y))
    | with_reducible apply State.dozeLink_keeps
    | with_reducible apply State.bump_keeps
    | with_reducible apply State.dozeTiles_keeps
    | split
    | (with_reducible apply Keeps.upd
       with_reducible exact rfl
       first
         | with_reducible exact rfl
         | simp +zetaDelta [State.kept])

theorem State.wakeLink_keeps {s0 s : State} (h : Keeps s0 s) (a1) : Keeps s0 (State.wakeLink s a1) := by
  unfold State.wakeLink
  repeat' first
    | with_reducible assumption
    | with_reducible apply State.mapPort_keeps
    | with_reducible refine Keeps.ite ?_ ?_

theorem State.restartCycle_keeps {s0 s : State} (h : Keeps s0 s) : Keeps s0 (State.restartCycle s) := by
  unfold State.restartCycle
  repeat' first
    | with_reducible assumption
    | (extract_lets +onlyGivenNames x; (first | (let z : Cqc := x; clear z) | clear_value x); revert x; intro y)
    | split
    | (with_reducible apply Keeps.upd
       with_reducible exact rfl
       first
         | with_reducible exact rfl
         | simp +zetaDelta [State.kept])

theorem State.wakeUp_keeps {s0 s : State} (h : Keeps s0 s) : Keeps s0 (State.wakeUp s) := by
  unfold State.wakeUp
  repeat' first
    | with_reducible assumption
    | (extract_lets +onlyGivenNames x
       first
         | (refine (fun (hx : Keeps s0 x) => ?_) ?_; clear_value x; revert x; intro y hy; rotate_left; subst x)
         | ((first | (let z : Pch := x; clear z) | clear_value x); revert x; intro y))
    | with_reducible apply State.restartCycle_keeps
    | with_reducible apply State.wakeLink_keeps
    | with_reducible apply State.wakeTile_keeps
    | with_reducible apply State.readyActive_keeps
    | with_reducible apply State.bump_keeps
    | with_reducible refine Keeps.ite ?_ ?_
    | with_reducible refine Keeps.foldl (fun t x ht => ?_) ?_
    | (with_reducible apply Keeps.upd
       with_reducible exact rfl
       first
         | with_reducible exact rfl
         | simp +zetaDelta [State.kept])

theorem State.dozeTick_keeps {s0 s : State} (h : Keeps s0 s) : Keeps s0 (State.dozeTick s) := by
  unfold State.dozeTick
  repeat' first
    | with_reducible assumption
    | with_reducible apply State.wakeUp_keeps
    | with_reducible refine Keeps.ite ?_ ?_

theorem State.dozeNext_keeps {s0 s : State} (h : Keeps s0 s) : Keeps s0 (State.dozeNext s) := by
  unfold State.dozeNext
  repeat' first
    | with_reducible assumption
    | (extract_lets +onlyGivenNames x; refine (fun (hx : Keeps s0 x) => ?_) ?_; clear_value x; revert x; intro y hy; rotate_left; subst x)
    | with_reducible apply State.dozeAdvance_keeps
    | with_reducible apply State.wakeUp_keeps
    | with_reducible apply State.bump_keeps
    | with_reducible refine Keeps.ite ?_ ?_

theorem execDozeEntry_keeps {s0 s : State} (h : Keeps s0 s) : KeepsR s0 (execDozeEntry s) := by
  unfold execDozeEntry
  repeat' first
    | with_reducible assumption
    | with_reducible apply State.dozeNext_keeps
    | with_reducible apply State.dozeAdvance_keeps
    | with_reducible apply KeepsR.next
    | split

theorem execDozeWake_keeps {s0 s : State} (h : Keeps s0 s) : KeepsR s0 (execDozeWake s) := by
  unfold execDozeWake
  repeat' first
    | with_reducible assumption
    | with_reducible apply State.wakeUp_keeps
    | with_reducible apply KeepsR.next

theorem moduleResetEffect_keeps {s0 s : State} (h : Keeps s0 s) (br bi bu bv) : Keeps s0 (moduleResetEffect br bi bu bv s).1 := by
  unfold moduleResetEffect
  repeat' first
    | with_reducible assumption
    | with_reducible apply State.putNum_keeps
    | with_reducible apply State.startDrain_keeps
    | with_reducible apply State.wakeUp_keeps
    | split

theorem execModuleReset_keeps {s0 s : State} (h : Keeps s0 s) (a1 a2) : KeepsR s0 (execModuleReset a1 a2 s) := by
  unfold execModuleReset
  repeat' first
    | with_reducible assumption
    | with_reducible apply State.ownWrite_keeps
    | with_reducible apply moduleResetEffect_keeps
    | with_reducible apply KeepsR.next
    | intro _

theorem execDeviceTimeCheckpoint_keeps {s0 s : State} (h : Keeps s0 s) : KeepsR s0 (execDeviceTimeCheckpoint s) := by
  unfold execDeviceTimeCheckpoint
  repeat' first
    | with_reducible assumption
    | (extract_lets +onlyGivenNames x; (let z : Pch := x; clear z); revert x; intro y)
    | with_reducible apply KeepsR.next
    | split
    | (with_reducible apply Keeps.upd
       with_reducible exact rfl
       first
         | with_reducible exact rfl
         | simp +zetaDelta [State.kept])

theorem execAonTrim_keeps {s0 s : State} (h : Keeps s0 s) (a1) : KeepsR s0 (execAonTrim a1 s) := by
  unfold execAonTrim
  repeat' first
    | with_reducible assumption
    | with_reducible apply State.putNum_keeps
    | with_reducible apply KeepsR.next
    | split

theorem execModuleOutOfService_keeps {s0 s : State} (h : Keeps s0 s) : KeepsR s0 (execModuleOutOfService s) := by
  unfold execModuleOutOfService
  exact KeepsR.next (h.outOfService.eq rfl)

end Sys2Proof.Machine
end

