-- ==== Sys2Proof/Laws/KeepsFirewood.lean ====
section
/-!
SUPPORT. Every operation and command of Machine/Firewood.lean keeps what `Keeps` says.
-/
namespace Sys2Proof.Machine

theorem State.measure_keeps {s0 s : State} (h : Keeps s0 s) (a1 a2 a3 a4 a5) : Keeps s0 (State.measure s a1 a2 a3 a4 a5) := by
  unfold State.measure
  repeat' first
    | with_reducible assumption
    | with_reducible apply State.putBytes_keeps

theorem State.testFails_keeps {s0 s : State} (h : Keeps s0 s) (a1 a2 a3 a4 a5) : Keeps s0 (State.testFails s a1 a2 a3 a4 a5) := by
  unfold State.testFails
  repeat' first
    | with_reducible assumption
    | (extract_lets +onlyGivenNames x
       first
         | (refine (fun (hx : Keeps s0 x) => ?_) ?_; clear_value x; revert x; intro y hy; rotate_left; subst x)
         | ((first | (let z : Pch := x; clear z) | clear_value x); revert x; intro y))
    | with_reducible apply State.bump_keeps
    | with_reducible apply State.measure_keeps
    | with_reducible apply State.putNum_keeps
    | with_reducible apply State.raise_keeps
    | with_reducible apply State.setTested_keeps
    | with_reducible apply State.endForcedDrain_keeps
    | (with_reducible apply Keeps.upd
       with_reducible exact rfl
       first
         | with_reducible exact rfl
         | simp +zetaDelta [State.kept])

theorem State.testPasses_keeps {s0 s : State} (h : Keeps s0 s) (a1 a2 a3 a4) : Keeps s0 (State.testPasses s a1 a2 a3 a4) := by
  unfold State.testPasses
  repeat' first
    | with_reducible assumption
    | (extract_lets +onlyGivenNames x
       first
         | (refine (fun (hx : Keeps s0 x) => ?_) ?_; clear_value x; revert x; intro y hy; rotate_left; subst x)
         | ((first | (let z : Pch := x; clear z) | clear_value x); revert x; intro y))
    | with_reducible apply State.putNum_keeps
    | with_reducible apply State.bump_keeps
    | with_reducible apply State.measure_keeps
    | with_reducible apply State.setTested_keeps
    | with_reducible apply State.raise_keeps
    | with_reducible apply State.limitFrom_keeps
    | with_reducible refine Keeps.ite ?_ ?_
    | (with_reducible apply Keeps.upd
       with_reducible exact rfl
       first
         | with_reducible exact rfl
         | simp +zetaDelta [State.kept])

theorem State.beginTest_keeps {s0 s : State} (h : Keeps s0 s) : Keeps s0 (State.beginTest s) := by
  unfold State.beginTest
  repeat' first
    | with_reducible assumption
    | (extract_lets +onlyGivenNames x; (first | (let z : Pch := x; clear z) | clear_value x); revert x; intro y)
    | with_reducible apply State.limitFrom_keeps
    | with_reducible refine Keeps.ite ?_ ?_
    | (with_reducible apply Keeps.upd
       with_reducible exact rfl
       first
         | with_reducible exact rfl
         | simp +zetaDelta [State.kept])

theorem execFirewoodTestDue_keeps {s0 s : State} (h : Keeps s0 s) : KeepsR s0 (execFirewoodTestDue s) := by
  unfold execFirewoodTestDue
  repeat' first
    | with_reducible assumption
    | with_reducible apply State.beginTest_keeps
    | with_reducible apply State.frameWakes_keeps
    | with_reducible apply KeepsR.next
    | split

theorem testNowEffect_keeps {s0 s : State} (h : Keeps s0 s) (br bi bu bv) : Keeps s0 (testNowEffect br bi bu bv s).1 := by
  unfold testNowEffect
  repeat' first
    | with_reducible assumption
    | (extract_lets +onlyGivenNames x; refine (fun (hx : Keeps s0 x) => ?_) ?_; clear_value x; revert x; intro y hy; rotate_left; subst x)
    | with_reducible apply State.putNum_keeps
    | with_reducible apply State.beginTest_keeps
    | split

theorem execFirewoodTestNow_keeps {s0 s : State} (h : Keeps s0 s) (a1 a2) : KeepsR s0 (execFirewoodTestNow a1 a2 s) := by
  unfold execFirewoodTestNow
  repeat' first
    | with_reducible assumption
    | with_reducible apply State.ownWrite_keeps
    | with_reducible apply testNowEffect_keeps
    | with_reducible apply KeepsR.next
    | intro _

theorem execFirewoodDischargeStart_keeps {s0 s : State} (h : Keeps s0 s) : KeepsR s0 (execFirewoodDischargeStart s) := by
  unfold execFirewoodDischargeStart
  repeat' first
    | with_reducible assumption
    | (extract_lets +onlyGivenNames x; (let z : Pch := x; clear z); revert x; intro y)
    | with_reducible apply KeepsR.next
    | split
    | (with_reducible apply Keeps.upd
       with_reducible exact rfl
       first
         | with_reducible exact rfl
         | simp +zetaDelta [State.kept])

theorem execFirewoodTestEnd_keeps {s0 s : State} (h : Keeps s0 s) (a1 a2 a3) : KeepsR s0 (execFirewoodTestEnd a1 a2 a3 s) := by
  unfold execFirewoodTestEnd
  repeat' first
    | with_reducible assumption
    | (extract_lets +onlyGivenNames x
       first
         | (refine (fun (hx : Keeps s0 x) => ?_) ?_; clear_value x; revert x; intro y hy; rotate_left; subst x)
         | ((first | (let z : Pch := x; clear z) | clear_value x); revert x; intro y))
    | with_reducible apply State.testPasses_keeps
    | with_reducible apply State.testFails_keeps
    | with_reducible apply KeepsR.next
    | split
    | (with_reducible apply Keeps.upd
       with_reducible exact rfl
       first
         | with_reducible exact rfl
         | simp +zetaDelta [State.kept])

theorem execChargeComplete_keeps {s0 s : State} (h : Keeps s0 s) (a1) : KeepsR s0 (execChargeComplete a1 s) := by
  unfold execChargeComplete
  repeat' first
    | with_reducible assumption
    | (extract_lets +onlyGivenNames x; (let z : Pch := x; clear z); revert x; intro y)
    | with_reducible apply State.takeFree_keeps
    | with_reducible apply State.testFails_keeps
    | with_reducible apply KeepsR.next
    | split
    | (with_reducible apply Keeps.upd
       with_reducible exact rfl
       first
         | with_reducible exact rfl
         | simp +zetaDelta [State.kept])

end Sys2Proof.Machine
end

