-- ==== Sys2Proof/Laws/KeepsKiln.lean ====
section
/-!
SUPPORT. Every operation and command of Machine/Kiln.lean keeps what `Keeps` says.
-/
namespace Sys2Proof.Machine

theorem State.kilnResult_keeps {s0 s : State} (h : Keeps s0 s) (a1 a2 a3 a4 a5 a6 a7) : Keeps s0 (State.kilnResult s a1 a2 a3 a4 a5 a6 a7) := by
  unfold State.kilnResult
  repeat' first
    | with_reducible assumption
    | with_reducible apply State.putBytes_keeps

theorem State.kilnEnded_keeps {s0 s : State} (h : Keeps s0 s) (a1 a2 a3 a4 a5 a6 a7) : Keeps s0 (State.kilnEnded s a1 a2 a3 a4 a5 a6 a7) := by
  have h1 := State.kilnResult_keeps h a1 a2 a3 a4 a5 a6 a7
  unfold State.kilnEnded
  exact Keeps.ite (State.bump_keeps h1 _ _ _) h1

theorem State.kilnRefused_keeps {s0 s : State} (h : Keeps s0 s) (a1 a2 a3 a4 a5) : Keeps s0 (State.kilnRefused s a1 a2 a3 a4 a5) := by
  unfold State.kilnRefused
  repeat' first
    | with_reducible assumption
    | (extract_lets +onlyGivenNames x
       first
         | (refine (fun (hx : Keeps s0 x) => ?_) ?_; clear_value x; revert x; intro y hy; rotate_left; subst x)
         | ((first | (let z : Msv := x; clear z) | clear_value x); revert x; intro y))
    | with_reducible apply State.bump_keeps
    | with_reducible apply State.raise_keeps
    | with_reducible apply State.kilnResult_keeps
    | with_reducible apply State.mapHealth_keeps
    | with_reducible refine Keeps.ite ?_ ?_
    | (with_reducible apply Keeps.upd
       with_reducible exact rfl
       first
         | with_reducible exact rfl
         | simp +zetaDelta [State.kept])

theorem State.destroyVault_keeps {s0 s : State} (h : Keeps s0 s) : Keeps s0 (State.destroyVault s) := by
  unfold State.destroyVault
  repeat' first
    | with_reducible assumption
    | (extract_lets +onlyGivenNames x; refine (fun (hx : Keeps s0 x) => ?_) ?_; clear_value x; revert x; intro y hy; rotate_left; subst x)
    | with_reducible apply State.setPage_keeps
    | with_reducible apply State.clearRegisters_keeps
    | with_reducible apply State.endSessions_keeps
    | with_reducible refine Keeps.ite ?_ ?_
    | with_reducible refine Keeps.foldl (fun t x ht => ?_) ?_

theorem State.startTest_keeps {s0 s : State} (h : Keeps s0 s) (a1 a2 a3) : Keeps s0 (State.startTest s a1 a2 a3) := by
  unfold State.startTest
  repeat' first
    | with_reducible assumption
    | (extract_lets +onlyGivenNames x
       first
         | (refine (fun (hx : Keeps s0 x) => ?_) ?_; clear_value x; revert x; intro y hy; rotate_left; subst x)
         | ((first | (let z : Msv := x; clear z) | clear_value x); revert x; intro y))
    | with_reducible apply State.put_keeps
    | with_reducible apply State.isolate_keeps
    | with_reducible apply State.mapWarden_keeps
    | with_reducible apply State.mapHealth_keeps
    | with_reducible apply State.destroyVault_keeps
    | with_reducible apply State.limitFrom_keeps
    | with_reducible refine Keeps.ite ?_ ?_
    | (with_reducible apply Keeps.upd
       with_reducible exact rfl
       first
         | with_reducible exact rfl
         | simp +zetaDelta [State.kept])

theorem kilnEffect_keeps {s0 s : State} (h : Keeps s0 s) (br bi bu bv) : Keeps s0 (kilnEffect br bi bu bv s).1 := by
  unfold kilnEffect
  repeat' first
    | with_reducible assumption
    | (extract_lets +onlyGivenNames x; (first | (let z : Msv := x; clear z) | clear_value x); revert x; intro y)
    | with_reducible apply State.startTest_keeps
    | split
    | dsimp only
    | (with_reducible apply Keeps.upd
       with_reducible exact rfl
       first
         | with_reducible exact rfl
         | simp +zetaDelta [State.kept])

theorem kilnRow_keeps {s0 s : State} (h : Keeps s0 s) (a1 a2 a3) : Keeps s0 (kilnRow a1 a2 a3 s) := by
  unfold kilnRow
  repeat' first
    | with_reducible assumption
    | with_reducible apply State.ownWrite_keeps
    | with_reducible apply kilnEffect_keeps
    | with_reducible refine Keeps.ite ?_ ?_
    | intro _

theorem execKilnLogic_keeps {s0 s : State} (h : Keeps s0 s) (a1 a2) : KeepsR s0 (execKilnLogic a1 a2 s) := by
  unfold execKilnLogic
  repeat' first
    | with_reducible assumption
    | with_reducible apply kilnRow_keeps
    | with_reducible apply KeepsR.next

theorem execKilnMemory_keeps {s0 s : State} (h : Keeps s0 s) (a1 a2) : KeepsR s0 (execKilnMemory a1 a2 s) := by
  unfold execKilnMemory
  repeat' first
    | with_reducible assumption
    | with_reducible apply kilnRow_keeps
    | with_reducible apply KeepsR.next

theorem execKilnLogicMemory_keeps {s0 s : State} (h : Keeps s0 s) (a1 a2) : KeepsR s0 (execKilnLogicMemory a1 a2 s) := by
  unfold execKilnLogicMemory
  repeat' first
    | with_reducible assumption
    | with_reducible apply kilnRow_keeps
    | with_reducible apply KeepsR.next

theorem execKilnHoldUp_keeps {s0 s : State} (h : Keeps s0 s) (a1 a2) : KeepsR s0 (execKilnHoldUp a1 a2 s) := by
  unfold execKilnHoldUp
  repeat' first
    | with_reducible assumption
    | with_reducible apply kilnRow_keeps
    | with_reducible apply KeepsR.next

theorem execKilnVaultMemory_keeps {s0 s : State} (h : Keeps s0 s) (a1 a2) : KeepsR s0 (execKilnVaultMemory a1 a2 s) := by
  unfold execKilnVaultMemory
  repeat' first
    | with_reducible assumption
    | with_reducible apply kilnRow_keeps
    | with_reducible apply KeepsR.next

theorem execKilnTargetedStart_keeps {s0 s : State} (h : Keeps s0 s) (a1) : KeepsR s0 (execKilnTargetedStart a1 s) := by
  unfold execKilnTargetedStart
  repeat' first
    | with_reducible assumption
    | (extract_lets +onlyGivenNames x
       first
         | (refine (fun (hx : Keeps s0 x) => ?_) ?_; clear_value x; revert x; intro y hy; rotate_left; subst x)
         | ((first | (let z : Msv := x; clear z) | clear_value x); revert x; intro y))
    | with_reducible apply State.startTest_keeps
    | with_reducible apply State.kilnRefused_keeps
    | with_reducible apply KeepsR.next
    | with_reducible apply KeepsR.fault
    | split
    | (with_reducible apply Keeps.upd
       with_reducible exact rfl
       first
         | with_reducible exact rfl
         | simp +zetaDelta [State.kept])

theorem State.startWaiting_keeps {s0 s : State} (h : Keeps s0 s) : Keeps s0 (State.startWaiting s) := by
  unfold State.startWaiting
  repeat' first
    | with_reducible assumption
    | with_reducible apply State.startTest_keeps
    | with_reducible refine Keeps.ite ?_ ?_
    | split

theorem execKilnLimitsMet_keeps {s0 s : State} (h : Keeps s0 s) (a1 a2 a3) : KeepsR s0 (execKilnLimitsMet a1 a2 a3 s) := by
  unfold execKilnLimitsMet
  repeat' first
    | with_reducible assumption
    | (extract_lets +onlyGivenNames x
       first
         | (refine (fun (hx : Keeps s0 x) => ?_) ?_; clear_value x; revert x; intro y hy; rotate_left; subst x)
         | ((first | (let z : Msv := x; clear z) | clear_value x); revert x; intro y))
    | with_reducible apply State.startWaiting_keeps
    | with_reducible apply KeepsR.next
    | split
    | (with_reducible apply Keeps.upd
       with_reducible exact rfl
       first
         | with_reducible exact rfl
         | simp +zetaDelta [State.kept])

theorem execKilnLimitsLost_keeps {s0 s : State} (h : Keeps s0 s) (a1 a2) : KeepsR s0 (execKilnLimitsLost a1 a2 s) := by
  unfold execKilnLimitsLost
  repeat' first
    | with_reducible assumption
    | (extract_lets +onlyGivenNames x
       first
         | (refine (fun (hx : Keeps s0 x) => ?_) ?_; clear_value x; revert x; intro y hy; rotate_left; subst x)
         | ((first | (let z : Msv := x; clear z) | clear_value x); revert x; intro y))
    | with_reducible apply State.limitFrom_keeps
    | with_reducible apply State.kilnRefused_keeps
    | with_reducible apply KeepsR.next
    | split
    | (with_reducible apply Keeps.upd
       with_reducible exact rfl
       first
         | with_reducible exact rfl
         | simp +zetaDelta [State.kept])

theorem State.countTransient_keeps {s0 s : State} (h : Keeps s0 s) (a1) : Keeps s0 (State.countTransient s a1) := by
  unfold State.countTransient
  repeat' first
    | with_reducible assumption
    | with_reducible apply State.bump_keeps
    | with_reducible refine Keeps.ite ?_ ?_

theorem State.giveBack_keeps {s0 s : State} (h : Keeps s0 s) (a1) : Keeps s0 (State.giveBack s a1) := by
  unfold State.giveBack
  repeat' first
    | with_reducible assumption
    | (extract_lets +onlyGivenNames x; refine (fun (hx : Keeps s0 x) => ?_) ?_; clear_value x; revert x; intro y hy; rotate_left; subst x)
    | with_reducible apply State.returnUnit_keeps
    | with_reducible apply State.wardenTested_keeps
    | with_reducible refine Keeps.ite ?_ ?_

theorem State.classTransient_keeps {s0 s : State} (h : Keeps s0 s) (a1) : Keeps s0 (State.classTransient s a1) := by
  unfold State.classTransient
  repeat' first
    | with_reducible assumption
    | (extract_lets +onlyGivenNames x; refine (fun (hx : Keeps s0 x) => ?_) ?_; clear_value x; revert x; intro y hy; rotate_left; subst x)
    | with_reducible apply State.mapHealth_keeps
    | with_reducible apply State.countTransient_keeps
    | with_reducible apply State.retireUnit_keeps
    | with_reducible apply State.bump_keeps
    | with_reducible apply State.giveBack_keeps
    | with_reducible refine Keeps.ite ?_ ?_

theorem execKilnTestEnd_keeps {s0 s : State} (h : Keeps s0 s) (a1 a2 a3 a4 a5) : KeepsR s0 (execKilnTestEnd a1 a2 a3 a4 a5 s) := by
  unfold execKilnTestEnd
  repeat' first
    | with_reducible assumption
    | (extract_lets +onlyGivenNames x
       first
         | (refine (fun (hx : Keeps s0 x) => ?_) ?_; clear_value x; revert x; intro y hy; rotate_left; subst x)
         | ((first | (let z : Msv := x; clear z) | clear_value x); revert x; intro y))
    | with_reducible apply State.kilnEnded_keeps
    | with_reducible apply State.bump_keeps
    | with_reducible apply State.takeFree_keeps
    | with_reducible apply State.raise_keeps
    | with_reducible apply State.startWaiting_keeps
    | with_reducible apply State.limitFrom_keeps
    | with_reducible apply State.retireUnit_keeps
    | with_reducible apply State.giveBack_keeps
    | with_reducible apply State.mapHealth_keeps
    | with_reducible apply State.classTransient_keeps
    | with_reducible apply KeepsR.next
    | split
    | (with_reducible apply Keeps.upd
       with_reducible exact rfl
       first
         | with_reducible exact rfl
         | simp +zetaDelta [State.kept])

end Sys2Proof.Machine
end

