-- ==== Sys2Proof/Laws/KeepsTrace.lean ====
section
/-!
SUPPORT. Every operation and command of Machine/Trace.lean keeps what `Keeps` says.
-/
namespace Sys2Proof.Machine

theorem State.armTrace_keeps {s0 s : State} (h : Keeps s0 s) (a1) : Keeps s0 (State.armTrace s a1) := by
  unfold State.armTrace
  repeat' first
    | with_reducible assumption
    | (extract_lets +onlyGivenNames x; (first | (let z : Msv := x; clear z) | clear_value x); revert x; intro y)
    | (with_reducible apply Keeps.upd
       with_reducible exact rfl
       first
         | with_reducible exact rfl
         | simp +zetaDelta [State.kept])

theorem State.traceOff_keeps {s0 s : State} (h : Keeps s0 s) : Keeps s0 (State.traceOff s) := by
  unfold State.traceOff
  repeat' first
    | with_reducible assumption
    | (extract_lets +onlyGivenNames x; (first | (let z : Msv := x; clear z) | clear_value x); revert x; intro y)
    | (with_reducible apply Keeps.upd
       with_reducible exact rfl
       first
         | with_reducible exact rfl
         | simp +zetaDelta [State.kept])

theorem traceControlEffect_keeps {s0 s : State} (h : Keeps s0 s) (br bi bu bv) : Keeps s0 (traceControlEffect br bi bu bv s).1 := by
  unfold traceControlEffect
  repeat' first
    | with_reducible assumption
    | with_reducible apply State.traceOff_keeps
    | with_reducible apply State.put_keeps
    | with_reducible apply State.armTrace_keeps
    | split

theorem traceRow_keeps {s0 s : State} (h : Keeps s0 s) (a1 a2 a3) : Keeps s0 (traceRow a1 a2 a3 s) := by
  unfold traceRow
  repeat' first
    | with_reducible assumption
    | with_reducible apply State.ownWrite_keeps
    | with_reducible apply traceControlEffect_keeps
    | with_reducible refine Keeps.ite ?_ ?_
    | intro _

theorem execTraceOff_keeps {s0 s : State} (h : Keeps s0 s) (a1 a2) : KeepsR s0 (execTraceOff a1 a2 s) := by
  unfold execTraceOff
  repeat' first
    | with_reducible assumption
    | with_reducible apply traceRow_keeps
    | with_reducible apply KeepsR.next

theorem execTraceArmOnce_keeps {s0 s : State} (h : Keeps s0 s) (a1 a2) : KeepsR s0 (execTraceArmOnce a1 a2 s) := by
  unfold execTraceArmOnce
  repeat' first
    | with_reducible assumption
    | with_reducible apply traceRow_keeps
    | with_reducible apply KeepsR.next

theorem execTraceArmContinuous_keeps {s0 s : State} (h : Keeps s0 s) (a1 a2) : KeepsR s0 (execTraceArmContinuous a1 a2 s) := by
  unfold execTraceArmContinuous
  repeat' first
    | with_reducible assumption
    | with_reducible apply traceRow_keeps
    | with_reducible apply KeepsR.next

theorem State.captureDone_keeps {s0 s : State} (h : Keeps s0 s) : Keeps s0 (State.captureDone s) := by
  unfold State.captureDone
  repeat' first
    | with_reducible assumption
    | (extract_lets +onlyGivenNames x
       first
         | (refine (fun (hx : Keeps s0 x) => ?_) ?_; clear_value x; revert x; intro y hy; rotate_left; subst x)
         | ((first | (let z : Msv := x; clear z) | clear_value x); revert x; intro y))
    | with_reducible apply State.raise_keeps
    | with_reducible apply State.bump_keeps
    | with_reducible apply State.putBytes_keeps
    | with_reducible refine Keeps.ite ?_ ?_
    | (with_reducible apply Keeps.upd
       with_reducible exact rfl
       first
         | with_reducible exact rfl
         | simp +zetaDelta [State.kept])

theorem State.triggerTrace_keeps {s0 s : State} (h : Keeps s0 s) (a1 a2) : Keeps s0 (State.triggerTrace s a1 a2) := by
  unfold State.triggerTrace
  repeat' first
    | with_reducible assumption
    | (extract_lets +onlyGivenNames x; (first | (let z : Msv := x; clear z) | clear_value x); revert x; intro y)
    | with_reducible apply State.captureDone_keeps
    | (with_reducible apply Keeps.upd
       with_reducible exact rfl
       first
         | with_reducible exact rfl
         | simp +zetaDelta [State.kept])

theorem State.missedTrigger_keeps {s0 s : State} (h : Keeps s0 s) : Keeps s0 (State.missedTrigger s) := by
  unfold State.missedTrigger
  repeat' first
    | with_reducible assumption
    | with_reducible apply State.bump_keeps
    | split

theorem triggerNowEffect_keeps {s0 s : State} (h : Keeps s0 s) (br bi bu bv) : Keeps s0 (triggerNowEffect br bi bu bv s).1 := by
  unfold triggerNowEffect
  repeat' first
    | with_reducible assumption
    | with_reducible apply State.triggerTrace_keeps
    | with_reducible apply State.missedTrigger_keeps
    | split

theorem execTriggerNow_keeps {s0 s : State} (h : Keeps s0 s) (a1 a2) : KeepsR s0 (execTriggerNow a1 a2 s) := by
  unfold execTriggerNow
  repeat' first
    | with_reducible assumption
    | with_reducible apply State.ownWrite_keeps
    | with_reducible apply triggerNowEffect_keeps
    | with_reducible apply KeepsR.next
    | intro _

theorem State.traceTaken_keeps {s0 s : State} (h : Keeps s0 s) : Keeps s0 (State.traceTaken s) := by
  unfold State.traceTaken
  repeat' first
    | with_reducible assumption
    | (extract_lets +onlyGivenNames x; (first | (let z : Msv := x; clear z) | clear_value x); revert x; intro y)
    | split
    | (with_reducible apply Keeps.upd
       with_reducible exact rfl
       first
         | with_reducible exact rfl
         | simp +zetaDelta [State.kept])

theorem State.traceDropped_keeps {s0 s : State} (h : Keeps s0 s) : Keeps s0 (State.traceDropped s) := by
  unfold State.traceDropped
  repeat' first
    | with_reducible assumption
    | (extract_lets +onlyGivenNames x; (first | (let z : Msv := x; clear z) | clear_value x); revert x; intro y)
    | with_reducible apply State.bump_keeps
    | (with_reducible apply Keeps.upd
       with_reducible exact rfl
       first
         | with_reducible exact rfl
         | simp +zetaDelta [State.kept])

theorem State.traceEvent_keeps {s0 s : State} (h : Keeps s0 s) (a1 a2 a3 a4) : Keeps s0 (State.traceEvent s a1 a2 a3 a4) := by
  unfold State.traceEvent
  extract_lets t e cause taken
  split
  · exact State.traceDropped_keeps h
  · split
    · split
      · exact State.triggerTrace_keeps (State.traceTaken_keeps h) ..
      · exact Keeps.ite ((State.traceTaken_keeps h).eq rfl) h
    · exact Keeps.ite (State.captureDone_keeps ((State.traceTaken_keeps h).eq rfl)) h
    · exact Keeps.ite h (State.missedTrigger_keeps h)

theorem execTraceEntry_keeps {s0 s : State} (h : Keeps s0 s) (a1 a2 a3 a4) : KeepsR s0 (execTraceEntry a1 a2 a3 a4 s) := by
  unfold execTraceEntry
  split
  · exact KeepsR.next h
  · rename_i d _
    have h1 : Keeps s0 { s with msv.trace.due := s.msv.trace.due.erase d } := h.eq rfl
    exact KeepsR.next (State.traceEvent_keeps h1 ..)

theorem State.captureRead_keeps {s0 s : State} (h : Keeps s0 s) (a1 a2) : Keeps s0 (State.captureRead s a1 a2) := by
  unfold State.captureRead
  repeat' first
    | with_reducible assumption
    | (extract_lets +onlyGivenNames x; (first | (let z : Msv := x; clear z) | clear_value x); revert x; intro y)
    | with_reducible refine Keeps.ite ?_ ?_
    | (with_reducible apply Keeps.upd
       with_reducible exact rfl
       first
         | with_reducible exact rfl
         | simp +zetaDelta [State.kept])

theorem execCaptureReadout_keeps {s0 s : State} (h : Keeps s0 s) : KeepsR s0 (execCaptureReadout s) := by
  unfold execCaptureReadout
  repeat' first
    | with_reducible assumption
    | (extract_lets +onlyGivenNames x; (first | (let z : Msv := x; clear z) | clear_value x); revert x; intro y)
    | with_reducible apply KeepsR.next
    | split
    | (with_reducible apply Keeps.upd
       with_reducible exact rfl
       first
         | with_reducible exact rfl
         | simp +zetaDelta [State.kept])

theorem execTraceRearm_keeps {s0 s : State} (h : Keeps s0 s) : KeepsR s0 (execTraceRearm s) := by
  unfold execTraceRearm
  repeat' first
    | with_reducible assumption
    | with_reducible apply State.armTrace_keeps
    | with_reducible apply KeepsR.next
    | split

end Sys2Proof.Machine
end

