-- ==== Sys2Proof/Laws/KeepsMirrors.lean ====
section
/-!
SUPPORT. Every operation and command of Machine/Mirrors.lean keeps what `Keeps` says.
-/
namespace Sys2Proof.Machine

theorem State.readEffect_keeps {s0 s : State} (h : Keeps s0 s) (a1 a2 a3 a4) : Keeps s0 (State.readEffect s a1 a2 a3 a4) := by
  unfold State.readEffect
  repeat' first
    | with_reducible assumption
    | with_reducible apply State.captureRead_keeps
    | with_reducible apply State.pageIn_keeps
    | with_reducible refine Keeps.ite ?_ ?_
    | split

end Sys2Proof.Machine
end

