-- ==== Sys2Proof/Laws/KeepsFrames.lean ====
section
/-!
SUPPORT. Every operation and command of Machine/Frames.lean keeps what `Keeps` says.
-/
namespace Sys2Proof.Machine

theorem State.segSend_keeps {s0 s : State} (h : Keeps s0 s) (a1) : Keeps s0 (State.segSend s a1) := by
  unfold State.segSend
  repeat' first
    | with_reducible assumption
    | with_reducible apply State.bump_keeps
    | with_reducible apply State.emit_keeps

theorem State.segRespond_keeps {s0 s : State} (h : Keeps s0 s) (a1 a2 a3) : Keeps s0 (State.segRespond s a1 a2 a3) := by
  unfold State.segRespond
  repeat' first
    | with_reducible assumption
    | (extract_lets +onlyGivenNames x
       first
         | (refine (fun (hx : Keeps s0 x) => ?_) ?_; clear_value x; revert x; intro y hy; rotate_left; subst x)
         | ((first | (let z : Msv := x; clear z) | clear_value x); revert x; intro y))
    | with_reducible apply State.segSend_keeps
    | (with_reducible apply Keeps.upd
       with_reducible exact rfl
       first
         | with_reducible exact rfl
         | simp +zetaDelta [State.kept])

theorem State.svcRespond_keeps {s0 s : State} (h : Keeps s0 s) (a1 a2 a3) : Keeps s0 (State.svcRespond s a1 a2 a3) := by
  unfold State.svcRespond
  repeat' first
    | with_reducible assumption
    | (extract_lets +onlyGivenNames x
       first
         | (refine (fun (hx : Keeps s0 x) => ?_) ?_; clear_value x; revert x; intro y hy; rotate_left; subst x)
         | ((first | (let z : Msv := x; clear z) | clear_value x); revert x; intro y))
    | with_reducible apply State.emit_keeps
    | with_reducible refine Keeps.ite ?_ ?_
    | (with_reducible apply Keeps.upd
       with_reducible exact rfl
       first
         | with_reducible exact rfl
         | simp +zetaDelta [State.kept])

theorem State.frameRespond_keeps {s0 s : State} (h : Keeps s0 s) (a1 a2 a3 a4) : Keeps s0 (State.frameRespond s a1 a2 a3 a4) := by
  unfold State.frameRespond
  repeat' first
    | with_reducible assumption
    | with_reducible apply State.svcRespond_keeps
    | with_reducible apply State.segRespond_keeps
    | split

theorem State.segCount_keeps {s0 s : State} (h : Keeps s0 s) (a1 a2) : Keeps s0 (State.segCount s a1 a2) := by
  unfold State.segCount
  repeat' first
    | with_reducible assumption
    | with_reducible apply State.bump_keeps
    | split

theorem State.wakeFor_keeps {s0 s : State} (h : Keeps s0 s) (a1) : Keeps s0 (State.wakeFor s a1) := by
  unfold State.wakeFor
  repeat' first
    | with_reducible assumption
    | with_reducible apply State.wakeUp_keeps
    | with_reducible refine Keeps.ite ?_ ?_

theorem State.serveRead_keeps {s0 s : State} (h : Keeps s0 s) (a1 a2) : Keeps s0 (State.serveRead s a1 a2) := by
  unfold State.serveRead
  repeat' first
    | with_reducible assumption
    | (extract_lets +onlyGivenNames x
       first
         | (refine (fun (hx : Keeps s0 x) => ?_) ?_; clear_value x; revert x; intro y hy; rotate_left; subst x)
         | (clear_value x; revert x; intro y))
    | with_reducible apply State.segCount_keeps
    | with_reducible apply State.frameRespond_keeps
    | with_reducible apply State.wakeFor_keeps
    | with_reducible apply State.readEffect_keeps
    | with_reducible refine Keeps.ite ?_ ?_
    | split

theorem State.setStaged_keeps {s0 s : State} (h : Keeps s0 s) (a1 a2) : Keeps s0 (State.setStaged s a1 a2) := by
  unfold State.setStaged
  repeat' first
    | with_reducible assumption
    | (extract_lets +onlyGivenNames x; (first | (let z : Msv := x; clear z) | clear_value x); revert x; intro y)
    | split
    | (with_reducible apply Keeps.upd
       with_reducible exact rfl
       first
         | with_reducible exact rfl
         | simp +zetaDelta [State.kept])

theorem State.enterSerial_keeps {s0 s : State} (h : Keeps s0 s) (a1 a2 a3 a4) : Keeps s0 (State.enterSerial s a1 a2 a3 a4) := by
  unfold State.enterSerial
  repeat' first
    | with_reducible assumption
    | (extract_lets +onlyGivenNames x
       first
         | (refine (fun (hx : Keeps s0 x) => ?_) ?_; clear_value x; revert x; intro y hy; rotate_left; subst x)
         | ((first | (let z : Msv := x; clear z) | clear_value x); revert x; intro y))
    | with_reducible apply State.setStaged_keeps
    | (with_reducible apply Keeps.upd
       with_reducible exact rfl
       first
         | with_reducible exact rfl
         | simp +zetaDelta [State.kept])

theorem State.writeWindow_keeps {s0 s : State} (h : Keeps s0 s) (a1 a2 a3 a4 a5 a6) : Keeps s0 (State.writeWindow s a1 a2 a3 a4 a5 a6).1 := by
  unfold State.writeWindow
  repeat' first
    | with_reducible assumption
    | (extract_lets +onlyGivenNames x; let z : _ → _ := x; clear z; subst x)
    | with_reducible apply State.frameRespond_keeps
    | with_reducible apply State.setStaged_keeps
    | with_reducible apply State.enterSerial_keeps
    | split

theorem State.serveWrite_keeps {s0 s : State} (h : Keeps s0 s) (a1 a2) : Keeps s0 (State.serveWrite s a1 a2).1 := by
  unfold State.serveWrite
  repeat' first
    | with_reducible assumption
    | (extract_lets +onlyGivenNames x
       first
         | (refine (fun (hx : Keeps s0 x) => ?_) ?_; clear_value x; revert x; intro y hy; rotate_left; subst x)
         | (clear_value x; revert x; intro y))
    | with_reducible refine Keeps.of1 ‹_› ?_
    | with_reducible apply State.segCount_keeps
    | with_reducible apply State.frameRespond_keeps
    | with_reducible apply State.wakeFor_keeps
    | with_reducible apply State.imageWindow_keeps
    | with_reducible apply State.writeWindow_keeps
    | split

theorem State.serveFrame_keeps {s0 s : State} (h : Keeps s0 s) (a1 a2) : Keeps s0 (State.serveFrame s a1 a2).1 := by
  unfold State.serveFrame
  repeat' first
    | with_reducible assumption
    | with_reducible apply State.serveRead_keeps
    | with_reducible apply State.serveWrite_keeps
    | with_reducible apply State.frameRespond_keeps
    | split

theorem State.drawAnswer_keeps {s0 s : State} (h : Keeps s0 s) : Keeps s0 (State.drawAnswer s) := by
  unfold State.drawAnswer
  repeat' first
    | with_reducible assumption
    | (extract_lets +onlyGivenNames x; (first | (let z : Msv := x; clear z) | (let z : Cpx := x; clear z) | clear_value x); revert x; intro y)
    | with_reducible refine Keeps.ite ?_ ?_
    | (with_reducible apply Keeps.upd
       with_reducible exact rfl
       first
         | with_reducible exact rfl
         | simp +zetaDelta [State.kept])

theorem State.serveHeld_keeps {s0 s : State} (h : Keeps s0 s) (a1) : Keeps s0 (State.serveHeld s a1) := by
  induction a1 generalizing s with
  | zero =>
    unfold State.serveHeld
    repeat' first
      | with_reducible assumption
  | succ n ih =>
    unfold State.serveHeld
    repeat' first
      | with_reducible assumption
      | (extract_lets +onlyGivenNames x
         first
           | (refine (fun (hx : Keeps s0 x) => ?_) ?_; clear_value x; revert x; intro y hy; rotate_left; subst x)
           | ((first | (let z : Msv := x; clear z) | clear_value x); revert x; intro y))
      | with_reducible apply State.serveFrame_keeps
      | with_reducible apply State.bump_keeps
      | with_reducible apply State.segSend_keeps
      | with_reducible apply State.drawAnswer_keeps
      | with_reducible refine Keeps.ite ?_ ?_
      | with_reducible apply ih
      | split
      | (with_reducible apply Keeps.upd
         with_reducible exact rfl
         first
           | with_reducible exact rfl
           | simp +zetaDelta [State.kept])

theorem State.segAnswered_keeps {s0 s : State} (h : Keeps s0 s) : Keeps s0 (State.segAnswered s) := by
  unfold State.segAnswered
  repeat' first
    | with_reducible assumption
    | (extract_lets +onlyGivenNames x; (first | (let z : Msv := x; clear z) | clear_value x); revert x; intro y)
    | with_reducible apply State.serveHeld_keeps
    | (with_reducible apply Keeps.upd
       with_reducible exact rfl
       first
         | with_reducible exact rfl
         | simp +zetaDelta [State.kept])

theorem State.pollSegment_keeps {s0 s : State} (h : Keeps s0 s) : Keeps s0 (State.pollSegment s) := by
  unfold State.pollSegment
  repeat' first
    | with_reducible assumption
    | with_reducible apply State.serveHeld_keeps
    | with_reducible refine Keeps.ite ?_ ?_

end Sys2Proof.Machine
end

