-- ==== Sys2Proof/Laws/KeepsDictionary.lean ====
section
/-!
SUPPORT. Every operation and command of Machine/Dictionary.lean keeps what `Keeps` says.
-/
namespace Sys2Proof.Machine

theorem plainEffect_keeps {s0 s : State} (h : Keeps s0 s) (br bi bu bv) : Keeps s0 (plainEffect br bi bu bv s).1 := by
  unfold plainEffect
  repeat' first
    | with_reducible assumption
    | with_reducible apply State.putNum_keeps
    | with_reducible apply State.putBytes_keeps
    | split

theorem abilitiesEffect_keeps {s0 s : State} (h : Keeps s0 s) (a1 br bi bu bv) : Keeps s0 (abilitiesEffect a1 br bi bu bv s).1 := by
  unfold abilitiesEffect
  repeat' first
    | with_reducible assumption
    | (extract_lets +onlyGivenNames x
       first
         | (refine (fun (hx : Keeps s0 x) => ?_) ?_; clear_value x; revert x; intro y hy; rotate_left; subst x)
         | (clear_value x; revert x; intro y))
    | with_reducible apply State.mapPort_keeps
    | with_reducible apply State.putNum_keeps
    | with_reducible apply State.linkFalls_keeps
    | split

theorem eeeEffect_keeps {s0 s : State} (h : Keeps s0 s) (a1 br bi bu bv) : Keeps s0 (eeeEffect a1 br bi bu bv s).1 := by
  unfold eeeEffect
  repeat' first
    | with_reducible assumption
    | (extract_lets +onlyGivenNames x; refine (fun (hx : Keeps s0 x) => ?_) ?_; clear_value x; revert x; intro y hy; rotate_left; subst x)
    | with_reducible apply State.put_keeps
    | with_reducible apply State.mapPort_keeps
    | split

theorem addressEffect_keeps {s0 s : State} (h : Keeps s0 s) (a1 br bi bu bv) : Keeps s0 (addressEffect a1 br bi bu bv s).1 := by
  unfold addressEffect
  repeat' first
    | with_reducible assumption
    | (extract_lets +onlyGivenNames x
       first
         | (refine (fun (hx : Keeps s0 x) => ?_) ?_; clear_value x; revert x; intro y hy; rotate_left; subst x)
         | (clear_value x; revert x; intro y))
    | with_reducible apply State.put_keeps
    | with_reducible apply State.announceAddresses_keeps
    | split

theorem multicastEffect_keeps {s0 s : State} (h : Keeps s0 s) (br bi bu bv) : Keeps s0 (multicastEffect br bi bu bv s).1 := by
  unfold multicastEffect
  repeat' first
    | with_reducible assumption
    | (extract_lets +onlyGivenNames x; clear_value x; revert x; intro y)
    | with_reducible apply State.put_keeps
    | split

theorem rxLimitEffect_keeps {s0 s : State} (h : Keeps s0 s) (a1 br bi bu bv) : Keeps s0 (rxLimitEffect a1 br bi bu bv s).1 := by
  unfold rxLimitEffect
  repeat' first
    | with_reducible assumption
    | with_reducible apply State.put_keeps
    | split
    | dsimp only

theorem headroomEffect_keeps {s0 s : State} (h : Keeps s0 s) (a1 br bi bu bv) : Keeps s0 (headroomEffect a1 br bi bu bv s).1 := by
  unfold headroomEffect
  repeat' first
    | with_reducible assumption
    | (extract_lets +onlyGivenNames x; clear_value x; revert x; intro y)
    | with_reducible apply State.put_keeps
    | split

theorem flowEffect_keeps {s0 s : State} (h : Keeps s0 s) (a1 br bi bu bv) : Keeps s0 (flowEffect a1 br bi bu bv s).1 := by
  unfold flowEffect
  repeat' first
    | with_reducible assumption
    | with_reducible apply State.put_keeps
    | with_reducible apply State.mapPort_keeps

theorem queueEffect_keeps {s0 s : State} (h : Keeps s0 s) (br bi bu bv) : Keeps s0 (queueEffect br bi bu bv s).1 := by
  unfold queueEffect
  repeat' first
    | with_reducible assumption
    | with_reducible apply State.put_keeps
    | split

theorem promiscuousEffect_keeps {s0 s : State} (h : Keeps s0 s) (a1 br bi bu bv) : Keeps s0 (promiscuousEffect a1 br bi bu bv s).1 := by
  unfold promiscuousEffect
  repeat' first
    | with_reducible assumption
    | (extract_lets +onlyGivenNames x; refine (fun (hx : Keeps s0 x) => ?_) ?_; clear_value x; revert x; intro y hy; rotate_left; subst x)
    | with_reducible apply State.put_keeps
    | with_reducible apply State.raise_keeps
    | split

theorem captureFreezeEffect_keeps {s0 s : State} (h : Keeps s0 s) (a1 br bi bu bv) : Keeps s0 (captureFreezeEffect a1 br bi bu bv s).1 := by
  unfold captureFreezeEffect
  repeat' first
    | with_reducible assumption
    | with_reducible apply State.mapPort_keeps
    | with_reducible apply State.put_keeps

theorem ptpPortEffect_keeps {s0 s : State} (h : Keeps s0 s) (br bi bu bv) : Keeps s0 (ptpPortEffect br bi bu bv s).1 := by
  unfold ptpPortEffect
  repeat' first
    | with_reducible assumption
    | (extract_lets +onlyGivenNames x; clear_value x; revert x; intro y)
    | with_reducible apply State.put_keeps
    | split
    | (with_reducible apply Keeps.upd
       with_reducible exact rfl
       first
         | with_reducible exact rfl
         | simp +zetaDelta [State.kept])

theorem plaintextEffect_keeps {s0 s : State} (h : Keeps s0 s) (br bi bu bv) : Keeps s0 (plaintextEffect br bi bu bv s).1 := by
  unfold plaintextEffect
  repeat' first
    | with_reducible assumption
    | with_reducible apply State.put_keeps
    | split

theorem ceilingEffect_keeps {s0 s : State} (h : Keeps s0 s) (br bi bu bv) : Keeps s0 (ceilingEffect br bi bu bv s).1 := by
  unfold ceilingEffect
  repeat' first
    | with_reducible assumption
    | with_reducible apply State.limitFrom_keeps
    | with_reducible apply State.trimReadCache_keeps
    | with_reducible apply State.put_keeps

theorem thresholdEffect_keeps {s0 s : State} (h : Keeps s0 s) (br bi bu bv) : Keeps s0 (thresholdEffect br bi bu bv s).1 := by
  unfold thresholdEffect
  extract_lets b
  split
  · exact h.store (odErase_sublist ..)
  · exact State.putBytes_keeps h ..

theorem clearEffect_keeps {s0 s : State} (h : Keeps s0 s) (br bi bu bv) : Keeps s0 (clearEffect br bi bu bv s).1 := by
  unfold clearEffect
  repeat' first
    | with_reducible assumption
    | with_reducible apply State.put_keeps
    | split

theorem mgmtMacEffect_keeps {s0 s : State} (h : Keeps s0 s) (br bi bu bv) : Keeps s0 (mgmtMacEffect br bi bu bv s).1 := by
  unfold mgmtMacEffect
  repeat' first
    | with_reducible assumption
    | with_reducible apply State.put_keeps
    | split

theorem segmentEffect_keeps {s0 s : State} (h : Keeps s0 s) (br bi bu bv) : Keeps s0 (segmentEffect br bi bu bv s).1 := by
  unfold segmentEffect
  repeat' first
    | with_reducible assumption
    | (extract_lets +onlyGivenNames x
       first
         | (refine (fun (hx : Keeps s0 x) => ?_) ?_; clear_value x; revert x; intro y hy; rotate_left; subst x)
         | ((let z : Pch := x; clear z); revert x; intro y))
    | with_reducible apply State.put_keeps
    | with_reducible apply State.segSettle_keeps
    | split
    | (with_reducible apply Keeps.upd
       with_reducible exact rfl
       first
         | with_reducible exact rfl
         | simp +zetaDelta [State.kept])

theorem heartbeatEffect_keeps {s0 s : State} (h : Keeps s0 s) (br bi bu bv) : Keeps s0 (heartbeatEffect br bi bu bv s).1 := by
  unfold heartbeatEffect
  repeat' first
    | with_reducible assumption
    | (extract_lets +onlyGivenNames x; (first | (let z : Msv := x; clear z) | clear_value x); revert x; intro y)
    | with_reducible apply State.put_keeps
    | (with_reducible apply Keeps.upd
       with_reducible exact rfl
       first
         | with_reducible exact rfl
         | simp +zetaDelta [State.kept])

theorem restoreEffect_keeps {s0 s : State} (h : Keeps s0 s) (br bi bu bv) : Keeps s0 (restoreEffect br bi bu bv s).1 := by
  unfold restoreEffect
  repeat' first
    | with_reducible assumption
    | with_reducible apply State.put_keeps
    | split

theorem portEffect_keeps {s0 s : State} (h : Keeps s0 s) (a1 a2 br bi bu bv) : Keeps s0 (portEffect a1 a2 br bi bu bv s).1 := by
  unfold portEffect
  repeat' first
    | with_reducible assumption
    | with_reducible apply abilitiesEffect_keeps
    | with_reducible apply addressEffect_keeps
    | with_reducible apply multicastEffect_keeps
    | with_reducible apply rxLimitEffect_keeps
    | with_reducible apply flowEffect_keeps
    | with_reducible apply headroomEffect_keeps
    | with_reducible apply gateCommitEffect_keeps
    | with_reducible apply eeeEffect_keeps
    | with_reducible apply promiscuousEffect_keeps
    | with_reducible apply captureFreezeEffect_keeps
    | with_reducible apply plainEffect_keeps
    | split

theorem effectOf_keeps {s0 s : State} (h : Keeps s0 s) (a1 a2 a3 br bi bu bv) : Keeps s0 (effectOf a1 a2 a3 br bi bu bv s).1 := by
  unfold effectOf
  repeat' first
    | with_reducible assumption
    | with_reducible apply portEffect_keeps
    | with_reducible apply plaintextEffect_keeps
    | with_reducible apply predImageEffect_keeps
    | with_reducible apply keyWriteEffect_keeps
    | with_reducible apply segmentEffect_keeps
    | with_reducible apply queueEffect_keeps
    | with_reducible apply ptpPortEffect_keeps
    | with_reducible apply epochLengthEffect_keeps
    | with_reducible apply tableEffect_keeps
    | with_reducible apply clearEffect_keeps
    | with_reducible apply ruleWidthEffect_keeps
    | with_reducible apply ruleCommandEffect_keeps
    | with_reducible apply camWidthEffect_keeps
    | with_reducible apply pinReevaluateEffect_keeps
    | with_reducible apply predClearEffect_keeps
    | with_reducible apply adminClearEffect_keeps
    | with_reducible apply pkJobEffect_keeps
    | with_reducible apply ceilingEffect_keeps
    | with_reducible apply thresholdEffect_keeps
    | with_reducible apply plainEffect_keeps
    | with_reducible apply switchoverEffect_keeps
    | with_reducible apply freezeEffect_keeps
    | with_reducible apply moduleResetEffect_keeps
    | with_reducible apply testNowEffect_keeps
    | with_reducible apply wallTimeEffect_keeps
    | with_reducible apply mgmtMacEffect_keeps
    | with_reducible apply heartbeatEffect_keeps
    | with_reducible apply kilnEffect_keeps
    | with_reducible apply traceControlEffect_keeps
    | with_reducible apply triggerNowEffect_keeps
    | with_reducible apply stageControlEffect_keeps
    | with_reducible apply floorEffect_keeps
    | with_reducible apply restoreEffect_keeps
    | split

theorem State.answerWrite_keeps {s0 s : State} (h : Keeps s0 s) (a1 a2) : Keeps s0 (State.answerWrite s a1 a2) := by
  unfold State.answerWrite
  repeat' first
    | with_reducible assumption
    | (extract_lets +onlyGivenNames x
       first
         | (refine (fun (hx : Keeps s0 x) => ?_) ?_; clear_value x; revert x; intro y hy; rotate_left; subst x)
         | (clear_value x; revert x; intro y))
    | with_reducible apply State.finish_keeps
    | with_reducible apply State.frameRespond_keeps
    | with_reducible apply State.segAnswered_keeps
    | with_reducible apply State.emit_keeps
    | with_reducible refine Keeps.ite ?_ ?_
    | split

theorem State.applyOne_keeps {s0 s : State} (h : Keeps s0 s) (a1) : Keeps s0 (State.applyOne s a1) := by
  unfold State.applyOne
  repeat' first
    | with_reducible assumption
    | with_reducible apply applyWrite_keeps
    | with_reducible apply effectOf_keeps
    | with_reducible apply State.park_keeps
    | with_reducible apply State.answerWrite_keeps
    | with_reducible refine Keeps.ite ?_ ?_
    | intro _

theorem State.conflict_keeps {s0 s : State} (h : Keeps s0 s) (a1) : Keeps s0 (State.conflict s a1) := by
  unfold State.conflict
  repeat' first
    | with_reducible assumption
    | with_reducible apply State.answerWrite_keeps
    | with_reducible apply State.lastWrite_keeps
    | with_reducible apply State.bump_keeps

theorem State.runTick_keeps {s0 s : State} (h : Keeps s0 s) (a1 a2) : Keeps s0 (State.runTick s a1 a2) := by
  induction a2 generalizing s a1 with
  | nil =>
    unfold State.runTick
    repeat' first
      | with_reducible assumption
  | cons c l ih =>
    unfold State.runTick
    repeat' first
      | with_reducible assumption
      | (extract_lets +onlyGivenNames x; clear_value x; revert x; intro y)
      | with_reducible apply State.applyOne_keeps
      | with_reducible apply State.conflict_keeps
      | with_reducible refine Keeps.ite ?_ ?_
      | with_reducible apply ih

theorem State.takeWrites_keeps {s0 s : State} (h : Keeps s0 s) (a1) : Keeps s0 (State.takeWrites s a1) := by
  unfold State.takeWrites
  repeat' first
    | with_reducible assumption
    | (extract_lets +onlyGivenNames x; (first | (let z : Msv := x; clear z) | clear_value x); revert x; intro y)
    | with_reducible apply State.runTick_keeps
    | (with_reducible apply Keeps.upd
       with_reducible exact rfl
       first
         | with_reducible exact rfl
         | simp +zetaDelta [State.kept])

theorem State.serialise_keeps {s0 s : State} (h : Keeps s0 s) : Keeps s0 (State.serialise s) := by
  unfold State.serialise
  repeat' first
    | with_reducible assumption
    | (extract_lets +onlyGivenNames x; (let z : Msv := x; clear z); revert x; intro y)
    | with_reducible apply State.applyOne_keeps
    | with_reducible apply State.takeWrites_keeps
    | with_reducible refine Keeps.ite ?_ ?_
    | split
    | (with_reducible apply Keeps.upd
       with_reducible exact rfl
       first
         | with_reducible exact rfl
         | simp +zetaDelta [State.kept])

theorem State.takeParked_keeps {s0 s : State} (h : Keeps s0 s) (a1) : Keeps s0 (State.takeParked s a1) := by
  unfold State.takeParked
  repeat' first
    | with_reducible assumption
    | (extract_lets +onlyGivenNames x; (let z : Asu := x; clear z); revert x; intro y)
    | with_reducible apply applyWrite_keeps
    | with_reducible apply State.acceptRule_keeps
    | with_reducible apply State.answerWrite_keeps
    | (with_reducible apply Keeps.upd
       with_reducible exact rfl
       first
         | with_reducible exact rfl
         | simp +zetaDelta [State.kept])
    | intro _

theorem State.reseat_keeps {s0 s : State} (h : Keeps s0 s) (a1 a2) : Keeps s0 (State.reseat s a1 a2) := by
  unfold State.reseat
  repeat' first
    | with_reducible assumption
    | with_reducible apply State.seat_keeps
    | with_reducible apply State.touchDir_keeps
    | with_reducible apply State.removeEntry_keeps
    | with_reducible apply State.dirtyPages_keeps
    | with_reducible apply State.putKey_keeps
    | with_reducible apply State.seatMap_keeps
    | with_reducible apply State.dropMapPages_keeps
    | with_reducible apply State.dropEmpty_keeps
    | with_reducible apply State.mapKey_keeps

theorem State.reevaluateStep_keeps {s0 s : State} (h : Keeps s0 s) : Keeps s0 (State.reevaluateStep s) := by
  unfold State.reevaluateStep
  repeat' first
    | with_reducible assumption
    | (extract_lets +onlyGivenNames x
       first
         | (refine (fun (hx : Keeps s0 x) => ?_) ?_; clear_value x; revert x; intro y hy; rotate_left; subst x)
         | ((first | (let z : Asu := x; clear z) | clear_value x); revert x; intro y))
    | with_reducible apply State.wantPage_keeps
    | with_reducible apply State.reseat_keeps
    | with_reducible refine Keeps.ite ?_ ?_
    | split
    | (with_reducible apply Keeps.upd
       with_reducible exact rfl
       first
         | with_reducible exact rfl
         | simp +zetaDelta [State.kept])

theorem State.passTick_keeps {s0 s : State} (h : Keeps s0 s) : Keeps s0 (State.passTick s) := by
  unfold State.passTick
  repeat' first
    | with_reducible assumption
    | (extract_lets +onlyGivenNames x
       first
         | (refine (fun (hx : Keeps s0 x) => ?_) ?_; clear_value x; revert x; intro y hy; rotate_left; subst x)
         | ((first | (let z : Msv := x; clear z) | (let z : Pch := x; clear z) | (let z : Cqc := x; clear z) | clear_value x); revert x; intro y))
    | with_reducible apply State.slewTick_keeps
    | with_reducible apply State.banksReturn_keeps
    | with_reducible apply State.runPipelines_keeps
    | with_reducible refine Keeps.ite ?_ ?_
    | split
    | (with_reducible apply Keeps.upd
       with_reducible exact rfl
       first
         | with_reducible exact rfl
         | simp +zetaDelta [State.kept])

theorem execDictTick_keeps {s0 s : State} (h : Keeps s0 s) : KeepsR s0 (execDictTick s) := by
  unfold execDictTick
  repeat' first
    | with_reducible assumption
    | (extract_lets +onlyGivenNames x
       first
         | (refine (fun (hx : Keeps s0 x) => ?_) ?_; clear_value x; revert x; intro y hy; rotate_left; subst x)
         | (clear_value x; revert x; intro y))
    | with_reducible apply State.serialise_keeps
    | with_reducible apply State.takeParked_keeps
    | with_reducible apply State.pollSegment_keeps
    | with_reducible apply State.readyActive_keeps
    | with_reducible apply State.passTick_keeps
    | with_reducible apply State.reevaluateStep_keeps
    | with_reducible apply State.dozeTick_keeps
    | with_reducible apply KeepsR.next
    | split

theorem execOdRead_keeps {s0 s : State} (h : Keeps s0 s) (a1) : KeepsR s0 (execOdRead a1 s) := by
  unfold execOdRead
  repeat' first
    | with_reducible assumption
    | (extract_lets +onlyGivenNames x
       first
         | (refine (fun (hx : Keeps s0 x) => ?_) ?_; clear_value x; revert x; intro y hy; rotate_left; subst x)
         | (clear_value x; revert x; intro y))
    | with_reducible apply State.fail_keeps
    | with_reducible apply State.readEffect_keeps
    | with_reducible apply State.finish_keeps
    | with_reducible apply KeepsR.next
    | split

theorem execOdWrite_keeps {s0 s : State} (h : Keeps s0 s) (a1) : KeepsR s0 (execOdWrite a1 s) := by
  unfold execOdWrite
  repeat' first
    | with_reducible assumption
    | (extract_lets +onlyGivenNames x
       first
         | (refine (fun (hx : Keeps s0 x) => ?_) ?_; clear_value x; revert x; intro y hy; rotate_left; subst x)
         | ((first | (let z : Msv := x; clear z) | clear_value x); revert x; intro y))
    | with_reducible apply State.finish_keeps
    | with_reducible apply State.mapTrs_keeps
    | with_reducible apply KeepsR.next
    | split
    | (with_reducible apply Keeps.upd
       with_reducible exact rfl
       first
         | with_reducible exact rfl
         | simp +zetaDelta [State.kept])

theorem execConfigLock_keeps {s0 s : State} (h : Keeps s0 s) (a1 a2) : KeepsR s0 (execConfigLock a1 a2 s) := by
  unfold execConfigLock
  repeat' first
    | with_reducible assumption
    | with_reducible apply State.ownWrite_keeps
    | with_reducible apply plainEffect_keeps
    | with_reducible apply KeepsR.next
    | intro _

theorem execRestoreDefaults_keeps {s0 s : State} (h : Keeps s0 s) (a1 a2) : KeepsR s0 (execRestoreDefaults a1 a2 s) := by
  unfold execRestoreDefaults
  repeat' first
    | with_reducible assumption
    | with_reducible apply State.ownWrite_keeps
    | with_reducible apply restoreEffect_keeps
    | with_reducible apply KeepsR.next
    | intro _

end Sys2Proof.Machine
end

