-- ==== Sys2Proof/Laws/KeepsSegment.lean ====
section
/-!
SUPPORT. Every operation and command of Machine/Segment.lean keeps what `Keeps` says.
-/
namespace Sys2Proof.Machine

theorem State.abandonQuiet_keeps {s0 s : State} (h : Keeps s0 s) : Keeps s0 (State.abandonQuiet s) := by
  unfold State.abandonQuiet
  repeat' first
    | with_reducible assumption
    | (extract_lets +onlyGivenNames x; (first | (let z : Msv := x; clear z) | clear_value x); revert x; intro y)
    | with_reducible apply State.bump_keeps
    | with_reducible refine Keeps.ite ?_ ?_
    | (with_reducible apply Keeps.upd
       with_reducible exact rfl
       first
         | with_reducible exact rfl
         | simp +zetaDelta [State.kept])

theorem State.commitQuiet_keeps {s0 s : State} (h : Keeps s0 s) : Keeps s0 (State.commitQuiet s) := by
  unfold State.commitQuiet
  repeat' first
    | with_reducible assumption
    | (extract_lets +onlyGivenNames x; (first | (let z : Msv := x; clear z) | clear_value x); revert x; intro y)
    | with_reducible apply State.bump_keeps
    | with_reducible refine Keeps.ite ?_ ?_
    | split
    | (with_reducible apply Keeps.upd
       with_reducible exact rfl
       first
         | with_reducible exact rfl
         | simp +zetaDelta [State.kept])

theorem State.segEnergy_keeps {s0 s : State} (h : Keeps s0 s) : Keeps s0 (State.segEnergy s) := by
  unfold State.segEnergy
  repeat' first
    | with_reducible assumption
    | (extract_lets +onlyGivenNames x; (first | (let z : Msv := x; clear z) | clear_value x); revert x; intro y)
    | with_reducible apply State.bump_keeps
    | with_reducible refine Keeps.ite ?_ ?_
    | (with_reducible apply Keeps.upd
       with_reducible exact rfl
       first
         | with_reducible exact rfl
         | simp +zetaDelta [State.kept])

theorem State.sendWake_keeps {s0 s : State} (h : Keeps s0 s) : Keeps s0 (State.sendWake s) := by
  unfold State.sendWake
  repeat' first
    | with_reducible assumption
    | (extract_lets +onlyGivenNames x
       first
         | (refine (fun (hx : Keeps s0 x) => ?_) ?_; clear_value x; revert x; intro y hy; rotate_left; subst x)
         | ((first | (let z : Msv := x; clear z) | clear_value x); revert x; intro y))
    | with_reducible apply State.segEnergy_keeps
    | with_reducible apply State.abandonQuiet_keeps
    | with_reducible apply State.segSend_keeps
    | with_reducible refine Keeps.ite ?_ ?_
    | (with_reducible apply Keeps.upd
       with_reducible exact rfl
       first
         | with_reducible exact rfl
         | simp +zetaDelta [State.kept])

theorem State.frameEnds_keeps {s0 s : State} (h : Keeps s0 s) (a1) : Keeps s0 (State.frameEnds s a1).2 := by
  unfold State.frameEnds
  repeat' first
    | with_reducible assumption
    | (extract_lets +onlyGivenNames x; refine (fun (hx : Keeps s0 x) => ?_) ?_; clear_value x; revert x; intro y hy; rotate_left; subst x)
    | with_reducible apply State.commitQuiet_keeps
    | with_reducible apply State.abandonQuiet_keeps
    | with_reducible apply State.segEnergy_keeps
    | split

theorem State.dropFrame_keeps {s0 s : State} (h : Keeps s0 s) : Keeps s0 (State.dropFrame s) := by
  unfold State.dropFrame
  repeat' first
    | with_reducible assumption
    | with_reducible apply State.bump_keeps

theorem State.segRequest_keeps {s0 s : State} (h : Keeps s0 s) (a1) : Keeps s0 (State.segRequest s a1) := by
  unfold State.segRequest
  repeat' first
    | with_reducible assumption
    | (extract_lets +onlyGivenNames x
       first
         | (refine (fun (hx : Keeps s0 x) => ?_) ?_; clear_value x; revert x; intro y hy; rotate_left; subst x)
         | ((first | (let z : Msv := x; clear z) | clear_value x); revert x; intro y))
    | with_reducible apply State.dropFrame_keeps
    | with_reducible apply State.bump_keeps
    | with_reducible apply State.serveHeld_keeps
    | with_reducible refine Keeps.ite ?_ ?_
    | (with_reducible apply Keeps.upd
       with_reducible exact rfl
       first
         | with_reducible exact rfl
         | simp +zetaDelta [State.kept])

theorem State.segArrive_keeps {s0 s : State} (h : Keeps s0 s) (a1) : Keeps s0 (State.segArrive s a1) := by
  unfold State.segArrive
  repeat' first
    | with_reducible assumption
    | with_reducible apply State.frameEnds_keeps
    | with_reducible apply State.segRequest_keeps
    | with_reducible refine Keeps.ite ?_ ?_

theorem execRead_keeps {s0 s : State} (h : Keeps s0 s) (a1) : KeepsR s0 (execRead a1 s) := by
  unfold execRead
  repeat' first
    | with_reducible assumption
    | with_reducible apply State.segArrive_keeps
    | with_reducible apply KeepsR.next
    | with_reducible apply KeepsR.stop
    | split

theorem execWrite_keeps {s0 s : State} (h : Keeps s0 s) (a1) : KeepsR s0 (execWrite a1 s) := by
  unfold execWrite
  repeat' first
    | with_reducible assumption
    | with_reducible apply State.segArrive_keeps
    | with_reducible apply KeepsR.next
    | with_reducible apply KeepsR.stop
    | split

theorem execStagedWriteExpiry_keeps {s0 s : State} (h : Keeps s0 s) : KeepsR s0 (execStagedWriteExpiry s) := by
  unfold execStagedWriteExpiry
  repeat' first
    | with_reducible assumption
    | (extract_lets +onlyGivenNames x
       first
         | (refine (fun (hx : Keeps s0 x) => ?_) ?_; clear_value x; revert x; intro y hy; rotate_left; subst x)
         | ((first | (let z : Msv := x; clear z) | clear_value x); revert x; intro y))
    | with_reducible apply State.bump_keeps
    | with_reducible apply KeepsR.next
    | split
    | (with_reducible apply Keeps.upd
       with_reducible exact rfl
       first
         | with_reducible exact rfl
         | simp +zetaDelta [State.kept])

theorem execSegResponseExpiry_keeps {s0 s : State} (h : Keeps s0 s) (a1 a2) : KeepsR s0 (execSegResponseExpiry a1 a2 s) := by
  unfold execSegResponseExpiry
  repeat' first
    | with_reducible assumption
    | (extract_lets +onlyGivenNames x; (first | (let z : Msv := x; clear z) | clear_value x); revert x; intro y)
    | with_reducible apply KeepsR.next
    | (with_reducible apply Keeps.upd
       with_reducible exact rfl
       first
         | with_reducible exact rfl
         | simp +zetaDelta [State.kept])

theorem execHeartbeat_keeps {s0 s : State} (h : Keeps s0 s) : KeepsR s0 (execHeartbeat s) := by
  unfold execHeartbeat
  repeat' first
    | with_reducible assumption
    | (extract_lets +onlyGivenNames x
       first
         | (refine (fun (hx : Keeps s0 x) => ?_) ?_; clear_value x; revert x; intro y hy; rotate_left; subst x)
         | ((first | (let z : Msv := x; clear z) | clear_value x); revert x; intro y))
    | with_reducible apply State.commitQuiet_keeps
    | with_reducible apply State.sendWake_keeps
    | with_reducible apply State.segSend_keeps
    | with_reducible apply KeepsR.next
    | split
    | (with_reducible apply Keeps.upd
       with_reducible exact rfl
       first
         | with_reducible exact rfl
         | simp +zetaDelta [State.kept])

theorem execAlertNotify_keeps {s0 s : State} (h : Keeps s0 s) : KeepsR s0 (execAlertNotify s) := by
  unfold execAlertNotify
  repeat' first
    | with_reducible assumption
    | (extract_lets +onlyGivenNames x
       first
         | (refine (fun (hx : Keeps s0 x) => ?_) ?_; clear_value x; revert x; intro y hy; rotate_left; subst x)
         | ((first | (let z : Msv := x; clear z) | clear_value x); revert x; intro y))
    | with_reducible apply State.commitQuiet_keeps
    | with_reducible apply State.sendWake_keeps
    | with_reducible apply State.segSend_keeps
    | with_reducible apply KeepsR.next
    | split
    | (with_reducible apply Keeps.upd
       with_reducible exact rfl
       first
         | with_reducible exact rfl
         | simp +zetaDelta [State.kept])

theorem State.propose_keeps {s0 s : State} (h : Keeps s0 s) (a1 a2) : Keeps s0 (State.propose s a1 a2) := by
  unfold State.propose
  repeat' first
    | with_reducible assumption
    | (extract_lets +onlyGivenNames x
       first
         | (refine (fun (hx : Keeps s0 x) => ?_) ?_; clear_value x; revert x; intro y hy; rotate_left; subst x)
         | ((first | (let z : Msv := x; clear z) | (let z : Cpx := x; clear z) | clear_value x); revert x; intro y))
    | with_reducible apply State.bump_keeps
    | with_reducible apply State.abandonQuiet_keeps
    | with_reducible refine Keeps.ite ?_ ?_
    | (with_reducible apply Keeps.upd
       with_reducible exact rfl
       first
         | with_reducible exact rfl
         | simp +zetaDelta [State.kept])

theorem execQuietPropose_keeps {s0 s : State} (h : Keeps s0 s) (a1 a2 a3) : KeepsR s0 (execQuietPropose a1 a2 a3 s) := by
  unfold execQuietPropose
  repeat' first
    | with_reducible assumption
    | with_reducible apply State.frameEnds_keeps
    | with_reducible apply State.propose_keeps
    | with_reducible apply KeepsR.next
    | with_reducible apply KeepsR.stop
    | split

theorem execQuietAck_keeps {s0 s : State} (h : Keeps s0 s) : KeepsR s0 (execQuietAck s) := by
  unfold execQuietAck
  repeat' first
    | with_reducible assumption
    | (extract_lets +onlyGivenNames x
       first
         | (refine (fun (hx : Keeps s0 x) => ?_) ?_; clear_value x; revert x; intro y hy; rotate_left; subst x)
         | ((first | (let z : Msv := x; clear z) | clear_value x); revert x; intro y))
    | with_reducible apply State.commitQuiet_keeps
    | with_reducible apply State.segSend_keeps
    | with_reducible apply KeepsR.next
    | split
    | (with_reducible apply Keeps.upd
       with_reducible exact rfl
       first
         | with_reducible exact rfl
         | simp +zetaDelta [State.kept])

theorem execQuietCommit_keeps {s0 s : State} (h : Keeps s0 s) : KeepsR s0 (execQuietCommit s) := by
  unfold execQuietCommit
  repeat' first
    | with_reducible assumption
    | with_reducible apply State.commitQuiet_keeps
    | with_reducible apply KeepsR.next

theorem execQuietAbandon_keeps {s0 s : State} (h : Keeps s0 s) (a1) : KeepsR s0 (execQuietAbandon a1 s) := by
  unfold execQuietAbandon
  repeat' first
    | with_reducible assumption
    | (extract_lets +onlyGivenNames x; refine (fun (hx : Keeps s0 x) => ?_) ?_; clear_value x; revert x; intro y hy; rotate_left; subst x)
    | with_reducible apply State.commitQuiet_keeps
    | with_reducible apply State.sendWake_keeps
    | with_reducible apply State.abandonQuiet_keeps
    | with_reducible apply KeepsR.next
    | split

theorem execWake_keeps {s0 s : State} (h : Keeps s0 s) : KeepsR s0 (execWake s) := by
  unfold execWake
  repeat' first
    | with_reducible assumption
    | with_reducible apply State.segEnergy_keeps
    | with_reducible apply KeepsR.next
    | split

theorem execWakeSettleEnd_keeps {s0 s : State} (h : Keeps s0 s) : KeepsR s0 (execWakeSettleEnd s) := by
  unfold execWakeSettleEnd
  repeat' first
    | with_reducible assumption
    | (extract_lets +onlyGivenNames x; (first | (let z : Msv := x; clear z) | clear_value x); revert x; intro y)
    | with_reducible apply KeepsR.next
    | split
    | (with_reducible apply Keeps.upd
       with_reducible exact rfl
       first
         | with_reducible exact rfl
         | simp +zetaDelta [State.kept])

theorem execPlcaBeacon_keeps {s0 s : State} (h : Keeps s0 s) : KeepsR s0 (execPlcaBeacon s) := by
  unfold execPlcaBeacon
  repeat' first
    | with_reducible assumption
    | with_reducible apply State.emit_keeps
    | with_reducible apply KeepsR.next
    | split

theorem execBeaconReceived_keeps {s0 s : State} (h : Keeps s0 s) : KeepsR s0 (execBeaconReceived s) := by
  unfold execBeaconReceived
  repeat' first
    | with_reducible assumption
    | (extract_lets +onlyGivenNames x; (first | (let z : Msv := x; clear z) | clear_value x); revert x; intro y)
    | with_reducible apply KeepsR.next
    | split
    | (with_reducible apply Keeps.upd
       with_reducible exact rfl
       first
         | with_reducible exact rfl
         | simp +zetaDelta [State.kept])

theorem execPlcaBeaconTimeout_keeps {s0 s : State} (h : Keeps s0 s) : KeepsR s0 (execPlcaBeaconTimeout s) := by
  unfold execPlcaBeaconTimeout
  repeat' first
    | with_reducible assumption
    | (extract_lets +onlyGivenNames x; (first | (let z : Msv := x; clear z) | clear_value x); revert x; intro y)
    | with_reducible apply KeepsR.next
    | split
    | (with_reducible apply Keeps.upd
       with_reducible exact rfl
       first
         | with_reducible exact rfl
         | simp +zetaDelta [State.kept])

theorem execPlcaCollision_keeps {s0 s : State} (h : Keeps s0 s) : KeepsR s0 (execPlcaCollision s) := by
  unfold execPlcaCollision
  repeat' first
    | with_reducible assumption
    | (extract_lets +onlyGivenNames x
       first
         | (refine (fun (hx : Keeps s0 x) => ?_) ?_; clear_value x; revert x; intro y hy; rotate_left; subst x)
         | ((first | (let z : Msv := x; clear z) | clear_value x); revert x; intro y))
    | with_reducible apply State.bump_keeps
    | with_reducible apply State.raise_keeps
    | with_reducible apply KeepsR.next
    | split
    | (with_reducible apply Keeps.upd
       with_reducible exact rfl
       first
         | with_reducible exact rfl
         | simp +zetaDelta [State.kept])

theorem execSegmentOtherFrame_keeps {s0 s : State} (h : Keeps s0 s) (a1 a2) : KeepsR s0 (execSegmentOtherFrame a1 a2 s) := by
  unfold execSegmentOtherFrame
  repeat' first
    | with_reducible assumption
    | with_reducible refine Keeps.of2 ‹_› ?_
    | with_reducible apply State.frameEnds_keeps
    | with_reducible apply State.dropFrame_keeps
    | with_reducible apply State.bump_keeps
    | with_reducible apply State.segRespond_keeps
    | with_reducible apply State.propose_keeps
    | with_reducible apply State.segRequest_keeps
    | with_reducible apply KeepsR.next
    | with_reducible apply KeepsR.stop
    | split

end Sys2Proof.Machine
end

