-- ==== Sys2Proof/Laws/KeepsService.lean ====
section
/-!
SUPPORT. Every operation and command of Machine/Service.lean keeps what `Keeps` says.
-/
namespace Sys2Proof.Machine

theorem State.svcRequest_keeps {s0 s : State} (h : Keeps s0 s) (a1) : Keeps s0 (State.svcRequest s a1) := by
  unfold State.svcRequest
  repeat' first
    | with_reducible assumption
    | (extract_lets +onlyGivenNames x
       first
         | (refine (fun (hx : Keeps s0 x) => ?_) ?_; clear_value x; revert x; intro y hy; rotate_left; subst x)
         | ((first | (let z : Msv := x; clear z) | clear_value x); revert x; intro y))
    | with_reducible apply State.bump_keeps
    | with_reducible apply State.frameRespond_keeps
    | with_reducible apply State.serveFrame_keeps
    | with_reducible refine Keeps.ite ?_ ?_
    | (with_reducible apply Keeps.upd
       with_reducible exact rfl
       first
         | with_reducible exact rfl
         | simp +zetaDelta [State.kept])

theorem execPrivateWrite_keeps {s0 s : State} (h : Keeps s0 s) (a1) : KeepsR s0 (execPrivateWrite a1 s) := by
  unfold execPrivateWrite
  repeat' first
    | with_reducible assumption
    | (extract_lets +onlyGivenNames x; refine (fun (hx : Keeps s0 x) => ?_) ?_; clear_value x; revert x; intro y hy; rotate_left; subst x)
    | with_reducible apply State.emit_keeps
    | with_reducible apply State.bump_keeps
    | with_reducible apply State.wakeUp_keeps
    | with_reducible apply State.svcRequest_keeps
    | with_reducible apply KeepsR.next
    | split

theorem execPrivateRead_keeps {s0 s : State} (h : Keeps s0 s) : KeepsR s0 (execPrivateRead s) := by
  unfold execPrivateRead
  repeat' first
    | with_reducible assumption
    | (extract_lets +onlyGivenNames x; (first | (let z : Msv := x; clear z) | clear_value x); revert x; intro y)
    | with_reducible apply State.emit_keeps
    | with_reducible apply KeepsR.next
    | split
    | (with_reducible apply Keeps.upd
       with_reducible exact rfl
       first
         | with_reducible exact rfl
         | simp +zetaDelta [State.kept])

theorem execResponseExpiry_keeps {s0 s : State} (h : Keeps s0 s) : KeepsR s0 (execResponseExpiry s) := by
  unfold execResponseExpiry
  repeat' first
    | with_reducible assumption
    | (extract_lets +onlyGivenNames x; (first | (let z : Msv := x; clear z) | clear_value x); revert x; intro y)
    | with_reducible apply State.bump_keeps
    | with_reducible apply KeepsR.next
    | split
    | (with_reducible apply Keeps.upd
       with_reducible exact rfl
       first
         | with_reducible exact rfl
         | simp +zetaDelta [State.kept])

theorem State.i3cAck_keeps {s0 s : State} (h : Keeps s0 s) : KeepsR s0 (State.i3cAck s) := by
  unfold State.i3cAck
  repeat' first
    | with_reducible assumption
    | with_reducible apply State.emit_keeps
    | with_reducible apply KeepsR.next
    | split

theorem State.i3cReturn_keeps {s0 s : State} (h : Keeps s0 s) (a1) : KeepsR s0 (State.i3cReturn s a1) := by
  unfold State.i3cReturn
  repeat' first
    | with_reducible assumption
    | with_reducible apply State.emit_keeps
    | with_reducible apply KeepsR.next
    | split

theorem execEntdaa_keeps {s0 s : State} (h : Keeps s0 s) (a1) : KeepsR s0 (execEntdaa a1 s) := by
  unfold execEntdaa
  repeat' first
    | with_reducible assumption
    | (extract_lets +onlyGivenNames x; (first | (let z : Msv := x; clear z) | clear_value x); revert x; intro y)
    | with_reducible apply State.i3cAck_keeps
    | with_reducible apply KeepsR.next
    | split
    | (with_reducible apply Keeps.upd
       with_reducible exact rfl
       first
         | with_reducible exact rfl
         | simp +zetaDelta [State.kept])

theorem execSetdasa_keeps {s0 s : State} (h : Keeps s0 s) (a1 a2) : KeepsR s0 (execSetdasa a1 a2 s) := by
  unfold execSetdasa
  repeat' first
    | with_reducible assumption
    | (extract_lets +onlyGivenNames x; (first | (let z : Msv := x; clear z) | clear_value x); revert x; intro y)
    | with_reducible apply State.i3cAck_keeps
    | with_reducible apply KeepsR.next
    | split
    | (with_reducible apply Keeps.upd
       with_reducible exact rfl
       first
         | with_reducible exact rfl
         | simp +zetaDelta [State.kept])

theorem execRstdaa_keeps {s0 s : State} (h : Keeps s0 s) : KeepsR s0 (execRstdaa s) := by
  unfold execRstdaa
  repeat' first
    | with_reducible assumption
    | (extract_lets +onlyGivenNames x; (first | (let z : Msv := x; clear z) | clear_value x); revert x; intro y)
    | with_reducible apply State.i3cAck_keeps
    | with_reducible apply KeepsR.next
    | split
    | (with_reducible apply Keeps.upd
       with_reducible exact rfl
       first
         | with_reducible exact rfl
         | simp +zetaDelta [State.kept])

theorem execEnec_keeps {s0 s : State} (h : Keeps s0 s) (a1) : KeepsR s0 (execEnec a1 s) := by
  unfold execEnec
  repeat' first
    | with_reducible assumption
    | (extract_lets +onlyGivenNames x; (first | (let z : Msv := x; clear z) | clear_value x); revert x; intro y)
    | with_reducible apply State.i3cAck_keeps
    | with_reducible apply KeepsR.next
    | split
    | (with_reducible apply Keeps.upd
       with_reducible exact rfl
       first
         | with_reducible exact rfl
         | simp +zetaDelta [State.kept])

theorem execDisec_keeps {s0 s : State} (h : Keeps s0 s) (a1) : KeepsR s0 (execDisec a1 s) := by
  unfold execDisec
  repeat' first
    | with_reducible assumption
    | (extract_lets +onlyGivenNames x; (first | (let z : Msv := x; clear z) | clear_value x); revert x; intro y)
    | with_reducible apply State.i3cAck_keeps
    | with_reducible apply KeepsR.next
    | split
    | (with_reducible apply Keeps.upd
       with_reducible exact rfl
       first
         | with_reducible exact rfl
         | simp +zetaDelta [State.kept])

theorem execGetpid_keeps {s0 s : State} (h : Keeps s0 s) : KeepsR s0 (execGetpid s) := by
  unfold execGetpid
  repeat' first
    | with_reducible assumption
    | with_reducible apply State.i3cReturn_keeps

theorem execGetbcr_keeps {s0 s : State} (h : Keeps s0 s) : KeepsR s0 (execGetbcr s) := by
  unfold execGetbcr
  repeat' first
    | with_reducible assumption
    | with_reducible apply State.i3cReturn_keeps

theorem execGetdcr_keeps {s0 s : State} (h : Keeps s0 s) : KeepsR s0 (execGetdcr s) := by
  unfold execGetdcr
  repeat' first
    | with_reducible assumption
    | with_reducible apply State.i3cReturn_keeps

theorem execGetstatus_keeps {s0 s : State} (h : Keeps s0 s) : KeepsR s0 (execGetstatus s) := by
  unfold execGetstatus
  repeat' first
    | with_reducible assumption
    | with_reducible apply State.takeFree_keeps
    | with_reducible apply State.i3cReturn_keeps

theorem execSetmwl_keeps {s0 s : State} (h : Keeps s0 s) (a1) : KeepsR s0 (execSetmwl a1 s) := by
  unfold execSetmwl
  repeat' first
    | with_reducible assumption
    | (extract_lets +onlyGivenNames x; (first | (let z : Msv := x; clear z) | clear_value x); revert x; intro y)
    | with_reducible apply State.i3cAck_keeps
    | with_reducible apply KeepsR.next
    | split
    | (with_reducible apply Keeps.upd
       with_reducible exact rfl
       first
         | with_reducible exact rfl
         | simp +zetaDelta [State.kept])

theorem execGetmwl_keeps {s0 s : State} (h : Keeps s0 s) : KeepsR s0 (execGetmwl s) := by
  unfold execGetmwl
  repeat' first
    | with_reducible assumption
    | with_reducible apply State.i3cReturn_keeps

theorem execSetmrl_keeps {s0 s : State} (h : Keeps s0 s) (a1) : KeepsR s0 (execSetmrl a1 s) := by
  unfold execSetmrl
  repeat' first
    | with_reducible assumption
    | (extract_lets +onlyGivenNames x; (first | (let z : Msv := x; clear z) | clear_value x); revert x; intro y)
    | with_reducible apply State.i3cAck_keeps
    | with_reducible apply KeepsR.next
    | split
    | (with_reducible apply Keeps.upd
       with_reducible exact rfl
       first
         | with_reducible exact rfl
         | simp +zetaDelta [State.kept])

theorem execGetmrl_keeps {s0 s : State} (h : Keeps s0 s) : KeepsR s0 (execGetmrl s) := by
  unfold execGetmrl
  repeat' first
    | with_reducible assumption
    | with_reducible apply State.i3cReturn_keeps

theorem execUnlistedCommonCommand_keeps {s0 s : State} (h : Keeps s0 s) (a1) : KeepsR s0 (execUnlistedCommonCommand a1 s) := by
  unfold execUnlistedCommonCommand
  repeat' first
    | with_reducible assumption
    | with_reducible apply State.emit_keeps
    | with_reducible apply KeepsR.next
    | split

end Sys2Proof.Machine
end

