-- ==== Sys2Proof/Laws/State.lean ====
section
/-!
SUPPORT. What each named update of the state leaves as it was: one lemma per field and update.
-/
namespace Sys2Proof.Machine

/-! ### put -/

@[simp] theorem State.put_pending (s : State) (i u : Nat) (v : OdVal) : (s.put i u v).pending = s.pending := rfl
@[simp] theorem State.put_out (s : State) (i u : Nat) (v : OdVal) : (s.put i u v).out = s.out := rfl
@[simp] theorem State.put_dpx (s : State) (i u : Nat) (v : OdVal) : (s.put i u v).dpx = s.dpx := rfl
@[simp] theorem State.put_wte (s : State) (i u : Nat) (v : OdVal) : (s.put i u v).wte = s.wte := rfl
@[simp] theorem State.put_cqc (s : State) (i u : Nat) (v : OdVal) : (s.put i u v).cqc = s.cqc := rfl
@[simp] theorem State.put_tpk (s : State) (i u : Nat) (v : OdVal) : (s.put i u v).tpk = s.tpk := rfl
@[simp] theorem State.put_asu (s : State) (i u : Nat) (v : OdVal) : (s.put i u v).asu = s.asu := rfl
@[simp] theorem State.put_pae (s : State) (i u : Nat) (v : OdVal) : (s.put i u v).pae = s.pae := rfl
@[simp] theorem State.put_cpx (s : State) (i u : Nat) (v : OdVal) : (s.put i u v).cpx = s.cpx := rfl
@[simp] theorem State.put_bfc (s : State) (i u : Nat) (v : OdVal) : (s.put i u v).bfc = s.bfc := rfl
@[simp] theorem State.put_plc (s : State) (i u : Nat) (v : OdVal) : (s.put i u v).plc = s.plc := rfl
@[simp] theorem State.put_mta (s : State) (i u : Nat) (v : OdVal) : (s.put i u v).mta = s.mta := rfl
@[simp] theorem State.put_wdn (s : State) (i u : Nat) (v : OdVal) : (s.put i u v).wdn = s.wdn := rfl
@[simp] theorem State.put_jsr (s : State) (i u : Nat) (v : OdVal) : (s.put i u v).jsr = s.jsr := rfl
@[simp] theorem State.put_pch (s : State) (i u : Nat) (v : OdVal) : (s.put i u v).pch = s.pch := rfl
@[simp] theorem State.put_msv (s : State) (i u : Nat) (v : OdVal) : (s.put i u v).msv = s.msv := rfl

/-! ### putNum -/

@[simp] theorem State.putNum_pending (s : State) (i u n : Nat) : (s.putNum i u n).pending = s.pending := rfl
@[simp] theorem State.putNum_out (s : State) (i u n : Nat) : (s.putNum i u n).out = s.out := rfl
@[simp] theorem State.putNum_dpx (s : State) (i u n : Nat) : (s.putNum i u n).dpx = s.dpx := rfl
@[simp] theorem State.putNum_wte (s : State) (i u n : Nat) : (s.putNum i u n).wte = s.wte := rfl
@[simp] theorem State.putNum_cqc (s : State) (i u n : Nat) : (s.putNum i u n).cqc = s.cqc := rfl
@[simp] theorem State.putNum_tpk (s : State) (i u n : Nat) : (s.putNum i u n).tpk = s.tpk := rfl
@[simp] theorem State.putNum_asu (s : State) (i u n : Nat) : (s.putNum i u n).asu = s.asu := rfl
@[simp] theorem State.putNum_pae (s : State) (i u n : Nat) : (s.putNum i u n).pae = s.pae := rfl
@[simp] theorem State.putNum_cpx (s : State) (i u n : Nat) : (s.putNum i u n).cpx = s.cpx := rfl
@[simp] theorem State.putNum_bfc (s : State) (i u n : Nat) : (s.putNum i u n).bfc = s.bfc := rfl
@[simp] theorem State.putNum_plc (s : State) (i u n : Nat) : (s.putNum i u n).plc = s.plc := rfl
@[simp] theorem State.putNum_mta (s : State) (i u n : Nat) : (s.putNum i u n).mta = s.mta := rfl
@[simp] theorem State.putNum_wdn (s : State) (i u n : Nat) : (s.putNum i u n).wdn = s.wdn := rfl
@[simp] theorem State.putNum_jsr (s : State) (i u n : Nat) : (s.putNum i u n).jsr = s.jsr := rfl
@[simp] theorem State.putNum_pch (s : State) (i u n : Nat) : (s.putNum i u n).pch = s.pch := rfl
@[simp] theorem State.putNum_msv (s : State) (i u n : Nat) : (s.putNum i u n).msv = s.msv := rfl

/-! ### putBytes -/

@[simp] theorem State.putBytes_pending (s : State) (i u : Nat) (b : Bytes) : (s.putBytes i u b).pending = s.pending := rfl
@[simp] theorem State.putBytes_out (s : State) (i u : Nat) (b : Bytes) : (s.putBytes i u b).out = s.out := rfl
@[simp] theorem State.putBytes_dpx (s : State) (i u : Nat) (b : Bytes) : (s.putBytes i u b).dpx = s.dpx := rfl
@[simp] theorem State.putBytes_wte (s : State) (i u : Nat) (b : Bytes) : (s.putBytes i u b).wte = s.wte := rfl
@[simp] theorem State.putBytes_cqc (s : State) (i u : Nat) (b : Bytes) : (s.putBytes i u b).cqc = s.cqc := rfl
@[simp] theorem State.putBytes_tpk (s : State) (i u : Nat) (b : Bytes) : (s.putBytes i u b).tpk = s.tpk := rfl
@[simp] theorem State.putBytes_asu (s : State) (i u : Nat) (b : Bytes) : (s.putBytes i u b).asu = s.asu := rfl
@[simp] theorem State.putBytes_pae (s : State) (i u : Nat) (b : Bytes) : (s.putBytes i u b).pae = s.pae := rfl
@[simp] theorem State.putBytes_cpx (s : State) (i u : Nat) (b : Bytes) : (s.putBytes i u b).cpx = s.cpx := rfl
@[simp] theorem State.putBytes_bfc (s : State) (i u : Nat) (b : Bytes) : (s.putBytes i u b).bfc = s.bfc := rfl
@[simp] theorem State.putBytes_plc (s : State) (i u : Nat) (b : Bytes) : (s.putBytes i u b).plc = s.plc := rfl
@[simp] theorem State.putBytes_mta (s : State) (i u : Nat) (b : Bytes) : (s.putBytes i u b).mta = s.mta := rfl
@[simp] theorem State.putBytes_wdn (s : State) (i u : Nat) (b : Bytes) : (s.putBytes i u b).wdn = s.wdn := rfl
@[simp] theorem State.putBytes_jsr (s : State) (i u : Nat) (b : Bytes) : (s.putBytes i u b).jsr = s.jsr := rfl
@[simp] theorem State.putBytes_pch (s : State) (i u : Nat) (b : Bytes) : (s.putBytes i u b).pch = s.pch := rfl
@[simp] theorem State.putBytes_msv (s : State) (i u : Nat) (b : Bytes) : (s.putBytes i u b).msv = s.msv := rfl

/-! ### bump -/

@[simp] theorem State.bump_pending (s : State) (i u n : Nat) : (s.bump i u n).pending = s.pending := rfl
@[simp] theorem State.bump_out (s : State) (i u n : Nat) : (s.bump i u n).out = s.out := rfl
@[simp] theorem State.bump_dpx (s : State) (i u n : Nat) : (s.bump i u n).dpx = s.dpx := rfl
@[simp] theorem State.bump_wte (s : State) (i u n : Nat) : (s.bump i u n).wte = s.wte := rfl
@[simp] theorem State.bump_cqc (s : State) (i u n : Nat) : (s.bump i u n).cqc = s.cqc := rfl
@[simp] theorem State.bump_tpk (s : State) (i u n : Nat) : (s.bump i u n).tpk = s.tpk := rfl
@[simp] theorem State.bump_asu (s : State) (i u n : Nat) : (s.bump i u n).asu = s.asu := rfl
@[simp] theorem State.bump_pae (s : State) (i u n : Nat) : (s.bump i u n).pae = s.pae := rfl
@[simp] theorem State.bump_cpx (s : State) (i u n : Nat) : (s.bump i u n).cpx = s.cpx := rfl
@[simp] theorem State.bump_bfc (s : State) (i u n : Nat) : (s.bump i u n).bfc = s.bfc := rfl
@[simp] theorem State.bump_plc (s : State) (i u n : Nat) : (s.bump i u n).plc = s.plc := rfl
@[simp] theorem State.bump_mta (s : State) (i u n : Nat) : (s.bump i u n).mta = s.mta := rfl
@[simp] theorem State.bump_wdn (s : State) (i u n : Nat) : (s.bump i u n).wdn = s.wdn := rfl
@[simp] theorem State.bump_jsr (s : State) (i u n : Nat) : (s.bump i u n).jsr = s.jsr := rfl
@[simp] theorem State.bump_pch (s : State) (i u n : Nat) : (s.bump i u n).pch = s.pch := rfl
@[simp] theorem State.bump_msv (s : State) (i u n : Nat) : (s.bump i u n).msv = s.msv := rfl

/-! ### traced -/

@[simp] theorem State.traced_pending (s : State) (k n : Nat) (a : Option Nat) (d : Nat) : (s.traced k n a d).pending = s.pending := rfl
@[simp] theorem State.traced_out (s : State) (k n : Nat) (a : Option Nat) (d : Nat) : (s.traced k n a d).out = s.out := rfl
@[simp] theorem State.traced_dpx (s : State) (k n : Nat) (a : Option Nat) (d : Nat) : (s.traced k n a d).dpx = s.dpx := rfl
@[simp] theorem State.traced_wte (s : State) (k n : Nat) (a : Option Nat) (d : Nat) : (s.traced k n a d).wte = s.wte := rfl
@[simp] theorem State.traced_cqc (s : State) (k n : Nat) (a : Option Nat) (d : Nat) : (s.traced k n a d).cqc = s.cqc := rfl
@[simp] theorem State.traced_tpk (s : State) (k n : Nat) (a : Option Nat) (d : Nat) : (s.traced k n a d).tpk = s.tpk := rfl
@[simp] theorem State.traced_asu (s : State) (k n : Nat) (a : Option Nat) (d : Nat) : (s.traced k n a d).asu = s.asu := rfl
@[simp] theorem State.traced_pae (s : State) (k n : Nat) (a : Option Nat) (d : Nat) : (s.traced k n a d).pae = s.pae := rfl
@[simp] theorem State.traced_cpx (s : State) (k n : Nat) (a : Option Nat) (d : Nat) : (s.traced k n a d).cpx = s.cpx := rfl
@[simp] theorem State.traced_bfc (s : State) (k n : Nat) (a : Option Nat) (d : Nat) : (s.traced k n a d).bfc = s.bfc := rfl
@[simp] theorem State.traced_plc (s : State) (k n : Nat) (a : Option Nat) (d : Nat) : (s.traced k n a d).plc = s.plc := rfl
@[simp] theorem State.traced_mta (s : State) (k n : Nat) (a : Option Nat) (d : Nat) : (s.traced k n a d).mta = s.mta := rfl
@[simp] theorem State.traced_wdn (s : State) (k n : Nat) (a : Option Nat) (d : Nat) : (s.traced k n a d).wdn = s.wdn := rfl
@[simp] theorem State.traced_jsr (s : State) (k n : Nat) (a : Option Nat) (d : Nat) : (s.traced k n a d).jsr = s.jsr := rfl
@[simp] theorem State.traced_pch (s : State) (k n : Nat) (a : Option Nat) (d : Nat) : (s.traced k n a d).pch = s.pch := rfl
@[simp] theorem State.traced_trace (s : State) (k n : Nat) (a : Option Nat) (d : Nat) :
    (s.traced k n a d).msv.trace = s.msv.trace.see k n a d := rfl

/-! ### lastWrite -/

@[simp] theorem State.lastWrite_pending (s : State) (r : Requester) (i u st : Nat) : (s.lastWrite r i u st).pending = s.pending := rfl
@[simp] theorem State.lastWrite_out (s : State) (r : Requester) (i u st : Nat) : (s.lastWrite r i u st).out = s.out := rfl
@[simp] theorem State.lastWrite_dpx (s : State) (r : Requester) (i u st : Nat) : (s.lastWrite r i u st).dpx = s.dpx := rfl
@[simp] theorem State.lastWrite_wte (s : State) (r : Requester) (i u st : Nat) : (s.lastWrite r i u st).wte = s.wte := rfl
@[simp] theorem State.lastWrite_cqc (s : State) (r : Requester) (i u st : Nat) : (s.lastWrite r i u st).cqc = s.cqc := rfl
@[simp] theorem State.lastWrite_tpk (s : State) (r : Requester) (i u st : Nat) : (s.lastWrite r i u st).tpk = s.tpk := rfl
@[simp] theorem State.lastWrite_asu (s : State) (r : Requester) (i u st : Nat) : (s.lastWrite r i u st).asu = s.asu := rfl
@[simp] theorem State.lastWrite_pae (s : State) (r : Requester) (i u st : Nat) : (s.lastWrite r i u st).pae = s.pae := rfl
@[simp] theorem State.lastWrite_cpx (s : State) (r : Requester) (i u st : Nat) : (s.lastWrite r i u st).cpx = s.cpx := rfl
@[simp] theorem State.lastWrite_bfc (s : State) (r : Requester) (i u st : Nat) : (s.lastWrite r i u st).bfc = s.bfc := rfl
@[simp] theorem State.lastWrite_plc (s : State) (r : Requester) (i u st : Nat) : (s.lastWrite r i u st).plc = s.plc := rfl
@[simp] theorem State.lastWrite_mta (s : State) (r : Requester) (i u st : Nat) : (s.lastWrite r i u st).mta = s.mta := rfl
@[simp] theorem State.lastWrite_wdn (s : State) (r : Requester) (i u st : Nat) : (s.lastWrite r i u st).wdn = s.wdn := rfl
@[simp] theorem State.lastWrite_jsr (s : State) (r : Requester) (i u st : Nat) : (s.lastWrite r i u st).jsr = s.jsr := rfl
@[simp] theorem State.lastWrite_pch (s : State) (r : Requester) (i u st : Nat) : (s.lastWrite r i u st).pch = s.pch := rfl
@[simp] theorem State.lastWrite_msv (s : State) (r : Requester) (i u st : Nat) : (s.lastWrite r i u st).msv = (s.tracedWrite r i u st).msv := rfl

/-! ### emit -/

@[simp] theorem State.emit_pending (s : State) (o : Out) : (s.emit o).pending = s.pending := rfl
@[simp] theorem State.emit_od (s : State) (o : Out) : (s.emit o).od = s.od := rfl
@[simp] theorem State.emit_dpx (s : State) (o : Out) : (s.emit o).dpx = s.dpx := rfl
@[simp] theorem State.emit_wte (s : State) (o : Out) : (s.emit o).wte = s.wte := rfl
@[simp] theorem State.emit_cqc (s : State) (o : Out) : (s.emit o).cqc = s.cqc := rfl
@[simp] theorem State.emit_tpk (s : State) (o : Out) : (s.emit o).tpk = s.tpk := rfl
@[simp] theorem State.emit_asu (s : State) (o : Out) : (s.emit o).asu = s.asu := rfl
@[simp] theorem State.emit_pae (s : State) (o : Out) : (s.emit o).pae = s.pae := rfl
@[simp] theorem State.emit_cpx (s : State) (o : Out) : (s.emit o).cpx = s.cpx := rfl
@[simp] theorem State.emit_bfc (s : State) (o : Out) : (s.emit o).bfc = s.bfc := rfl
@[simp] theorem State.emit_plc (s : State) (o : Out) : (s.emit o).plc = s.plc := rfl
@[simp] theorem State.emit_mta (s : State) (o : Out) : (s.emit o).mta = s.mta := rfl
@[simp] theorem State.emit_wdn (s : State) (o : Out) : (s.emit o).wdn = s.wdn := rfl
@[simp] theorem State.emit_jsr (s : State) (o : Out) : (s.emit o).jsr = s.jsr := rfl
@[simp] theorem State.emit_pch (s : State) (o : Out) : (s.emit o).pch = s.pch := rfl
@[simp] theorem State.emit_msv (s : State) (o : Out) : (s.emit o).msv = s.msv := rfl

/-! ### mapTrs -/

@[simp] theorem State.mapTrs_pending (s : State) (n : Nat) (f : Trs → Trs) : (s.mapTrs n f).pending = s.pending := rfl
@[simp] theorem State.mapTrs_out (s : State) (n : Nat) (f : Trs → Trs) : (s.mapTrs n f).out = s.out := rfl
@[simp] theorem State.mapTrs_od (s : State) (n : Nat) (f : Trs → Trs) : (s.mapTrs n f).od = s.od := rfl
@[simp] theorem State.mapTrs_dpx (s : State) (n : Nat) (f : Trs → Trs) : (s.mapTrs n f).dpx = s.dpx := rfl
@[simp] theorem State.mapTrs_wte (s : State) (n : Nat) (f : Trs → Trs) : (s.mapTrs n f).wte = s.wte := rfl
@[simp] theorem State.mapTrs_tpk (s : State) (n : Nat) (f : Trs → Trs) : (s.mapTrs n f).tpk = s.tpk := rfl
@[simp] theorem State.mapTrs_asu (s : State) (n : Nat) (f : Trs → Trs) : (s.mapTrs n f).asu = s.asu := rfl
@[simp] theorem State.mapTrs_pae (s : State) (n : Nat) (f : Trs → Trs) : (s.mapTrs n f).pae = s.pae := rfl
@[simp] theorem State.mapTrs_cpx (s : State) (n : Nat) (f : Trs → Trs) : (s.mapTrs n f).cpx = s.cpx := rfl
@[simp] theorem State.mapTrs_bfc (s : State) (n : Nat) (f : Trs → Trs) : (s.mapTrs n f).bfc = s.bfc := rfl
@[simp] theorem State.mapTrs_plc (s : State) (n : Nat) (f : Trs → Trs) : (s.mapTrs n f).plc = s.plc := rfl
@[simp] theorem State.mapTrs_mta (s : State) (n : Nat) (f : Trs → Trs) : (s.mapTrs n f).mta = s.mta := rfl
@[simp] theorem State.mapTrs_wdn (s : State) (n : Nat) (f : Trs → Trs) : (s.mapTrs n f).wdn = s.wdn := rfl
@[simp] theorem State.mapTrs_jsr (s : State) (n : Nat) (f : Trs → Trs) : (s.mapTrs n f).jsr = s.jsr := rfl
@[simp] theorem State.mapTrs_pch (s : State) (n : Nat) (f : Trs → Trs) : (s.mapTrs n f).pch = s.pch := rfl
@[simp] theorem State.mapTrs_msv (s : State) (n : Nat) (f : Trs → Trs) : (s.mapTrs n f).msv = s.msv := rfl

/-! ### finish -/

@[simp] theorem State.finish_pending (s : State) (n st fl : Nat) (a b : Bytes) : (s.finish n st fl a b).pending = s.pending := rfl
@[simp] theorem State.finish_out (s : State) (n st fl : Nat) (a b : Bytes) : (s.finish n st fl a b).out = s.out := rfl
@[simp] theorem State.finish_od (s : State) (n st fl : Nat) (a b : Bytes) : (s.finish n st fl a b).od = s.od := rfl
@[simp] theorem State.finish_dpx (s : State) (n st fl : Nat) (a b : Bytes) : (s.finish n st fl a b).dpx = s.dpx := rfl
@[simp] theorem State.finish_wte (s : State) (n st fl : Nat) (a b : Bytes) : (s.finish n st fl a b).wte = s.wte := rfl
@[simp] theorem State.finish_tpk (s : State) (n st fl : Nat) (a b : Bytes) : (s.finish n st fl a b).tpk = s.tpk := rfl
@[simp] theorem State.finish_asu (s : State) (n st fl : Nat) (a b : Bytes) : (s.finish n st fl a b).asu = s.asu := rfl
@[simp] theorem State.finish_pae (s : State) (n st fl : Nat) (a b : Bytes) : (s.finish n st fl a b).pae = s.pae := rfl
@[simp] theorem State.finish_cpx (s : State) (n st fl : Nat) (a b : Bytes) : (s.finish n st fl a b).cpx = s.cpx := rfl
@[simp] theorem State.finish_bfc (s : State) (n st fl : Nat) (a b : Bytes) : (s.finish n st fl a b).bfc = s.bfc := rfl
@[simp] theorem State.finish_plc (s : State) (n st fl : Nat) (a b : Bytes) : (s.finish n st fl a b).plc = s.plc := rfl
@[simp] theorem State.finish_mta (s : State) (n st fl : Nat) (a b : Bytes) : (s.finish n st fl a b).mta = s.mta := rfl
@[simp] theorem State.finish_wdn (s : State) (n st fl : Nat) (a b : Bytes) : (s.finish n st fl a b).wdn = s.wdn := rfl
@[simp] theorem State.finish_jsr (s : State) (n st fl : Nat) (a b : Bytes) : (s.finish n st fl a b).jsr = s.jsr := rfl
@[simp] theorem State.finish_pch (s : State) (n st fl : Nat) (a b : Bytes) : (s.finish n st fl a b).pch = s.pch := rfl
@[simp] theorem State.finish_msv (s : State) (n st fl : Nat) (a b : Bytes) : (s.finish n st fl a b).msv = s.msv := rfl

/-! ### mapSession -/

@[simp] theorem State.mapSession_pending (s : State) (n : Nat) (f : Session → Session) : (s.mapSession n f).pending = s.pending := rfl
@[simp] theorem State.mapSession_out (s : State) (n : Nat) (f : Session → Session) : (s.mapSession n f).out = s.out := rfl
@[simp] theorem State.mapSession_od (s : State) (n : Nat) (f : Session → Session) : (s.mapSession n f).od = s.od := rfl
@[simp] theorem State.mapSession_dpx (s : State) (n : Nat) (f : Session → Session) : (s.mapSession n f).dpx = s.dpx := rfl
@[simp] theorem State.mapSession_cqc (s : State) (n : Nat) (f : Session → Session) : (s.mapSession n f).cqc = s.cqc := rfl
@[simp] theorem State.mapSession_tpk (s : State) (n : Nat) (f : Session → Session) : (s.mapSession n f).tpk = s.tpk := rfl
@[simp] theorem State.mapSession_asu (s : State) (n : Nat) (f : Session → Session) : (s.mapSession n f).asu = s.asu := rfl
@[simp] theorem State.mapSession_pae (s : State) (n : Nat) (f : Session → Session) : (s.mapSession n f).pae = s.pae := rfl
@[simp] theorem State.mapSession_cpx (s : State) (n : Nat) (f : Session → Session) : (s.mapSession n f).cpx = s.cpx := rfl
@[simp] theorem State.mapSession_bfc (s : State) (n : Nat) (f : Session → Session) : (s.mapSession n f).bfc = s.bfc := rfl
@[simp] theorem State.mapSession_plc (s : State) (n : Nat) (f : Session → Session) : (s.mapSession n f).plc = s.plc := rfl
@[simp] theorem State.mapSession_mta (s : State) (n : Nat) (f : Session → Session) : (s.mapSession n f).mta = s.mta := rfl
@[simp] theorem State.mapSession_wdn (s : State) (n : Nat) (f : Session → Session) : (s.mapSession n f).wdn = s.wdn := rfl
@[simp] theorem State.mapSession_jsr (s : State) (n : Nat) (f : Session → Session) : (s.mapSession n f).jsr = s.jsr := rfl
@[simp] theorem State.mapSession_pch (s : State) (n : Nat) (f : Session → Session) : (s.mapSession n f).pch = s.pch := rfl
@[simp] theorem State.mapSession_msv (s : State) (n : Nat) (f : Session → Session) : (s.mapSession n f).msv = s.msv := rfl

/-! ### putKey -/

@[simp] theorem State.putKey_pending (s : State) (k : KeyRec) : (s.putKey k).pending = s.pending := rfl
@[simp] theorem State.putKey_out (s : State) (k : KeyRec) : (s.putKey k).out = s.out := rfl
@[simp] theorem State.putKey_od (s : State) (k : KeyRec) : (s.putKey k).od = s.od := rfl
@[simp] theorem State.putKey_dpx (s : State) (k : KeyRec) : (s.putKey k).dpx = s.dpx := rfl
@[simp] theorem State.putKey_wte (s : State) (k : KeyRec) : (s.putKey k).wte = s.wte := rfl
@[simp] theorem State.putKey_cqc (s : State) (k : KeyRec) : (s.putKey k).cqc = s.cqc := rfl
@[simp] theorem State.putKey_tpk (s : State) (k : KeyRec) : (s.putKey k).tpk = s.tpk := rfl
@[simp] theorem State.putKey_pae (s : State) (k : KeyRec) : (s.putKey k).pae = s.pae := rfl
@[simp] theorem State.putKey_cpx (s : State) (k : KeyRec) : (s.putKey k).cpx = s.cpx := rfl
@[simp] theorem State.putKey_bfc (s : State) (k : KeyRec) : (s.putKey k).bfc = s.bfc := rfl
@[simp] theorem State.putKey_plc (s : State) (k : KeyRec) : (s.putKey k).plc = s.plc := rfl
@[simp] theorem State.putKey_mta (s : State) (k : KeyRec) : (s.putKey k).mta = s.mta := rfl
@[simp] theorem State.putKey_wdn (s : State) (k : KeyRec) : (s.putKey k).wdn = s.wdn := rfl
@[simp] theorem State.putKey_jsr (s : State) (k : KeyRec) : (s.putKey k).jsr = s.jsr := rfl
@[simp] theorem State.putKey_pch (s : State) (k : KeyRec) : (s.putKey k).pch = s.pch := rfl
@[simp] theorem State.putKey_msv (s : State) (k : KeyRec) : (s.putKey k).msv = s.msv := rfl

/-! ### mapKey -/

@[simp] theorem State.mapKey_pending (s : State) (t : Nat) (k : Bytes) (f : KeyRec → KeyRec) : (s.mapKey t k f).pending = s.pending := rfl
@[simp] theorem State.mapKey_out (s : State) (t : Nat) (k : Bytes) (f : KeyRec → KeyRec) : (s.mapKey t k f).out = s.out := rfl
@[simp] theorem State.mapKey_od (s : State) (t : Nat) (k : Bytes) (f : KeyRec → KeyRec) : (s.mapKey t k f).od = s.od := rfl
@[simp] theorem State.mapKey_dpx (s : State) (t : Nat) (k : Bytes) (f : KeyRec → KeyRec) : (s.mapKey t k f).dpx = s.dpx := rfl
@[simp] theorem State.mapKey_wte (s : State) (t : Nat) (k : Bytes) (f : KeyRec → KeyRec) : (s.mapKey t k f).wte = s.wte := rfl
@[simp] theorem State.mapKey_cqc (s : State) (t : Nat) (k : Bytes) (f : KeyRec → KeyRec) : (s.mapKey t k f).cqc = s.cqc := rfl
@[simp] theorem State.mapKey_tpk (s : State) (t : Nat) (k : Bytes) (f : KeyRec → KeyRec) : (s.mapKey t k f).tpk = s.tpk := rfl
@[simp] theorem State.mapKey_pae (s : State) (t : Nat) (k : Bytes) (f : KeyRec → KeyRec) : (s.mapKey t k f).pae = s.pae := rfl
@[simp] theorem State.mapKey_cpx (s : State) (t : Nat) (k : Bytes) (f : KeyRec → KeyRec) : (s.mapKey t k f).cpx = s.cpx := rfl
@[simp] theorem State.mapKey_bfc (s : State) (t : Nat) (k : Bytes) (f : KeyRec → KeyRec) : (s.mapKey t k f).bfc = s.bfc := rfl
@[simp] theorem State.mapKey_plc (s : State) (t : Nat) (k : Bytes) (f : KeyRec → KeyRec) : (s.mapKey t k f).plc = s.plc := rfl
@[simp] theorem State.mapKey_mta (s : State) (t : Nat) (k : Bytes) (f : KeyRec → KeyRec) : (s.mapKey t k f).mta = s.mta := rfl
@[simp] theorem State.mapKey_wdn (s : State) (t : Nat) (k : Bytes) (f : KeyRec → KeyRec) : (s.mapKey t k f).wdn = s.wdn := rfl
@[simp] theorem State.mapKey_jsr (s : State) (t : Nat) (k : Bytes) (f : KeyRec → KeyRec) : (s.mapKey t k f).jsr = s.jsr := rfl
@[simp] theorem State.mapKey_pch (s : State) (t : Nat) (k : Bytes) (f : KeyRec → KeyRec) : (s.mapKey t k f).pch = s.pch := rfl
@[simp] theorem State.mapKey_msv (s : State) (t : Nat) (k : Bytes) (f : KeyRec → KeyRec) : (s.mapKey t k f).msv = s.msv := rfl

/-! ### mapPage -/

@[simp] theorem State.mapPage_pending (s : State) (n : Nat) (f : Page → Page) : (s.mapPage n f).pending = s.pending := rfl
@[simp] theorem State.mapPage_out (s : State) (n : Nat) (f : Page → Page) : (s.mapPage n f).out = s.out := rfl
@[simp] theorem State.mapPage_od (s : State) (n : Nat) (f : Page → Page) : (s.mapPage n f).od = s.od := rfl
@[simp] theorem State.mapPage_dpx (s : State) (n : Nat) (f : Page → Page) : (s.mapPage n f).dpx = s.dpx := rfl
@[simp] theorem State.mapPage_wte (s : State) (n : Nat) (f : Page → Page) : (s.mapPage n f).wte = s.wte := rfl
@[simp] theorem State.mapPage_cqc (s : State) (n : Nat) (f : Page → Page) : (s.mapPage n f).cqc = s.cqc := rfl
@[simp] theorem State.mapPage_tpk (s : State) (n : Nat) (f : Page → Page) : (s.mapPage n f).tpk = s.tpk := rfl
@[simp] theorem State.mapPage_pae (s : State) (n : Nat) (f : Page → Page) : (s.mapPage n f).pae = s.pae := rfl
@[simp] theorem State.mapPage_cpx (s : State) (n : Nat) (f : Page → Page) : (s.mapPage n f).cpx = s.cpx := rfl
@[simp] theorem State.mapPage_bfc (s : State) (n : Nat) (f : Page → Page) : (s.mapPage n f).bfc = s.bfc := rfl
@[simp] theorem State.mapPage_plc (s : State) (n : Nat) (f : Page → Page) : (s.mapPage n f).plc = s.plc := rfl
@[simp] theorem State.mapPage_mta (s : State) (n : Nat) (f : Page → Page) : (s.mapPage n f).mta = s.mta := rfl
@[simp] theorem State.mapPage_wdn (s : State) (n : Nat) (f : Page → Page) : (s.mapPage n f).wdn = s.wdn := rfl
@[simp] theorem State.mapPage_jsr (s : State) (n : Nat) (f : Page → Page) : (s.mapPage n f).jsr = s.jsr := rfl
@[simp] theorem State.mapPage_pch (s : State) (n : Nat) (f : Page → Page) : (s.mapPage n f).pch = s.pch := rfl
@[simp] theorem State.mapPage_msv (s : State) (n : Nat) (f : Page → Page) : (s.mapPage n f).msv = s.msv := rfl

/-! ### mapBank -/

@[simp] theorem State.mapBank_pending (s : State) (n : Nat) (f : CamBank → CamBank) : (s.mapBank n f).pending = s.pending := rfl
@[simp] theorem State.mapBank_out (s : State) (n : Nat) (f : CamBank → CamBank) : (s.mapBank n f).out = s.out := rfl
@[simp] theorem State.mapBank_od (s : State) (n : Nat) (f : CamBank → CamBank) : (s.mapBank n f).od = s.od := rfl
@[simp] theorem State.mapBank_dpx (s : State) (n : Nat) (f : CamBank → CamBank) : (s.mapBank n f).dpx = s.dpx := rfl
@[simp] theorem State.mapBank_wte (s : State) (n : Nat) (f : CamBank → CamBank) : (s.mapBank n f).wte = s.wte := rfl
@[simp] theorem State.mapBank_cqc (s : State) (n : Nat) (f : CamBank → CamBank) : (s.mapBank n f).cqc = s.cqc := rfl
@[simp] theorem State.mapBank_tpk (s : State) (n : Nat) (f : CamBank → CamBank) : (s.mapBank n f).tpk = s.tpk := rfl
@[simp] theorem State.mapBank_pae (s : State) (n : Nat) (f : CamBank → CamBank) : (s.mapBank n f).pae = s.pae := rfl
@[simp] theorem State.mapBank_cpx (s : State) (n : Nat) (f : CamBank → CamBank) : (s.mapBank n f).cpx = s.cpx := rfl
@[simp] theorem State.mapBank_bfc (s : State) (n : Nat) (f : CamBank → CamBank) : (s.mapBank n f).bfc = s.bfc := rfl
@[simp] theorem State.mapBank_plc (s : State) (n : Nat) (f : CamBank → CamBank) : (s.mapBank n f).plc = s.plc := rfl
@[simp] theorem State.mapBank_mta (s : State) (n : Nat) (f : CamBank → CamBank) : (s.mapBank n f).mta = s.mta := rfl
@[simp] theorem State.mapBank_wdn (s : State) (n : Nat) (f : CamBank → CamBank) : (s.mapBank n f).wdn = s.wdn := rfl
@[simp] theorem State.mapBank_jsr (s : State) (n : Nat) (f : CamBank → CamBank) : (s.mapBank n f).jsr = s.jsr := rfl
@[simp] theorem State.mapBank_pch (s : State) (n : Nat) (f : CamBank → CamBank) : (s.mapBank n f).pch = s.pch := rfl
@[simp] theorem State.mapBank_msv (s : State) (n : Nat) (f : CamBank → CamBank) : (s.mapBank n f).msv = s.msv := rfl

/-! ### mapStripe -/

@[simp] theorem State.mapStripe_pending (s : State) (n : Nat) (f : Stripe → Stripe) : (s.mapStripe n f).pending = s.pending := rfl
@[simp] theorem State.mapStripe_out (s : State) (n : Nat) (f : Stripe → Stripe) : (s.mapStripe n f).out = s.out := rfl
@[simp] theorem State.mapStripe_od (s : State) (n : Nat) (f : Stripe → Stripe) : (s.mapStripe n f).od = s.od := rfl
@[simp] theorem State.mapStripe_dpx (s : State) (n : Nat) (f : Stripe → Stripe) : (s.mapStripe n f).dpx = s.dpx := rfl
@[simp] theorem State.mapStripe_wte (s : State) (n : Nat) (f : Stripe → Stripe) : (s.mapStripe n f).wte = s.wte := rfl
@[simp] theorem State.mapStripe_cqc (s : State) (n : Nat) (f : Stripe → Stripe) : (s.mapStripe n f).cqc = s.cqc := rfl
@[simp] theorem State.mapStripe_tpk (s : State) (n : Nat) (f : Stripe → Stripe) : (s.mapStripe n f).tpk = s.tpk := rfl
@[simp] theorem State.mapStripe_asu (s : State) (n : Nat) (f : Stripe → Stripe) : (s.mapStripe n f).asu = s.asu := rfl
@[simp] theorem State.mapStripe_pae (s : State) (n : Nat) (f : Stripe → Stripe) : (s.mapStripe n f).pae = s.pae := rfl
@[simp] theorem State.mapStripe_cpx (s : State) (n : Nat) (f : Stripe → Stripe) : (s.mapStripe n f).cpx = s.cpx := rfl
@[simp] theorem State.mapStripe_bfc (s : State) (n : Nat) (f : Stripe → Stripe) : (s.mapStripe n f).bfc = s.bfc := rfl
@[simp] theorem State.mapStripe_mta (s : State) (n : Nat) (f : Stripe → Stripe) : (s.mapStripe n f).mta = s.mta := rfl
@[simp] theorem State.mapStripe_wdn (s : State) (n : Nat) (f : Stripe → Stripe) : (s.mapStripe n f).wdn = s.wdn := rfl
@[simp] theorem State.mapStripe_jsr (s : State) (n : Nat) (f : Stripe → Stripe) : (s.mapStripe n f).jsr = s.jsr := rfl
@[simp] theorem State.mapStripe_pch (s : State) (n : Nat) (f : Stripe → Stripe) : (s.mapStripe n f).pch = s.pch := rfl
@[simp] theorem State.mapStripe_msv (s : State) (n : Nat) (f : Stripe → Stripe) : (s.mapStripe n f).msv = s.msv := rfl

/-! ### mapTile -/

@[simp] theorem State.mapTile_pending (s : State) (n : Nat) (f : Tile → Tile) : (s.mapTile n f).pending = s.pending := rfl
@[simp] theorem State.mapTile_out (s : State) (n : Nat) (f : Tile → Tile) : (s.mapTile n f).out = s.out := rfl
@[simp] theorem State.mapTile_od (s : State) (n : Nat) (f : Tile → Tile) : (s.mapTile n f).od = s.od := rfl
@[simp] theorem State.mapTile_dpx (s : State) (n : Nat) (f : Tile → Tile) : (s.mapTile n f).dpx = s.dpx := rfl
@[simp] theorem State.mapTile_wte (s : State) (n : Nat) (f : Tile → Tile) : (s.mapTile n f).wte = s.wte := rfl
@[simp] theorem State.mapTile_cqc (s : State) (n : Nat) (f : Tile → Tile) : (s.mapTile n f).cqc = s.cqc := rfl
@[simp] theorem State.mapTile_tpk (s : State) (n : Nat) (f : Tile → Tile) : (s.mapTile n f).tpk = s.tpk := rfl
@[simp] theorem State.mapTile_asu (s : State) (n : Nat) (f : Tile → Tile) : (s.mapTile n f).asu = s.asu := rfl
@[simp] theorem State.mapTile_pae (s : State) (n : Nat) (f : Tile → Tile) : (s.mapTile n f).pae = s.pae := rfl
@[simp] theorem State.mapTile_cpx (s : State) (n : Nat) (f : Tile → Tile) : (s.mapTile n f).cpx = s.cpx := rfl
@[simp] theorem State.mapTile_bfc (s : State) (n : Nat) (f : Tile → Tile) : (s.mapTile n f).bfc = s.bfc := rfl
@[simp] theorem State.mapTile_plc (s : State) (n : Nat) (f : Tile → Tile) : (s.mapTile n f).plc = s.plc := rfl
@[simp] theorem State.mapTile_wdn (s : State) (n : Nat) (f : Tile → Tile) : (s.mapTile n f).wdn = s.wdn := rfl
@[simp] theorem State.mapTile_jsr (s : State) (n : Nat) (f : Tile → Tile) : (s.mapTile n f).jsr = s.jsr := rfl
@[simp] theorem State.mapTile_pch (s : State) (n : Nat) (f : Tile → Tile) : (s.mapTile n f).pch = s.pch := rfl
@[simp] theorem State.mapTile_msv (s : State) (n : Nat) (f : Tile → Tile) : (s.mapTile n f).msv = s.msv := rfl

/-! ### mapEngine -/

@[simp] theorem State.mapEngine_pending (s : State) (n : Nat) (f : Engine → Engine) : (s.mapEngine n f).pending = s.pending := rfl
@[simp] theorem State.mapEngine_out (s : State) (n : Nat) (f : Engine → Engine) : (s.mapEngine n f).out = s.out := rfl
@[simp] theorem State.mapEngine_od (s : State) (n : Nat) (f : Engine → Engine) : (s.mapEngine n f).od = s.od := rfl
@[simp] theorem State.mapEngine_dpx (s : State) (n : Nat) (f : Engine → Engine) : (s.mapEngine n f).dpx = s.dpx := rfl
@[simp] theorem State.mapEngine_wte (s : State) (n : Nat) (f : Engine → Engine) : (s.mapEngine n f).wte = s.wte := rfl
@[simp] theorem State.mapEngine_cqc (s : State) (n : Nat) (f : Engine → Engine) : (s.mapEngine n f).cqc = s.cqc := rfl
@[simp] theorem State.mapEngine_tpk (s : State) (n : Nat) (f : Engine → Engine) : (s.mapEngine n f).tpk = s.tpk := rfl
@[simp] theorem State.mapEngine_asu (s : State) (n : Nat) (f : Engine → Engine) : (s.mapEngine n f).asu = s.asu := rfl
@[simp] theorem State.mapEngine_cpx (s : State) (n : Nat) (f : Engine → Engine) : (s.mapEngine n f).cpx = s.cpx := rfl
@[simp] theorem State.mapEngine_bfc (s : State) (n : Nat) (f : Engine → Engine) : (s.mapEngine n f).bfc = s.bfc := rfl
@[simp] theorem State.mapEngine_plc (s : State) (n : Nat) (f : Engine → Engine) : (s.mapEngine n f).plc = s.plc := rfl
@[simp] theorem State.mapEngine_mta (s : State) (n : Nat) (f : Engine → Engine) : (s.mapEngine n f).mta = s.mta := rfl
@[simp] theorem State.mapEngine_wdn (s : State) (n : Nat) (f : Engine → Engine) : (s.mapEngine n f).wdn = s.wdn := rfl
@[simp] theorem State.mapEngine_jsr (s : State) (n : Nat) (f : Engine → Engine) : (s.mapEngine n f).jsr = s.jsr := rfl
@[simp] theorem State.mapEngine_pch (s : State) (n : Nat) (f : Engine → Engine) : (s.mapEngine n f).pch = s.pch := rfl
@[simp] theorem State.mapEngine_msv (s : State) (n : Nat) (f : Engine → Engine) : (s.mapEngine n f).msv = s.msv := rfl

/-! ### raise, mapPort and mapWarden choose by the state or an operand -/

@[simp] theorem State.raise_pending (s : State) (c u a b d : Nat) : (s.raise c u a b d).pending = s.pending := by
  unfold State.raise; dsimp only; repeat (first | rfl | split)
@[simp] theorem State.raise_out (s : State) (c u a b d : Nat) : (s.raise c u a b d).out = s.out := by
  unfold State.raise; dsimp only; repeat (first | rfl | split)
@[simp] theorem State.raise_dpx (s : State) (c u a b d : Nat) : (s.raise c u a b d).dpx = s.dpx := by
  unfold State.raise; dsimp only; repeat (first | rfl | split)
@[simp] theorem State.raise_wte (s : State) (c u a b d : Nat) : (s.raise c u a b d).wte = s.wte := by
  unfold State.raise; dsimp only; repeat (first | rfl | split)
@[simp] theorem State.raise_cqc (s : State) (c u a b d : Nat) : (s.raise c u a b d).cqc = s.cqc := by
  unfold State.raise; dsimp only; repeat (first | rfl | split)
@[simp] theorem State.raise_asu (s : State) (c u a b d : Nat) : (s.raise c u a b d).asu = s.asu := by
  unfold State.raise; dsimp only; repeat (first | rfl | split)
@[simp] theorem State.raise_pae (s : State) (c u a b d : Nat) : (s.raise c u a b d).pae = s.pae := by
  unfold State.raise; dsimp only; repeat (first | rfl | split)
@[simp] theorem State.raise_cpx (s : State) (c u a b d : Nat) : (s.raise c u a b d).cpx = s.cpx := by
  unfold State.raise; dsimp only; repeat (first | rfl | split)
@[simp] theorem State.raise_bfc (s : State) (c u a b d : Nat) : (s.raise c u a b d).bfc = s.bfc := by
  unfold State.raise; dsimp only; repeat (first | rfl | split)
@[simp] theorem State.raise_plc (s : State) (c u a b d : Nat) : (s.raise c u a b d).plc = s.plc := by
  unfold State.raise; dsimp only; repeat (first | rfl | split)
@[simp] theorem State.raise_mta (s : State) (c u a b d : Nat) : (s.raise c u a b d).mta = s.mta := by
  unfold State.raise; dsimp only; repeat (first | rfl | split)
@[simp] theorem State.raise_wdn (s : State) (c u a b d : Nat) : (s.raise c u a b d).wdn = s.wdn := by
  unfold State.raise; dsimp only; repeat (first | rfl | split)
@[simp] theorem State.raise_pch (s : State) (c u a b d : Nat) : (s.raise c u a b d).pch = s.pch := by
  unfold State.raise; dsimp only; repeat (first | rfl | split)
@[simp] theorem State.raise_msv (s : State) (c u a b d : Nat) : (s.raise c u a b d).msv = s.msv := by
  unfold State.raise; dsimp only; repeat (first | rfl | split)
@[simp] theorem State.mapPort_pending (s : State) (p : Port) (f : PortS → PortS) : (s.mapPort p f).pending = s.pending := by
  cases p <;> rfl
@[simp] theorem State.mapPort_out (s : State) (p : Port) (f : PortS → PortS) : (s.mapPort p f).out = s.out := by
  cases p <;> rfl
@[simp] theorem State.mapPort_od (s : State) (p : Port) (f : PortS → PortS) : (s.mapPort p f).od = s.od := by
  cases p <;> rfl
@[simp] theorem State.mapPort_wte (s : State) (p : Port) (f : PortS → PortS) : (s.mapPort p f).wte = s.wte := by
  cases p <;> rfl
@[simp] theorem State.mapPort_cqc (s : State) (p : Port) (f : PortS → PortS) : (s.mapPort p f).cqc = s.cqc := by
  cases p <;> rfl
@[simp] theorem State.mapPort_tpk (s : State) (p : Port) (f : PortS → PortS) : (s.mapPort p f).tpk = s.tpk := by
  cases p <;> rfl
@[simp] theorem State.mapPort_asu (s : State) (p : Port) (f : PortS → PortS) : (s.mapPort p f).asu = s.asu := by
  cases p <;> rfl
@[simp] theorem State.mapPort_pae (s : State) (p : Port) (f : PortS → PortS) : (s.mapPort p f).pae = s.pae := by
  cases p <;> rfl
@[simp] theorem State.mapPort_cpx (s : State) (p : Port) (f : PortS → PortS) : (s.mapPort p f).cpx = s.cpx := by
  cases p <;> rfl
@[simp] theorem State.mapPort_bfc (s : State) (p : Port) (f : PortS → PortS) : (s.mapPort p f).bfc = s.bfc := by
  cases p <;> rfl
@[simp] theorem State.mapPort_plc (s : State) (p : Port) (f : PortS → PortS) : (s.mapPort p f).plc = s.plc := by
  cases p <;> rfl
@[simp] theorem State.mapPort_mta (s : State) (p : Port) (f : PortS → PortS) : (s.mapPort p f).mta = s.mta := by
  cases p <;> rfl
@[simp] theorem State.mapPort_wdn (s : State) (p : Port) (f : PortS → PortS) : (s.mapPort p f).wdn = s.wdn := by
  cases p <;> rfl
@[simp] theorem State.mapPort_jsr (s : State) (p : Port) (f : PortS → PortS) : (s.mapPort p f).jsr = s.jsr := by
  cases p <;> rfl
@[simp] theorem State.mapPort_pch (s : State) (p : Port) (f : PortS → PortS) : (s.mapPort p f).pch = s.pch := by
  cases p <;> rfl
@[simp] theorem State.mapPort_msv (s : State) (p : Port) (f : PortS → PortS) : (s.mapPort p f).msv = s.msv := by
  cases p <;> rfl
@[simp] theorem State.mapWarden_pending (s : State) (w : Warden) (f : WardenS → WardenS) : (s.mapWarden w f).pending = s.pending := by
  cases w <;> rfl
@[simp] theorem State.mapWarden_out (s : State) (w : Warden) (f : WardenS → WardenS) : (s.mapWarden w f).out = s.out := by
  cases w <;> rfl
@[simp] theorem State.mapWarden_od (s : State) (w : Warden) (f : WardenS → WardenS) : (s.mapWarden w f).od = s.od := by
  cases w <;> rfl
@[simp] theorem State.mapWarden_dpx (s : State) (w : Warden) (f : WardenS → WardenS) : (s.mapWarden w f).dpx = s.dpx := by
  cases w <;> rfl
@[simp] theorem State.mapWarden_wte (s : State) (w : Warden) (f : WardenS → WardenS) : (s.mapWarden w f).wte = s.wte := by
  cases w <;> rfl
@[simp] theorem State.mapWarden_cqc (s : State) (w : Warden) (f : WardenS → WardenS) : (s.mapWarden w f).cqc = s.cqc := by
  cases w <;> rfl
@[simp] theorem State.mapWarden_tpk (s : State) (w : Warden) (f : WardenS → WardenS) : (s.mapWarden w f).tpk = s.tpk := by
  cases w <;> rfl
@[simp] theorem State.mapWarden_asu (s : State) (w : Warden) (f : WardenS → WardenS) : (s.mapWarden w f).asu = s.asu := by
  cases w <;> rfl
@[simp] theorem State.mapWarden_pae (s : State) (w : Warden) (f : WardenS → WardenS) : (s.mapWarden w f).pae = s.pae := by
  cases w <;> rfl
@[simp] theorem State.mapWarden_cpx (s : State) (w : Warden) (f : WardenS → WardenS) : (s.mapWarden w f).cpx = s.cpx := by
  cases w <;> rfl
@[simp] theorem State.mapWarden_bfc (s : State) (w : Warden) (f : WardenS → WardenS) : (s.mapWarden w f).bfc = s.bfc := by
  cases w <;> rfl
@[simp] theorem State.mapWarden_plc (s : State) (w : Warden) (f : WardenS → WardenS) : (s.mapWarden w f).plc = s.plc := by
  cases w <;> rfl
@[simp] theorem State.mapWarden_mta (s : State) (w : Warden) (f : WardenS → WardenS) : (s.mapWarden w f).mta = s.mta := by
  cases w <;> rfl
@[simp] theorem State.mapWarden_jsr (s : State) (w : Warden) (f : WardenS → WardenS) : (s.mapWarden w f).jsr = s.jsr := by
  cases w <;> rfl
@[simp] theorem State.mapWarden_pch (s : State) (w : Warden) (f : WardenS → WardenS) : (s.mapWarden w f).pch = s.pch := by
  cases w <;> rfl
@[simp] theorem State.mapWarden_msv (s : State) (w : Warden) (f : WardenS → WardenS) : (s.mapWarden w f).msv = s.msv := by
  cases w <;> rfl

/-! ### Reading back what an update changes -/

@[simp] theorem State.emit_out (s : State) (o : Out) : (s.emit o).out = s.out ++ [o] := rfl
@[simp] theorem State.mapPort_port (s : State) (p : Port) (f : PortS → PortS) : (s.mapPort p f).port p = f (s.port p) := by
  cases p <;> rfl
@[simp] theorem State.mapWarden_warden (s : State) (w : Warden) (f : WardenS → WardenS) :
    (s.mapWarden w f).warden w = f (s.warden w) := by
  cases w <;> rfl
@[simp] theorem State.put_now (s : State) (i u : Nat) (v : OdVal) : (s.put i u v).now = s.now := rfl
@[simp] theorem State.bump_now (s : State) (i u n : Nat) : (s.bump i u n).now = s.now := rfl
@[simp] theorem State.raise_now (s : State) (c u a b d : Nat) : (s.raise c u a b d).now = s.now := by
  simp [State.now]

end Sys2Proof.Machine
end

