-- ==== Sys2Proof/Laws/Store.lean ====
section
/-!
SUPPORT. The dictionary store: reading a key after it was stored or erased, keys of different entries, and the write of an
entry that is taken.
-/
namespace Sys2Proof.Machine

theorem odGet_insert_same (l : List (Nat × OdVal)) (k : Nat) (v : OdVal) : odGet (odInsert l k v) k = some v := by
  induction l with
  | nil => simp [odInsert, odGet]
  | cons a l ih =>
    unfold odInsert
    split
    · simp [odGet]
    · split
      · simp [odGet]
      · rename_i h
        have : ¬ a.1 = k := fun e => h e.symm
        simp [odGet, this, ih]

theorem odGet_insert_other (l : List (Nat × OdVal)) (k j : Nat) (v : OdVal) (h : j ≠ k) :
    odGet (odInsert l k v) j = odGet l j := by
  have h' : ¬ k = j := fun e => h e.symm
  induction l with
  | nil => simp [odInsert, odGet, h']
  | cons a l ih =>
    unfold odInsert
    split
    · simp [odGet, h']
    · split
      · rename_i e
        have h2 : ¬ a.1 = j := by rw [← e]; exact h'
        simp [odGet, h', h2]
      · by_cases g : a.1 = j
        · simp [odGet, g]
        · simp [odGet, g, ih]

theorem odKey_inj {i u j w : Nat} (hu : u < 256) (hw : w < 256) (h : odKey i u = odKey j w) : i = j ∧ u = w := by
  unfold odKey at h; omega

/-- The answer of a write that is taken and whose effect answers OK. -/
theorem State.ownWrite_taken {s t : State} {eff : WriteEffect} {r : Requester} {i u : Nat} {v : OdVal} (h : s.takesWrite r i u v)
    (he : eff r i u v s = (t, stOk)) : s.ownWrite eff r i u v = s.writeAnswered t r i u := by
  obtain ⟨h1, h2, h0, h3, e, h4, h5, h6⟩ := h
  simp [State.ownWrite, State.takeWrite, applyWrite, h0, h1, h2, h3, h4, h5, h6, he, State.writeAnswered, stAccessLocked, stBadRequest, stOk, stParked]

/-- A write that steps 2 to 5 of R493 refuse is answered with their status and changes nothing else. -/
theorem State.ownWrite_gated {s : State} {eff : WriteEffect} {r : Requester} {i u : Nat} {v : OdVal}
    (h : writeGate s r i u v ≠ stOk) :
    s.ownWrite eff r i u v = s.emit (.dictAnswer r i u (writeGate s r i u v)
      (if writeGate s r i u v = stBadRequest then subEntryLength else 0) s.now) := by
  simp [State.ownWrite, State.takeWrite, h]

/-- A write over a gap is held. -/
theorem State.ownWrite_held {s : State} {eff : WriteEffect} {r : Requester} {i u : Nat} {v : OdVal}
    (h : writeGate s r i u v = stOk) (g : s.writesHeld = true) : s.ownWrite eff r i u v =
      { s with msv.held := s.msv.held ++ [{ req := r, index := i, sub := u, val := v, at_ := s.now, task := none, frame := none }] } := by
  simp [State.ownWrite, State.takeWrite, h, g]

end Sys2Proof.Machine
end

