-- ==== Sys2Proof/Tests/Slice0.lean ====
section
/-!
SUPPORT. Small tests of single steps, and for every statement of the obligations with hypotheses a witness: a concrete state and
operands that meet the hypotheses of each of its clauses together.
-/
namespace Sys2Proof.Tests
open Sys2Proof Sys2Proof.Machine

-- Each test waits in the kernel for the file before it; one at a time they need one thread.
set_option Elab.async false

/-! ## Helpers -/

/-- A module in Ready with both supplies, Warden A holding the lease and wall time 0. -/
def base : State :=
  { State.reset with
    pch := { Pch.reset with power := .ready, step := 0, mainGood := true, wallOffset := 0, devTime := 1000 },
    jsr.powered := true, wdn.holder := some .a, wdn.leaseEnd := 1040,
    wdn.wardenA := { eligible := true, state := 0, mismatch := false },
    wdn.wardenB := { eligible := true, state := 1, mismatch := false },
    cqc.epoch := { startNs := 0, minutes := 60, flags := 0 },
    od := [(0x110200, .bytes [2, 0, 0, 0, 0, 1]), (0x120200, .bytes [2, 0, 0, 0, 0, 2])] }

/-- The same long after. -/
def late : State := { base with pch.devTime := 100000000, wdn.leaseEnd := 100000040 }

/-- A field area with the given pieces: offset from 24, width, value. -/
def area (n : Nat) (l : List (Nat × Nat × Nat)) : Bytes :=
  l.foldl (fun b e => b.take (e.1 - 24) ++ natBytes e.2.1 e.2.2 ++ b.drop (e.1 - 24 + e.2.1)) (List.replicate n (0 : Byte))

def trs (op : Nat) (fields : Bytes) : Trs :=
  { idx := 5, gen := 1, state := .running, opcode := op, admitCls := 1, cls := 1, ordered := false, orderedFlag := false, port := .a, tenant := 1,
    session := 7, seq0 := 1, reqId := 9, admitTime := 0, admitDev := 0, order := 1, earlierOpen := 0, started := true,
    abortedBy := none, late := false, ready := none, rxAt := 0, unmeasured := false, media := false, looked := [], place := none,
    classes := [], prints := [], keys := [], joined := false, headed := false, keysReserved := 0, bytesReserved := 0,
    version := 0, status := 0, flags := 0, msgLen := 0, fields := fields, data := none, result := false, respFields := [],
    respData := [], changes := [], committed := false, unlocked := false, stripes := [], covered := [], reading := [],
    parked := false, degraded := false, cursor := 0, atOnce := false }

def withTrs (s : State) (t : Trs) : State := { s with cqc.trs := [t] }

def takesB (s : State) (r : Requester) (i u : Nat) (v : OdVal) : Bool :=
  decide (writeGate s r i u v = stOk) && !s.writesHeld && decide (s.msv.held = []) && decide (writeLock s i u = stOk) &&
    match entryAt i u with
    | some e => e.rangeOk v && decide (e.access ≠ .w1)
    | none => false

theorem takes_of {s : State} {r : Requester} {i u : Nat} {v : OdVal} (h : takesB s r i u v = true) : s.takesWrite r i u v := by
  unfold takesB at h
  simp only [Bool.and_eq_true, decide_eq_true_eq, Bool.not_eq_true'] at h
  obtain ⟨⟨⟨⟨h1, h2⟩, h0⟩, h3⟩, h4⟩ := h
  refine ⟨h1, h2, h0, h3, ?_⟩
  split at h4
  · next e he =>
    simp only [Bool.and_eq_true, decide_eq_true_eq] at h4
    exact ⟨e, he, h4.1, h4.2⟩
  · simp at h4

theorem pair_of {α : Type} {p : α × Nat} {n : Nat} (h : p.2 = n) : p = (p.1, n) := Prod.ext rfl h

def txFrag : TxFrag :=
  { session := 7, port := .a, seq := 1, cumAck := 0, sack := 0, reqId := 9, opcode := 3, status := 0, flags := 0, cls := 1, index := 0,
    count := 1, credit := 64, leg := 0, unit := 0, legLen := 0, msgLen := 0, legOff := 0, fields := [], data := [], nonce := none,
    cipher := [], gcm := 0, timed := none }

/-- Session 7 of tenant 1 on Port A, confirmed. -/
def sess : Session :=
  { id := 7, phase := .confirmed, tenant := 1, port := .a, src := ⟨false, 0x0A000002⟩, srcPort := 40000, modAddr := ⟨false, 0x0A000001⟩,
    tag := none, srcMac := 0x020000000099, size := 1280, enc := false, openReqId := 1, nc := 0,
    opening := none, keyCm := [], keyMc := [], keyR := [], hashH := [], claimed := none,
    discard := [], rxCum := 0, rxSeen := [], edge := 64, ackDue := none, lastAuth := 0, messages := [], txNext := 1, txCum := 0,
    peerEdge := 64, unacked := [], outgoing := [], rto := 1000000, rtoBase := 1000000, srtt := none, rtoFrom := none, retries := 0,
    rxEpoch := 0, rxHigh := 0, rxCounters := [], prevEpoch := none, txEpoch := 0, txCounter := 0, replay := [] }

def withSess (s : State) (x : Session) : State := { s with wte.sessions := [x] }

/-- A datagram of one fragment with the given flags, opcode and lead fields. -/
def frag (flags op : Nat) (fields : Bytes) : Frag :=
  { srcMac := 0x020000000099, tag := none, dscp := 0, src := ⟨false, 0x0A000002⟩, dst := ⟨false, 0x0A000001⟩, ipFragment := false,
    srcPort := 40000, dstPort := 7463, udpLen := 200, magic := 0x64B, version := 1, flags := flags, session := 7, seq := 1, cumAck := 0,
    sack := 0, reqId := 9, opcode := op, status := 0, cls := 1, index := 0, count := 1, payloadLen := 24 + fields.length, credit := 64,
    leg := 0, lead := some { leadLen := 24 + fields.length, unit := 128, legLen := 0, msgLen := 0, legOff := 0, fields := fields },
    data := [], nonce := none, gcmTag := 0 }

def keyRec : KeyRec :=
  { tenant := 1, key := [0x61], version := 5, value := [1, 2, 3, 4], print := 0, pinned := false, fast := false, tombstone := false,
    lost := false, packed := false, extents := [], pinnedMap := false, older := [], page := 0, entryId := 0, mapPages := [] }

/-- A stored copy of a key. -/
def kept : StoredKey := { nonce := 0, body := zeros 32, tag := zeros 16 }

/-- A page loaded with the key page of tenant 1. -/
def keyPage (state : Nat) : KeyPage :=
  { page := 1, xts1 := some (zeros 32), xts2 := some (zeros 32), access := some (zeros 16), copy1 := some kept,
    copy2 := some kept, copyA := some kept, copyT := none, transit := none, state := state, before := 0, loadedAt := 0, loads := 1 }

def page : Page :=
  { number := 3, kind := 1, pinned := false, tenant := 1, version := 0, cached := true, lru := 0, wanted := false, unreadable := false,
    clean := false, detached := false, home := none, dir := none }

def shard (t : Nat) (ph : ShardPhase) : Shard := { tile := t, region := 0, slot := 0, len := 0, phase := ph }

def stripe (ph : ShardPhase) : Stripe :=
  { id := 2, tenant := 1, kind := 1, k := 14, fast := false, filled := 100, sealed := true, openedAt := 0,
    shards := (List.range 16).map fun i => shard i ph, degraded := false, lost := false, cls := 1, order := some 1, dirty := true,
    flushed := false, detached := false }

def dictFrame (op : Nat) : DictFrame :=
  { source := 0x020000000077, broadcast := false, op := op, reserved := 0, seq := 4, index := 0x3004, sub := 0, status := 0, length := 0,
    area := [] }

def event (c : Nat) : Event := { code := c, unit := 0, p1 := 0, p2 := 0, p3 := 0, time := 1000 }

def asleep : State := { base with pch.power := .doze }

/-! ## Ill-formed operands are refused -/

/-- A frame of 64 bytes with the body, its EtherType that of the body. -/
def frameOf (b : FrameBody) : RxFrame :=
  { dstMac := 0x0180C2000001, srcMac := 0x020000000099, tag := none, secondTag := false, len := 64, dscp := none, fcsOk := true,
    fecFixed := 0, fecLost := 0, raw := zeros 12 ++ (match b.family with
      | some true => [0x86, 0xDD]
      | some false => [0x08, 0x00]
      | none => [0x88, 0xB5]) ++ zeros 46, fcs := 0, body := b }

def okFrame : RxFrame := frameOf .other

/-- A state after the command; the state before it where the command stops. -/
def after (c : Instr) (s : State) : State :=
  match exec c s with
  | .next t => t
  | _ => s

def refuses (c : Instr) (s : State) : Bool :=
  match exec c s with
  | .refused (.illFormed _) => !c.wellFormed
  | _ => false

def faults (c : Instr) (s : State) : Bool :=
  match exec c s with
  | .fault .noSuchUnit => c.wellFormed && !c.namesUnits
  | _ => false

theorem test_frame_well_formed : (Instr.frameReceive .a okFrame).wellFormed = true := by decide
theorem test_frame_ill_formed : ∀ f ∈ [{ okFrame with dstMac := 2 ^ 48 }, { okFrame with srcMac := 2 ^ 48 },
    { okFrame with tag := some ⟨8, 1⟩ }, { okFrame with tag := some ⟨7, 4096⟩ }, { okFrame with len := 65536 },
    { okFrame with dscp := some 64 }, { okFrame with len := 65 }, { okFrame with raw := zeros 12 ++ [0x08, 0x00] ++ zeros 46 }], refuses (.frameReceive .a f) base = true := by decide +kernel
theorem test_body_ill_formed : ∀ b ∈ [FrameBody.pause 65536, .pfc 256 (List.replicate 8 0), .pfc 255 [0], .pfc 255 (List.replicate 8 65536),
    .lldp (some (65536, 0)), .lldp (some (0, 65536)), .ptp 3 0 (.followUp 0 0 0), .ptp 0 256 (.followUp 0 0 0),
    .ptp 0 0 (.followUp (2 ^ 80) 0 0), .ptp 0 0 (.followUp 0 65536 0), .ptp 0 0 (.announce (2 ^ 80) ⟨0, 0, 0, 0, 0, 0, 0⟩ 0 true true 1),
    .ptp 0 0 (.announce 0 ⟨256, 0, 0, 0, 0, 0, 0⟩ 0 true true 1), .arp true 0 (2 ^ 32), .arp true (2 ^ 32) 0,
    .neighbourSolicit 0 (2 ^ 128) 0, .neighbourSolicit 0 0 (2 ^ 128), .neighbourSolicit (2 ^ 128) 0 0,
    .echo ⟨false, 2 ^ 32⟩ ⟨false, 0⟩ 0 0 [], .echo ⟨false, 0⟩ ⟨true, 2 ^ 128⟩ 0 0 [], .echo ⟨false, 0⟩ ⟨false, 0⟩ 65536 0 [],
    .echo ⟨false, 0⟩ ⟨false, 0⟩ 0 65536 [], .icmpOther ⟨false, 2 ^ 32⟩, .ipOther ⟨true, 2 ^ 128⟩],
    refuses (.frameReceive .b (frameOf b)) base = true := by decide +kernel
theorem test_fragment_ill_formed : ∀ f ∈ [{ frag 0 1 [] with srcMac := 2 ^ 48 }, { frag 0 1 [] with tag := some ⟨8, 0⟩ },
    { frag 0 1 [] with dscp := 64 }, { frag 0 1 [] with src := ⟨false, 2 ^ 32⟩ }, { frag 0 1 [] with dst := ⟨false, 2 ^ 32⟩ },
    { frag 0 1 [] with srcPort := 65536 }, { frag 0 1 [] with dstPort := 65536 }, { frag 0 1 [] with udpLen := 65536 },
    { frag 0 1 [] with magic := 4096 }, { frag 0 1 [] with version := 16 }, { frag 0 1 [] with flags := 65536 },
    { frag 0 1 [] with session := 2 ^ 32 }, { frag 0 1 [] with seq := 2 ^ 32 }, { frag 0 1 [] with cumAck := 2 ^ 32 },
    { frag 0 1 [] with sack := 2 ^ 32 }, { frag 0 1 [] with reqId := 2 ^ 64 }, { frag 0 1 [] with opcode := 256 },
    { frag 0 1 [] with status := 256 }, { frag 0 1 [] with cls := 4 }, { frag 0 1 [] with index := 16384 },
    { frag 0 1 [] with count := 65536 }, { frag 0 1 [] with payloadLen := 65536 }, { frag 0 1 [] with credit := 65536 },
    { frag 0 1 [] with leg := 65536 }, { frag 0 1 [] with lead := some ⟨65536, 0, 0, 0, 0, []⟩ },
    { frag 0 1 [] with lead := some ⟨0, 65536, 0, 0, 0, []⟩ }, { frag 0 1 [] with lead := some ⟨0, 0, 2 ^ 32, 0, 0, []⟩ },
    { frag 0 1 [] with lead := some ⟨0, 0, 0, 2 ^ 64, 0, []⟩ }, { frag 0 1 [] with lead := some ⟨0, 0, 0, 0, 2 ^ 64, []⟩ },
    { frag 0 1 [] with nonce := some ⟨true, 2 ^ 31, 0⟩ }, { frag 0 1 [] with nonce := some ⟨true, 0, 2 ^ 64⟩ },
    { frag 0 1 [] with gcmTag := 2 ^ 128 }], refuses (.frameReceive .a (frameOf (.udp f))) base = true := by decide +kernel
theorem test_request_ill_formed : ∀ f ∈ [{ dictFrame 1 with source := 2 ^ 48 }, { dictFrame 1 with op := 2 },
    { dictFrame 1 with reserved := 2 ^ 24 }, { dictFrame 1 with seq := 65536 }, { dictFrame 1 with index := 65536 },
    { dictFrame 1 with sub := 256 }, { dictFrame 1 with status := 256 }, { dictFrame 1 with length := 65536 }],
    refuses (.read f) base = true := by decide +kernel
theorem test_write_ill_formed : refuses (.write (dictFrame 1)) base = true ∧
    refuses (.write { dictFrame 2 with seq := 65536 }) base = true := by decide +kernel
theorem test_other_frame_ill_formed : refuses (.segmentOtherFrame { dictFrame 3 with op := 256 } true) base = true := by decide +kernel
theorem test_propose_ill_formed : refuses (.quietPropose (2 ^ 48) 0 0) base = true ∧ refuses (.quietPropose 0 (2 ^ 32) 0) base = true ∧
    refuses (.quietPropose 0 0 (2 ^ 32)) base = true := by decide +kernel
theorem test_absent_units_fault : ∀ c ∈ [Instr.tileWake 64, .gcStep 0 2 0 0, .pkJobComplete 4, .keyPageWrite 1024 1 .service (.num 0),
    .pipelineRebind 16 0, .dieOpStart 0 0 10, .fwFloor 33 .service (.num 0), .camBankWidth 32 .service (.num 1), .unitIsolate ⟨2, 0⟩ 0,
    .imageMemoryError 8 0, .predImageWrite 256 .service (.num 0), .trainingFailure .a 3, .pauseExpiry .a 8, .rowVerify 0 0 0 1023 0 []],
    faults c base = true := by decide +kernel
theorem test_no_word_spells_a_command : decodeTableWord 32 0 = none ∧ (base.withFetchWord 32 0).pending = [] := by decide +kernel

/-! ## Witnesses: the machine as a whole -/

theorem wit_FrontCommandRuns : (∃ c rest s, State.pending s = c :: rest) ∧ ∃ s : State, s.pending = [] :=
  ⟨⟨.delayReqDue, [], { base with pending := [.delayReqDue] }, rfl⟩, base, rfl⟩

theorem wit_WhereACommandStops :
    (∃ c : Instr, c.wellFormed = true ∧ c.namesUnits = true) ∧ (∃ c : Instr, c.wellFormed = false) ∧
    ∃ c : Instr, c.wellFormed = true ∧ c.namesUnits = false :=
  ⟨⟨.imageMemoryError 7 0, by decide⟩, ⟨.quietPropose 0 0 (2 ^ 32), by decide⟩, .imageMemoryError 8 0, by decide⟩

theorem base_wellShaped : base.wellShaped := by unfold State.wellShaped Rising; decide +kernel

theorem wit_EveryStepKeepsTheShape : ∃ s t : State, s.wellShaped ∧ step s = .next t :=
  ⟨{ base with pending := [.linkPartnerDetect .a] }, _, base_wellShaped, rfl⟩

theorem wit_CountersNeverGoBack : ∃ s t : State, step s = .next t :=
  ⟨{ base with pending := [.linkPartnerDetect .a] }, _, rfl⟩

theorem wit_WhatLastsForGood : ∃ s t : State, step s = .next t ∧ s.plc.charcoal ≠ 0 ∧
    s.isWritten1 0xE305 1 = true ∧ s.pch.outOfService = true :=
  ⟨{ base with pending := [.deviceTimeCheckpoint], plc.charcoal := 3, pch.outOfService := true }, _, rfl,
    by decide +kernel, by decide +kernel, by decide +kernel⟩

theorem wit_QueueAndOutputs : ∃ s t : State, step s = .next t := wit_CountersNeverGoBack

theorem wit_EntryReadAfterWrite : (∃ i u j w : Nat, u < 256 ∧ w < 256 ∧ ¬ (j = i ∧ w = u)) ∧ (entryAt 0xE010 0x0F).isSome = true :=
  ⟨⟨0x3004, 0, 0x3004, 1, by decide⟩, by decide +kernel⟩

/-- A state whose CONFIG_LOCK holds the settings. -/
def locked : State := { base with od := base.od ++ [(0xF02000, .num 1)] }

theorem wit_LastWriteRecord :
    (∃ (s : State) (e : EntryRow) (v : OdVal), entryAt 0x3004 0 = some e ∧ writeLock s 0x3004 0 = stOk ∧ e.rangeOk v = true) ∧
    (∃ s : State, (entryAt 0xF012 0).isSome = true ∧ writeLock s 0xF012 0 = stAccessLocked) ∧
    (∃ s : State, (entryAt 0x7400 1).isSome = true ∧ writeLock s 0x7400 1 = stRange) ∧
    (∃ (s : State) (e : EntryRow) (v : OdVal), entryAt 0x3004 0 = some e ∧ writeLock s 0x3004 0 = stOk ∧ e.rangeOk v = false) :=
  ⟨⟨base, _, .num 100, rfl, by decide +kernel, by decide +kernel⟩, ⟨locked, by decide +kernel, by decide +kernel⟩,
    ⟨base, by decide +kernel, by decide +kernel⟩, base, _, .num 4294967295, rfl, by decide +kernel, by decide +kernel⟩

def dictWrite (r : Requester) : DictWrite := { req := r, index := 0x3004, sub := 0, val := .num 100, at_ := 999, task := none, frame := none }

theorem wit_PrecedenceInATick :
    (∃ (s : State) (x y : DictWrite), reqRank x.req < reqRank y.req ∧ odKey x.index x.sub = odKey y.index y.sub ∧ x.at_ < s.now ∧
      y.at_ < s.now ∧ s.msv.serial = [y, x]) ∧
    (∃ (s : State) (x y z : DictWrite), reqRank x.req < reqRank y.req ∧ reqRank y.req < reqRank z.req ∧
      odKey x.index x.sub = odKey y.index y.sub ∧ odKey y.index y.sub = odKey z.index z.sub ∧ x.at_ < s.now ∧ y.at_ < s.now ∧
      z.at_ < s.now ∧ s.msv.serial.Perm [x, y, z]) ∧
    ∃ (w : DictWrite) (i u : Nat), w.frame = none ∧ u < 256 ∧ ¬ (i = 0xE010 ∧ u = 0x0D) ∧ ¬ (i = 0xF030 ∧ u = 0) :=
  ⟨⟨{ base with msv.serial := [dictWrite (.session 1), dictWrite .segment] }, dictWrite .segment, dictWrite (.session 1),
      by decide +kernel⟩,
    ⟨{ base with msv.serial := [dictWrite .service, dictWrite .segment, dictWrite (.session 1)] }, dictWrite .service,
      dictWrite .segment, dictWrite (.session 1), by decide +kernel⟩, dictWrite .service, 0x3004, 0, by decide +kernel⟩

def desc : Desc :=
  { opcode := opGet, cls := 1, ordered := false, orderedFlag := false, port := .a, session := 7, seq0 := 1, reqId := 9, arrival := 0, rxAt := 0, msgLen := 0, leadLen := 49,
    fields := area 25 [(26, 2, 1), (48, 1, 0x61)], noTrs := false, noLock := false }

theorem wit_KeyLockEntries :
    (opGet ≠ opPut ∧ opGet ≠ opPutIf ∧ opGet ≠ opDelete ∧ opGet ≠ opPunch ∧ opGet ≠ opAppend ∧ opGet ≠ opLock ∧ opGet ≠ opBatch) ∧
    ∃ (s : State) (d : Desc) (i : Nat), s.judge d = .take i :=
  ⟨by decide, withSess base sess, desc, 4096, by decide +kernel⟩

theorem wit_ReadsChangeNoKey : ∃ s t u v w : State, exec (.get 5) s = .next t ∧ exec (.head 5) s = .next u ∧
    exec (.query 5) s = .next v ∧ exec (.odRead 5) s = .next w :=
  ⟨withTrs base (trs opOdRead (area 16 [(24, 2, 0x3004)])), _, _, _, _, rfl, rfl, rfl, rfl⟩

theorem wit_NothingCommitsBeforeItsCommit : ∃ s t u : State, exec .commandStart s = .next t ∧ exec (.put 5) s = .next u :=
  ⟨withTrs base (trs opPut (area 40 [])), _, _, rfl, rfl⟩

theorem wit_HolderThroughNone : ∃ (s t : State), exec (.leaseRenewal .a) s = .next t ∧ s.wdn.holder = some .a ∧
    t.wdn.holder = some .a :=
  ⟨base, _, rfl, rfl, by decide +kernel⟩

/-! ## Witnesses: ports -/

def upPort : PortS := { PortS.reset with linkState := 2 }

def withPort (s : State) (x : PortS) : State := { s with dpx.portA := x }

def rxFrame (dst : Nat) (b : FrameBody) : RxFrame := { frameOf b with dstMac := dst }

/-- What stands before the checks of a frame: its FEC counts and the wake it asks for. -/
def rxCounted (s : State) (f : RxFrame) : State := ((s.pbump .a 0x16 f.fecFixed).pbump .a 0x17 f.fecLost).frameWakes

def fullPort : State := withPort base { upPort with partitions := List.replicate 8 (2 ^ 32) }

theorem wit_FrameReceiveEffect_down : (rxFrame 0 .other).ok = true ∧ (base.port .a).up = false := by decide +kernel
theorem wit_FrameReceiveEffect_refused : let f := rxFrame 0x020000000055 .other
    let s := withPort base upPort
    f.ok = true ∧ (s.port .a).up = true ∧ (rxCounted s f).accepts .a f.dstMac = false := by decide +kernel
theorem wit_FrameReceiveEffect_overflow : let f := rxFrame 0x0180C2000001 .other
    let u := rxCounted fullPort f
    f.ok = true ∧ (fullPort.port .a).up = true ∧ u.accepts .a f.dstMac = true ∧
      u.rxLimit .a (u.rxPriority f) < u.partition .a (u.rxPriority f) + f.len := by decide +kernel
theorem wit_FrameReceiveEffect_faulty : let f := { rxFrame 0x0180C2000001 .other with fcsOk := false }
    let s := withPort base upPort
    let u := rxCounted s f
    f.ok = true ∧ (s.port .a).up = true ∧ u.accepts .a f.dstMac = true ∧
      u.partition .a (u.rxPriority f) + f.len ≤ u.rxLimit .a (u.rxPriority f) ∧ (u.frameFault .a f).isSome = true := by
  decide +kernel
theorem wit_FrameReceiveEffect_handled : let f := rxFrame 0x0180C2000001 .other
    let s := withPort base upPort
    let u := rxCounted s f
    f.ok = true ∧ (s.port .a).up = true ∧ u.accepts .a f.dstMac = true ∧
      u.partition .a (u.rxPriority f) + f.len ≤ u.rxLimit .a (u.rxPriority f) ∧ u.frameFault .a f = none ∧ f.secondTag = false ∧
      (f.tag.any fun t => t.vid == 4095) = false := by decide +kernel

/-- The port with a pause frame in its inbox. -/
def pauseWaits : State := withPort base { upPort with inbox := [(.pause 9, 0, 64)] }

/-- The port with paused partitions above their thresholds, 32,768 quanta after the last pause frame. -/
def pausing : State := { (withPort base { upPort with pauseSent := List.replicate 8 true, partitions := List.replicate 8 (2 ^ 32) }).putNum 0x110B 0 2 with
  cqc.cycle := quantaNs 32768 (rateOf 2) }

def pausedPort (s : State) : State :=
  withPort s { upPort with pausedSince := List.replicate 8 (some 0), pausedUntil := List.replicate 8 (some (10 ^ 12)) }

theorem wit_PauseCommands : (pauseWaits.port .a).inbox.find? (fun e => FrameBody.isPause e.1) = some (.pause 9, 0, 64) ∧
    ((pausing.port .a).pauseSent.getD 0 false = true ∧ pausing.flowOn .a 0 = true ∧ pausing.fillHigh .a 0 = true ∧
      (pausing.port .a).pauseAt.getD 0 0 + quantaNs 32768 (rateOf (pausing.port .a).linkState) ≤ pausing.cqc.cycle) ∧
    (let s := withPort base { upPort with pausedUntil := List.replicate 8 (some 0) }
     (s.port .a).pausedUntil.getD 7 none = some 0 ∧ 0 ≤ s.cqc.cycle) ∧
    (let s := withPort base { upPort with ignoreUntil := List.replicate 8 (some 1000) }
     (s.port .a).ignoreUntil.getD 7 none = some 1000 ∧ 1000 ≤ s.now) := by decide +kernel

theorem wit_PauseCommands_watchdog : ∀ mode ∈ [1, 2], let s := (pausedPort late).putNum 0x110B 0 mode
    (s.port .a).pausedSince.getD 7 none = some 0 ∧ 0 + s.pnum .a 0x0E 0 * 1000 ≤ s.now ∧
      (s.port .a).pausedUntil.getD 7 none = some (10 ^ 12) ∧ s.cqc.cycle < 10 ^ 12 ∧ s.pnum .a 0x0B 0 = mode := by decide +kernel

theorem wit_LinkCommands :
    (∃ (p : Port) (partner : Nat) (s : State), (s.port p).up = false ∧ s.resolve p partner ≠ 0 ∧ (s.port p).partnerSeen = true ∧
      s.portRuns p = true) ∧
    (∃ (p : Port) (s : State), (s.port p).up = true) ∧
    (∃ (p : Port) (s : State) (mode : Nat), mode < 3 ∧ (s.port p).up = false ∧ s.portRuns p = true ∧ bit (s.pnum p 0x00 0) mode = true ∧
      bit (s.port p).dropped mode = false ∧ (s.port p).trainMode = mode ∧ (s.port p).trainFails = 2) ∧
    (∃ (p : Port) (s : State) (mode : Nat), mode < 3 ∧ (s.port p).up = false ∧ s.portRuns p = true ∧ bit (s.pnum p 0x00 0) mode = true ∧
      bit (s.port p).dropped mode = false ∧ (s.port p).trainMode = mode ∧ (s.port p).trainFails < 2) ∧
    (∃ (p : Port) (s : State) (mode : Nat), mode < 3 ∧ (s.port p).up = false ∧ s.portRuns p = true ∧ bit (s.pnum p 0x00 0) mode = true ∧
      bit (s.port p).dropped mode = false ∧ (s.port p).trainMode ≠ mode) ∧
    ∃ (p : Port) (s : State), s.portRuns p = true :=
  ⟨⟨.a, 7, (withPort base { PortS.reset with partnerSeen := true }).putNum 0x111B 0 0, by decide +kernel⟩,
    ⟨.a, withPort base upPort, by decide +kernel⟩,
    ⟨.a, withPort base { PortS.reset with trainMode := 2, trainFails := 2 }, 2, by decide +kernel⟩,
    ⟨.a, withPort base { PortS.reset with trainMode := 2, trainFails := 1 }, 2, by decide +kernel⟩,
    ⟨.a, base, 2, by decide +kernel⟩, .a, base, by decide +kernel⟩

/-- A frame waits in queue 3. -/
def waitingPort : PortS := { upPort with txq := (List.replicate 8 []).set 3 [(.lldp 0 0 0 0, 64)] }

theorem wit_LowPowerIdleCommands :
    (∃ (p : Port) (s : State), (s.port p).up = true ∧ s.pflag p 0x18 0 = true ∧ (s.port p).lpiTx = false ∧ (s.port p).idle = true ∧
      s.pch.power = .doze) ∧
    (∃ (p : Port) (s : State), (s.port p).up = true ∧ s.pflag p 0x18 0 = true ∧ (s.port p).lpiTx = false ∧ (s.port p).idle = true ∧
      s.pflag p 0x19 0 = true ∧ (s.port p).idleSince + 2 ≤ s.now) ∧
    (∃ (p : Port) (s : State), (s.port p).lpiTx = true ∧ (s.port p).idle = false) ∧
    (∃ (p : Port) (s : State), (s.port p).up = true ∧ s.pflag p 0x18 0 = true ∧ (s.port p).lpiRx = false) ∧
    (∃ (p : Port) (s : State) (rxTw txTw i len : Nat), (s.port p).inbox.find? (fun e => FrameBody.isLldp e.1) =
      some (.lldp (some (rxTw, txTw)), i, len) ∧
      ((s.mapPort p fun x => { x with inbox := x.inbox.eraseP fun e => FrameBody.isLldp e.1 }).release p i len).pflag p 0x1B 0 = true) ∧
    ∃ (p : Port) (s : State), (s.port p).up = true ∧ s.pflag p 0x1B 0 = true ∧ (s.port p).lldpDue ≤ s.now :=
  ⟨⟨.a, ({ withPort base upPort with pch.power := .doze }).putNum 0x1118 0 1, by decide +kernel⟩,
    ⟨.a, ((withPort base upPort).putNum 0x1118 0 1).putNum 0x1119 0 1, by decide +kernel⟩,
    ⟨.a, withPort base { waitingPort with lpiTx := true }, by decide +kernel⟩,
    ⟨.a, (withPort base upPort).putNum 0x1118 0 1, by decide +kernel⟩,
    ⟨.a, (withPort base { upPort with inbox := [(.lldp (some (30, 40)), 0, 64)] }).putNum 0x111B 0 1, 30, 40, 0, 64, by decide +kernel⟩,
    .a, (withPort base upPort).putNum 0x111B 0 1, by decide +kernel⟩

/-- Port A is the PTP port and a Follow_Up waits in its inbox. -/
def ptpWaits : State := (withPort base { upPort with inbox := [(.ptp 0 0 (.followUp 1 0 5), 0, 64)] }).putNum 0x1001 0 1

theorem wit_PtpCommands : ((ptpWaits.port .a).inbox.find? (fun e => FrameBody.isPtp e.1) = some (.ptp 0 0 (.followUp 1 0 5), 0, 64) ∧
      (let u := (ptpWaits.mapPort .a fun x => { x with inbox := x.inbox.eraseP fun e => FrameBody.isPtp e.1 }).release .a 0 64
       u.isPtpPort .a = true ∧ 0 = u.num 0x1002 0)) ∧
    (let s := ({ base with dpx.ptp.state := 2 }).putNum 0x1001 0 1
     s.ptpPort = some .a ∧ 2 ≤ s.dpx.ptp.state ∧ s.dpx.ptp.delayDue ≤ s.now) ∧
    (let s := { base with dpx.ptp.state := 3 }
     2 ≤ s.dpx.ptp.state ∧ s.dpx.ptp.lastAnnounce + 3 * s.dpx.ptp.intervalUs ≤ s.now) ∧ 1 ≠ base.dpx.ptp.leader := by decide +kernel

/-- A gate list of one entry of 1 ms with every gate open. -/
def gateBase : State :=
  ((((withPort base upPort).putNum 0x1111 0 1).putNum 0x1112 0 1000000).putNum 0x1114 0 1).put 0x1114 1
    (.bytes ([0xFF, 0, 0, 0] ++ natBytes 4 1000000))

theorem wit_GateCaptureTransmit :
    (∃ (p : Port) (s : State) (r : Requester) (v : OdVal), s.takesWrite r (p.base + 0x15) 0 v ∧ s.commitOk p = true) ∧
    (∃ (p : Port) (s : State) (g : GateList) (t : Nat), (s.port p).gatePending = some (g, t) ∧ t ≤ s.nowNs ∧
      ∀ q e, e ∈ (s.port p).txq.getD q [] → g.holds q e.2 (s.portRate p) = true) ∧
    (∃ (p : Port) (s : State) (t : Nat), (s.port p).captureFrozenAt = some t ∧ t + 10000000 ≤ s.now) :=
  ⟨⟨.a, gateBase, .service, .num 1, takes_of (by decide +kernel), by decide +kernel⟩,
    ⟨.a, withPort base { upPort with gatePending := some (GateList.reset, 0) }, _, _, rfl, by decide +kernel, fun _ _ _ => rfl⟩,
    .a, withPort late { upPort with captureFrozenAt := some 5 }, 5, by decide +kernel⟩

theorem wit_GateCaptureTransmit_sends : (∀ x ∈ [{ upPort with bypass := [.pauseFrame 9] }, waitingPort], let s := withPort base x
    (s.port .a).up = true ∧ (s.port .a).lpiTx = false ∧ s.pch.power ≠ .doze ∧ (s.port .a).lpiWakeAt ≤ s.now) ∧
    (upPort.txFreeAt < base.nowNs + 1000) ∧ waitingPort.bypass = [] ∧ ((withPort base waitingPort).nextSend .a).map (·.2) = some 3 ∧
    waitingPort.txq.getD 3 [] = [(.lldp 0 0 0 0, 64)] := by decide +kernel

/-! ## Witnesses: sessions -/

def respOf (status : Nat) : Response :=
  { session := 7, reqId := 9, opcode := opGet, status := status, flags := 0, fields := [], data := [], cls := 1, tenant := 1,
    media := false, timed := none }

/-- A response of which nothing has been sent. -/
def outMsg : TxMessage :=
  { resp := respOf 0, port := .a, todo := [(0, 0)], cur := none, nextLeg := 0, cutAt := none, cutSent := false, spans := [],
    closes := false }

/-- A datagram with that fragment, from partition 0. -/
def fromWire (flags : Nat) : Datagram := { frag := frag flags opGet [], part := 0, len := 90, rx := 0, mark := 0 }

def datagram (flags : Nat) : State := withPort base { upPort with toWte := [fromWire flags] }

def sending : State := withSess (withPort base upPort) { sess with outgoing := [outMsg] }

theorem wit_FragmentCommands :
    (((datagram 0).port .a).toWte = [fromWire 0] ∧ (datagram 0).wteAwake = true ∧
      (frag 0 opGet []).has flAckOnly = false) ∧
    (((datagram flAckOnly).port .a).toWte = [fromWire flAckOnly] ∧ (frag flAckOnly opGet []).has flAckOnly = true) ∧
    (let x := { sess with ackDue := some 1000 }
     (withSess base x).session? 7 = some x ∧ x.ackDue = some 1000 ∧ 1000 ≤ (withSess base x).now) ∧
    (let x := { sess with outgoing := [outMsg] }
     sending.wteAwake = true ∧ sending.session? 7 = some x ∧ seqLt x.peerEdge x.txNext = false ∧
      x.outgoing.find? (fun m => m.hasWork) = some outMsg ∧
      (outMsg.next (sending.txLimit x outMsg.resp.cls) (x.ipHead + 48 + x.encLen)).isSome = true ∧ x.sealed = false) := by
  decide +kernel

def unacked : Unacked := { frag := txFrag, firstSent := 0, retries := 0, resent := false, fastAt := none }

/-- The timer of the session has run out. -/
def timedOut (x : Session) : State := withSess { base with cqc.cycle := 1000000 } x

theorem wit_RtoExpiryEffect :
    (let x := { sess with rtoFrom := some 0, unacked := [unacked], retries := 7 }
     (timedOut x).wteAwake = true ∧ (timedOut x).session? 7 = some x ∧ 0 + x.rto ≤ (timedOut x).cqc.cycle ∧ x.unacked = [unacked] ∧
      x.retries < 8) ∧
    (let x := { sess with rtoFrom := some 0, outgoing := [outMsg], peerEdge := 0, retries := 7 }
     (timedOut x).session? 7 = some x ∧ x.unacked = [] ∧ x.stuck = true ∧ x.retries < 8) ∧
    (let x := { sess with rtoFrom := some 0, unacked := [unacked], retries := 8 }
     (timedOut x).session? 7 = some x ∧ x.unacked ≠ [] ∧ 8 ≤ x.retries) := by decide +kernel

theorem wit_SessionTimers :
    ((withSess late sess).session? 7 = some sess ∧ sess.half = false ∧ sess.lastAuth + late.num 0x2001 0 * 1000 ≤ late.now) ∧
    (let x := { sess with phase := .halfOpen 0 }
     (withSess late x).session? 7 = some x ∧ 0 + 100000 ≤ late.now ∧ (withSess late x).confirming 7 = false) := by decide +kernel

theorem wit_SessionTimers_replay :
    (∃ (s : State) (x : Session) (e : ReplayEntry), x ∈ s.wte.sessions ∧ x.id = 7 ∧ e ∈ x.replay ∧ e.reqId = 9) ∧
    ∃ (s : State) (k : KeptCache) (e : ReplayEntry), k ∈ s.wte.kept ∧ k.session = 7 ∧ e ∈ k.entries ∧ e.reqId = 9 :=
  ⟨⟨withSess base { sess with replay := [⟨9, 2, 0, 0, [], 0⟩] }, _, _, List.mem_cons_self, rfl, List.mem_cons_self, rfl⟩,
    { base with wte.kept := [⟨7, 1, 0, [⟨9, 2, 0, 0, [], 0⟩], none, false⟩] }, _, _, List.mem_cons_self, rfl, List.mem_cons_self, rfl⟩

/-- Session 7 half-open. -/
def halfSess : Session :=
  { sess with phase := .halfOpen 0, opening := some { scalar := 1, qc := [], transcript := [], mm := 0, reply := txFrag } }

def openReq : Handshake := { port := .a, frag := frag 0 opOpen (area 100 [(24, 2, 1), (26, 2, 1280)]), at_ := 0, cls := 1 }

def confirmReq (mc : Bytes) : Handshake := { port := .a, frag := frag 0 opConfirm mc, at_ := 0, cls := 1 }

/-- A SESSION_OPEN waits, with the key page of its tenant loaded. -/
def opening : State := { base with cpx.pages := [keyPage 2], wte.handshakes := [openReq] }

/-- The same without the handshake: the state that its row goes on with. -/
def taken (s : State) : State := { s with wte.handshakes := s.wte.handshakes.eraseIdx 0 }

def openWaits (s : State) : Bool :=
  !s.gap && decide (s.wte.handshakes.findIdx? (fun h => h.frag.opcode == opOpen) = some 0) && decide (s.wte.handshakes[0]? = some openReq)

theorem wit_SessionHandshake_open : openReq.openBad = none ∧
    (openWaits opening = true ∧ (taken opening).repeated openReq = none ∧ (taken opening).openPending openReq = false ∧
      (taken opening).sessionsFull = false ∧ (taken opening).queueClosed = false ∧
      ((taken opening).keyPage (field openReq.fields 24 2)).state = 2) ∧
    (let s := { opening with cqc.policy := 3 }
     openWaits s = true ∧ (taken s).repeated openReq = none ∧ (taken s).openPending openReq = false ∧ (taken s).sessionsFull = false ∧
      (taken s).queueClosed = true) ∧
    (let s := { opening with cpx.pkWaiting := List.replicate 4096 ⟨.handshakeConfirm openReq, 0⟩ }
     openWaits s = true ∧ (taken s).repeated openReq = none ∧ (taken s).openPending openReq = false ∧ (taken s).sessionsFull = true) := by
  decide +kernel

/-- The session that a first SESSION_OPEN of the same request made. -/
theorem wit_SessionHandshake_again : let s := { withSess opening { halfSess with openReqId := 9 } with
      wte.handshakes := [openReq] }
    openWaits s = true ∧ (((taken s).repeated openReq).bind (·.opening)).isSome = true := by decide +kernel

/-- Session 7 half-open, tenant 1's access key loaded, and a SESSION_CONFIRM with the given Mc. -/
def confirming (mc : Bytes) : State :=
  { withSess base halfSess with cpx.pages := [keyPage 2], wte.handshakes := [confirmReq mc] }

def confirmWaits (mc : Bytes) (s : State) : Bool :=
  !s.gap && decide (s.wte.handshakes.findIdx? (fun h => h.frag.opcode == opConfirm) = some 0)
    && decide (s.wte.handshakes[0]? = some (confirmReq mc)) && (confirmReq mc).confirmBad.isNone

theorem wit_SessionHandshake_none : let s := { confirming (zeros 16) with wte.sessions := [] }
    confirmWaits (zeros 16) s = true ∧ ((taken s).session? (confirmReq (zeros 16)).frag.session).filter Session.half = none := by
  decide +kernel

theorem wit_SessionHandshake_wrong : let s := { confirming (zeros 16) with cpx.pages := [] }
    let x := halfSess
    confirmWaits (zeros 16) s = true ∧ (taken s).session? (confirmReq (zeros 16)).frag.session = some x ∧ x.half = true ∧
      (taken s).confirming x.id = false ∧ (taken s).queueClosed = false ∧
      ((taken s).macBlocks x.id x.tenant 15).mcOk x (confirmReq (zeros 16)) = false := by decide +kernel

/-- The Mc of R129 for session 7. -/
def rightMc : Bytes := natBytes 16 (cmac (zeros 16) (0x43 :: [] ++ natBytes 16 (0 : BitVec 128).toNat)).toNat

theorem wit_SessionHandshake_right : ∃ (s t : State) (h : Handshake) (x : Session), s.gap = false ∧
    s.wte.handshakes.findIdx? (fun h => h.frag.opcode == opConfirm) = some 0 ∧ s.wte.handshakes[0]? = some h ∧
    t = { s with wte.handshakes := s.wte.handshakes.eraseIdx 0 } ∧ h.confirmBad = none ∧ t.session? h.frag.session = some x ∧
    x.half = true ∧ t.confirming x.id = false ∧ t.queueClosed = false ∧ (t.macBlocks x.id x.tenant 15).mcOk x h = true := by
  refine ⟨confirming rightMc, _, confirmReq rightMc, halfSess, by decide +kernel, rfl, rfl, rfl, rfl, rfl, rfl,
    by decide +kernel, by decide +kernel, ?_⟩
  show (_ == natBytes 16 _) = true
  exact beq_self_eq_true _

theorem wit_SessionHandshake_close : ∃ (task : Nat) (s : State) (t : Trs), s.running task opClose = some t :=
  ⟨5, withTrs base (trs opClose []), _, rfl⟩

/-! ## A predicate image -/

/-- An image of two states that matches the one-byte keys (R321, R322), with its check. -/
def image : Bytes :=
  natBytes 4 0x474F5155 ++ natBytes 2 1 ++ zeros 2 ++ natBytes 2 2 ++ natBytes 2 1 ++ natBytes 2 1 ++ zeros 2
    ++ natBytes 2 1 ++ natBytes 2 1 ++ natBytes 4 336 ++ natBytes 4 481518847 ++ zeros 36 ++ zeros 256 ++ natBytes 2 0 ++ natBytes 2 1 ++ zeros 4
    ++ [0x40] ++ zeros 7

/-- Its bytes with the check as zeros, in pieces of 48. -/
def piece (i : Nat) : Bytes := ((image.take 24 ++ zeros 4 ++ image.drop 28).drop (48 * i)).take 48

theorem crc_pieces : (piece 0).foldl crcByte 0xFFFFFFFF = 2168528232 ∧ (piece 1).foldl crcByte 2168528232 = 1567702807 ∧
    (piece 2).foldl crcByte 1567702807 = 2151453383 ∧ (piece 3).foldl crcByte 2151453383 = 3191878910 ∧
    (piece 4).foldl crcByte 3191878910 = 780765583 ∧ (piece 5).foldl crcByte 780765583 = 2273144118 ∧
    (piece 6).foldl crcByte 2273144118 = 3813448448 :=
  ⟨by decide +kernel, by decide +kernel, by decide +kernel, by decide +kernel, by decide +kernel, by decide +kernel, by decide +kernel⟩

theorem image_crc : crcWithZero image 24 = 481518847 := by
  have h : image.take 24 ++ zeros 4 ++ image.drop (24 + 4) =
      piece 0 ++ (piece 1 ++ (piece 2 ++ (piece 3 ++ (piece 4 ++ (piece 5 ++ piece 6))))) := by decide +kernel
  obtain ⟨h0, h1, h2, h3, h4, h5, h6⟩ := crc_pieces
  rw [crcWithZero, h, crc32c]
  simp only [List.foldl_append, h0, h1, h2, h3, h4, h5, h6]
  decide

theorem image_ok : imageFault image = none := by
  unfold imageFault
  rw [if_neg (by decide +kernel),
    show (differsAt image 0 (natBytes 4 0x474F5155) <|> differsAt image 4 [0#8, 1#8] <|> firstNonzero image ([6, 7] ++ offsets 32 64)
      <|> imgBounds image) = none by decide +kernel]
  simp only []
  rw [if_neg (by decide +kernel),
    show (imgPadding image <|> imgTargets image <|> imgDead image) = none by decide +kernel]
  simp only []
  rw [image_crc, if_neg (by decide +kernel)]

/-! ## Witnesses: operations -/

/-- Operation fields with the one-byte key 0x61 of tenant 1 for an opcode. -/
def keyFields (op : Nat) : Bytes := area (keyOffset op - 23) [(26, 2, 1), (keyOffset op, 1, 0x61)]

/-- One key stored, a task of the opcode running. -/
def keyed (op : Nat) : State := { withTrs base { trs op (keyFields op) with prints := [0] } with asu.keys := [keyRec] }

def keyTrs (op : Nat) : Trs := { trs op (keyFields op) with prints := [0] }

/-- The same with the offset field of a GET. -/
def getTrs (off : Nat) : Trs := { trs opGet (area 26 [(26, 2, 1), (32, 8, off), (48, 1, 0x61)]) with prints := [0] }

def getting (off : Nat) : State := { withTrs base (getTrs off) with asu.keys := [keyRec] }

theorem wit_ReadOperations_get : ∀ off ∈ [0, 4, 5], let s := getting off
    let u := (s.find (getTrs off)).2
    s.running 5 opGet = some (getTrs off) ∧ (s.find (getTrs off)).1.stored = some keyRec ∧ u.bfc.faults = [] ∧
      u.key? keyRec.tenant keyRec.key = some keyRec ∧ (∀ n ∈ keyRec.mapPages, u.pageReady n = true) ∧ keyRec.lost = false ∧
      field (getTrs off).fields 32 8 = off ∧ keyRec.length = 4 := by decide +kernel
theorem wit_ReadOperations_page : let k := { keyRec with mapPages := [3] }
    let s := { getting 0 with asu.keys := [k], asu.pages := [{ page with kind := 5, cached := false }] }
    let u := (s.find (getTrs 0)).2
    s.running 5 opGet = some (getTrs 0) ∧ (s.find (getTrs 0)).1.stored = some k ∧ u.bfc.faults = [] ∧
      u.key? k.tenant k.key = some k ∧ (k.mapPages.find? fun n => !u.pageReady n) = some 3 := by decide +kernel
theorem wit_ReadOperations_head : let s := { getting 0 with asu.keys := [] }
    (s.running 5 opGet = some (getTrs 0) ∧ (s.find (getTrs 0)).1 = .absent) ∧
    ((keyed opHead).running 5 opHead = some (keyTrs opHead) ∧ ((keyed opHead).find (keyTrs opHead)).1.stored = some keyRec) ∧
    (let s := { keyed opHead with asu.keys := [] }
     s.running 5 opHead = some (keyTrs opHead) ∧ (s.find (keyTrs opHead)).1 = .absent) := by decide +kernel

/-- A DELETE that heads its chain with its data whole. -/
def deleteTrs : Trs := { keyTrs opDelete with headed := true, data := some [] }

/-- A stripe of tenant 1 open for packing, 20 bytes of it filled. -/
def openStripe : Stripe := { stripe .dirty with kind := 2, sealed := false, filled := 20 }

def putTrs : Trs := { trs opPut (area 26 [(26, 2, 1), (48, 1, 0x62)]) with headed := true, data := some [1, 2, 3], msgLen := 3 }

def appendTrs : Trs := { trs opAppend (area 20 [(26, 2, 1), (32, 1, 0x61)]) with headed := true, data := some [9], msgLen := 1 }

theorem wit_WriteOperations : (∀ op ∈ [opPut, opPutIf, opDelete, opPunch, opAppend, opBatch], let t := { trs op [] with headed := true }
      (withTrs base t).running 5 op = some t ∧ t.headed = true ∧ t.data = none) ∧
    (let s := { withTrs base appendTrs with asu.keys := [{ keyRec with lost := true, extents := [⟨2, 0, 4⟩] }],
                                            plc.stripes := [{ stripe .dirty with lost := true }] }
     s.running 5 opAppend = some appendTrs ∧ appendTrs.changes = [] ∧ (s.wanted appendTrs).any (s.mediaBad appendTrs.tenant) = true) ∧
    (let s := { keyed opDelete with cqc.trs := [deleteTrs] }
     s.running 5 opDelete = some deleteTrs ∧ deleteTrs.headed = true ∧ deleteTrs.data = some [] ∧ deleteTrs.changes = [] ∧
      (s.wanted deleteTrs).any (s.mediaBad deleteTrs.tenant) = false ∧
      ((s.changesOf deleteTrs [] 0 0 (s.wanted deleteTrs)).all fun c => c.payload.isEmpty) = true) ∧
    (let s := { withTrs base putTrs with plc.stripes := [openStripe] }
     s.running 5 opPut = some putTrs ∧ (s.wanted putTrs).any (s.mediaBad putTrs.tenant) = false ∧
      ∃ ch, s.changesOf putTrs [1, 2, 3] 0 0 (s.wanted putTrs) = [ch] ∧ ch.fast = false ∧ s.needsRepack ch = false ∧
        ch.payload.length = 3 ∧ s.openPacked ch.tenant false = some openStripe ∧
        roundUp openStripe.filled 16 + ch.payload.length ≤ stripeBytes) := by
  refine ⟨by decide +kernel, by decide +kernel, by decide +kernel, by decide +kernel, by decide +kernel, _, rfl, ?_⟩
  decide +kernel

theorem wit_LeaseAndFlushOperations :
    (∃ (task : Nat) (s : State) (t : Trs), s.running task opLock = some t ∧ t.headed = true) ∧
    (∃ (task : Nat) (s : State) (t : Trs) (l : Lease), s.running task opUnlock = some t ∧
      s.foreignLease t.tenant (keyOf opUnlock t.fields) t.session t.admitDev = some l) ∧
    (∃ (task : Nat) (s : State) (t : Trs), s.running task opUnlock = some t ∧
      s.foreignLease t.tenant (keyOf opUnlock t.fields) t.session t.admitDev = none ∧
      s.ownLease t.tenant (keyOf opUnlock t.fields) t.session t.admitDev = none) ∧
    (∃ (task : Nat) (s : State) (t : Trs) (l : Lease), s.running task opUnlock = some t ∧
      s.foreignLease t.tenant (keyOf opUnlock t.fields) t.session t.admitDev = none ∧
      s.ownLease t.tenant (keyOf opUnlock t.fields) t.session t.admitDev = some l) ∧
    ∃ (task : Nat) (s : State) (t : Trs), s.running task opFlush = some t ∧ t.atOnce = false :=
  ⟨⟨5, withTrs base { trs opLock [] with headed := true }, { trs opLock [] with headed := true }, by decide +kernel⟩,
    ⟨5, { keyed opUnlock with cqc.leases := [⟨1, [0x61], 8, 2000⟩] }, keyTrs opUnlock, ⟨1, [0x61], 8, 2000⟩, by decide +kernel⟩,
    ⟨5, keyed opUnlock, keyTrs opUnlock, by decide +kernel⟩,
    ⟨5, { keyed opUnlock with cqc.leases := [⟨1, [0x61], 7, 2000⟩] }, keyTrs opUnlock, ⟨1, [0x61], 7, 2000⟩, by decide +kernel⟩,
    5, withTrs base (trs opFlush []), trs opFlush [], by decide +kernel⟩

def powerTrs (code : Nat) : Trs := trs opPower (area 8 [(24, 1, code)])

/-- The POWER_STATE clauses of the statement AdministrativeOperations. -/
theorem wit_AdministrativeOperations_powerState :
    (∃ (task : Nat) (s : State) (t : Trs), s.powerTask task 0 = some t) ∧ (∃ (task : Nat) (s : State) (t : Trs), s.powerTask task 1 = some t) ∧
    (∃ (task : Nat) (s : State) (t : Trs), s.powerTask task 2 = some t) ∧
    (∃ (task : Nat) (s : State) (t : Trs), s.powerTask task 3 = some t ∧ s.cqc.policy ≠ 3) ∧
    (∃ (task : Nat) (s : State) (t : Trs), s.powerTask task 3 = some t ∧ s.cqc.policy = 3) ∧
    ∃ (task : Nat) (s : State) (t : Trs), s.powerTask task 4 = some t ∧ s.cqc.drain = none :=
  ⟨⟨5, withTrs base (powerTrs 0), powerTrs 0, by decide +kernel⟩, ⟨5, withTrs base (powerTrs 1), powerTrs 1, by decide +kernel⟩,
    ⟨5, withTrs base (powerTrs 2), powerTrs 2, by decide +kernel⟩, ⟨5, withTrs base (powerTrs 3), powerTrs 3, by decide +kernel⟩,
    ⟨5, withTrs { base with cqc.policy := 3 } (powerTrs 3), powerTrs 3, by decide +kernel⟩,
    5, withTrs base (powerTrs 4), powerTrs 4, by decide +kernel⟩

def sanitizeTrs (mode : Nat) : Trs := trs opSanitize (area 16 [(24, 1, mode)])

theorem wit_AdministrativeOperations_others : (let s := withTrs base (trs opQueueReset [])
     s.running 5 opQueueReset = some (trs opQueueReset []) ∧ s.cqc.trs.all (fun u => u.abortedBy != some 5) = true ∧ s.cqc.aborting = []) ∧
    (∀ mode ∈ [1, 2, 3], let s := withTrs base (sanitizeTrs mode)
     let t := sanitizeTrs mode
     let u := if t.parked then s.stopUnstarted t else (s.stopUnstarted t).startSanitize t
     s.trs? 5 = some t ∧ t.opcode = opSanitize ∧ t.result = false ∧ t.state = .running ∧ t.abortedBy = none ∧ field t.fields 24 1 = mode ∧
      u.noneStarted 5 (fun v => sanitizeRefuses v.opcode v.fields) = true ∧ u.journalRoom 64 = true) ∧
    (let s := withTrs { base with plc.formats := [(5, [1])] } (trs opFormat [])
     s.running 5 opFormat = some (trs opFormat []) ∧ s.plc.formats.find? (fun f => f.1 == 5) = some (5, [1]) ∧
      s.noneStarted 5 (fun u => [1].contains u.tenant) = true) := by decide +kernel

def cursor : Cursor :=
  { id := 4, session := 7, tenant := 1, snapshot := 1, image := [], cls := 1, lastAdmit := 0, value := 77, position := none,
    prevValue := 76, prevPosition := none }

def scanRun : ScanRun :=
  { task := 5, cursor := 4, tenant := 1, snapshot := 1, image := [], engine := some 2, loaded := true, position := none, maxKeys := 10,
    listed := [], done := false, more := false }

/-- A SCAN with the given cursor field, its image `b` and, on its first page, the cursor slot `k`. -/
def scanTrs (st : TrsState) (c k : Nat) (b : Bytes) : Trs :=
  { trs opScan (area 24 [(32, 8, c)]) with data := some b, cursor := k, state := st }

/-- The SCAN's module, tenant 1's key page loaded. -/
def scanning (t : Trs) : State := { withTrs base t with cpx.pages := [keyPage 2], pae.cursors := [cursor] }

/-- The SCAN's module with its classification counted: the pair that the statement calls `u`, then `v` and `w`. -/
def classified (s : State) : Classification × State := s.classifyScan 1 (imgPrefix image) (trs opScan []).task

def classedState (s : State) (t : Trs) : State := (classified s).2.mapTrs t.idx fun x => { x with classes := [(classified s).1] }

def imageState (s : State) (t : Trs) : State :=
  { classedState s t with pae.cursors := (classedState s t).pae.cursors.map fun (k : Cursor) =>
    if k.id = t.cursor then { k with image := image, cls := (classified s).1.cls } else k }

theorem wit_ScanCommands_first : imageFault image = none ∧
    (let t := scanTrs .classifying 0 4 image
     (scanning t).classifyingScan 5 = some t ∧ (scanning t).tenantReady t.tenant = true ∧ field t.fields 32 8 = 0 ∧
      t.data = some image ∧ (classified (scanning t)).1.admitted = true ∧ t.cursor ≠ 0 ∧
      ((imageState (scanning t) t).pae.cursors.find? fun k => k.id == t.cursor).isSome = true) ∧
    (let t := scanTrs .classifying 0 0 image
     (scanning t).classifyingScan 5 = some t ∧ (classified (scanning t)).1.admitted = true ∧ t.cursor = 0) ∧
    (let t := scanTrs .classifying 0 4 image
     let s := { scanning t with asu.rules := [] }
     s.classifyingScan 5 = some t ∧ s.tenantReady t.tenant = true ∧ (classified s).1.admitted = false) :=
  ⟨image_ok, by decide +kernel, by decide +kernel, by decide +kernel⟩

theorem wit_ScanCommands_page : (let t := scanTrs .classifying 0 4 []
     (scanning t).classifyingScan 5 = some t ∧ (scanning t).tenantReady t.tenant = true ∧ field t.fields 32 8 = 0 ∧ t.data = some [] ∧
      (imageFault []).isSome = true) ∧
    (let t := scanTrs .classifying 77 4 []
     (scanning t).classifyingScan 5 = some t ∧ (scanning t).tenantReady t.tenant = true ∧ field t.fields 32 8 ≠ 0 ∧
      (scanning t).pae.cursors.find? (fun k => k.id == t.cursor) = some cursor) ∧
    (let t := scanTrs .classifying 77 9 []
     (scanning t).classifyingScan 5 = some t ∧ (scanning t).tenantReady t.tenant = true ∧ field t.fields 32 8 ≠ 0 ∧
      (scanning t).pae.cursors.find? (fun k => k.id == t.cursor) = none) ∧
    (let t := scanTrs .running 77 4 []
     let s := { scanning t with pae.runs := [scanRun] }
     s.running 5 opScan = some t ∧ s.run? 5 = some scanRun ∧ scanRun.done = false ∧ scanRun.engine = some 2) ∧
    (base.pae.engines[7]? = some { state := 0, image := none, task := none } ∧
      ({ state := 0, image := none, task := none } : Engine).inService = true) := by decide +kernel

def readTrs (i u off : Nat) : Trs := { trs opOdRead (area 16 [(24, 2, i), (26, 1, u), (28, 4, off)]) with tenant := 0 }

def odWriteTrs : Trs := { trs opOdWrite (area 16 [(24, 2, 0x3004)]) with tenant := 0, data := some (natBytes 4 100) }

def still : State := { base with wdn.clockStopped := false, pch.power := .hold }

theorem wit_DictionaryCommands_read : (entryAt 0xFFFF 9 = none ∧
      (withTrs base (readTrs 0xFFFF 9 0)).running 5 opOdRead = some (readTrs 0xFFFF 9 0)) ∧
    (let t := { readTrs 0x3010 5 0 with tenant := 1 }
     (withTrs base t).running 5 opOdRead = some t ∧ (entryAt 0x3010 5).isSome = true ∧ mayRead (.session t.tenant) 0x3010 = false) ∧
    (let t := readTrs 0x3010 5 0
     let s := withTrs { base with pch.power := .hold } t
     s.running 5 opOdRead = some t ∧ (entryAt 0x3010 5).isSome = true ∧ mayRead (.session t.tenant) 0x3010 = true ∧
      s.serves 0x3010 = false) ∧
    (∀ off ∈ [0, 8, 9], let t := readTrs 0x3010 5 off
     (withTrs base t).running 5 opOdRead = some t ∧ (entryAt 0x3010 5).map (·.type.size) = some 8 ∧
      mayRead (.session t.tenant) 0x3010 = true ∧ (withTrs base t).serves 0x3010 = true ∧ field t.fields 28 4 = off) := by
  decide +kernel

theorem wit_DictionaryCommands_write : let s := withTrs base odWriteTrs
    let b := natBytes 4 100
    s.running 5 opOdWrite = some odWriteTrs ∧ odWriteTrs.data = some b ∧ odWriteTrs.parked = false ∧ s.odWriteBefore odWriteTrs = false ∧
      field odWriteTrs.fields 24 2 = 0x3004 ∧ field odWriteTrs.fields 26 1 = 0 ∧ ∃ e, entryAt 0x3004 0 = some e ∧ e.access = .rw ∧
      mayRead (.session odWriteTrs.tenant) 0x3004 = true ∧
      mayWrite (.session odWriteTrs.tenant) 0x3004 0 ((e.type.read b).getD (.num 1)) = true ∧
      (if e.type.isBytes then 1 ≤ b.length ∧ b.length ≤ e.type.size else b.length = e.type.size) ∧ s.serves 0x3004 = true :=
  ⟨by decide +kernel, rfl, rfl, by decide +kernel, by decide +kernel, by decide +kernel, _, rfl, by decide +kernel⟩

/-- That OD_WRITE waiting for its tick. -/
def waitingWrite : DictWrite :=
  { req := .session 0, index := 0x3004, sub := 0, val := .num 100, at_ := 999, task := some odWriteTrs.task, frame := none }

theorem wit_DictionaryCommands_tick : let s := { withTrs base { odWriteTrs with parked := true } with msv.serial := [waitingWrite] }
    s.aonOn = true ∧ s.wdn.clockStopped = false ∧ s.writesHeld = false ∧ s.msv.held = [] ∧ s.asu.waiting = [] ∧
      waitingWrite.at_ < s.now ∧ (∃ e, entryAt 0x3004 0 = some e ∧ e.access = .rw ∧ e.rangeOk waitingWrite.val = true) ∧
      s.keyHeld 0x3004 0 = false ∧ effectOf waitingWrite.task 0x3004 0 = plainEffect ∧
      s.trs? (odWriteTrs.task % 65536) = some { odWriteTrs with parked := true } ∧ odWriteTrs.result = false :=
  ⟨by decide +kernel, by decide +kernel, by decide +kernel, rfl, by decide +kernel, by decide +kernel, ⟨_, rfl, by decide +kernel⟩,
    by decide +kernel, rfl, by decide +kernel, rfl⟩

theorem wit_DictionaryCommands_ticks : (still.aonOn = true ∧ still.wdn.clockStopped = false ∧ still.msv.held = [] ∧ still.writesHeld = false) ∧
    (let s := { base with msv.held := [dictWrite .service] }
     s.aonOn = true ∧ s.wdn.clockStopped = false ∧ s.writesHeld = false) ∧
    (∃ s : State, s.aonOn = true ∧ s.wdn.clockStopped = false ∧ s.writesHeld = true) :=
  ⟨by decide +kernel, by decide +kernel, { base with wdn.holder := none }, by decide +kernel⟩

theorem wit_DictionaryCommands_writes : (∃ (r : Requester) (n : Nat) (s : State), s.takesWrite r 0xF020 0 (.num n)) ∧
    base.takesWrite .service 0xF021 0 (.num 1) ∧ base.flag 0xF020 0 = false :=
  ⟨⟨.service, 1, base, takes_of (by decide +kernel)⟩, takes_of (by decide +kernel), by decide +kernel⟩

/-! ## Witnesses: the queue -/

/-- Session 7 with its key page loaded and the descriptor at the head of a lane of each port. -/
def lanes (l : List Nat) : State :=
  { withSess base sess with
    cpx.pages := [keyPage 2], cqc.lanes := (List.range 8).map fun i => if l.contains i then [desc] else [] }

def change : Change :=
  { tenant := 1, key := [0x61], op := opDelete, payload := [], off := 0, len := 0, pin := false, fast := false, extents := [], overflow := false }

/-- A DELETE of the key at its commit. -/
def commitTrs : Trs := { keyTrs opDelete with headed := true, keys := [[0x61]], changes := [change] }

def committing : State := { withTrs base commitTrs with asu.keys := [keyRec] }

theorem wit_AdmissionAndStart_admission : still.cycleRuns = false ∧
    (let s := { base with pch.dozeStep := 1 }
     s.cycleRuns = true ∧ s.wteAwake = false) ∧
    ((lanes [1]).cycleRuns = true ∧ (lanes [1]).wteAwake = true ∧
      ([0, 1, 2, 3].any (lanes [1]).laneReady && [4, 5, 6, 7].any (lanes [1]).laneReady) = false) ∧
    ((lanes [1, 5]).cycleRuns = true ∧ (lanes [1, 5]).wteAwake = true ∧ [0, 1, 2, 3].any (lanes [1, 5]).laneReady = true ∧
      [4, 5, 6, 7].any (lanes [1, 5]).laneReady = true) := by decide +kernel

/-- A waiting task of the opcode, and the state that its start goes on with. -/
def waitingTrs (op : Nat) : Trs := { trs op (keyFields op) with state := .waiting }

def startedState (s : State) (t : Trs) : State :=
  (s.mapTrs t.idx fun x => { x with
      started := true, state := if classifiedOpcode x.opcode then .classifying else .running,
      covered := if x.opcode = opFlush ∧ x.ordered then s.coveredNow x.session else x.covered }).transfer cqcLane t.startLane
    t.admitCls true t.task (24 + t.fields.length)

theorem wit_AdmissionAndStart_start : (∀ op ∈ [opGet, opBatch, opFlush], let s := withTrs base (waitingTrs op)
      s.nextStart = some (waitingTrs op) ∧ (startedState s (waitingTrs op)).formatting 1 = false) ∧
    keyOpcode opGet = true ∧ (keyOpcode opFlush = false ∧ opFlush ≠ opBatch ∧ opFlush ≠ opScan) ∧
    (let s := { base with cqc.trs := [{ trs opFormat (area 8 [(24, 2, 1)]) with idx := 6 }, waitingTrs opGet] }
     s.nextStart = some (waitingTrs opGet) ∧ classifiedOpcode opGet = true ∧ (startedState s (waitingTrs opGet)).formatting 1 = true) := by
  decide +kernel

/-- A classified DELETE, alone or with a command that became ready before it. -/
def readyTrs (n : Nat) : Trs := { keyTrs opDelete with state := .classifying, keys := [[0x61]], ready := some n }

def chained (s : State) : State :=
  { s with cqc.chains := (readyTrs 3).prints.foldl (fun l p => joinChain 5 1 p l) s.cqc.chains }

theorem wit_AdmissionAndStart_join : ((readyTrs 3).state = .classifying ∧ (readyTrs 3).joined = false ∧
      lockEntries opDelete (readyTrs 3).fields ≠ 0 ∧ (readyTrs 3).keys ≠ []) ∧
    (let s := withTrs base (readyTrs 3)
     s.trs? 5 = some (readyTrs 3) ∧ s.readyBefore (readyTrs 3) = false ∧ (chained s).headsAll 5 = true) ∧
    (let s := { withTrs base (readyTrs 3) with cqc.chains := [(1, 0, [9])] }
     s.trs? 5 = some (readyTrs 3) ∧ s.readyBefore (readyTrs 3) = false ∧ (chained s).headsAll 5 = false) ∧
    (let s := { base with cqc.trs := [readyTrs 3, { readyTrs 2 with idx := 6 }] }
     s.trs? 5 = some (readyTrs 3) ∧ s.readyBefore (readyTrs 3) = true) ∧
    (∀ op ∈ [opLock, opPut], let t := { trs op [] with joined := true }
     let s := { withTrs base t with cqc.chains := [(1, 0, [5, 9])] }
     s.trs? 5 = some t ∧ t.joined = true ∧ t.headed = false ∧ t.result = false ∧ s.headsAll 5 = true) := by decide +kernel

/-- The write has its place in the journal, the record at the head of it. -/
def placedTrs : Trs := { commitTrs with place := some 1, version := 5 }

def commits (t : Trs) (s : State) : Bool :=
  decide (s.trs? 5 = some t) && decide (t.state = .running) && s.held t && decide (s.bfc.faults = [])

theorem wit_CommitPointEffect :
    (let s := { committing with asu.keys := [{ keyRec with page := 3 }], asu.pages := [{ page with cached := false }] }
     commits commitTrs s = true ∧ (s.readChanges commitTrs).changeMissing commitTrs = some 3) ∧
    (let s := { committing with plc.versionCounter := 2 ^ 64 - 1 }
     commits commitTrs s = true ∧ (s.readChanges commitTrs).changeMissing commitTrs = none ∧ commitTrs.place = none ∧
      2 ^ 64 - 1 < (s.readChanges commitTrs).plc.versionCounter + 1 ∧ commitTrs.changes.length = 1) ∧
    (let s := { committing with plc.journal := [⟨1, 0, journalRing, .void, []⟩], plc.versionCounter := 2 ^ 64 - 2 }
     let w := s.readChanges commitTrs
     commits commitTrs s = true ∧ w.changeMissing commitTrs = none ∧ w.plc.versionCounter + 1 ≤ 2 ^ 64 - 1 ∧
      journalRing < w.journalUsed + recordBytes (commitTrs.changes.map fun c => c.key.length) ∧ commitTrs.parked = false) ∧
    (let w := committing.readChanges commitTrs
     commits commitTrs committing = true ∧ w.changeMissing commitTrs = none ∧ w.plc.versionCounter + 1 ≤ 2 ^ 64 - 1 ∧
      w.journalUsed + recordBytes (commitTrs.changes.map fun c => c.key.length) ≤ journalRing) := by decide +kernel

theorem wit_CommitPointEffect_place : (let s := { withTrs base placedTrs with asu.keys := [keyRec] }
     let w := s.readChanges placedTrs
     commits placedTrs s = true ∧ w.changeMissing placedTrs = none ∧ w.reservedBefore 1 = false ∧
      w.invalidationsFull (w.commit placedTrs 1) = false ∧ (w.commit placedTrs 1).framesFull = false) ∧
    (let s := { base with asu.keys := [keyRec], cqc.trs := [placedTrs, { placedTrs with idx := 6, place := some 0 }] }
     let w := s.readChanges placedTrs
     commits placedTrs s = true ∧ w.changeMissing placedTrs = none ∧ w.reservedBefore 1 = true) := by decide +kernel

theorem wit_CommitPointEffect_value : ∀ op ∈ [opPut, opPutIf, opAppend, opPunch, opDelete],
    let c := { change with op := op, payload := if op = opPunch then [] else [9], off := 1, len := 2 }
    let t := { placedTrs with opcode := op, changes := [c] }
    t.changes = [c] ∧ ({ withTrs base t with asu.keys := [keyRec] }).trs? t.idx = some t := by decide +kernel

def resultTrs : Trs := { trs opGet [] with result := true }

/-- A result waiting on session 7, on a port that is up. -/
def posting : State := withTrs (withSess (withPort base upPort) sess) resultTrs

/-- The page, its home shard 2 of the stripe; `wanted` and unreadable or not in the cache. -/
def lostPage (home : Option (Nat × Nat)) : Page := { page with wanted := true, cached := false, home := home }

def pagesIn (home : Option (Nat × Nat)) (l : List Stripe) : State :=
  { base with asu.pages := [lostPage home], plc.stripes := l }

def arriving (home : Option (Nat × Nat)) (l : List Stripe) : State := ((pagesIn home l).pageTransfer (lostPage home)).evict

def asked (home : Option (Nat × Nat)) (l : List Stripe) : Bool :=
  decide ((pagesIn home l).page? 3 = some (lostPage home)) && decide ((arriving home l).framesTaken < cacheFrames)

theorem wit_PagesAndCompletion_pages : (asked none [] = true ∧
      ((pagesIn none []).homeShard (lostPage none)).any (fun e => e.1.lost || ((pagesIn none []).missingShards e.1).contains e.2.1) = false ∧
      (arriving none []).homeShard (lostPage none) = none) ∧
    (let q := { stripe .programmed with lost := true }
     let e := some (2, 2)
     asked e [q] = true ∧ (arriving e [q]).homeShard (lostPage e) = some (q, 2, shard 2 .programmed) ∧ q.lost = true) ∧
    (let q := stripe .programmed
     let e := some (2, 2)
     asked e [q] = true ∧ (arriving e [q]).homeShard (lostPage e) = some (q, 2, shard 2 .programmed) ∧ q.lost = false ∧
      (((arriving e [q]).missingShards q).filter (· != 2)).length ≤ 1) ∧
    (let s := { base with asu.pages := [{ page with unreadable := true }] }
     s.page? 3 = some { page with unreadable := true } ∧ s.evict.framesTaken < cacheFrames) := by decide +kernel

/-- The cache is full of pages that cannot leave it. -/
theorem wit_PagesAndCompletion_full : ∃ (s : State) (p : Page), s.page? 3 = some p ∧ p.wanted = true ∧ p.unreadable = true ∧
    cacheFrames ≤ ((s.pageTransfer p).evict).framesTaken := by
  have h : ∀ n, cacheFrames ≤ pinnedDirFrames + n → 0 < n → ∃ (s : State) (p : Page), s.page? 3 = some p ∧ p.wanted = true ∧
      p.unreadable = true ∧ cacheFrames ≤ ((s.pageTransfer p).evict).framesTaken := by
    intro n hn h0
    let p : Page := { page with wanted := true, unreadable := true }
    let s : State := { base with asu.pages := List.replicate n p }
    have ha : s.framesTaken = pinnedDirFrames + n := by
      show pinnedDirFrames + ((List.replicate n p).filter _).length = _
      rw [List.filter_replicate_of_pos (by decide), List.length_replicate]
    have hb : s.pageTransfer p = s := rfl
    have hc : s.evict = s := by
      have he : (s.asu.pages.filter fun p => p.cached && !p.pinned && p.clean) = [] := List.filter_replicate_of_neg (by decide)
      unfold State.evict
      rw [if_neg (by rw [ha]; exact Nat.not_lt.mpr hn)]
      simp only [he, List.foldl_nil]
    refine ⟨s, p, ?_, rfl, rfl, by rw [hb, hc, ha]; exact hn⟩
    show (List.replicate n p).find? _ = some p
    obtain ⟨m, rfl⟩ : ∃ m, n = m + 1 := ⟨n - 1, by omega⟩
    rw [List.replicate_succ, List.find?_cons_of_pos (by decide)]
  exact h 1048576 (by decide) (by decide)

/-- A response of which nothing has been sent: the answer of an earlier command. -/
def earlierAnswer : TxMessage := { outMsg with resp := { respOf 0 with reqId := 8 } }

theorem wit_PagesAndCompletion : (posting.trs? 5 = some resultTrs ∧ posting.postable resultTrs = true ∧
      posting.session? 7 = some sess ∧ sess.outgoing.any (fun m => m.nextLeg == 0 && m.hasWork) = false ∧
      ((posting.complete resultTrs).sendFrom 7 (fun m => m.resp.reqId == 9 && m.nextLeg == 0)).isSome = true) ∧
    (let x := { sess with outgoing := [earlierAnswer] }
     let s := withTrs (withSess (withPort base upPort) x) resultTrs
     s.trs? 5 = some resultTrs ∧ s.postable resultTrs = true ∧ s.session? 7 = some x ∧
      x.outgoing.any (fun m => m.nextLeg == 0 && m.hasWork) = true) ∧
    (let s := withTrs base resultTrs
     s.trs? 5 = some resultTrs ∧ s.postable resultTrs = true ∧ s.session? 7 = none) ∧
    (let t := { trs opFlush [] with state := .flushWait, covered := [2] }
     (withTrs base t).trs? 5 = some t ∧ t.state = .flushWait ∧ t.covered.all (withTrs base t).onMedium = true) ∧
    (let s := { base with cqc.holdUntil := some 1000, cqc.policy := 3 }
     s.cqc.holdUntil = some 1000 ∧ s.cqc.policy = 3 ∧ 1000 ≤ s.now) := by decide +kernel

def drain (c : DrainCause) (n : Nat) : Drain := { cause := c, phase := n, start := 0, grace := none }

def draining (c : DrainCause) (n : Nat) : State := { late with cqc.drain := some (drain c n) }

theorem wit_DrainCommands : (let s := draining .reset 1
     s.cqc.drain = some (drain .reset 1) ∧ (drain .reset 1).phase ≤ 2 ∧ s.cqc.trs.all Trs.isPrepare = true) ∧
    ((draining .reset 3).cqc.drain = some (drain .reset 3) ∧ (draining .reset 3).tailWritten = true) ∧
    ((draining .reset 4).cqc.drain = some (drain .reset 4) ∧ (draining .reset 4).allAcked = true ∧
      (drain .reset 4).grace.all (fun t => decide (t ≤ late.now)) = true) ∧
    (∀ c ∈ [DrainCause.prepareHold 5, .reset], let s := draining c 2
     s.cqc.drain = some (drain c 2) ∧ (drain c 2).phase ≤ 2 ∧ (drain c 2).start + s.num 0x3004 0 * 1000 ≤ s.now) := by decide +kernel

theorem wit_DrainCommands_reset : ∀ k, (drain .reset 2).cause ≠ .prepareHold k := fun _ h => nomatch h

theorem wit_TurnpikeCommands : (base.cycleRuns = true ∧ base.tpk.queue = [] ∧ base.tpk.slot = 0) ∧
    (let s := { base with tpk.slot := 5 }
     s.cycleRuns = true ∧ s.tpk.queue = [] ∧ s.tpk.slot ≠ 0 ∧ s.tpk.slot < 1023) ∧
    (let s := { base with tpk.wantTable := some 5 }
     s.gap = false ∧ s.tpk.wantTable.isSome = true ∧ s.coreRuns = true) ∧
    (let s := { base with tpk.shadow := some (64, (2, 1)), tpk.shadowDue := 0 }
     s.tpk.shadow = some (64, (2, 1)) ∧ s.tpk.shadowDue ≤ s.tpk.revolution ∧ s.tpk.slot = 0 ∧ s.tpk.wantTable = none ∧
      s.cycleRuns = true ∧ s.gap = false) ∧
    (let s := { base with tpk.maskWanted := [0x3F, 0x40], tpk.mask := [0x40] }
     s.tpk.slot = 0 ∧ s.cycleRuns = true ∧ ∀ e ∈ s.tpk.maskWanted.filter (fun e => !s.tpk.mask.contains e), e < 0x40) := by
  decide +kernel

theorem wit_UnitIsolateEffect :
    (∃ (u : UnitId) (s : State) (w : Warden), u.replicated = true ∧ s.inService u = true ∧ u.subsystem = 0xB ∧
      w = (if u.number = 0 then Warden.a else .b) ∧ s.wdn.holder = some w) ∧
    (∃ (u : UnitId) (s : State) (w : Warden), u.replicated = true ∧ s.inService u = true ∧ u.subsystem = 0xB ∧
      w = (if u.number = 0 then Warden.a else .b) ∧ s.wdn.holder ≠ some w) ∧
    (∃ (u : UnitId) (s : State), u.replicated = true ∧ s.inService u = true ∧ u.subsystem = 1) ∧
    ∃ (u : UnitId) (s : State), u.replicated = true ∧ s.inService u = true ∧ u.subsystem ≠ 0xB ∧ u.subsystem ≠ 1 :=
  ⟨⟨⟨0xB, 0⟩, base, .a, by decide +kernel⟩, ⟨⟨0xB, 1⟩, base, .b, by decide +kernel⟩, ⟨⟨1, 1⟩, base, by decide +kernel⟩,
    tileUnit 63, base, by decide +kernel⟩

/-! ## Witnesses: the index, rules, keys -/

/-- The page of the directory of the given depth, at hand or not. -/
def dirPage (depth : Nat) (at_ : Bool) : Page := { page with number := 8, kind := 3, dir := some (depth, 0), cached := at_ }

theorem wit_IndexCommands_directory :
    (let s := { base with asu.depth := 0, asu.keys := List.replicate 7 keyRec }
     s.asu.split = none ∧ 6 * 2 ^ s.asu.depth < (s.asu.keys.filter fun k => !k.pinned).length ∧ s.asu.depth < 30) ∧
    (let s := { base with asu.depth := 2, asu.split := some 2, asu.pages := [dirPage 2 false] }
     let pages := ((s.dirAt false (2, 2 / 256)).toList.map (·.number))
       ++ (s.asu.chain (2, 2)).filterMap (fun o => (s.dirAt false (overflowPlace o.number)).map (·.number))
     pages = [8] ∧ pages.find? (fun n => !(s.readPages pages).pageReady n) = some 8) ∧
    (∀ b ∈ [2, 3], let s := { base with asu.depth := 2, asu.split := some b, asu.pages := [dirPage 2 true] }
     let pages := ((s.dirAt false (2, b / 256)).toList.map (·.number))
       ++ (s.asu.chain (2, b)).filterMap (fun o => (s.dirAt false (overflowPlace o.number)).map (·.number))
     pages = [8] ∧ (s.readPages pages).pageReady 8 = true ∧ ((s.readPages pages).splitBucket b).asu.depth = 2) := by decide +kernel

/-- Two neighbour pages, each with one key. -/
def joining : State :=
  { base with asu.keys := [{ keyRec with page := 3 }, { keyRec with key := [0x62], page := 4 }], asu.pages := [page, { page with number := 4 }] }

def joined (s : State) : State :=
  (((s.changeAbove 1 false 3 0).moveEntries 4 0 (s.pageKeys 3)).changePage 4 0).dropEmpty

/-- The same with every invalidation queue full, and an entry of the key in each bank. -/
def joinsFull : State :=
  { joining with asu.banks := joining.asu.banks.map fun b => { b with
      invalid := (List.range 1024).map (· + 1),
      entries := [⟨0, false, 1, 0, 1, [0x61], 3, 0, false⟩] } }

def joinable (s u : State) : Bool :=
  decide (s.page? 3 = some page) && decide (s.page? 4 = some { page with number := 4 }) && u.neighbours page { page with number := 4 }
    && decide (4 * keysBytes (u.pageKeys 3) < pageRoom) && decide (keysBytes (u.pageKeys 3) + keysBytes (u.pageKeys 4) ≤ pageRoom)
    && decide ((u.pageKeys 3).length + (u.pageKeys 4).length ≤ 256) && u.pageReady 3 && u.pageReady 4

theorem wit_IndexCommands : (let u := joining.readPages [3, 4]
     joinable joining u = true ∧ u.invalidationsFull (joined u) = false) ∧
    (let u := joinsFull.readPages [3, 4]
     joinable joinsFull u = true ∧ u.invalidationsFull (joined u) = true) := by decide +kernel

theorem wit_IndexCommands_writes :
    (∃ (bank : Nat) (r : Requester) (v : OdVal) (s : State), bank < 32 ∧ s.takesWrite r 0x5010 (bank + 1) v) ∧
    (∃ (r : Requester) (s : State), s.takesWrite r 0x5024 0 (.num 1) ∧ s.asu.reevaluate = none) ∧
    ∃ (r : Requester) (s : State), s.takesWrite r 0x5024 0 (.num 1) ∧ s.asu.reevaluate.isSome = true :=
  ⟨⟨31, .service, .num 2, base, by decide, takes_of (by decide +kernel)⟩, ⟨.service, base, takes_of (by decide +kernel), rfl⟩,
    .service, { base with asu.reevaluate := some [] }, takes_of (by decide +kernel), rfl⟩

/-- A RULE_COMMAND value: the operation at position 0, matching everything. -/
def ruleCmd (op : Nat) : OdVal := .bytes ([BitVec.ofNat 8 op] ++ zeros 93 ++ natBytes 2 0xFFFF)

theorem wit_RuleAndPredicateCommands :
    (∀ n ∈ [1, 2, 3], ∃ (r : Requester) (v : OdVal) (s : State) (op : RuleOp), s.takesWrite r 0x5003 0 v ∧ s.asu.commands < 256 ∧
      s.asu.waiting = [] ∧ s.ruleCommand (valBytes v) = some op ∧ numAt (valBytes v) 0 1 = n) ∧
    (∃ (s : State) (op : RuleOp) (rest : List RuleOp), s.asu.accepted = op :: rest ∧ s.gap = false ∧
      op.writes s.asu.copy ≤ s.asu.running.getD 0 + 1) ∧
    (∃ (s : State) (op : RuleOp) (rest : List RuleOp), s.asu.accepted = op :: rest ∧ s.gap = false ∧
      s.asu.running.getD 0 + 1 < op.writes s.asu.copy) ∧
    (∃ (position : Nat) (s : State) (e q : Rule), s.asu.expected[position]? = some e ∧ s.asu.rules[position]? = some q ∧ e ≠ q) ∧
    (∃ (slot : Nat) (r : Requester) (b : Bytes) (s : State), slot < 256 ∧ s.takesWrite r (0x6100 + slot) 0 (.bytes b) ∧
      imageFault b = none ∧ s.predPeak slot + imageRoom b ≤ 8388608 ∧ s.futurePreds.any (fun p => p.1 == slot) = true) ∧
    (∃ (slot : Nat) (r : Requester) (b : Bytes) (s : State), slot < 256 ∧ s.takesWrite r (0x6100 + slot) 0 (.bytes b) ∧
      imageFault b = none ∧ s.predPeak slot + imageRoom b ≤ 8388608 ∧ s.futurePreds.any (fun p => p.1 == slot) = false) ∧
    ∃ (r : Requester) (v : OdVal) (s : State), s.takesWrite r 0x6001 0 v ∧ s.predRefs (valNum v) = 0 := by
  refine ⟨fun n h => ?_, ⟨{ base with asu.accepted := [.replace 0 .admitAll] }, .replace 0 .admitAll, [], by decide +kernel⟩,
    ⟨{ base with asu.accepted := [.insert 0 .admitAll] }, .insert 0 .admitAll, [], by decide +kernel⟩,
    ⟨0, { base with asu.rules := [{ Rule.admitAll with action := 0 }] }, .admitAll, { Rule.admitAll with action := 0 }, by decide +kernel⟩,
    ⟨255, .service, image, { base with pae.preds := [(255, image)] }, by decide, takes_of (by decide +kernel), image_ok, by decide +kernel⟩,
    ⟨255, .service, image, base, by decide, takes_of (by decide +kernel), image_ok, by decide +kernel⟩,
    ⟨.service, .num 255, base, takes_of (by decide +kernel), by decide +kernel⟩⟩
  simp only [List.mem_cons, List.not_mem_nil, or_false] at h
  rcases h with rfl | rfl | rfl
  · exact ⟨.service, ruleCmd 1, base, .insert 0 .admitAll, takes_of (by decide +kernel), by decide +kernel⟩
  · exact ⟨.service, ruleCmd 2, base, .replace 0 .admitAll, takes_of (by decide +kernel), by decide +kernel⟩
  · exact ⟨.service, ruleCmd 3, base, .delete 0, takes_of (by decide +kernel), by decide +kernel⟩

theorem wit_KeyPageAndRandomCommands :
    (∃ (number sub : Nat) (r : Requester) (v : OdVal) (s : State) (k : Bytes) (p : KeyPage), number < 1024 ∧ 1 ≤ sub ∧ sub ≤ 3 ∧
      s.takesWrite r (0x7400 + number) sub v ∧ k = window (valBytes v) 32 0 32 ∧ p = s.keyPage number ∧ k.all (· == 0) = false ∧
      (sub = 2 → p.xts1 ≠ some k) ∧ (sub = 1 → p.xts2 ≠ some k) ∧ (p.state = 3 → (p.key sub).2.any (fun c => c != k) = false)) ∧
    (∃ (r : Requester) (v : OdVal) (s : State), s.takesWrite r 0x7002 0 v) ∧
    (∃ source test : Nat, source < 2 ∧ 1 ≤ test ∧ test ≤ 2) ∧ (∃ s : State, s.cpx.rngState ≠ 0) ∧
    (∃ s : State, s.cpx.rngState = 0 ∧ 65536 ≤ s.cpx.requests) ∧ (∃ s : State, s.cpx.rngState = 0 ∧ s.cpx.reseedAt + 1000000 ≤ s.now) ∧
    (∃ (n stage m : Nat) (s : State), n < 16 ∧ stage < 16 ∧ (s.pipeline n).state < 2 ∧ m ≠ (s.pipeline n).binding) ∧
    ∃ (n number : Nat) (s : State), n < 16 ∧ number ≤ 1024 ∧ s.rebindable n = true ∧ (s.pipeline n).binding ≠ number :=
  ⟨⟨1023, 3, .service, .bytes (List.replicate 32 7), base, _, _, by decide, by decide, by decide, takes_of (by decide +kernel),
      rfl, rfl, by decide +kernel⟩,
    ⟨.service, .num 1, base, takes_of (by decide +kernel)⟩, ⟨1, 2, by decide⟩, ⟨{ base with cpx.rngState := 1 }, by decide +kernel⟩,
    ⟨{ base with cpx.requests := 65536 }, by decide +kernel⟩, ⟨late, by decide +kernel⟩, ⟨15, 15, 3, base, by decide +kernel⟩,
    15, 1024, base, by decide +kernel⟩

/-- A PK_JOB value of the operation: scalar 1 on the curve's base point. -/
def pkJob (op : Nat) : Bytes := [BitVec.ofNat 8 op] ++ zeros 255

def attestJob : PkJob := { kind := .attest 65541, order := 3 }

def ladderState : State := { late with cpx.ladders := [some (⟨.dictionary (pkJob 1) 0 .nobody, 0⟩, 0), none, none, none] }

theorem wit_PublicKeyJobs :
    (∃ (task : Nat) (s : State) (t : Trs), s.running task opAttest = some t ∧ t.parked = false) ∧
    (∀ n ∈ [1, 2, 3, 4], ∃ (r : Requester) (v : OdVal) (s : State), s.takesWrite r 0x7020 0 v ∧ numAt (valBytes v) 0 1 = n) ∧
    (∃ (s u : State) (i : Nat) (j : PkJob), u = s.dropStaleJobs ∧ u.cpx.ladders.findIdx? (·.isNone) = some i ∧ u.nextJob = some j) ∧
    ∃ (n : Nat) (s u : State) (j : PkJob) (start : Nat), n < 4 ∧ s.cpx.ladders[n]? = some (some (j, start)) ∧
      start + j.kind.time ≤ s.now ∧ (j.kind.random = false ∨ s.cpx.rngState = 0) ∧ (s.endJob j.kind).1 = true ∧ u = (s.endJob j.kind).2 := by
  refine ⟨⟨5, withTrs base (trs opAttest []), trs opAttest [], by decide +kernel⟩, fun n h => ?_,
    ⟨{ base with cpx.pkWaiting := [attestJob] }, _, 0, attestJob, rfl, by decide +kernel, by decide +kernel⟩,
    ⟨0, ladderState, _, ⟨.dictionary (pkJob 1) 0 .nobody, 0⟩, 0, by decide, rfl, by decide +kernel, by decide +kernel, rfl, rfl⟩⟩
  simp only [List.mem_cons, List.not_mem_nil, or_false] at h
  rcases h with rfl | rfl | rfl | rfl
  · exact ⟨.service, .bytes (pkJob 1), base, takes_of (by decide +kernel), by decide +kernel⟩
  · exact ⟨.service, .bytes (pkJob 2), base, takes_of (by decide +kernel), by decide +kernel⟩
  · exact ⟨.service, .bytes (pkJob 3), base, takes_of (by decide +kernel), by decide +kernel⟩
  · exact ⟨.service, .bytes (pkJob 4), base, takes_of (by decide +kernel), by decide +kernel⟩

theorem wit_PublicKeyJobs_end : (∃ (h : Handshake) (n start : Nat) (s : State) (j : PkJob), n < 4 ∧
      s.cpx.ladders[n]? = some (some (j, start)) ∧ start + j.kind.time ≤ s.now ∧ (j.kind.random = false ∨ s.cpx.rngState = 0) ∧
      j.kind = .handshakeConfirm h) ∧
    ∃ (job : Bytes) (tick n start : Nat) (who : JobAnswer) (s : State) (j : PkJob), n < 4 ∧
      s.cpx.ladders[n]? = some (some (j, start)) ∧ start + j.kind.time ≤ s.now ∧ (j.kind.random = false ∨ s.cpx.rngState = 0) ∧
      j.kind = .dictionary job tick who :=
  ⟨⟨openReq, 0, 0, { late with cpx.ladders := [some (⟨.handshakeConfirm openReq, 0⟩, 0), none, none, none] }, _, by decide, rfl,
      by decide +kernel, by decide +kernel, rfl⟩,
    pkJob 1, 0, 0, 0, .nobody, ladderState, ⟨.dictionary (pkJob 1) 0 .nobody, 0⟩, by decide, rfl, by decide +kernel, by decide +kernel, rfl⟩

/-- The base point of P-256 times 1. -/
def onceJob : Bytes := [1] ++ zeros 7 ++ natBytes 48 1 ++ zeros 48 ++ p256.encode (some (p256.gx, p256.gy)) ++ zeros 87

theorem wit_PublicKeyJobs_result : pkRun onceJob = .done false (p256.encode (some (p256.gx, p256.gy))) := by decide +kernel

/-! ## Witnesses: placement -/

def stored (s : State) (p : Stripe) : State := { s with plc.stripes := [p] }

def flushed : Stripe := { stripe .programmed with dirty := false, flushed := true }

/-- Every tile as given. -/
def tiles (s : State) (t : Tile) : State := { s with mta.tiles := List.replicate 64 t }

/-- Tile 63 with row 0 of superblock 0 of the data area programmed on one die, its parity page as given. -/
def rowTile (s : State) (l : List ParityPage) : State :=
  s.mapTile 63 fun t => { t.putBlock { DieBlock.fresh 1 9 7 with state := 2, pointer := 1, region := 0, superblock := 0 } with
    parity := l, superblocks := [⟨0, 0, 0, 1, 9, 7, 0⟩] }

/-- Its one shard in that row. -/
def oneShard (ph : ShardPhase) : Stripe := { stripe ph with shards := [shard 63 ph] }

def programmedRow (p : Stripe) : State := rowTile (stored base p) [⟨0, 0, 0, 0, 0⟩]

theorem wit_StripePlacementCommands_program : (∃ (id : Nat) (s : State) (p : Stripe), s.stripe? id = some p ∧ s.drainable p = true ∧
      s.plc.stripes.any (fun q => s.drainable q && s.drainsBefore q p) = false ∧ s.bfc.faults = []) ∧
    ∀ dirty ∈ [true, false], let p := { oneShard .sent with dirty := dirty }
      let s := programmedRow p
      s.stripe? 2 = some p ∧ p.shards[0]? = some (shard 63 .sent) ∧ s.programPending (shard 63 .sent) 2 0 = false ∧
        (s.tile 63).inUse = true ∧ s.rowSafe (shard 63 .sent) = true :=
  ⟨⟨2, stored base (stripe .dirty), stripe .dirty, by decide +kernel⟩, by decide +kernel⟩

/-- A stripe of which every shard failed to program. -/
def failedStripe (dirty : Bool) : Stripe := { stripe .failed with dirty := dirty }

def replacing (dirty : Bool) (s : State) : Bool :=
  decide (s.stripe? 2 = some (failedStripe dirty)) && decide ((failedStripe dirty).shards[15]? = some (shard 15 .failed))
    && s.needsSlot (failedStripe dirty) (shard 15 .failed)
    && (decide ((failedStripe dirty).order.isSome = false) || s.journalRoom (s.relocationBytes [2]))

def tileOut (s : State) : State := s.mapTile 15 fun t => { t with state := 3 }

theorem wit_StripePlacementCommands_replace : (let s := stored base (failedStripe true)
     replacing true s = true ∧ (s.tile 15).inUse = true ∧ 0 < s.slotsFree 15 0 ∧ (s.tile 15).closed = false) ∧
    (let s := tileOut (stored base (failedStripe true))
     replacing true s = true ∧ (s.tile 15).inUse = false ∧
      (s.drawOne (failedStripe true) 15 0).map (fun t => decide (t ≠ 15) && s.flushRoom [t]) = some true) ∧
    (let s := tiles (stored base (failedStripe true)) { Tile.reset with state := 3 }
     replacing true s = true ∧ (s.tile 15).inUse = false ∧ s.drawOne (failedStripe true) 15 0 = none) := by decide +kernel

def openSet : Stripe := { openStripe with shards := [], id := 9 }

/-- So many stripes open for packing that the flush region of every tile is spoken for. -/
def crowded (n : Nat) : State :=
  let s := tileOut (stored base (failedStripe true))
  { s with plc.stripes := s.plc.stripes ++ List.replicate n openSet }

theorem crowded_full (n t : Nat) (h : regionSlots 2 ≤ n) : (crowded n).flushRoom [t] = false := by
  have ho : n ≤ (crowded n).openStripes := by
    show n ≤ (((tileOut (stored base (failedStripe true))).plc.stripes ++ List.replicate n openSet).filter _).length
    rw [List.filter_append, List.filter_replicate_of_pos (by decide), List.length_append, List.length_replicate]
    omega
  have hd : decide ((crowded n).dirtyShards t + (crowded n).openStripes < regionSlots 2) = false := decide_eq_false (by omega)
  simp only [State.flushRoom, List.all_cons, hd, Bool.false_and]

theorem wit_StripePlacementCommands_noRoom : ∃ (s : State) (t : Nat), replacing true s = true ∧ (s.tile 15).inUse = false ∧
    s.drawOne (failedStripe true) 15 0 = some t ∧ t ≠ 15 ∧ s.flushRoom [t] = false := by
  have h : ((crowded 32768).drawOne (failedStripe true) 15 0).map (· != 15) = some true := by decide +kernel
  obtain ⟨t, ht, hn⟩ := Option.map_eq_some_iff.mp h
  exact ⟨crowded 32768, t, by decide +kernel, by decide +kernel, ht, by simpa using hn, crowded_full _ _ (by decide)⟩

def packing : Stripe := { openStripe with shards := [] }

theorem wit_StripePlacementCommands_seal : (let s := stored late packing
     s.stripe? 2 = some packing ∧ packing.kind = 2 ∧ packing.sealed = false ∧ packing.openedAt + (if s.writeBack then s.num 0x9004 0 else 20) ≤ s.now ∧
      (let n := (shardLens packing.filled).length + 2
       (s.drawFor (s.regionFor 2 n packing.fast) n).map
        (fun set => (s.mapStripe 2 fun q => { q with sealed := true }).flushRoom set) = some true)) ∧
    (let s := tiles (stored late packing) { Tile.reset with state := 3 }
     s.stripe? 2 = some packing ∧ packing.openedAt + (if s.writeBack then s.num 0x9004 0 else 20) ≤ s.now ∧
      (let n := (shardLens packing.filled).length + 2
       s.drawFor (s.regionFor 2 n packing.fast) n = none)) := by decide +kernel

theorem wit_StripePlacementCommands_sealWaits : ∃ (s : State) (set : List Nat), s.stripe? 2 = some packing ∧
    packing.openedAt + (if s.writeBack then s.num 0x9004 0 else 20) ≤ s.now ∧
    s.drawFor (s.regionFor 2 ((shardLens packing.filled).length + 2) packing.fast) ((shardLens packing.filled).length + 2) = some set ∧
    (s.mapStripe 2 fun q => { q with sealed := true }).flushRoom set = false := by
  let s (n : Nat) : State := { stored late packing with plc.stripes := packing :: List.replicate n openSet }
  have hf : ∀ n, regionSlots 2 ≤ n → ∀ t l, ((s n).mapStripe 2 fun q => { q with sealed := true }).flushRoom (t :: l) = false := by
    intro n h t l
    have ho : n ≤ ((s n).mapStripe 2 fun q => { q with sealed := true }).openStripes := by
      have he : (((packing :: List.replicate n openSet).map fun p => if p.id = 2 then { p with sealed := true } else p).filter
          fun p => p.kind == 2 && !p.sealed && !p.detached).length = n := by
        rw [List.map_cons, List.map_replicate, List.filter_cons_of_neg (by decide), List.filter_replicate_of_pos (by decide),
          List.length_replicate]
      exact Nat.le_of_eq he.symm
    have hd : decide (((s n).mapStripe 2 fun q => { q with sealed := true }).dirtyShards t
        + ((s n).mapStripe 2 fun q => { q with sealed := true }).openStripes < regionSlots 2) = false := decide_eq_false (by omega)
    simp only [State.flushRoom, List.all_cons, hd, Bool.false_and]
  have h : ((s 32768).drawFor ((s 32768).regionFor 2 3 packing.fast) 3).map (·.isEmpty) = some false := by decide +kernel
  obtain ⟨set, hs, hn⟩ := Option.map_eq_some_iff.mp h
  obtain ⟨t, l, rfl⟩ := List.exists_cons_of_ne_nil (by simpa using hn : set ≠ [])
  exact ⟨s 32768, t :: l, by decide +kernel, by decide +kernel, hs, hf _ (by decide) _ _⟩

theorem wit_StripePlacementCommands_verify : ∀ l ∈ [[0, 7, 15], [0, 7, 16]],
    let s := { stored base flushed with plc.flushImage := [2], pch.power := .readyWt }
    s.stripe? 2 = some flushed ∧ s.plc.flushImage.contains 2 = true ∧ s.pch.power = .readyWt ∧
      (2 < (flushed.unreadable l).length ↔ l = [0, 7, 15]) := by decide +kernel

/-- A value of 65 holes, more extents than its length needs. -/
def holes : KeyRec := { keyRec with extents := List.replicate 65 ⟨0, 0, 1⟩, value := zeros 65 }

def rebuilding (t : Tile) : State := { tiles (stored base flushed) t with plc.rebuild := ⟨1, [3], 1, 0, 0⟩, plc.reserve := 0 }

def longOp : LongOp :=
  { op := 2, phase := 2, tenant := 0, pattern := 0, step := 0, done := 0, total := 10, position := 0, started := 0, left := 5 }

/-- The block of row 0, all its slots free; and with a slot in it. -/
def emptyBlockState (queued : Nat) : State :=
  base.mapTile 63 fun t => t.putBlock { DieBlock.fresh 1 9 7 with state := 2, queued := queued }

def fullBlockState (queued : Nat) : State :=
  let s := rowTile (stored base (oneShard .programmed)) []
  s.mapTile 63 fun t => t.mapBlock 1 9 7 fun k => { k with queued := queued }

def collects (s : State) : Bool :=
  let u := s.landMoves
  !u.gap && u.blockCode 63 1 9 7 != 0 && u.blockCode 63 1 9 7 != 6 && !u.erasePending 63 1 9 7 && (u.tile 63).inUse
    && u.settled 63 1 9 7 && !u.movesInto 63 1 9 7

theorem wit_CollectionAndRebuildCommands_collect : (63 < 64 ∧ dieExists 1 9 = true ∧ 7 < parityBlock) ∧
    (collects (emptyBlockState 0) = true ∧ (emptyBlockState 0).landMoves.slotsIn 63 1 9 7 = []) ∧
    (collects (fullBlockState 0) = true ∧ (fullBlockState 0).landMoves.slotsIn 63 1 9 7 ≠ []) ∧
    base.plc.rebuild.state = 0 := by decide +kernel

/-- The repack of the value of holes, and of a value that needs none. -/
def holesRepack : Repack := { tenant := 1, key := [0x61], version := 5, extents := holes.extents }

def repacking (k : KeyRec) (l : List Repack) : State := { base with asu.keys := [k], cpx.pages := [keyPage 2], plc.repacks := l }

theorem wit_CollectionAndRebuildCommands_repack : (∀ k ∈ [keyRec, holes], let s := repacking k []
     s.plc.repacks.find? (fun r => r.tenant == 1 && r.key == [0x61]) = none ∧ s.live? 1 [0x61] = some k ∧ k.lost = false ∧
      s.tenantReady 1 = true ∧ s.plc.longOp = none ∧
      ((if s.fragmented k then s.placeRuns k (s.repackClass k) (runsOf k.extents)
        else if k.extents.any fun e => s.sparse e.stripe then s.placeSparse k (s.repackClass k) k.extents else none).isSome ↔ k = holes)) ∧
    (∀ l ∈ [[], [⟨1, 0, journalRing, .void, []⟩]], let s := { repacking holes [holesRepack] with plc.journal := l }
     s.plc.repacks.find? (fun r => r.tenant == 1 && r.key == [0x61]) = some holesRepack ∧ s.repackHeld holesRepack = true ∧
      s.live? 1 [0x61] = some holes ∧ holes.version = holesRepack.version ∧ (s.journalRoom (recordBytes [1]) = true ↔ l = [])) := by
  decide +kernel

/-- One page not clean, and the journal as given. -/
def trimBase (l : List JournalRec) : State := { base with asu.pages := [page], plc.journal := l }

/-- A map root takes 32 to 536 bytes, whatever the free number in it. -/
theorem mapRoot_bounds (s : State) : 32 ≤ s.mapRootBytes ∧ s.mapRootBytes ≤ 536 := by
  unfold State.mapRootBytes; omega

theorem trim_used {s : State} {n : Nat} (h : s.writeMetadata.map (fun u => u.trimJournal.journalUsed) = some n) :
    ∃ u, s.writeMetadata = some u ∧ u.trimJournal.journalUsed = n := by
  simpa using h

theorem wit_CollectionAndRebuildCommands_trim : base.writeMetadata = none ∧
    (∃ s u : State, s.writeMetadata = some u ∧ u.trimJournal.journalRoom u.trimJournal.mapRootBytes = true) ∧
    ∃ s u : State, s.writeMetadata = some u ∧ u.trimJournal.journalRoom u.trimJournal.mapRootBytes = false := by
  obtain ⟨u, hu, hn⟩ := trim_used (s := trimBase []) (n := 0) (by decide +kernel)
  obtain ⟨v, hv, hm⟩ := trim_used (s := trimBase [⟨1, 0, journalRing, .mapRoot ⟨[], [], []⟩, []⟩]) (n := journalRing) (by decide +kernel)
  have hb := mapRoot_bounds u.trimJournal
  have hc := mapRoot_bounds v.trimJournal
  refine ⟨by decide +kernel, ⟨_, u, hu, decide_eq_true ?_⟩, _, v, hv, decide_eq_false ?_⟩
  · rw [hn]; unfold journalRing; omega
  · rw [hm]; omega

/-- A stripe with a shard on tile 3, which is out, and what the statement calls `u`. -/
def lostTile (t : Tile) : State := (rebuilding t).mapTile 3 fun t => { t with state := 3 }

def rebuildReads (s : State) : State :=
  (((List.range flushed.shards.length).filter fun j => !(s.missingShards flushed).contains j).take flushed.k).foldl
    (fun (s : State) j => match flushed.shards[j]? with
      | some h => s.queueRead 3 true flushed j h.whole
      | none => s) s

theorem wit_CollectionAndRebuildCommands_rebuild : ∀ c ∈ [true, false], let s := lostTile { Tile.reset with closed := c }
    s.stripe? 2 = some flushed ∧ s.gap = false ∧ s.plc.rebuild.state ≠ 0 ∧ s.toRebuild flushed = true ∧ s.toWrite flushed ≠ [] ∧
      s.plc.stripes.any (fun q => (s.toRebuild q && !(s.toWrite q).isEmpty) && s.rebuildsBefore q flushed &&
        (s.plc.charcoal = 0 || (s.rebuildShards q.id 3 (s.toWrite q)).isSome)) = false ∧
      s.journalRoom (s.relocationBytes [2]) = true ∧ s.num 0x9011 0 ≠ 2 ∧
      (((rebuildReads s).rebuildShards 2 3 ((rebuildReads s).toWrite flushed)).isNone = c) := by decide +kernel

theorem wit_CollectionAndRebuildCommands_long : (let s := { base with plc.longOp := some longOp }
     s.longRuns = true ∧ s.plc.longOp = some longOp ∧ s.cpx.rngState = 0 ∧ s.journalRoom 64 = true) ∧
    (let s := { base with plc.longOp := some longOp, cpx.rngState := 1 }
     longOp.phase ≠ lastPhase longOp.op ∧ s.journalRoom 64 = true) ∧
    (let s := { base with plc.longOp := some longOp, plc.journal := [⟨1, 0, journalRing, .void, []⟩] }
     s.longRuns = true ∧ s.cpx.rngState = 0 ∧ s.journalRoom 64 = false) ∧
    (let s := { base with plc.reclaims := [(3, 7)] }
     s.plc.longOp = none ∧ s.plc.reclaims = [(3, 7)]) := by decide +kernel

/-! ## Witnesses: tiles -/

def dieBase (d : Die) : State := base.mapTile 63 fun t => t.putDie d

def idleDie : Die := .fresh 1 9

/-- A die at its operation, some microseconds in. -/
def doing (o : DieOp) : State := dieBase { idleDie with doing := some (o, 900, 0) }

def wholePart : ReadPart := { off := 0, len := 4096, around := true, lead := false }

def readOp (b : Nat) : DieOp := .read 0 false 2 0 b 0 false wholePart

/-- What the statement calls `u`: the die free again. -/
def dieFree (s : State) : State :=
  s.mapTile 63 fun y => { y.putDie { (s.tile 63).dieAt 1 9 with doing := none } with idleSince := s.now }

def sensedOf (b : Nat) (l : List Nat) (s : State) : State := (dieFree s).sensedRead 63 1 9 b (l.map codeword)

theorem wit_DieOperationCommands :
    unitsExist 63 1 9 = true ∧ ((base.tile 63).inUse = true ∧ (base.tile 63).state = 0 ∧ ((base.tile 63).dieAt 1 9).doing = none) ∧
    (let x := { idleDie with doing := some (.erase 3, 900, 0), queue := [readOp 1] }
     let s := dieBase x
     (s.tile 63).dieAt 1 9 = x ∧ (s.tile 63).inUse = true ∧ (s.tile 63).state = 0 ∧
      nextOp (fun o => o.isRead && (x.suspended.isNone || DieOp.isRead (.erase 3))) x.queue = some (0, readOp 1) ∧
      s.mayInterrupt (readOp 1) (.erase 3) 900 0 = true) ∧
    (let s := doing (readOp 1)
     ((s.tile 63).dieAt 1 9).doing = some (readOp 1, 900, 0) ∧ (([0, 4095].map codeword).any fun w => decide (5 ≤ w.1)) = false ∧
      (sensedOf 1 [0, 4096] s).unrecovered 63 1 9 1 0 ([0, 4096].map codeword) = true ∧
      ((sensedOf 1 [0, 4096] s).badShard 2 0 wholePart).stripe? 2 = none) ∧
    (let s := { doing (readOp 1) with plc.stripes := [flushed] }
     (sensedOf 1 [0, 4096] s).unrecovered 63 1 9 1 0 ([0, 4096].map codeword) = true ∧
      (((sensedOf 1 [0, 4096] s).badShard 2 0 wholePart).stripe? 2).map (·.lost) = some false) ∧
    (let o := DieOp.filler 1 0 false
     ((doing o).tile 63).dieAt 1 9 = { idleDie with doing := some (o, 900, 0) }) ∧
    (let o := DieOp.program 2 0 1 0 false
     ((doing o).tile 63).dieAt 1 9 = { idleDie with doing := some (o, 900, 0) } ∧
      ((dieFree (doing o)).rowProgrammed 63 1 9 1).moveAt 63 1 9 1 0 2 0 = none) ∧
    (let o := DieOp.erase 3
     ((doing o).tile 63).dieAt 1 9 = { idleDie with doing := some (o, 900, 0) } ∧ ((doing o).tile 63).blockAt 1 9 3 = .fresh 1 9 3 ∧
      (DieBlock.fresh 1 9 3).state ≠ 5) := by decide +kernel

/-- A move of the slot of row 0, out of it or into it. -/
def moveOf (from_ to_ : Nat) : Move :=
  { tile := 63, stripe := 2, shard := 0, region := 0, from_ := from_, to_ := to_, source := (1, 9, 7), names := [], why := 0, read := false, done := false }

/-- The die of that row at an operation, with the move under way. -/
def moving (o : DieOp) (m : Move) : State :=
  let s := rowTile (stored base (oneShard .programmed)) []
  { s.mapTile 63 (fun t => t.putDie { idleDie with doing := some (o, 900, 0) }) with plc.moves := [m] }

theorem wit_DieOperationCommands_move : (let m := moveOf 0 5
     let s := moving (.background 7 0 true) m
     let v := sensedOf 7 [0] s
     ((s.tile 63).dieAt 1 9).doing = some (.background 7 0 true, 900, 0) ∧
      (v.slotsIn 63 1 9 7).find? (fun e => e.2.2.2 == 0) = some (2, 0, 0, 0) ∧
      v.plc.moves.find? (fun m => m.tile == 63 && m.stripe == 2 && m.shard == 0 && m.source == (1, 9, 7) && !m.read) = some m ∧
      (([0].map codeword).any fun w => decide (5 ≤ w.1)) = false) ∧
    (let o := DieOp.program 2 0 7 0 false
     let m := moveOf 5 0
     let s := moving o m
     ((s.tile 63).dieAt 1 9).doing = some (o, 900, 0) ∧
      ((dieFree s).rowProgrammed 63 1 9 7).moveAt 63 1 9 7 0 2 0 = some m) := by decide +kernel

/-- That row, its verification next on its die. -/
def verifyBase : State :=
  (rowTile base [⟨0, 0, 0, 0, 0⟩]).mapTile 63 fun t => { t.mapBlock 1 9 7 fun k => { k with pointer := 4096 } with
    dies := t.dies.map fun x => if x.channel = 1 ∧ x.die = 9 then { x with queue := [.verify 7 0] } else x }

def verifyTile (s : State) : State := s.mapTile 63 fun t => t.putDie { idleDie with queue := [.verify 7 0] }

theorem wit_TileCommands_verify : ∀ l ∈ [[], [[4096]]], let s := verifyTile verifyBase
    let k := (s.tile 63).blockAt 1 9 7
    let pages := (s.tile 63).rowPages k.region k.superblock 0
    unitsExist 63 1 9 = true ∧ 7 < parityBlock ∧ (s.tile 63).inUse = true ∧ (s.tile 63).state = 0 ∧
      (s.tile 63).verifies k.region k.superblock 0 = true ∧
      pages.any (fun e => !s.verifyNext 63 ((s.tile 63).dieAt e.channel e.die) e.block 0) = false ∧
      ((pages.filter fun e => (s.mapTile 63 fun y => y.dropVerify k.region k.superblock 0).pageFails (pageCodewords l e.pos)) = [] ↔
        l = []) := by decide +kernel

theorem wit_TileCommands_rewrite : ∀ q ∈ [1, 2], unitsExist 63 1 9 = true ∧
    (collects (emptyBlockState q) = true ∧ ((emptyBlockState q).landMoves.tile 63).blockAt 1 9 7 = { DieBlock.fresh 1 9 7 with state := 2, queued := q } ∧
      (emptyBlockState q).landMoves.slotsIn 63 1 9 7 = []) ∧
    (collects (fullBlockState q) = true ∧ (((fullBlockState q).landMoves.tile 63).blockAt 1 9 7).queued = q ∧
      (fullBlockState q).landMoves.slotsIn 63 1 9 7 ≠ []) := by decide +kernel

theorem wit_TileCommands_power : ((late.tile 63).state = 0 ∧ (late.tile 63).isolated = false ∧ late.tileIdle 63 = true ∧
      (late.tile 63).idleSince + late.num 0xA000 0 ≤ late.now) ∧
    (∀ n ∈ [0, 1, 2], let s := late.mapTile 63 fun t => { t with state := 1, peatStep := n }
     (s.tile 63).state = 1 ∧ s.tileIdle 63 = true ∧ s.fastHolder 63 = false ∧ (s.tile 63).peatStep = n ∧ s.num 0xA000 1 ≠ 0 ∧
      (s.tile 63).idleSince + s.num 0xA000 1 * 1000 ≤ s.now) ∧
    (∀ n ∈ [1, 2], let s := late.mapTile 63 fun t => { t.putDie { idleDie with queue := [.erase 3] } with state := n }
     s.tileIdle 63 = false ∧ (s.tile 63).state = n) ∧
    (faultTiles (tileUnit 63) 1 = some [63] ∧ ([63].filter fun t => (base.tile t).inUse) ≠ []) := by decide +kernel

/-- A die's temperature above the maximum seen, and one not above it. -/
theorem wit_TileCommands_temperature : ∀ c ∈ [(25 : Int), -40], let s := base.mapTile 63 fun t => t.putDie { idleDie with temp := 0 }
    let y := { (s.tile 63).putDie { idleDie with temp := c, sensorFailed := false } with
      tempUs := (s.tile 63).tempUs.modify (historyBucket (s.tile 63).hottest) (· + (s.now - (s.tile 63).tempAt)), tempAt := s.now }
    unitsExist 63 1 9 = true ∧ (((s.mapTile 63 fun _ => y).putNum (tileIndex 63) 0x15 (clampI 32 y.hottest)).signed (tileIndex 63) 0x16 <
      y.hottest ↔ c = 25) := by
  decide +kernel

/-! ## Witnesses: Wardens -/

/-- No holder since a tick ago, the first Warden alone eligible, the second the last holder. -/
def vacant (w x : Warden) : State :=
  (({ base with wdn.holder := none, wdn.ended := some (999, 2, x) }.mapWarden w fun y => { y with eligible := true }).mapWarden w.other
    fun y => { y with eligible := false })

theorem wit_LeaseCommands :
    (base.leaseFrozen = false ∧ base.wdn.holder ≠ some .b ∧ base.wdn.holder = some .a ∧ (base.warden .a).mismatch = false) ∧
    (∀ w ∈ [Warden.a, .b], let s := base
     let v := s.mapWarden w fun x => { x with mismatch := true, eligible := false }
     let u := (v.bump 0xB010 (2 + w.num) 1).raise 0xB801 w.unit v.wdn.outSeq 0 0
     (s.warden w).mismatch = false ∧ (s.warden w).state ≠ 4 ∧ (u.wdn.holder = some w ↔ w = .a)) ∧
    (∀ cause ∈ [1, 3, 4], let s := { base with wdn.dropWanted := some (.a, cause) }
     s.wdn.dropWanted = some (.a, cause) ∧ s.wdn.holder = some .a ∧ (cause = 3 → s.switchAnswered = true)) ∧
    (let s := { base with wdn.leaseEnd := 999 }
     s.wdn.holder = some .a ∧ s.leaseFrozen = false ∧ s.wdn.leaseEnd < s.now) ∧
    (∀ e ∈ [(Warden.b, Warden.a), (.a, .a)], let s := vacant e.1 e.2
     s.wdn.holder = none ∧ s.leaseFrozen = false ∧ s.wdn.ended = some (999, 2, e.2) ∧ 999 < s.now ∧ s.nextHolder = some e.1) ∧
    (let s := base
     let u := { s with wdn.outSeq := (2 ^ 32 - 1 + 1) % 2 ^ 32 }.closeGap
     s.gap = false ∧ u.standby = some .b) ∧
    (base.takesWrite .service 0xB006 0 (.num 1) ∧ base.wdn.holder = some .a ∧ base.standby = some Warden.a.other) :=
  ⟨by decide +kernel, by decide +kernel, by decide +kernel, by decide +kernel, by decide +kernel, by decide +kernel,
    takes_of (by decide +kernel), by decide +kernel⟩

theorem wit_WardenRecoveryCommands :
    (base.standby = some .b ∧ base.gap = false) ∧
    (let s := { base with wdn.wardenB := ⟨false, 3, false⟩ }
     s.wdn.holder = some Warden.b.other ∧ (s.warden .b).state = 3 ∧ s.wdn.resync = none ∧ s.wdn.resyncAfter ≤ s.now) ∧
    (∀ t ∈ [28000, 30000], let s := { base with wdn.resync := some (.b, 0), pch.devTime := t }
     s.wdn.resync = some (.b, 0) ∧ s.now ≤ 0 + 30000 ∧ 0 + 28000 ≤ s.now ∧ 4194304 < 4194305) ∧
    (let s := { base with wdn.wardenB := ⟨false, 5, false⟩ }
     (s.warden .b).state = 5) ∧
    (base.wdn.clockStopped = false ∧ base.wdn.holder = some .a) ∧
    (let s := { base with wdn.holder := none }
     s.wdn.clockStopped = false ∧ s.wdn.holder = none) ∧
    (∀ p ∈ [Power.hold, .ready], let s := { base with wdn.clockStopped := true, pch.power := p }
     let wake : WardenS → WardenS := fun x => if x.state = 6 then { x with state := 1 } else x
     let u := (({ s with wdn.clockStopped := false, pch.devTime := s.pch.devTime + 7 }.mapWarden .a wake).mapWarden .b wake)
     s.wdn.clockStopped = true ∧ (u.pch.power = .hold ↔ p = .hold)) := by decide +kernel

/-! ## Witnesses: the management segment -/

def segWith (s : State) (g : Segment) : State := { s with msv.segment := g }

def staging : StagedWrite := { source := 0x020000000077, index := 0x3004, sub := 0, length := 4, got := [], last := 0 }

/-- A QUIET_PROPOSE for 1 s from the identifier, with the reserved field given. -/
def proposal (reserved : Nat) : DictFrame :=
  { dictFrame 0x20 with index := 0, length := 8, area := natBytes 4 5 ++ natBytes 4 1000000, reserved := reserved }

theorem wit_SegmentRequests :
    (∀ op ∈ [1, 2, 3], ∀ n ∈ [0, 3, 4], let f := dictFrame op
     let s := segWith base { Segment.reset with requests := List.replicate n (dictFrame 1) }
     f.ok = true ∧ s.aonOn = true ∧ s.msv.segment.quiet = 0 ∧ f.area.length = f.length ∧ f.broadcast = false ∧ f.op = op ∧
      (s.msv.segment.requests.length < 4 ↔ n ≠ 4)) ∧
    (∀ z ∈ [0, 1], let f := proposal z
     f.ok = true ∧ base.aonOn = true ∧ base.msv.segment.quiet = 0 ∧ f.area.length = f.length ∧ f.broadcast = false ∧ f.op = 0x20 ∧
      (headBad f (f.length == 8) = none ↔ z = 0)) ∧
    (∀ op ∈ [0x10, 0x11, 0x21, 0x22, 128, 255], let f := dictFrame op
     f.ok = true ∧ base.aonOn = true ∧ base.msv.segment.quiet = 0 ∧ f.area.length = f.length ∧ f.broadcast = false ∧
      (f.op = 0x10 ∨ f.op = 0x11 ∨ f.op = 0x21 ∨ f.op = 0x22 ∨ 128 ≤ f.op)) ∧
    (let s := segWith late { Segment.reset with staged := some staging }
     s.msv.segment.staged = some staging ∧ s.msv.service.staged = none ∧ staging.last + 10000000 ≤ s.now) ∧
    (let s := { late with msv.service.staged := some staging }
     s.msv.service.staged = some staging ∧ s.msv.segment.staged = none ∧ staging.last + 10000000 ≤ s.now) := by decide +kernel

theorem wit_SegmentSignals :
    (∃ s : State, s.aonOn = true ∧ s.msv.segment.quiet = 0 ∧ s.due s.msv.segment.holdUntil = true ∧ s.pch.power ≠ .hold ∧
      s.num 0xE00A 0 ≠ 0 ∧ s.due s.msv.segment.heartbeatDue = true) ∧
    (∃ s : State, s.aonOn = true ∧ s.msv.segment.quiet = 0 ∧ s.due s.msv.segment.holdUntil = true ∧ s.alertDue = true) ∧
    (∀ delay ∈ [5000, 1000000], ∃ (source id : Nat) (s : State), fits 48 source = true ∧ fits 32 id = true ∧ fits 32 delay = true ∧
      s.aonOn = true ∧ s.msv.segment.quiet = 0 ∧ 5000 ≤ delay ∧ delay ≤ 1000000) ∧
    (∀ delay ∈ [4999, 1000001], ∃ (source id : Nat) (s : State), fits 48 source = true ∧ fits 32 id = true ∧ fits 32 delay = true ∧
      s.aonOn = true ∧ s.msv.segment.quiet = 0 ∧ (delay < 5000 ∨ 1000000 < delay)) ∧
    (∃ (s : State) (id st : Nat), s.aonOn = true ∧ s.msv.segment.quiet ≤ 1 ∧ s.commitQuiet = s ∧
      s.msv.segment.ackWanted = some (id, st) ∧ s.due s.msv.segment.ackAt = true) ∧
    (∃ s : State, s.msv.segment.quiet = 1 ∧ s.msv.segment.quietAt ≤ s.now) ∧
    (∃ s : State, s.msv.segment.quiet = 1 ∧ s.now < s.msv.segment.quietAt) ∧
    (∃ s : State, s.msv.segment.quiet = 2 ∧ s.aonOn = true) ∧
    (∃ s : State, s.msv.segment.quiet = 3 ∧ s.due s.msv.segment.settleAt = true) ∧
    (∃ s : State, s.aonOn = true ∧ s.msv.segment.plca = 3 ∧ s.msv.segment.quiet ≤ 1) ∧
    (∃ s : State, s.aonOn = true ∧ s.msv.segment.macOn = true ∧ s.msv.segment.plca = 1) ∧
    (∃ s : State, s.msv.segment.plca = 2 ∧ s.due (s.msv.segment.lastBeacon + 4000) = true) ∧
    (∃ (s : State) (l : List Nat), s.aonOn = true ∧ s.msv.segment.plca = 2 ∧
      l = s.now :: s.msv.segment.collisions.filter (fun t => decide (s.now < t + 1000000)) ∧ l.length < 16) ∧
    ∃ (s : State) (l : List Nat), s.aonOn = true ∧ s.msv.segment.plca = 3 ∧
      l = s.now :: s.msv.segment.collisions.filter (fun t => decide (s.now < t + 1000000)) ∧ 16 ≤ l.length :=
  ⟨⟨base.putNum 0xE00A 0 1000, by decide +kernel⟩,
    ⟨{ segWith base { Segment.reset with alertSeen := 1 } with od := base.od ++ [(0xE00B00, .bytes [2, 0, 0, 0, 0, 3])] },
      by decide +kernel⟩,
    fun d h => ⟨1, 1, base, by
      simp only [List.mem_cons, List.not_mem_nil, or_false] at h
      rcases h with rfl | rfl <;> decide +kernel⟩,
    fun d h => ⟨1, 1, base, by
      simp only [List.mem_cons, List.not_mem_nil, or_false] at h
      rcases h with rfl | rfl <;> decide +kernel⟩,
    ⟨segWith base { Segment.reset with quiet := 1, quietAt := 2000, ackWanted := some (9, 0), ackAt := 1000 }, 9, 0, by decide +kernel,
      by decide +kernel, rfl, by decide +kernel, by decide +kernel⟩,
    ⟨segWith base { Segment.reset with quiet := 1, quietAt := 1000 }, by decide +kernel⟩,
    ⟨segWith base { Segment.reset with quiet := 1, quietAt := 1001 }, by decide +kernel⟩,
    ⟨segWith base { Segment.reset with quiet := 2 }, by decide +kernel⟩,
    ⟨segWith base { Segment.reset with quiet := 3, settleAt := 1000 }, by decide +kernel⟩,
    ⟨segWith base { Segment.reset with plca := 3 }, by decide +kernel⟩,
    ⟨segWith base { Segment.reset with plca := 1 }, by decide +kernel⟩,
    ⟨segWith late { Segment.reset with plca := 2 }, by decide +kernel⟩,
    ⟨segWith late { Segment.reset with plca := 2, collisions := List.replicate 14 99999999 }, _, by decide +kernel, by decide +kernel, rfl,
      by decide +kernel⟩,
    segWith late { Segment.reset with plca := 3, collisions := List.replicate 15 99999999 }, _, by decide +kernel, by decide +kernel, rfl,
    by decide +kernel⟩

theorem wit_MeteringAndTimeCommands :
    (∀ t ∈ [(3599998999999 : Int), 3599999000000], let s := { base with pch.wallOffset := t }
     s.metersRun = true ∧ (s.cqc.epoch.endNs ≤ s.wall.toNat ↔ t = 3599999000000)) ∧
    base.cqc.sampledAt + 1000 ≤ base.now ∧ late.cqc.checkpointAt + 1000000 ≤ late.now ∧
    (base.takesWrite .service 0x3200 0 (.num 15) ∧ 15 ≠ base.cqc.epoch.minutes) ∧
    (base.takesWrite .service 0xD100 0 (.num 4294967295999999999) ∧ 4294967295999999999 < 4294967296 * 1000000000) ∧
    (let s := { base with dpx.ptp.state := 3 }
     s.dpx.ptp.state = 3 ∧ s.dpx.ptp.utcOffset ≠ 38) :=
  ⟨by decide +kernel, by decide +kernel, by decide +kernel, ⟨takes_of (by decide +kernel), by decide +kernel⟩,
    ⟨takes_of (by decide +kernel), by decide⟩, by decide +kernel⟩

/-! ## Witnesses: power -/

def starting (n : Nat) : State := { base with pch.power := .startUp, pch.step := n }

theorem wit_StartupAndSupplyCommands :
    (∃ s : State, s.pch.pwrdis = false ∧ s.pch.mainGood = false ∧ s.pch.flushing = none ∧ s.pch.power = .startUp) ∧
    (∃ s : State, s.pch.pwrdis = false ∧ s.pch.mainGood = false ∧ s.pch.flushing = none ∧ s.pch.power = .off) ∧
    (∃ s : State, s.pch.pwrdis = false ∧ s.pch.mainGood = false ∧ s.pch.flushing = none ∧ s.pch.power = .hold) ∧
    (∀ n ∈ [1, 2, 4, 5], ∃ s : State, s.pch.outOfService = false ∧ s.pch.bootStopped = false ∧ s.pch.flushing = none ∧
      s.pch.mainGood = true ∧ s.pch.power = .startUp ∧ s.pch.step = n ∧ s.pch.mrst = false ∧ s.pch.resetWanted = false) ∧
    (∃ (ms : Nat) (s u : State) (l : List UnitId), s.pch.outOfService = false ∧ s.pch.bootStopped = false ∧ s.pch.flushing = none ∧
      s.pch.mainGood = true ∧ l.all UnitId.listed = true ∧ s.pch.power = .startUp ∧ s.pch.step = 3 ∧
      u = (((l.foldl (fun (s : State) u => s.powerUpFail u) s).wardensStart).stepTime 3 ms) ∧
      (u.wdn.wardenA.eligible = true ∨ u.wdn.wardenB.eligible = true)) ∧
    (∀ c ∈ [true, false], ∃ s : State, s.pch.outOfService = false ∧ s.pch.bootStopped = false ∧ s.pch.flushing = none ∧
      s.pch.mainGood = true ∧ s.pch.power = .readyWt ∧ s.pch.step = 6 ∧ s.plc.flushImage = [] ∧ s.pch.tested = true ∧
      s.loadPinned.asu.pages.all (fun p => !p.pinned || p.detached || (p.cached && !p.unreadable)) = c) ∧
    (∃ s : State, s.pch.mainPower = true ∧ s.pch.power = .readyWt ∧ s.holdPending = false) ∧
    (∃ s : State, s.pch.mainPower = true ∧ s.pch.power = .ready ∧ s.holdPending = true) ∧
    (∃ s : State, s.pch.aux = true ∧ s.pch.power = .hold) ∧ (∃ s : State, s.pch.aux = true ∧ s.pch.power = .ready) ∧
    (∃ s : State, s.pch.aux = false ∧ s.pch.power = .off) ∧ ∃ s : State, s.pch.aux = false ∧ s.pch.power ≠ .off := by
  refine ⟨⟨State.reset, by decide +kernel⟩, ⟨{ State.reset with pch.power := .off }, by decide +kernel⟩,
    ⟨{ State.reset with pch.power := .hold }, by decide +kernel⟩, fun n h => ⟨starting n, ?_⟩,
    ⟨9, starting 3, _, [tileUnit 63], by decide +kernel, by decide +kernel, by decide +kernel, by decide +kernel, by decide +kernel,
      by decide +kernel, by decide +kernel, rfl, by decide +kernel⟩,
    fun c h => ⟨{ starting 6 with pch.power := .readyWt, pch.tested := true,
                                  asu.pages := if c then [] else [{ page with pinned := true, unreadable := true }] }, ?_⟩,
    ⟨{ base with pch.power := .readyWt }, by decide +kernel⟩, ⟨{ base with cqc.policy := 3, cqc.holdUntil := some 5 }, by decide +kernel⟩,
    ⟨{ base with pch.power := .hold }, by decide +kernel⟩, ⟨base, by decide +kernel⟩,
    ⟨{ base with pch.aux := false, pch.power := .off }, by decide +kernel⟩, { base with pch.aux := false }, by decide +kernel⟩
  all_goals simp only [List.mem_cons, List.not_mem_nil, or_false] at h
  · rcases h with rfl | rfl | rfl | rfl <;> decide +kernel
  · rcases h with rfl | rfl <;> decide +kernel

/-- A flush that ends without main power. -/
def flushEnding : State := { base with pch.flushing := some 1, pch.mainGood := false }

theorem flushEnding_records : flushEnding.flushRecords = true := by
  have h : flushEnding.trimJournal.journalUsed = 0 := by decide +kernel
  have hb := mapRoot_bounds flushEnding
  have hm : flushEnding.manifestBytes ≤ 32 + 8 * 2 ^ 20 := by unfold State.manifestBytes; omega
  unfold State.flushRecords State.journalRoom
  rw [h]
  exact decide_eq_true (by unfold journalRing; omega)

theorem wit_FlushResetAndDozeCommands :
    (∃ (cause : Nat) (s : State), s.pch.flushing = some cause ∧ s.pch.mainGood = false ∧ s.flushRecords = true) ∧
    (∃ (us : Nat) (s : State), s.pch.mrst = false ∧ us < 2 ∧ s.pch.power ≠ .off) ∧
    (∃ (us : Nat) (s : State), s.pch.mrst = false ∧ 10 ≤ us) ∧ (∃ s : State, s.pch.mrst = true) ∧
    (∃ s : State, s.pch.pwrdis = false ∧ s.pch.power ≠ .off ∧ s.pch.mainPower = true) ∧
    (∃ (r : Requester) (s : State), s.takesWrite r 0xD010 0 (.num 1)) ∧
    (∃ s : State, s.pch.dozeStep = 0 ∧ s.dozeDue = true) ∧
    (∃ s : State, s.pch.dozeStep ≠ 0 ∧ s.pch.wakeWanted = false) ∧
    (∃ s u : State, s.pch.dozeStep ≠ 0 ∧ s.pch.wakeWanted = true ∧ u = s.dozeAdvance (s.pch.dozeStep + 1) ∧ u.pch.dozeStep ≠ 0) ∧
    (∃ s u : State, s.pch.dozeStep ≠ 0 ∧ s.pch.wakeWanted = true ∧ u = s.dozeAdvance (s.pch.dozeStep + 1) ∧ u.pch.dozeStep = 0) ∧
    (∃ s : State, s.pch.power = .doze ∧ s.pch.dozeStep = 0) ∧ (∃ s : State, s.aonOn = true ∧ s.pch.devSaved + 1000000 ≤ s.now) ∧
    ∃ s : State, s.aonOn = true :=
  ⟨⟨1, flushEnding, by decide +kernel, by decide +kernel, flushEnding_records⟩, ⟨1, base, by decide +kernel⟩,
    ⟨10, base, by decide +kernel⟩, ⟨{ base with pch.mrst := true }, by decide +kernel⟩, ⟨base, by decide +kernel⟩,
    ⟨.service, base, takes_of (by decide +kernel)⟩, ⟨{ base with cqc.policy := 2, pch.firewood := .ready, pch.testPassed := true }, by decide +kernel⟩,
    ⟨{ base with pch.dozeStep := 2 }, by decide +kernel⟩, ⟨{ base with pch.dozeStep := 2, pch.wakeWanted := true }, _, by decide +kernel, rfl, rfl, by decide +kernel⟩,
    ⟨{ base with pch.dozeStep := 4, pch.wakeWanted := true }, _, by decide +kernel, rfl, rfl, by decide +kernel⟩, ⟨asleep, by decide +kernel⟩, ⟨late, by decide +kernel⟩, base, by decide +kernel⟩

def discharging : State := { base with pch.firewood := .discharging }

theorem wit_HoldUpBankCommands :
    (∃ s : State, s.mayTest = true ∧ s.testDue = true) ∧ (∃ s : State, s.pch.power = .readyWt) ∧
    (∃ (r : Requester) (s : State), s.takesWrite r 0xD023 0 (.num 1)) ∧
    (∃ (s : State) (d : Nat), s.pch.testLimit = some d ∧ s.pch.firewood = .waitDischarge ∧ s.dirtyBytes ≤ d) ∧
    (∃ (us esr mj : Nat) (s : State), s.pch.firewood = .discharging ∧ mj = bankEnergy (5 * us) 4 32000 esr ∧ 1000 ≤ us ∧ us ≤ 100000 ∧
      esr ≤ 1000 ∧ 1650 ≤ mj) ∧
    (∀ us ∈ [999, 100001], ∃ s : State, s.pch.firewood = .discharging ∧ (us < 1000 ∨ 100000 < us)) ∧
    (∃ (us esr : Nat) (s : State), s.pch.firewood = .discharging ∧ 1000 ≤ us ∧ us ≤ 100000 ∧ 1000 < esr) ∧
    (∃ (us esr mj : Nat) (s : State), s.pch.firewood = .discharging ∧ mj = bankEnergy (5 * us) 4 32000 esr ∧ 1000 ≤ us ∧ us ≤ 100000 ∧
      esr ≤ 1000 ∧ mj < 1650) ∧
    (∃ (ms : Nat) (s : State), ms ≤ 20000 ∧ s.pch.firewood = .restoring) ∧ ∃ (ms : Nat) (s : State), ms ≤ 20000 ∧ s.pch.firewood = .failed := by
  refine ⟨⟨({ base with pch.firewood := .ready }).putNum 0xD023 0 1, by decide +kernel⟩, ⟨{ base with pch.power := .readyWt }, by decide +kernel⟩,
    ⟨.service, base, takes_of (by decide +kernel)⟩,
    ⟨{ base with pch.testLimit := some 0, pch.firewood := .waitDischarge }, 0, by decide +kernel⟩,
    ⟨100000, 0, _, discharging, by decide +kernel, rfl, by decide +kernel⟩, fun us h => ⟨discharging, ?_⟩,
    ⟨1000, 1001, discharging, by decide +kernel⟩, ⟨1000, 1000, _, discharging, by decide +kernel, rfl, by decide +kernel⟩,
    ⟨20000, { base with pch.firewood := .restoring }, by decide +kernel⟩, 20000, { base with pch.firewood := .failed }, by decide +kernel⟩
  simp only [List.mem_cons, List.not_mem_nil, or_false] at h
  rcases h with rfl | rfl <;> decide +kernel

/-! ## Witnesses: recorder, Kiln, trace -/

def record (e : Event) : Record := { ev := e, count := 0, flags := 0, seq := 0 }

theorem wit_RecorderCommands :
    (∃ (s : State) (e : Event) (l : List Event), s.jsr.queue = e :: l ∧ s.jsr.powered = true ∧ s.jsr.wroteAt ≠ some s.now) ∧
    (∃ (s : State) (e : Event) (r : Record) (l : List Record), s.jsr.freeze = none ∧ severity e.code ≠ 3 ∧ s.jsr.records = r :: l ∧
      r.merges e = true) ∧
    (∃ (s : State) (e : Event) (r : Record) (l : List Record), s.jsr.freeze = none ∧ severity e.code ≠ 3 ∧ s.jsr.records = r :: l ∧
      r.merges e = false) ∧
    (∃ e : Event, severity e.code = 3) ∧ (∃ (r : Requester) (s : State), s.takesWrite r 0xC006 0 (.num 1) ∧ s.jsr.freeze = none) ∧
    (∃ (r : Requester) (s : State), s.takesWrite r 0xC006 0 (.num 0)) ∧
    ∃ (s : State) (start : Nat) (r : Requester), s.jsr.freeze = some (start, r) ∧ start + 10000000 ≤ s.now :=
  ⟨⟨{ base with jsr.queue := [event 0x1001] }, event 0x1001, [], by decide +kernel⟩,
    ⟨{ base with jsr.records := [record (event 0x1001)] }, { event 0x1001 with time := 1000999 }, record (event 0x1001), [],
      by decide +kernel⟩,
    ⟨{ base with jsr.records := [record (event 0x1001)] }, { event 0x1001 with time := 1001000 }, record (event 0x1001), [],
      by decide +kernel⟩,
    ⟨event 0xBC01, by decide⟩, ⟨.service, base, takes_of (by decide +kernel), by decide +kernel⟩,
    ⟨.service, base, takes_of (by decide +kernel)⟩, { late with jsr.freeze := some (5, .service) }, 5, .service, by decide +kernel⟩

/-- A KILN_REQUEST value: unit, test code, confirmation. -/
def kilnValue (unit code confirm : Nat) : OdVal := .bytes (natBytes 2 unit ++ natBytes 1 code ++ [0] ++ natBytes 4 confirm)

def kilnBase : State := { base with msv.kiln.limitsOk := true }

def kilnTest (u : UnitId) : State := { kilnBase with msv.kiln.test := some (u, 3, 0, false) }

/-- The hold-up bank may be tested. -/
def bankBase (s : State) : State := { s with pch.firewood := .ready, pch.testPassed := true }

def kilnTakes (s : State) (word code confirm : Nat) : Bool :=
  let b := window (valBytes (kilnValue word code confirm)) 8 0 8
  let u := UnitId.ofWord (numAt b 0 2)
  takesB s .service 0xE102 0 (kilnValue word code confirm) && decide (numAt b 2 1 = code) && u.testable code
    && decide (numAt b 4 4 = if code = 5 then 0x5641554C else 0) && !s.notTestable u && !s.isHolder u && !s.lastOfKind u && !s.requestRuns
    && s.msv.kiln.limitsOk

/-- A request of each test, with no test in progress and with one. -/
theorem wit_KilnCommands_request : ∀ e ∈ [(0x7000, 1, 0), (0x6006, 2, 0), (0x6000, 3, 0), (0xD001, 4, 0), (0x7012, 5, 0x5641554C)],
    (kilnTakes (bankBase kilnBase) e.1 e.2.1 e.2.2 = true ∧ (bankBase kilnBase).msv.kiln.test = none) ∧
    (kilnTakes (bankBase (kilnTest ⟨6, 7⟩)) e.1 e.2.1 e.2.2 = true ∧ (bankBase (kilnTest ⟨6, 7⟩)).msv.kiln.test.isSome = true) := by
  decide +kernel

theorem wit_KilnCommands :
    (∃ (u : UnitId) (s : State), u.replicated = true ∧ s.kilnFree u = true ∧ s.msv.kiln.due.any (fun d => d.1 == u) = true ∧
      (s.health u).state = 1 ∧ s.msv.kiln.limitsOk = true) ∧
    (∃ (u : UnitId) (s : State), u.replicated = true ∧ s.kilnFree u = true ∧ s.msv.kiln.due.any (fun d => d.1 == u) = true ∧
      (s.health u).state = 1 ∧ s.msv.kiln.limitsOk = false) ∧
    (∀ mv ∈ [700, 820], ∃ celsius ppm : Int, limitsHold mv celsius ppm = true) ∧
    (∃ (celsius : Int) (s : State), 105 < celsius ∧ s.msv.kiln.test = none) ∧
    (∃ (celsius : Int) (s : State) (v : UnitId) (code at_ : Nat) (q : Bool), 105 < celsius ∧ s.msv.kiln.test = some (v, code, at_, q)) ∧
    ∀ q ∈ [true, false], ∃ (s : State) (d : UnitId) (code at_ : Nat), s.msv.kiln.test = some (d, code, at_, q) ∧
      (s.gap = false ∨ d.isWarden = true) ∧ d.replicated = true := by
  refine ⟨⟨⟨6, 7⟩, { kilnBase with msv.health := [⟨⟨6, 7⟩, 1, 0, 0, []⟩], msv.kiln.due := [(⟨6, 7⟩, 0)] }, by decide +kernel⟩,
    ⟨⟨6, 7⟩, { base with msv.health := [⟨⟨6, 7⟩, 1, 0, 0, []⟩], msv.kiln.due := [(⟨6, 7⟩, 0)] }, by decide +kernel⟩,
    fun mv h => ⟨105, -10000, ?_⟩, ⟨106, base, by decide +kernel⟩, ⟨106, kilnTest ⟨6, 7⟩, ⟨6, 7⟩, 3, 0, false, by decide +kernel⟩,
    fun q _ => ⟨{ kilnBase with msv.kiln.test := some (⟨6, 7⟩, 3, 0, q) }, ⟨6, 7⟩, 3, 0, rfl, .inl rfl, by decide⟩⟩
  simp only [List.mem_cons, List.not_mem_nil, or_false] at h
  rcases h with rfl | rfl <;> decide +kernel

def traceBase (n : Nat) : State := { base with msv.trace.state := n, msv.trace.readOut := true }

/-- The entry of an event of task 5 is due. -/
def eventDue (n kind data : Nat) : State := { traceBase n with msv.trace.due := [(kind, 1, some 5, data)] }

theorem wit_TraceCommands :
    (∀ n ∈ [0, 1, 2], base.takesWrite .service 0xE200 0 (.num n)) ∧
    ((traceBase 1).takesWrite .service 0xE208 0 (.num 1) ∧ (traceBase 1).msv.trace.state = 1) ∧
    (let s := eventDue 1 9 2501
     s.msv.trace.due.find? (dueIs 9 1 5 2501) = some (9, 1, some 5, 2501) ∧ s.traceRoom = true ∧
      s.msv.trace.state = 1 ∧ s.msv.trace.triggerOf 9 2501 ≠ 0) ∧
    (∀ kind ∈ [1, 10], let s := eventDue 1 kind 0
     s.msv.trace.due.find? (dueIs kind 1 5 0) = some (kind, 1, some 5, 0) ∧ s.traceRoom = true ∧ s.msv.trace.state = 1 ∧
      s.msv.trace.triggerOf kind 0 = 0 ∧ bit s.msv.trace.mask kind = true) ∧
    (∀ kind ∈ [1, 10], let s := eventDue 2 kind 0
     s.msv.trace.due.find? (dueIs kind 1 5 0) = some (kind, 1, some 5, 0) ∧ s.traceRoom = true ∧ s.msv.trace.state = 2 ∧
      bit s.msv.trace.mask kind = true) ∧
    (∀ c ∈ [true, false], let s := { traceBase 3 with msv.trace.continuous := c }
     s.msv.trace.state = 3 ∧ s.msv.trace.readOut = true ∧ s.msv.trace.continuous = c) ∧
    (traceBase 4).msv.trace.state = 4 := by
  refine ⟨fun n h => takes_of ?_, ⟨takes_of (by decide +kernel), by decide +kernel⟩, by decide +kernel, by decide +kernel, by decide +kernel,
    by decide +kernel, by decide +kernel⟩
  simp only [List.mem_cons, List.not_mem_nil, or_false] at h
  rcases h with rfl | rfl | rfl <;> decide +kernel

/-! ## Witnesses: the service port and firmware -/

theorem wit_ServicePortTransfers :
    (∃ s : State, s.aonOn = true ∧ s.svcBusy = true) ∧
    (∃ (b : Bytes) (s : State), s.aonOn = true ∧ s.svcBusy = false ∧ parseRequest b = none) ∧
    (∃ (b : Bytes) (f : DictFrame) (s : State), s.aonOn = true ∧ s.svcBusy = false ∧ parseRequest b = some f) ∧
    (∃ (s : State) (r : DictResponse) (t : Nat) (q : Bool), s.aonOn = true ∧ s.msv.service.response = some (r, t, q)) ∧
    (∃ s : State, s.aonOn = true ∧ s.msv.service.response = none) ∧
    ∃ (s : State) (r : DictResponse) (t : Nat), s.msv.service.response = some (r, t, false) ∧ t + 1000000 ≤ s.now :=
  ⟨⟨{ base with msv.service.pendingReq := some (dictFrame 1) }, by decide +kernel⟩, ⟨[], base, by decide +kernel⟩,
    ⟨(zeros 12) ++ natBytes 4 (crc32c (zeros 12)), { dictFrame 0 with source := 0, seq := 0, index := 0 }, base, by decide +kernel⟩,
    ⟨{ base with msv.service.response := some (⟨0, 1, 0, 0, 0, 0, []⟩, 0, false) }, ⟨0, 1, 0, 0, 0, 0, []⟩, 0, false, by decide +kernel⟩,
    ⟨base, by decide +kernel⟩,
    { late with msv.service.response := some (⟨0, 1, 0, 0, 0, 0, []⟩, 0, false) }, ⟨0, 1, 0, 0, 0, 0, []⟩, 0, by decide +kernel⟩

theorem wit_CommonCommands : ∃ (s : State) (m : Nat), s.aonOn = true ∧ s.msv.service.dynAddr = 0 ∧ bit m 0 = true :=
  ⟨base, 1, by decide +kernel⟩

/-- Version 5 runs; a version 7 is staged in slot 2. -/
def fwBase : State :=
  { base with
    od := base.od ++ [(0xE30501, .num 3)], msv.slot1 := { Slot.empty with state := 3, version := 5 }, msv.slot2 := { Slot.empty with state := 2, version := 7 } }

theorem wit_FirmwareCommands :
    (∀ len ∈ [336, 67108864], ∃ (s : State) (d : Bytes), s.sanitizing = false ∧ s.pch.power = .ready ∧ 336 ≤ len ∧ len ≤ 67108864 ∧
      d.length < len) ∧
    (∃ (s : State) (x : Nat × Bytes × Nat), s.msv.fwStaged = some x ∧ x.2.2 + 10000000 ≤ s.now) ∧
    (∃ (r : Requester) (s : State), s.takesWrite r 0xE302 0 (.num 1) ∧ (s.slotIn 2).isSome = true ∧ s.pch.power ≠ .startUp) ∧
    (∃ (r : Requester) (s : State), s.takesWrite r 0xE302 0 (.num 2)) ∧
    ∃ (i n : Nat) (r : Requester) (s : State) (e : EntryRow), 1 ≤ i ∧ i ≤ 32 ∧ writeGate s r 0xE305 i (.num n) = stOk ∧
      s.writesHeld = false ∧ s.msv.held = [] ∧ writeLock s 0xE305 i = stOk ∧ entryAt 0xE305 i = some e ∧ e.rangeOk (.num n) = true ∧ e.access = .w1 ∧
      s.freeFloor = some i ∧ s.fwFloor < n ∧ n ≤ s.fwVersion := by
  refine ⟨fun len h => ⟨base, [], ?_⟩, ⟨{ late with msv.fwStaged := some (400, [], 5) }, (400, [], 5), by decide +kernel⟩,
    ⟨.service, fwBase, takes_of (by decide +kernel), by decide +kernel⟩, ⟨.service, fwBase, takes_of (by decide +kernel)⟩,
    2, 5, .service, fwBase, _, by decide, by decide, by decide +kernel, by decide +kernel, by decide +kernel, by decide +kernel, rfl, by decide +kernel,
    by decide +kernel, by decide +kernel, by decide +kernel, by decide +kernel⟩
  simp only [List.mem_cons, List.not_mem_nil, or_false] at h
  rcases h with rfl | rfl <;> decide +kernel

/-! ## Single steps, a family each -/

/-- CRC-32C of the digits 1 to 9, the check value of the polynomial. -/
theorem test_crc : crc32c [0x31, 0x32, 0x33, 0x34, 0x35, 0x36, 0x37, 0x38, 0x39] = 0xE3069283 := by decide +kernel

/-- R205: a LOCK joins its chain behind the write that holds the key and waits. -/
theorem test_key_lock_join : (after (.keyLockJoin 5)
    { withTrs base { keyTrs opDelete with state := .classifying, keys := [[0x61]], prints := [3] } with cqc.chains := [(1, 3, [9])] }).cqc.chains
    = [(1, 3, [9, 5])] := by decide +kernel

/-- R43, R44: a DELETE draws one version, then commits. -/
theorem test_commit : let s := after (.commit 5) committing
    s.plc.versionCounter = 2 ∧ (s.live? 1 [0x61]).isNone = false ∧ ((after (.commit 5) s).live? 1 [0x61]).isNone = true := by
  decide +kernel

/-- R159: a HEAD answers version, length and lease state. -/
theorem test_head : ((after (.head 5) (keyed opHead)).cqc.trs.map fun t => (t.status, t.respFields))
    = [(0, natBytes 8 5 ++ natBytes 8 4 ++ zeros 8)] := by decide +kernel

/-- R157: a GET past the end of the value answers RANGE with the length. -/
theorem test_get_range : ((after (.get 5) { keyed opGet with cqc.trs := [{ keyTrs opGet with
    fields := area 25 [(26, 2, 1), (32, 8, 5), (48, 1, 0x61)] }] }).cqc.trs.map (·.status)) = [stRange] := by decide +kernel

/-- R170: a LOCK of 0 ms asks for 5 s. -/
theorem test_lock : (after (.lock 5) (withSess (withTrs base { trs opLock [] with headed := true }) sess)).cqc.leases.map (·.endsAt) = [5000000] := by
  decide +kernel

/-- R227: the highest common mode; a partner that offers 200G and 100G. -/
theorem test_link_up : ((after (.linkUp .a 6) (withPort base { PortS.reset with partnerSeen := true })).port .a).linkState = 3 := by
  decide +kernel

/-- R251: 10 quanta of 512 bit times at 400 Gb/s are 12.8 ns. -/
theorem test_pause : ((after (.pfcFrameRx .a) ((withPort base { upPort with inbox := [(.pfc 1 (10 :: List.replicate 7 0), 0, 64)] }).putNum
    0x110B 0 1 |>.putNum 0x110C 0 1)).port .a).pausedUntil.head? = some (some 13) := by decide +kernel

/-- R268: at a revolution boundary the shadow table takes effect. -/
theorem test_table_swap : (after .tableSwap { base with tpk.shadow := some (64, (2, 1)) }).tpk.share = 64 ∧
    (after .tableSwap { base with tpk.shadow := some (64, (2, 1)), tpk.slot := 1 }).tpk.share = 128 := by decide +kernel

/-- R461: the lease of 50 µs, extended at 1,000 µs. -/
theorem test_lease_renewal : (after (.leaseRenewal .a) base).wdn.leaseEnd = 1050 := by decide +kernel

/-- R462: no grant in the tick of the lease's end. -/
theorem test_no_early_grant : (after .leaseGrant { base with wdn.holder := none, wdn.ended := some (1000, 2, .a) }).wdn.holder = none := by
  decide +kernel

/-- R513: a PROPOSE of 4,999 µs is refused with RANGE. -/
theorem test_propose_range : (after (.quietPropose 1 9 4999) base).msv.segment.ackWanted = some (9, stRange) := by decide +kernel

/-- R517: WAKE_SETTLE lasts 2 ms. -/
theorem test_wake_settles : (after .wake (segWith base { Segment.reset with quiet := 2 })).msv.segment.settleAt = 3000 := by decide +kernel

/-- R528: with epochs of 60 min the epoch that contains 2 h starts at 2 h. -/
theorem test_epoch : (after .epochClose { base with pch.wallOffset := 7200000000000 }).cqc.epoch.startNs = 7200000000000 := by
  decide +kernel

/-- R560: the longest discharge of the range, with no ESR, passes. -/
theorem test_firewood_passes : (after (.firewoodTestEnd 100000 0 32000) discharging).pch.testPassed = true := by decide +kernel

/-- R569: step 1 ends and step 2 begins. -/
theorem test_start_up : (after (.startupStepDone 9 []) (starting 1)).pch.step = 2 := by decide +kernel

/-- R579: an equal event within 1 s merges. -/
theorem test_event_merges : ((after .eventWrite { base with jsr.queue := [event 0x1001], jsr.records := [record (event 0x1001)] }).jsr.records.map
    (·.count)) = [1] := by decide +kernel

/-- R594: 821 mV breaks the supply limit. -/
theorem test_kiln_limit : limitsHold 820 105 10000 = true ∧ limitsHold 821 105 10000 = false := by decide

/-- R601: an entry of an enabled kind enters the ring of the armed unit. -/
theorem test_trace_entry :
    (after (.traceEntry 1 1 5 4) { eventDue 1 1 4 with msv.trace.mask := 2 }).msv.trace.ring = [(0, 1, 1, 5, 4)] := by decide +kernel

/-- R600: an entry of index 0x2001, subindex 3, written over the service port with status 0. -/
theorem test_trace_write : ((traceBase 1).lastWrite .service 0x2001 3 0).msv.trace.due = [(0xA, 0, none, 0x20010300)] := by decide +kernel

/-- R608: SETMWL above 1,048: the length stops at 1,048 (DESIGN CHOICE). -/
theorem test_setmwl : (after (.setmwl 4000) base).msv.service.mwl = 1048 := by decide +kernel

/-- R619: a floor above the running version is refused: element 2 stays unwritten. -/
theorem test_floor_above_running : (after (.fwFloor 2 .service (.num 6)) fwBase).isWritten1 0xE305 2 = false ∧
    (after (.fwFloor 2 .service (.num 5)) fwBase).isWritten1 0xE305 2 = true := by decide +kernel

/-- R451: from Ember with work the tile wakes to Run. -/
theorem test_tile_wake : (((after (.tileWake 63) (late.mapTile 63 fun t =>
    { t.putDie { idleDie with queue := [.erase 3] } with state := 2 })).tile 63).state) = 0 := by decide +kernel

/-- R366: twice the base point of P-256, the published vector for k = 2. -/
theorem test_pk_multiply : pkRun ([1] ++ zeros 7 ++ natBytes 48 2 ++ zeros 48 ++ [4] ++ natBytes 32 p256.gx ++ natBytes 32 p256.gy ++ zeros 87)
    = .done false ([4] ++ natBytes 32 0x7CF27B188D034F7E8A52380304B51AC3C08969E277F21B35A60B48FC47669978
      ++ natBytes 32 0x07775510DB8ED040293D9AC69F7430DBBA7DADE63CE982299E04B79D227873D1) := by decide +kernel

/-- R312: an INSERT at position 0 is accepted. -/
theorem test_rule_insert : (after (.ruleInsert .service (ruleCmd 1)) base).asu.accepted.length = 1 := by decide +kernel

/-- R486: a write goes through its tick. -/
theorem test_dict_tick : (after .dictTick { base with msv.serial := [dictWrite .service] }).num 0x3004 0 = 100 := by decide +kernel

/-- R510: a fifth request is dropped. -/
theorem test_fifth_request : (after (.read (dictFrame 1)) (segWith base { Segment.reset with
    requests := List.replicate 4 (dictFrame 1) })).msv.segment.requests.length = 4 := by decide +kernel

/-! ## The medium -/

theorem wit_LostShardsAreRecomputed :
    ∃ (data : List Bytes) (i j : Nat), data.length = 14 ∧ i < j ∧ j + 1 = data.length :=
  ⟨List.replicate 14 [7], 12, 13, by decide +kernel⟩

/-- R374: the reduction polynomial 0x11D. -/
theorem test_gf_reduction : gfPow 2#8 8 = 0x1D#8 := by decide +kernel

/-- R374: two lost shards of unequal length. -/
theorem test_recover_two : let d : List Bytes := [[1, 2, 3], [0x80, 0xFF, 9], [7]]
    recoverTwo d (parityP d) (parityQ d) 1 3 2 1 = ([0x80, 0xFF, 9], [7]) := by decide +kernel

/-- R344 and R372: the example of segment 000813, byte 200,000 of its value. -/
theorem test_tweak_example : dataPlace 200000 = (3, 0, 3392) ∧
    tweakBlock 0x20041_7A3C 3 0 = [0, 0, 0, 2, 0, 0x41, 0x7A, 0x3C, 0, 0, 0, 0, 0, 0, 0, 0x30] := by decide +kernel

/-! ## The algorithms of the standards: published vectors -/

/-- FIPS 197, appendix C.3. -/
theorem test_aes : aes256 (natBytes 32 0x000102030405060708090a0b0c0d0e0f101112131415161718191a1b1c1d1e1f)
    (natBytes 16 0x00112233445566778899aabbccddeeff) = 0x8ea2b7ca516745bfeafc49904b496089#128 := by decide +kernel

/-- SP 800-38B, appendix D.3: the message of 40 bytes. -/
theorem test_cmac : cmac (natBytes 32 0x603deb1015ca71be2b73aef0857d77811f352c073b6108d72d9810a30914dff4)
    (natBytes 40 0x6bc1bee22e409f96e93d7e117393172aae2d8a571e03ac9c9eb76fac45af8e5130c81c46a35ce411)
    = 0xaaf3d8f1de5640c232f5b169b9c911e6#128 := by decide +kernel

/-- The GCM specification, test case 16: 20 bytes of additional data, 60 of plaintext. -/
theorem test_gcm : gcmTag (natBytes 32 0xfeffe9928665731c6d6a8f9467308308feffe9928665731c6d6a8f9467308308)
    (natBytes 12 0xcafebabefacedbaddecaf888) (natBytes 20 0xfeedfacedeadbeeffeedfacedeadbeefabaddad2)
    (natBytes 60 0xd9313225f88406e5a55909c5aff5269a86a7a9531534f7da2e4c303d8a318a721c3c0c95956809532fcf0e2449a6b525b16aedf5aa0de657ba637b39)
    = 0x76fc6ece0f4e1768cddf8853bb2d551b := by decide +kernel

/-- RFC 3394, section 4.6. -/
theorem test_key_unwrap : keyUnwrap (natBytes 32 0x000102030405060708090A0B0C0D0E0F101112131415161718191A1B1C1D1E1F)
    (natBytes 40 0x28C9F404C4B810F4CBCCB35CFB87F8263F5786E2D80ED326CBC7F0E71A99F43BFB988B9B7A02DD21)
    = some (natBytes 32 0x00112233445566778899AABBCCDDEEFF000102030405060708090A0B0C0D0E0F) := by decide +kernel

/-- FIPS 180-4, the message of three letters. -/
theorem test_sha : sha256 [0x61, 0x62, 0x63] = 0xba7816bf8f01cfea414140de5dae2223b00361a396177a9cb410ff61f20015ad#256 ∧
    sha384 [0x61, 0x62, 0x63] =
      0xcb00753f45a35e8bb5a03d699ac65007272c32ab0eded1631a8b605a43ff5bed8086072ba1e7cc2358baeca134c825a7#384 := by decide +kernel

/-- IEEE 1619, vector 10: the first two blocks, from the tweak on. -/
theorem test_xts :
    (xtsBlocks (natBytes 32 0x2718281828459045235360287471352662497757247093699959574966967627) 2
      (aesBytes (natBytes 32 0x3141592653589793238462643383279502884197169399375105820974944592) (0xFF#8 :: zeros 15))
      ((List.range 32).map (BitVec.ofNat 8))).1
    = natBytes 32 0x1c3b3a102f770386e4836c99e370cf9bea00803f5e482357a4ae12d414a3e63b := by decide +kernel

/-- R345: a range of a data unit decrypts to its plaintext: a short unit, ciphertext stealing, whole blocks, and a start at a later
block. -/
theorem test_xts_open : ∀ e ∈ [(5, 0, 5), (5, 2, 9), (20, 0, 20), (20, 18, 2), (32, 16, 8), (39, 35, 4)],
    let plain := (List.range e.1).map (BitVec.ofNat 8)
    let key := natBytes 32 0x2718281828459045235360287471352662497757247093699959574966967627
    let tweakKey := natBytes 32 0x3141592653589793238462643383279502884197169399375105820974944592
    xtsOpen key tweakKey 9 2 1 e.1 e.2.1 e.2.2 (xtsUnit key tweakKey 9 2 1 plain) = slice plain e.2.1 e.2.2 := by decide +kernel

end Sys2Proof.Tests
end

section
/-!
What every step keeps: the laws of the rows, put together over the dispatch.
-/
namespace Sys2Proof.Machine

/-- Every command keeps what `Keeps` says: the law of each row, arm by arm of the dispatch. -/
theorem exec_keeps {s0 s : State} (h : Keeps s0 s) (c : Instr) : KeepsR s0 (exec c s) := by
  cases c with
  | frameReceive p f => exact execFrameReceive_keeps h _ _
  | pfcFrameRx p => exact execPfcFrameRx_keeps h _
  | pfcRefresh p q => exact execPfcRefresh_keeps h _ _
  | pauseExpiry p q => exact execPauseExpiry_keeps h _ _
  | pauseWatchdog p q => exact execPauseWatchdog_keeps h _ _
  | pauseHonourResume p q => exact execPauseHonourResume_keeps h _ _
  | linkUp p partner => exact execLinkUp_keeps h _ _
  | linkDown p => exact execLinkDown_keeps h _
  | trainingFailure p mode => exact execTrainingFailure_keeps h _ _
  | linkPartnerDetect p => exact execLinkPartnerDetect_keeps h _
  | lpiEntry p => exact execLpiEntry_keeps h _
  | lpiExit p => exact execLpiExit_keeps h _
  | lldpRx p => exact execLldpRx_keeps h _
  | lldpTimer p => exact execLldpTimer_keeps h _
  | ptpMessageRx p => exact execPtpMessageRx_keeps h _
  | delayReqDue => exact execDelayReqDue_keeps h
  | ptpAnnounceTimeout => exact execPtpAnnounceTimeout_keeps h
  | utcOffsetChange offset => exact execUtcOffsetChange_keeps h _
  | gateCommit p r v => exact execGateCommit_keeps h _ _ _
  | gateSwitch p => exact execGateSwitch_keeps h _
  | captureFreezeExpiry p => exact execCaptureFreezeExpiry_keeps h _
  | fragmentRx p => exact execFragmentRx_keeps h _
  | ackOnly p => exact execAckOnly_keeps h _
  | ackDue session => exact execAckDue_keeps h _
  | rtoExpiry session => exact execRtoExpiry_keeps h _
  | sessionIdleExpiry session => exact execSessionIdleExpiry_keeps h _
  | halfOpenExpiry session => exact execHalfOpenExpiry_keeps h _
  | epochGraceExpiry session => exact execEpochGraceExpiry_keeps h _
  | fragmentSend session => exact execFragmentSend_keeps h _
  | replayEntryExpiry session reqId => exact execReplayEntryExpiry_keeps h _ _
  | sessionIdRelease session => exact execSessionIdRelease_keeps h _
  | sessionOpen => exact execSessionOpen_keeps h
  | sessionConfirm => exact execSessionConfirm_keeps h
  | sessionClose task => exact execSessionClose_keeps h _
  | get task => exact execGet_keeps h _
  | head task => exact execHead_keeps h _
  | put task => exact execPut_keeps h _
  | putIf task => exact execPutIf_keeps h _
  | delete task => exact execDelete_keeps h _
  | punch task => exact execPunch_keeps h _
  | append task => exact execAppend_keeps h _
  | batch task => exact execBatch_keeps h _
  | scan task => exact execScan_keeps h _
  | lock task => exact execLock_keeps h _
  | unlock task => exact execUnlock_keeps h _
  | flush task => exact execFlush_keeps h _
  | odRead task => exact execOdRead_keeps h _
  | odWrite task => exact execOdWrite_keeps h _
  | attest task => exact execAttest_keeps h _
  | queueReset task => exact execQueueReset_keeps h _
  | sanitizeCrypto task => exact execSanitizeCrypto_keeps h _
  | sanitizeBlockErase task => exact execSanitizeBlockErase_keeps h _
  | sanitizeOverwrite task => exact execSanitizeOverwrite_keeps h _
  | format task => exact execFormat_keeps h _
  | query task => exact execQuery_keeps h _
  | stayReady task => exact execStayReady_keeps h _
  | auto task => exact execAuto_keeps h _
  | dozeNow task => exact execDozeNow_keeps h _
  | prepareHold task => exact execPrepareHold_keeps h _
  | holdPendingExpiry => exact execHoldPendingExpiry_keeps h
  | admission => exact execAdmission_keeps h
  | commandStart => exact execCommandStart_keeps h
  | keyLockJoin task => exact execKeyLockJoin_keeps h _
  | keyChainHead task => exact execKeyChainHead_keeps h _
  | pageInComplete page readable => exact execPageInComplete_keeps h _ _
  | commit task => exact execCommit_keeps h _
  | postCompletion task => exact execPostCompletion_keeps h _
  | flushComplete task => exact execFlushComplete_keeps h _
  | clientLeaseExpiry tenant key => exact execClientLeaseExpiry_keeps h _ _
  | cursorExpiry cursor => exact execCursorExpiry_keeps h _
  | drainPhaseAdvance => exact execDrainPhaseAdvance_keeps h
  | drainLimitExpiry => exact execDrainLimitExpiry_keeps h
  | slotFill => exact execSlotFill_keeps h
  | slotTableGenerate => exact execSlotTableGenerate_keeps h
  | tableSwap => exact execTableSwap_keeps h
  | endpointMaskChange => exact execEndpointMaskChange_keeps h
  | unitIsolate u kind => exact execUnitIsolate_keeps h _ _
  | throttleChange => exact execThrottleChange_keeps h
  | caseTempSample celsius => exact execCaseTempSample_keeps h _
  | camUpdateCycle => exact execCamUpdateCycle_keeps h
  | camBankWidth bank r v => exact execCamBankWidth_keeps h _ _ _
  | directorySplit => exact execDirectorySplit_keeps h
  | pageJoin page neighbour => exact execPageJoin_keeps h _ _
  | pinReevaluate r v => exact execPinReevaluate_keeps h _ _
  | ruleInsert r v => exact execRuleInsert_keeps h _ _
  | ruleReplace r v => exact execRuleReplace_keeps h _ _
  | ruleDelete r v => exact execRuleDelete_keeps h _ _
  | ruleUpdateWrite => exact execRuleUpdateWrite_keeps h
  | ruleScrub position => exact execRuleScrub_keeps h _
  | scanStep task => exact execScanStep_keeps h _
  | imageMemoryError engine address => exact execImageMemoryError_keeps h _ _
  | predImageWrite slot r v => exact execPredImageWrite_keeps h _ _ _
  | predClear r v => exact execPredClear_keeps h _ _
  | keyPageWrite page sub r v => exact execKeyPageWrite_keeps h _ _ _ _
  | adminPageClear r v => exact execAdminPageClear_keeps h _ _
  | pkMultiplyP256 r v => exact execPkMultiplyP256_keeps h _ _
  | pkMultiplyP384 r v => exact execPkMultiplyP384_keeps h _ _
  | pkVerifyP256 r v => exact execPkVerifyP256_keeps h _ _
  | pkVerifyP384 r v => exact execPkVerifyP384_keeps h _ _
  | pkJobStart => exact execPkJobStart_keeps h
  | pkJobComplete ladder => exact execPkJobComplete_keeps h _
  | pipelineParity pipeline stage mismatchPage => exact execPipelineParity_keeps h _ _ _
  | pipelineRebind pipeline page => exact execPipelineRebind_keeps h _ _
  | rngHealthFail source test => exact execRngHealthFail_keeps h _ _
  | rngStartupTestDone => exact execRngStartupTestDone_keeps h
  | rngReseed => exact execRngReseed_keeps h
  | stripeDrain stripe => exact execStripeDrain_keeps h _
  | shardProgramDone stripe shard => exact execShardProgramDone_keeps h _ _
  | programReplacement stripe shard => exact execProgramReplacement_keeps h _ _
  | packSealTimeout stripe => exact execPackSealTimeout_keeps h _
  | gcStep tile channel die block => exact execGcStep_keeps h _ _ _ _
  | repack tenant key => exact execRepack_keeps h _ _
  | journalTrim => exact execJournalTrim_keeps h
  | indexPageRebuild page => exact execIndexPageRebuild_keeps h _
  | rebuildStripe stripe => exact execRebuildStripe_keeps h _
  | reserveRefill bytes => exact execReserveRefill_keeps h _
  | longOpStep work => exact execLongOpStep_keeps h _
  | flushEnd bankMv energyMj mapRootWritten => exact execFlushEnd_keeps h _ _ _
  | flushVerify stripe unreadable => exact execFlushVerify_keeps h _ _
  | dieOpStart tile channel die => exact execDieOpStart_keeps h _ _ _
  | readDone tile channel die outcome => exact execReadDone_keeps h _ _ _ _
  | programDone tile channel die => exact execProgramDone_keeps h _ _ _
  | programFailed tile channel die => exact execProgramFailed_keeps h _ _ _
  | eraseDone tile channel die passed => exact execEraseDone_keeps h _ _ _ _
  | rowVerify tile channel die block row outcome => exact execRowVerify_keeps h _ _ _ _ _ _
  | rewrite tile channel die block => exact execRewrite_keeps h _ _ _ _
  | dieTempSample tile channel die celsius sensor => exact execDieTempSample_keeps h _ _ _ _ _
  | tileEmberIdle tile => exact execTileEmberIdle_keeps h _
  | tilePeatIdle tile => exact execTilePeatIdle_keeps h _
  | tileWake tile => exact execTileWake_keeps h _
  | tileFault u kind => exact execTileFault_keeps h _ _
  | leaseRenewal w => exact execLeaseRenewal_keeps h _
  | pairMismatch w => exact execPairMismatch_keeps h _
  | leaseDrop w => exact execLeaseDrop_keeps h _
  | leaseExpiry => exact execLeaseExpiry_keeps h
  | leaseGrant => exact execLeaseGrant_keeps h
  | deliveryNote seq digest own => exact execDeliveryNote_keeps h _ _ _
  | gatedOutput w seq => exact execGatedOutput_keeps h _ _
  | resyncStart w => exact execResyncStart_keeps h _
  | resyncComplete => exact execResyncComplete_keeps h
  | resyncAbandoned bytesLeft => exact execResyncAbandoned_keeps h _
  | wardenRestartDone w => exact execWardenRestartDone_keeps h _
  | switchoverRequest r v => exact execSwitchoverRequest_keeps h _ _
  | aonClockStop => exact execAonClockStop_keeps h
  | aonClockRestore stopUs => exact execAonClockRestore_keeps h _
  | dictTick => exact execDictTick_keeps h
  | configLock r v => exact execConfigLock_keeps h _ _
  | restoreDefaults r v => exact execRestoreDefaults_keeps h _ _
  | read f => exact execRead_keeps h _
  | write f => exact execWrite_keeps h _
  | stagedWriteExpiry => exact execStagedWriteExpiry_keeps h
  | segResponseExpiry source seq => exact execSegResponseExpiry_keeps h _ _
  | heartbeat => exact execHeartbeat_keeps h
  | alertNotify => exact execAlertNotify_keeps h
  | quietPropose source quietId delay => exact execQuietPropose_keeps h _ _ _
  | quietAck => exact execQuietAck_keeps h
  | quietCommit => exact execQuietCommit_keeps h
  | quietAbandon own => exact execQuietAbandon_keeps h _
  | wake => exact execWake_keeps h
  | plcaBeacon => exact execPlcaBeacon_keeps h
  | plcaBeaconTimeout => exact execPlcaBeaconTimeout_keeps h
  | plcaCollision => exact execPlcaCollision_keeps h
  | epochClose => exact execEpochClose_keeps h
  | byteSecondsSample => exact execByteSecondsSample_keeps h
  | meteringCheckpoint => exact execMeteringCheckpoint_keeps h
  | epochLength r v => exact execEpochLength_keeps h _ _
  | wallTime r v => exact execWallTime_keeps h _ _
  | dozeEntry => exact execDozeEntry_keeps h
  | dozeWake => exact execDozeWake_keeps h
  | powerLossDetect cause => exact execPowerLossDetect_keeps h _
  | holdEntry => exact execHoldEntry_keeps h
  | auxRemoved => exact execAuxRemoved_keeps h
  | mainPowerGood bankMv => exact execMainPowerGood_keeps h _
  | startupStepDone ms failed => exact execStartupStepDone_keeps h _ _
  | mrstNAssert heldUs => exact execMrstNAssert_keeps h _
  | mrstNRelease => exact execMrstNRelease_keeps h
  | pwrdisAssert => exact execPwrdisAssert_keeps h
  | pwrdisRelease => exact execPwrdisRelease_keeps h
  | moduleReset r v => exact execModuleReset_keeps h _ _
  | deviceTimeCheckpoint => exact execDeviceTimeCheckpoint_keeps h
  | aonTrim ppm => exact execAonTrim_keeps h _
  | firewoodTestDue => exact execFirewoodTestDue_keeps h
  | firewoodTestNow r v => exact execFirewoodTestNow_keeps h _ _
  | firewoodDischargeStart => exact execFirewoodDischargeStart_keeps h
  | firewoodTestEnd dischargeUs esrMilliohm bankMv => exact execFirewoodTestEnd_keeps h _ _ _
  | chargeComplete chargeMs => exact execChargeComplete_keeps h _
  | eventWrite => exact execEventWrite_keeps h
  | recorderFreeze r v => exact execRecorderFreeze_keeps h _ _
  | freezeExpiry => exact execFreezeExpiry_keeps h
  | kilnLogic r v => exact execKilnLogic_keeps h _ _
  | kilnMemory r v => exact execKilnMemory_keeps h _ _
  | kilnLogicMemory r v => exact execKilnLogicMemory_keeps h _ _
  | kilnHoldUp r v => exact execKilnHoldUp_keeps h _ _
  | kilnVaultMemory r v => exact execKilnVaultMemory_keeps h _ _
  | kilnTargetedStart u => exact execKilnTargetedStart_keeps h _
  | kilnLimitsMet mv celsius ppm => exact execKilnLimitsMet_keeps h _ _ _
  | kilnTestEnd result failures address failBit durationUs => exact execKilnTestEnd_keeps h _ _ _ _ _
  | traceOff r v => exact execTraceOff_keeps h _ _
  | traceArmOnce r v => exact execTraceArmOnce_keeps h _ _
  | traceArmContinuous r v => exact execTraceArmContinuous_keeps h _ _
  | triggerNow r v => exact execTriggerNow_keeps h _ _
  | traceEntry kind source task data => exact execTraceEntry_keeps h _ _ _ _
  | captureReadout => exact execCaptureReadout_keeps h
  | traceRearm => exact execTraceRearm_keeps h
  | privateWrite bytes => exact execPrivateWrite_keeps h _
  | privateRead => exact execPrivateRead_keeps h
  | responseExpiry => exact execResponseExpiry_keeps h
  | entdaa address => exact execEntdaa_keeps h _
  | setdasa static address => exact execSetdasa_keeps h _ _
  | rstdaa => exact execRstdaa_keeps h
  | enec mask => exact execEnec_keeps h _
  | disec mask => exact execDisec_keeps h _
  | getpid => exact execGetpid_keeps h
  | getbcr => exact execGetbcr_keeps h
  | getdcr => exact execGetdcr_keeps h
  | getstatus => exact execGetstatus_keeps h
  | setmwl n => exact execSetmwl_keeps h _
  | getmwl => exact execGetmwl_keeps h
  | setmrl n => exact execSetmrl_keeps h _
  | getmrl => exact execGetmrl_keeps h
  | unlistedCommonCommand code => exact execUnlistedCommonCommand_keeps h _
  | fwImageWindow offset valueLen data => exact execFwImageWindow_keeps h _ _ _
  | fwStagingExpiry => exact execFwStagingExpiry_keeps h
  | fwActivate r v => exact execFwActivate_keeps h _ _
  | fwAbandon r v => exact execFwAbandon_keeps h _ _
  | fwFloor element r v => exact execFwFloor_keeps h _ _ _
  | auxApplied slotAddress => exact execAuxApplied_keeps h _
  | lpiRxEntry p => exact execLpiRxEntry_keeps h _
  | lpiRxExit p => exact execLpiRxExit_keeps h _
  | frameTransmit p => exact execFrameTransmit_keeps h _
  | standbyLeavesStep => exact execStandbyLeavesStep_keeps h
  | wakeSettleEnd => exact execWakeSettleEnd_keeps h
  | kilnLimitsLost limit measured => exact execKilnLimitsLost_keeps h _ _
  | moduleOutOfService => exact execModuleOutOfService_keeps h
  | beaconReceived => exact execBeaconReceived_keeps h
  | segmentOtherFrame f accepted => exact execSegmentOtherFrame_keeps h _ _

/-- What a step that answers a next state keeps, measured from the state whose front command has been taken. -/
theorem step_keeps {s t : State} (h : step s = .next t) : Keeps { s with pending := s.pending.drop 1 } t := by
  unfold step at h
  split at h
  next hp =>
    cases h
    exact (Keeps.refl _).eq (by simp [State.kept, hp])
  next c rest hp =>
    have hk := exec_keeps (Keeps.refl { s with pending := rest }) c t h
    rwa [hp]

theorem Keeps.isWritten1 {s t : State} (h : Keeps s t) {i u : Nat} (hw : s.isWritten1 i u = true) : t.isWritten1 i u = true :=
  List.contains_iff_mem.mpr (h.written1 (List.contains_iff_mem.mp hw))

/-- Settles O7: the records that `Keeps` holds over every step (R32, R86, R479). -/
theorem whatLastsForGood : Obligations.WhatLastsForGood := by
  unfold Obligations.WhatLastsForGood
  intro s t h
  have k := step_keeps h
  exact ⟨k.charcoal, fun _ _ => k.isWritten1, k.dead⟩

end Sys2Proof.Machine
end

section
/-!
UNIT_ISOLATE (R31).
-/
namespace Sys2Proof.Machine

theorem execUnitIsolate_inService {u : UnitId} {kind : Nat} {s : State} (hr : u.replicated = true) (hs : s.inService u = true) :
    exec (.unitIsolate u kind) s =
      if u.subsystem = 0xB then
        .next (if s.wdn.holder = some (if u.number = 0 then .a else .b)
          then s.endLease (if u.number = 0 then .a else .b) 2 s.now else s.wardenOut (if u.number = 0 then .a else .b))
      else if u.subsystem = 1 then .next ((s.raise 0x1808 u.word kind 0 0).isolate u 1)
      else .next (s.isolate u 1) := by
  simp [exec, execUnitIsolate, hr, hs]

/-- Settles O37, by the unit's subsystem: a Warden, a data port, any other (R31, R464, R597). -/
theorem unitIsolateEffect : Obligations.UnitIsolateEffect := by
  unfold Obligations.UnitIsolateEffect
  intro u kind s hr hs
  rw [execUnitIsolate_inService hr hs]
  refine ⟨fun hw w e => ?_, fun hp => ?_, fun hw hp => ?_⟩
  · subst e
    exact ⟨fun hh => by rw [if_pos hw, if_pos hh], fun hh => by rw [if_pos hw, if_neg hh]⟩
  · rw [if_neg (by omega), if_pos hp]
  · rw [if_neg hw, if_neg hp]

end Sys2Proof.Machine
end

section
/-!
GET and HEAD of a running task (R49, R54, R157, R159).
-/
namespace Sys2Proof.Machine

theorem State.readPages_of_no_faults {s : State} (h : s.bfc.faults = []) (l : List Nat) : s.readPages l = s := by
  simp [State.readPages, h]

theorem State.readDirty_of_no_faults {s : State} (h : s.bfc.faults = []) (id : Nat) (l : List Nat) : s.readDirty id l = s := by
  simp [State.readDirty, h]

theorem State.readDirtyOf_of_no_faults {s : State} (h : s.bfc.faults = []) (t : Trs) (k : KeyRec) : s.readDirtyOf t k = s := by
  unfold State.readDirtyOf
  refine List.foldlRecOn (motive := (· = s)) _ _ rfl fun u hu x _ => ?_
  subst hu
  split
  · split
    · exact State.readDirty_of_no_faults h ..
    · rfl
  · rfl

theorem Found.eq_entry_of_stored {f : Found} {k : KeyRec} (h : f.stored = some k) : f = .entry k ∧ k.tombstone = false := by
  cases f with
  | entry x =>
    simp only [Found.stored, Option.ite_none_left_eq_some, Option.some.injEq] at h
    obtain ⟨ht, rfl⟩ := h
    exact ⟨rfl, by simpa using ht⟩
  | absent => simp [Found.stored] at h
  | paging n b => simp [Found.stored] at h

theorem execGet_absent {task : Nat} {s : State} {t : Trs} (hr : s.running task opGet = some t) (hf : (s.find t).1 = .absent) :
    exec (.get task) s = .next ((s.find t).2.fail task stNotFound 0) := by
  simp only [exec, execGet, hr]
  generalize s.find t = r at hf ⊢
  obtain ⟨f, u⟩ := r
  subst hf
  rfl

/-- A GET whose map pages are at hand reads the dirty shards and is then served (R49, R54). -/
theorem execGet_pagesReady {task : Nat} {s : State} {t : Trs} {k : KeyRec} (hr : s.running task opGet = some t)
    (hf : (s.find t).1.stored = some k) (hp : ∀ n ∈ k.mapPages, ((s.find t).2.readPages k.mapPages).pageReady n = true) :
    exec (.get task) s = .next ((((s.find t).2.readPages k.mapPages).readDirtyOf t k).serveGet t
      (((((s.find t).2.readPages k.mapPages).readDirtyOf t k).key? k.tenant k.key).getD k)) := by
  have hn : (k.mapPages.find? fun n => !((s.find t).2.readPages k.mapPages).pageReady n) = none := by simpa using hp
  simp only [exec, execGet, hr]
  generalize s.find t = r at hf hn ⊢
  obtain ⟨f, u⟩ := r
  obtain ⟨rfl, -⟩ := Found.eq_entry_of_stored hf
  simp only [hf, hn]

theorem execGet_pageMissing {task n : Nat} {s : State} {t : Trs} {k : KeyRec} (hr : s.running task opGet = some t)
    (hf : (s.find t).1.stored = some k)
    (hn : (k.mapPages.find? fun n => !((s.find t).2.readPages k.mapPages).pageReady n) = some n) :
    exec (.get task) s = .next ((((s.find t).2.readPages k.mapPages).wantPage n).fromTile task) := by
  simp only [exec, execGet, hr]
  generalize s.find t = r at hf hn ⊢
  obtain ⟨f, u⟩ := r
  obtain ⟨rfl, -⟩ := Found.eq_entry_of_stored hf
  simp only [hf, hn]

/-- Without an error in the buffer memory the reads before it leave the state that the lookup left, and the GET is served from it. -/
theorem execGet_served {task : Nat} {s : State} {t : Trs} {k : KeyRec} (hr : s.running task opGet = some t)
    (hf : (s.find t).1.stored = some k) (hb : (s.find t).2.bfc.faults = []) (hk : (s.find t).2.key? k.tenant k.key = some k)
    (hp : ∀ n ∈ k.mapPages, (s.find t).2.pageReady n = true) : exec (.get task) s = .next ((s.find t).2.serveGet t k) := by
  have hs := State.readPages_of_no_faults hb k.mapPages
  rw [execGet_pagesReady hr hf (by rwa [hs]), hs, State.readDirtyOf_of_no_faults hb, hk, Option.getD_some]

theorem State.serveGet_range {s : State} {t : Trs} {k : KeyRec} (h : k.length < field t.fields 32 8) :
    s.serveGet t k = s.fail t.idx stRange k.length := by
  simp [State.serveGet, h]

theorem State.serveGet_ok {s : State} {t : Trs} {k : KeyRec} (h : field t.fields 32 8 ≤ k.length) (hl : k.lost = false) :
    ∃ v : State, s.serveGet t k = v.finish t.idx stOk 0
      (natBytes 8 k.version ++ natBytes 8 k.length ++ natBytes 8 (field t.fields 32 8))
      (slice k.value (field t.fields 32 8)
        (readEnd k.length (field t.fields 32 8) (field t.fields 40 8) - field t.fields 32 8)) := by
  unfold State.serveGet
  rw [if_neg (by omega), if_neg (by simp [hl])]
  exact ⟨_, rfl⟩

theorem execHead_stored {task : Nat} {s : State} {t : Trs} {k : KeyRec} (hr : s.running task opHead = some t)
    (hf : (s.find t).1.stored = some k) : exec (.head task) s = .next ((s.find t).2.finish task stOk 0
      (natBytes 8 k.version ++ natBytes 8 k.length ++ natBytes 1 ((s.find t).2.leaseState t k.key) ++ zeros 7) []) := by
  simp only [exec, execHead, hr]
  generalize s.find t = r at hf ⊢
  obtain ⟨f, u⟩ := r
  obtain ⟨rfl, -⟩ := Found.eq_entry_of_stored hf
  simp only [hf]

theorem execHead_absent {task : Nat} {s : State} {t : Trs} (hr : s.running task opHead = some t) (hf : (s.find t).1 = .absent) :
    exec (.head task) s = .next ((s.find t).2.fail task stNotFound 0) := by
  simp only [exec, execHead, hr]
  generalize s.find t = r at hf ⊢
  obtain ⟨f, u⟩ := r
  subst hf
  rfl

/-- Settles O26: without an error in the buffer memory a GET is served from the state that the lookup leaves. -/
theorem readOperations : Obligations.ReadOperations := by
  unfold Obligations.ReadOperations
  refine ⟨?_, fun _ _ _ => execGet_absent, fun _ _ _ _ => execHead_stored, fun _ _ _ => execHead_absent⟩
  intro task s u t k hr hf hu hb hk
  subst hu
  refine ⟨fun hp => ⟨fun ho hl => ?_, fun ho => ?_⟩, fun n hn => ?_⟩
  · obtain ⟨v, hv⟩ := State.serveGet_ok (s := (s.find t).2) ho hl
    exact ⟨v, by rw [execGet_served hr hf hb hk hp, hv]⟩
  · rw [execGet_served hr hf hb hk hp, State.serveGet_range ho]
  · have hs := State.readPages_of_no_faults hb k.mapPages
    rw [execGet_pageMissing hr hf (by rwa [hs]), hs]

end Sys2Proof.Machine
end

section
/-!
The Turnpike's commands: a slot of the wheel, its tables, mask and throttle, the case temperature (R261 to R281, R636, R637).
-/
namespace Sys2Proof.Machine

/-! ### The slot number over an operation -/

theorem foldl_slot {α : Type} {f : State → α → State} (hf : ∀ s x, (f s x).tpk.slot = s.tpk.slot) (s : State) (l : List α) :
    (l.foldl f s).tpk.slot = s.tpk.slot :=
  List.foldlRecOn (motive := fun (t : State) => t.tpk.slot = s.tpk.slot) l f rfl fun t ht x _ => (hf t x).trans ht

@[simp] theorem State.transfer_slot (s : State) (a b : Nat) (c : Cls) (l : Bool) (t n : Nat) (k : Option (Nat × Nat)) :
    (s.transfer a b c l t n k).tpk.slot = s.tpk.slot := rfl

@[simp] theorem State.bind_slot (s : State) (n p : Nat) : (s.bind n p).tpk.slot = s.tpk.slot := rfl

@[simp] theorem State.queueDie_slot (s : State) (t c d : Nat) (o : DieOp) : (s.queueDie t c d o).tpk.slot = s.tpk.slot := rfl

@[simp] theorem State.dealOver_slot (s : State) (l : List Nat) (j : CipherJob) : (s.dealOver l j).tpk.slot = s.tpk.slot := by
  unfold State.dealOver
  extract_lets shares keys u
  have hu : u.tpk.slot = s.tpk.slot := foldl_slot (fun _ _ => by dsimp only; split <;> rfl) s shares
  split <;> exact hu

@[simp] theorem State.deal_slot (s : State) (j : CipherJob) : (s.deal j).tpk.slot = s.tpk.slot := by
  unfold State.deal
  split
  · split <;> simp
  · simp

@[simp] theorem State.crypt_slot (s : State) (m : CipherMode) (p a b : Nat) (c : Cls) (l : Bool) (t n : Nat) (d : Nat × Nat)
    (k : Option (Nat × Nat)) : (s.crypt m p a b c l t n d k).tpk.slot = s.tpk.slot := by
  unfold State.crypt
  split <;> simp

@[simp] theorem State.queueRead_slot (s : State) (c : Cls) (r : Bool) (p : Stripe) (i : Nat) (e : ReadPart) :
    (s.queueRead c r p i e).tpk.slot = s.tpk.slot := by
  unfold State.queueRead
  split
  · rfl
  · split
    · rfl
    · simp only [State.queueDie_slot, State.transfer_slot]
      split <;> simp

@[simp] theorem State.readAround_slot (s : State) (c : Cls) (r : Bool) (p : Stripe) (i : Nat) (e : ReadPart) :
    (s.readAround c r p i e).tpk.slot = s.tpk.slot := by
  unfold State.readAround
  extract_lets missing others u v
  have hu : u.tpk.slot = s.tpk.slot := foldl_slot (fun _ _ => State.queueRead_slot ..) s others
  split
  · exact hu
  · split
    · exact hu
    · simpa [v] using hu

@[simp] theorem State.handBack_slot (s : State) (tile : Nat) : (s.handBack tile).tpk.slot = s.tpk.slot := by
  unfold State.handBack
  refine (foldl_slot (fun u o => ?_) ..).trans rfl
  split
  · split <;> simp
  · rfl

@[simp] theorem State.reissue_slot (s : State) (t : Transfer) : (s.reissue t).tpk.slot = s.tpk.slot := by
  unfold State.reissue
  dsimp only
  repeat' split
  all_goals simp

@[simp] theorem State.applyMask_slot (s : State) : s.applyMask.tpk.slot = s.tpk.slot := by
  unfold State.applyMask
  exact (foldl_slot State.reissue_slot ..).trans ((foldl_slot (fun _ _ => by split <;> simp) ..).trans rfl)

@[simp] theorem State.swapTo_slot (s : State) (n : Nat) (w : Nat × Nat) : (s.swapTo n w).tpk.slot = s.tpk.slot := by
  unfold State.swapTo
  dsimp only
  split <;> rfl

@[simp] theorem State.swapDue_slot (s : State) : s.swapDue.tpk.slot = s.tpk.slot := by
  unfold State.swapDue
  repeat' split
  all_goals simp

@[simp] theorem State.boundary_slot (s : State) : s.boundary.tpk.slot = s.tpk.slot := by
  simp [State.boundary]

/-! ### Arbitration -/

/-- The arbitration of a slot changes the state through its grants alone. -/
theorem State.fillOpen_leaves {γ : Type} {g : State → γ} (hg : ∀ s d src c n, g (State.grant s d src c n) = g s) (s : State)
    (a : Slot_) : g (s.fillOpen a).2 = g s := by
  have ha : ∀ (r : Slot_ × State) k d, g (r.2.arbitrate r.1 k d).2 = g r.2 := fun r k d => by
    unfold State.arbitrate
    dsimp only
    repeat' split
    · rfl
    · rfl
    · rfl
    · exact hg ..
  unfold State.fillOpen
  refine List.foldlRecOn (motive := fun (r : Slot_ × State) => g r.2 = g s) _ _ rfl fun r hr k _ => ?_
  exact List.foldlRecOn (motive := fun (r : Slot_ × State) => g r.2 = g s) _ _ hr fun r hr d _ => (ha r k d).trans hr

theorem State.fillOpen_of_queue_nil {s : State} {a : Slot_} (h : a.queue = []) : s.fillOpen a = (a, s) := by
  have hd : (destinations (s.tpk.slot % 128)).filter (fun d => a.queue.any fun t => t.dst == d) = [] :=
    List.filter_eq_nil_iff.mpr fun d _ => by simp only [h, List.any_nil, Bool.false_eq_true, not_false_eq_true]
  unfold State.fillOpen
  simp only [hd, List.foldl_nil]
  exact List.foldlRecOn (motive := fun (r : Slot_ × State) => r = (a, s)) _ _ rfl fun _ hr _ _ => hr

/-- A grant changes pointers, turns and counters only. -/
theorem State.grant_wheel (s : State) (d src : Nat) (c : Cls) (n : Nat) :
    ((s.grant d src c n).tpk.slot, (s.grant d src c n).tpk.revolution, (s.grant d src c n).tpk.queue)
      = (s.tpk.slot, s.tpk.revolution, s.tpk.queue) := by
  unfold State.grant
  dsimp only
  repeat' split
  all_goals rfl

theorem State.moveReserved_queue_nil (s : State) {a : Slot_} (h : a.queue = []) : (s.moveReserved a).1.queue = [] := by
  unfold State.moveReserved
  refine List.foldlRecOn (motive := fun (r : Slot_ × Nat × Nat) => r.1.queue = []) _ _ h fun r hr p _ => ?_
  have hn : headOf r.1.queue p.1 p.2 0 = none := by simp [headOf, hr]
  split
  · exact hr
  · simpa [hn] using hr

theorem tracedHops_tpk (slot : Nat) (s : State) (l : List Transfer) : (l.foldl (State.tracedHop slot) s).tpk = s.tpk :=
  List.foldlRecOn (motive := fun (t : State) => t.tpk = s.tpk) l _ rfl fun _ ht _ _ => ht

/-! ### SLOT_FILL -/

/-- The state a slot is filled from: at slot 0 what waits for the revolution boundary has taken effect. -/
def State.slotBegun (s : State) : State := if s.tpk.slot = 0 then s.boundary else s

/-- The reservations of a slot and its blanking are counted (R281, R282). -/
def State.slotCounted (s : State) (used released : Nat) : State :=
  ((s.bump 0x4010 0x02 used).bump 0x4010 0x03 released).bump 0x4010 0x09 (if s.blanked then 1 else 0)

/-- The open pairs of a slot that the throttle does not blank are filled (R273, R281). -/
def State.openFilled (s : State) (a : Slot_) : Slot_ × State := if s.blanked then (a, s) else s.fillOpen a

/-- The end of a slot: its queue, and the next slot of the wheel; after the last slot the next revolution (R265). -/
def State.slotEnded (s : State) (queue : List Transfer) : State :=
  let t := { s with
    tpk.queue := queue, tpk.slot := (s.tpk.slot + 1) % 1024
    tpk.revolution := if s.tpk.slot = 1023 then s.tpk.revolution + 1 else s.tpk.revolution
    tpk.openSeen := if backgroundFirst s.tpk.slot then s.tpk.openSeen else s.tpk.openSeen + 1 }
  if s.tpk.slot = 1023 then t.bump 0x4010 0x01 1 else t

@[simp] theorem State.slotBegun_slot (s : State) : s.slotBegun.tpk.slot = s.tpk.slot := by
  unfold State.slotBegun
  split <;> simp

@[simp] theorem State.slotCounted_tpk (s : State) (m n : Nat) : (s.slotCounted m n).tpk = s.tpk := rfl

theorem State.slotEnded_tpk (s : State) (q : List Transfer) : (s.slotEnded q).tpk = { s.tpk with
    queue := q, slot := (s.tpk.slot + 1) % 1024
    revolution := if s.tpk.slot = 1023 then s.tpk.revolution + 1 else s.tpk.revolution
    openSeen := if backgroundFirst s.tpk.slot then s.tpk.openSeen else s.tpk.openSeen + 1 } := by
  unfold State.slotEnded
  dsimp only
  split <;> rfl

theorem State.openFilled_wheel (s : State) (a : Slot_) : (s.openFilled a).2.tpk.slot = s.tpk.slot ∧
    (s.openFilled a).2.tpk.revolution = s.tpk.revolution ∧ (s.openFilled a).2.tpk.queue = s.tpk.queue := by
  unfold State.openFilled
  split
  · exact ⟨rfl, rfl, rfl⟩
  · simpa using State.fillOpen_leaves (g := fun s => (s.tpk.slot, s.tpk.revolution, s.tpk.queue)) State.grant_wheel s a

theorem State.openFilled_of_queue_nil {s : State} {a : Slot_} (h : a.queue = []) : s.openFilled a = (a, s) := by
  unfold State.openFilled
  split
  · rfl
  · exact State.fillOpen_of_queue_nil h

/-- SLOT_FILL while the core clock runs: reserved pairs, arbitration, the trace of the leads that moved, the end of the slot. -/
theorem execSlotFill_runs {s : State} {r : Slot_ × Nat × Nat} {p : Slot_ × State} (hc : s.cycleRuns = true)
    (hr : s.slotBegun.moveReserved { pairs := [], queue := s.slotBegun.tpk.queue } = r)
    (hp : (s.slotBegun.slotCounted r.2.1 r.2.2).openFilled r.1 = p) :
    exec .slotFill s = .next
      (((freshLeads s.slotBegun.tpk.queue p.1.queue).foldl (State.tracedHop s.slotBegun.tpk.slot) p.2).slotEnded p.1.queue) := by
  obtain ⟨hslot, -, hqueue⟩ := State.openFilled_wheel (s.slotBegun.slotCounted r.2.1 r.2.2) r.1
  rw [hp, State.slotCounted_tpk] at hslot hqueue
  rw [← hqueue, ← hslot, ← hp, ← hr]
  unfold exec execSlotFill
  rw [if_neg (by simp [hc])]
  rfl

/-- The wheel after a slot. -/
theorem execSlotFill_wheel {s : State} (hc : s.cycleRuns = true) : ∃ t, exec .slotFill s = .next t ∧
    t.tpk.slot = (s.tpk.slot + 1) % 1024 ∧
    t.tpk.revolution = (if s.tpk.slot = 1023 then s.slotBegun.tpk.revolution + 1 else s.slotBegun.tpk.revolution) ∧
    (s.slotBegun.tpk.queue = [] → t.tpk.queue = []) := by
  refine ⟨_, execSlotFill_runs hc rfl rfl, ?_⟩
  generalize hr : s.slotBegun.moveReserved { pairs := [], queue := s.slotBegun.tpk.queue } = r
  generalize hp : (s.slotBegun.slotCounted r.2.1 r.2.2).openFilled r.1 = p
  obtain ⟨hslot, hrevolution, -⟩ := State.openFilled_wheel (s.slotBegun.slotCounted r.2.1 r.2.2) r.1
  simp only [hp, State.slotCounted_tpk, State.slotBegun_slot] at hslot hrevolution
  simp only [State.slotEnded_tpk, tracedHops_tpk, hslot, hrevolution, true_and]
  intro hq
  have hn : r.1.queue = [] := hr ▸ State.moveReserved_queue_nil _ hq
  rw [← hp, State.openFilled_of_queue_nil hn, hn]

theorem State.slotBegun_of_ne {s : State} (h : s.tpk.slot ≠ 0) : s.slotBegun = s := if_neg h

/-! ### Tables, masks, throttle -/

theorem execSlotTableGenerate_due {s : State} (hg : s.gap = false) (hw : s.tpk.wantTable.isSome = true) (hc : s.coreRuns = true) :
    exec .slotTableGenerate s = .next { s with
      tpk.shadow := some (s.num 0x4000 0, (s.num 0x4002 1, s.num 0x4002 2)), tpk.wantTable := none,
      tpk.shadowDue := s.tpk.revolution + 1 } := by
  have hn : s.tpk.wantTable.isNone = false := by simpa [Option.isSome_iff_ne_none] using hw
  simp [exec, execSlotTableGenerate, hg, hn, hc]

theorem State.swapDue_of_shadow {s : State} {t : Nat × (Nat × Nat)} (hs : s.tpk.shadow = some t)
    (hd : s.tpk.shadowDue ≤ s.tpk.revolution) (hw : s.tpk.wantTable = none) (hg : s.gap = false) :
    s.swapDue = s.swapTo t.1 t.2 := by
  simp [State.swapDue, hs, hd, hw, hg]

theorem State.swapTo_table (s : State) (n : Nat) (w : Nat × Nat) :
    (s.swapTo n w).tpk.share = n ∧ (s.swapTo n w).tpk.weights = w ∧ (s.swapTo n w).tpk.shadow = none := ⟨rfl, rfl, rfl⟩

/-- A mask that isolates no tile hands back transfers only (R31). -/
theorem State.applyMask_of_no_tile {s : State}
    (h : ∀ e ∈ s.tpk.maskWanted.filter (fun e => !s.tpk.mask.contains e), e < 0x40) {fresh : List Nat} {lost : Transfer → Bool}
    (hf : fresh = s.tpk.maskWanted.filter (fun e => !s.tpk.mask.contains e))
    (hl : lost = fun t => fresh.contains t.src || fresh.contains t.dst) :
    s.applyMask = (s.tpk.queue.filter lost).foldl (fun s t => s.reissue t) { s with
      tpk.mask := s.tpk.maskWanted, tpk.queue := s.tpk.queue.filter fun t => !lost t } := by
  subst hl hf
  unfold State.applyMask
  dsimp only
  congr 1
  refine List.foldlRecOn (motive := (· = _)) _ _ rfl fun u hu e he => ?_
  rw [if_neg (by have := h e he; omega), hu]

theorem execCaseTempSample_next (c : Int) {s u v w : State} {hot old new : Nat}
    (hh : hot = s.pch.overTempUs + (if caseTop extendedRange < s.pch.throttleTemp then s.now - s.pch.caseAt else 0))
    (ho : old = s.tpk.throttleWanted) (hn : new = throttleLevel extendedRange old c) (hu : u = s.bump 0xD068 0x03 (hot / 1000000))
    (hv : v = { u with pch.throttleTemp := c, pch.caseAt := s.now, pch.overTempUs := hot % 1000000,
                        tpk.throttleWanted := new }.putNum 0xD060 0 (clampI 32 c))
    (hw : w = (if v.signed 0xD061 0 < c then v.putNum 0xD061 0 (clampI 32 c) else v)) :
    exec (.caseTempSample c) s = .next (if old = new then w else w.raise 0x4401 (wholeUnit 4) old new (clampI 32 c)) := by
  have hot' : (if caseTop extendedRange < s.pch.throttleTemp then s.pch.overTempUs + (s.now - s.pch.caseAt)
      else s.pch.overTempUs) = hot := by rw [hh]; split <;> rfl
  unfold exec execCaseTempSample
  dsimp only
  rw [hot']
  subst hw hv hu hn ho
  rfl

/-- Settles O36. SLOT_FILL rests on its phases (`execSlotFill_runs`) and on what they leave of the wheel (`execSlotFill_wheel`). -/
theorem turnpikeCommands : Obligations.TurnpikeCommands := by
  unfold Obligations.TurnpikeCommands
  refine ⟨?_, fun s hc => ?_, fun s hc hq h0 hlast => ?_, fun s => execSlotTableGenerate_due, fun s t hs hd h0 hw hc hg => ?_,
    fun s h0 hc => ⟨?_, fun fresh lost hf hall hl => ?_⟩, fun s h0 hc => ?_, ?_⟩
  · intro s v w x y a b used released hc hv ha hw hb hy
    obtain rfl : v = s.slotBegun := hv
    obtain rfl : w = s.slotBegun.slotCounted used released := hw
    rw [execSlotFill_runs hc ha.symm hb.symm, ← hy]
    unfold State.slotEnded
    split <;> rfl
  · obtain ⟨t, ht, hslot, -⟩ := execSlotFill_wheel hc
    exact ⟨t, ht, hslot⟩
  · obtain ⟨t, ht, hslot, hrevolution, hqueue⟩ := execSlotFill_wheel hc
    rw [State.slotBegun_of_ne h0] at hrevolution hqueue
    exact ⟨t, ht, hqueue hq, by omega, by rw [hrevolution, if_neg (by omega)]⟩
  · refine ⟨?_, State.swapTo_table s t.1 t.2⟩
    simp [exec, execTableSwap, h0, hc, State.swapDue_of_shadow hs hd hw hg]
  · simp [exec, execEndpointMaskChange, h0, hc]
  · exact State.applyMask_of_no_tile (hf ▸ hall) hf hl
  · simp [exec, execThrottleChange, h0, hc]
  · intro c s u v hot old new hh ho hn hu hv w hw
    exact execCaseTempSample_next c hh ho hn hu hv hw

end Sys2Proof.Machine
end

section
/-!
The queue, the outputs and the counters over one step (R43, R59, R375, R393), and the state at reset.
-/
namespace Sys2Proof.Machine

/-- Settles O6, by what `Keeps` holds over every step (R43, R375, R393). -/
theorem countersNeverGoBack : Obligations.CountersNeverGoBack := by
  unfold Obligations.CountersNeverGoBack
  intro s t h
  have k := step_keeps h
  exact ⟨k.version, k.stripe, k.journal⟩

/-- Settles O8: the queue's rest and the prefix of the outputs are what `Keeps` holds over every step (R59). -/
theorem queueAndOutputs : Obligations.QueueAndOutputs := by
  unfold Obligations.QueueAndOutputs
  intro s t h
  have k := step_keeps h
  exact ⟨k.pending, k.out⟩

theorem step_of_pending_cons {s : State} {c : Instr} {rest : List Instr} (h : s.pending = c :: rest) :
    step s = exec c { s with pending := rest } := by
  simp only [step, h]

theorem step_of_pending_nil {s : State} (h : s.pending = []) : step s = .next s := by
  simp only [step, h]

/-- Settles O1, by the two forms of the queue. -/
theorem frontCommandRuns : Obligations.FrontCommandRuns := by
  unfold Obligations.FrontCommandRuns
  exact ⟨fun _ _ _ => step_of_pending_cons, fun _ => step_of_pending_nil⟩

/-- Settles O5: an entry of an empty store reads as its default, the rest is the reset state's text. -/
theorem resetState : Obligations.ResetState := by
  unfold Obligations.ResetState
  refine ⟨rfl, rfl, fun i u => ?_, rfl, fun l hl => ?_, rfl, rfl, rfl, rfl, rfl, rfl, rfl⟩
  · rfl
  · exact List.eq_of_mem_replicate hl

end Sys2Proof.Machine
end

section
/-!
LOCK, UNLOCK and FLUSH of a running task (R73, R75, R170, R211, R212).
-/
namespace Sys2Proof.Machine

theorem execLock_headed {task : Nat} {s : State} {t : Trs} (hr : s.running task opLock = some t) (hh : t.headed = true) :
    exec (.lock task) s = .next ((s.grantLease t (keyOf opLock t.fields) (leaseMs (field t.fields 32 4))).finish task stOk 0
      (natBytes 8 (t.admitDev + leaseMs (field t.fields 32 4) * 1000) ++ natBytes 4 (leaseMs (field t.fields 32 4)) ++ zeros 4) []) := by
  simp [exec, execLock, hr, hh]

section
variable {task : Nat} {s : State} {t : Trs} {l : Lease}

theorem execUnlock_of_foreignLease (hr : s.running task opUnlock = some t)
    (hf : s.foreignLease t.tenant (keyOf opUnlock t.fields) t.session t.admitDev = some l) :
    exec (.unlock task) s = .next (s.fail task stLocked (l.endsAt - s.now)) := by
  simp [exec, execUnlock, hr, hf]

theorem execUnlock_of_no_lease (hr : s.running task opUnlock = some t)
    (hf : s.foreignLease t.tenant (keyOf opUnlock t.fields) t.session t.admitDev = none)
    (ho : s.ownLease t.tenant (keyOf opUnlock t.fields) t.session t.admitDev = none) :
    exec (.unlock task) s = .next (s.fail task stNotFound 0) := by
  simp [exec, execUnlock, hr, hf, ho]

theorem execUnlock_of_ownLease (hr : s.running task opUnlock = some t)
    (hf : s.foreignLease t.tenant (keyOf opUnlock t.fields) t.session t.admitDev = none)
    (ho : s.ownLease t.tenant (keyOf opUnlock t.fields) t.session t.admitDev = some l) :
    exec (.unlock task) s = .next ({ s with cqc.leases := s.cqc.leases.filter fun x =>
      !(x.tenant == t.tenant && x.key == keyOf opUnlock t.fields && x.session == t.session) }.finish task stOk 0 [] []) := by
  simp [exec, execUnlock, hr, hf, ho]

end

theorem execFlush_running {task : Nat} {s : State} {t : Trs} (hr : s.running task opFlush = some t) (ho : t.atOnce = false) :
    exec (.flush task) s = .next ((s.sealThese (t.covered.filter fun id => !s.onMedium id)).mapTrs task fun u =>
      { u with state := .flushWait, covered := t.covered.filter fun id => !s.onMedium id }) := by
  simp [exec, execFlush, hr, ho]

/-- Settles O28: a LOCK past its checks, an UNLOCK by who holds the lease on its key, a FLUSH that waits. -/
theorem leaseAndFlushOperations : Obligations.LeaseAndFlushOperations := by
  unfold Obligations.LeaseAndFlushOperations
  exact ⟨fun _ _ _ => execLock_headed, fun _ _ _ hr => ⟨fun _ => execUnlock_of_foreignLease hr, execUnlock_of_no_lease hr,
    fun _ => execUnlock_of_ownLease hr⟩, fun _ _ _ => execFlush_running⟩

end Sys2Proof.Machine
end

section
/-!
SCAN, SCAN_STEP and IMAGE_MEMORY_ERROR (R70, R167, R326 to R331).
-/
namespace Sys2Proof.Machine

/-! ### The first page of a SCAN -/

section
variable {s v : State} {t : Trs} {b : Bytes} {c : Classification}

theorem State.firstPage_of_fault {o : Nat} (hi : imageFault b = some o) :
    s.firstPage t b = s.refuseScan t stBadRequest (errorFields subImage 0xFFFF (inData o)) := by
  simp [State.firstPage, hi]

theorem State.firstPage_of_denied {u : Classification × State} (hi : imageFault b = none)
    (hu : u = s.classifyScan t.tenant (imgPrefix b) t.task) (hv : v = u.2.mapTrs t.idx fun x => { x with classes := [u.1] })
    (ha : u.1.admitted = false) : s.firstPage t b = v.refuseScan t stAuthFailed (plainError 0) := by
  subst hu hv
  simp [State.firstPage, hi, ha]

theorem State.firstPage_of_no_cursor {u : Classification × State} (hi : imageFault b = none)
    (hu : u = s.classifyScan t.tenant (imgPrefix b) t.task) (hv : v = u.2.mapTrs t.idx fun x => { x with classes := [u.1] })
    (ha : u.1.admitted = true) (hc : t.cursor = 0) : s.firstPage t b = v.refuseScan t stRetryLater (plainError 0) := by
  subst hu hv
  simp [State.firstPage, hi, ha, hc]

theorem State.firstPage_of_cursor {u : Classification × State} {w : State} {k : Cursor} (hi : imageFault b = none)
    (hu : u = s.classifyScan t.tenant (imgPrefix b) t.task) (hv : v = u.2.mapTrs t.idx fun x => { x with classes := [u.1] })
    (hw : w = { v with pae.cursors := v.pae.cursors.map fun (k : Cursor) =>
      if k.id = t.cursor then { k with image := b, cls := u.1.cls } else k })
    (ha : u.1.admitted = true) (hc : t.cursor ≠ 0) (hk : w.pae.cursors.find? (fun k => k.id == t.cursor) = some k) :
    s.firstPage t b = w.startPage t k := by
  subst hu hv hw
  simp only [State.firstPage, hi, ha, hc, Bool.not_true, Bool.false_eq_true, if_false]
  simp only [hk]

end

/-! ### The rows -/

theorem execScan_firstPage {task : Nat} {s : State} {t : Trs} {b : Bytes} (hs : s.classifyingScan task = some t)
    (ht : s.tenantReady t.tenant = true) (h0 : field t.fields 32 8 = 0) (hd : t.data = some b) :
    exec (.scan task) s = .next ((s.firstPage t b).traceStart t) := by
  simp [exec, execScan, hs, ht, h0, hd]

theorem execScan_laterPage {task : Nat} {s : State} {t : Trs} {k : Cursor} (hs : s.classifyingScan task = some t)
    (ht : s.tenantReady t.tenant = true) (h0 : field t.fields 32 8 ≠ 0)
    (hk : s.pae.cursors.find? (fun k => k.id == t.cursor) = some k) :
    exec (.scan task) s = .next ((s.startPage t k).traceStart t) := by
  simp [exec, execScan, hs, ht, h0, hk]

theorem execScan_cursorGone {task : Nat} {s : State} {t : Trs} (hs : s.classifyingScan task = some t)
    (ht : s.tenantReady t.tenant = true) (h0 : field t.fields 32 8 ≠ 0)
    (hk : s.pae.cursors.find? (fun k => k.id == t.cursor) = none) :
    exec (.scan task) s = .next ((s.finish task stBadRequest 0 (errorFields subCursor 0xFFFF 32) []).traceStart t) := by
  simp only [exec, execScan, hs, ht, h0, hk, Bool.not_true, Bool.false_eq_true, if_false]

theorem State.takeEngine_of_engine {s : State} {r : ScanRun} {n : Nat} (h : r.engine = some n) : s.takeEngine r = s := by
  simp [State.takeEngine, h]

theorem execScanStep_engine {task n : Nat} {s : State} {t : Trs} {r : ScanRun} (hs : s.running task opScan = some t)
    (hr : s.run? task = some r) (hd : r.done = false) (hn : r.engine = some n) :
    exec (.scanStep task) s =
      .next (((s.indexRead t).transfer (asuLane t.idx) (engineLane n) t.cls false t.task 640).walkStep t r) := by
  simp [exec, execScanStep, hs, hr, hd, State.takeEngine_of_engine hn, hn]

theorem execImageMemoryError_inService {engine address : Nat} {s : State} {e : Engine} (he : s.pae.engines[engine]? = some e)
    (hn : engine < 8) (hs : e.inService = true) : exec (.imageMemoryError engine address) s = .next
      ((((s.bump 0x6010 0x09 1).raise 0x6801 (engineUnit engine).word address 0 0).reloadImage engine).isolate
        (engineUnit engine) 1) := by
  simp [exec, execImageMemoryError, List.getD, he, hs, Nat.not_le.mpr hn]

/-- Settles O30: the first page by what its image and its prefix come to, a later one by its cursor. -/
theorem scanCommands : Obligations.ScanCommands := by
  unfold Obligations.ScanCommands
  refine ⟨fun task s t hs ht => ⟨fun b u v w h0 hd hu hv hw => ?_, fun _ => execScan_laterPage hs ht, execScan_cursorGone hs ht⟩,
    fun _ _ _ _ _ => execScanStep_engine, fun _ _ _ _ => execImageMemoryError_inService⟩
  rw [execScan_firstPage hs ht h0 hd]
  refine ⟨fun o hi => ?_, fun hi ha => ?_, fun hi ha hc => ?_, fun k hi ha hc hk => ?_⟩
  · rw [State.firstPage_of_fault hi]
  · rw [State.firstPage_of_denied hi hu hv ha]
  · rw [State.firstPage_of_no_cursor hi hu hv ha hc]
  · rw [State.firstPage_of_cursor hi hu hv hw ha hc hk]

end Sys2Proof.Machine
end

section
/-!
Pages, completions and expiries (R70, R77, R118, R187, R209, R212, R304, R391).
-/
namespace Sys2Proof.Machine

/-! ### A wanted page arrives -/

theorem execPageInComplete_wanted {page : Nat} {readable : Bool} {s : State} {p : Page} (hp : s.page? page = some p)
    (hw : p.wanted = true) (hc : p.cached = false ∨ p.unreadable = true) :
    exec (.pageInComplete page readable) s = .next (s.pageIn p readable) := by
  have : ¬ (p.wanted = false ∨ p.cached = true ∧ p.unreadable = false) := by
    rcases hc with h | h <;> simp [hw, h]
  simp [exec, execPageInComplete, hp, this]

section
variable {s : State} {p : Page}

theorem State.pageIn_of_no_frame {readable : Bool} (h : cacheFrames ≤ (s.pageTransfer p).evict.framesTaken) :
    s.pageIn p readable = s := by
  simp [State.pageIn, h]

theorem State.pageIn_of_shard (h : (s.pageTransfer p).evict.framesTaken < cacheFrames)
    (hs : (s.homeShard p).any (fun e => e.1.lost || (s.missingShards e.1).contains e.2.1) = false) :
    s.pageIn p true = (s.pageTransfer p).evict.framePage p := by
  unfold State.pageIn
  rw [if_neg (Nat.not_le.mpr h), if_pos ⟨rfl, by rw [hs]; rfl⟩]

theorem State.pageIn_unreadable (h : (s.pageTransfer p).evict.framesTaken < cacheFrames) :
    s.pageIn p false = (s.pageTransfer p).evict.rebuildPage p := by
  unfold State.pageIn
  rw [if_neg (Nat.not_le.mpr h), if_neg fun e => Bool.false_ne_true e.1]

theorem State.rebuildPage_of_no_home (h : s.homeShard p = none) : s.rebuildPage p = s.losePage p := by
  simp only [State.rebuildPage, h]

theorem State.rebuildPage_of_too_few {q : Stripe} {i : Nat} {h : Shard} (hh : s.homeShard p = some (q, i, h))
    (hl : q.lost = true ∨ 1 < ((s.missingShards q).filter (· != i)).length) : s.rebuildPage p = s.losePage p := by
  simp only [State.rebuildPage, hh, if_pos hl]

theorem State.rebuildPage_of_enough {q : Stripe} {i : Nat} {h : Shard} {v : State} (hh : s.homeShard p = some (q, i, h))
    (hl : q.lost = false) (hn : ((s.missingShards q).filter (· != i)).length ≤ 1)
    (hv : v = ((List.range q.shards.length).filter fun j => j != i && !((s.missingShards q).filter (· != i)).contains j).foldl
      (fun s j => s.queueRead 3 true q j h.whole) s) :
    s.rebuildPage p = ((v.mapShard q.id i fun h => { h with phase := .failed }).framePage p).bump 0x9060 0x0F 1 := by
  have hc : ¬ (q.lost = true ∨ 1 < ((s.missingShards q).filter (· != i)).length) := by
    rw [hl]; rintro (h | h)
    · cases h
    · omega
  subst hv
  simp only [State.rebuildPage, hh, if_neg hc]

end

theorem execIndexPageRebuild_unreadable {page : Nat} {s : State} {p : Page} (hp : s.page? page = some p)
    (hu : p.unreadable = true) (hf : s.evict.framesTaken < cacheFrames) :
    exec (.indexPageRebuild page) s = .next ((s.evict.mapPage page fun q =>
      { q with unreadable := false, cached := true, wanted := false, clean := false }).bump 0x9060 0x0F 1) := by
  simp [exec, execIndexPageRebuild, hp, hu, hf]

/-! ### Completions -/

section
variable {task : Nat} {s : State} {t : Trs}

theorem execPostCompletion_postable (ht : s.trs? task = some t) (hp : s.postable t = true) :
    exec (.postCompletion task) s = .next ((s.postNow t).getD s) := by
  simp [exec, execPostCompletion, ht, hp]

theorem State.postNow_of_no_session (hs : s.session? t.session = none) : s.postNow t = some (s.complete t) := by
  simp only [State.postNow, hs]

theorem State.postNow_of_session {x : Session} (hs : s.session? t.session = some x) : s.postNow t =
    if x.outgoing.any (fun m => m.nextLeg == 0 && m.hasWork) = true then none
    else (s.complete t).sendFrom t.session fun m => m.resp.reqId == t.reqId && m.nextLeg == 0 := by
  simp only [State.postNow, hs]

theorem execFlushComplete_onMedium (ht : s.trs? task = some t) (hw : t.state = .flushWait)
    (hc : t.covered.all s.onMedium = true) :
    exec (.flushComplete task) s = .next ((s.finish task stOk flDurable [] []).bump 0x3010 0x0D 1) := by
  simp only [exec, execFlushComplete, ht, hw, hc, and_self, if_true]

end

theorem execHoldPendingExpiry_due {s : State} {e : Nat} (hh : s.cqc.holdUntil = some e) (hp : s.cqc.policy = 3) (he : e ≤ s.now) :
    exec .holdPendingExpiry s = .next ({ s with cqc.policy := 0, cqc.holdUntil := none }.raise 0x3403 (wholeUnit 3) 0 0 0) := by
  simp only [exec, execHoldPendingExpiry, hh, hp, he, and_self, if_true]

/-- Settles O34: a page by its frame and its shard, a completion by its session, the expiries by their time. -/
theorem pagesAndCompletion : Obligations.PagesAndCompletion := by
  unfold Obligations.PagesAndCompletion
  refine ⟨fun page s p hp hw hc u hu => ?_, fun _ _ _ => execIndexPageRebuild_unreadable, fun task s t ht hp => ?_,
    fun _ _ _ => execFlushComplete_onMedium, fun _ _ _ => rfl, fun _ _ => rfl, fun _ _ => execHoldPendingExpiry_due⟩
  · subst hu
    refine ⟨fun hf hs v hv => ?_, fun hf hn => ?_, fun hf q i h hh => ⟨fun hl => ?_, fun hl hn v hv => ?_⟩, fun hf r => ?_⟩ <;>
      rw [execPageInComplete_wanted hp hw hc]
    · subst hv
      rw [State.pageIn_of_shard hf hs]
      rfl
    · rw [State.pageIn_unreadable hf, State.rebuildPage_of_no_home hn]
    · rw [State.pageIn_unreadable hf, State.rebuildPage_of_too_few hh hl]
    · rw [State.pageIn_unreadable hf, State.rebuildPage_of_enough hh hl hn hv]
    · rw [State.pageIn_of_no_frame hf]
  · refine ⟨fun hs => ?_, fun x hs => ⟨fun hb => ?_, fun hb => ?_⟩⟩ <;> rw [execPostCompletion_postable ht hp]
    · rw [State.postNow_of_no_session hs, Option.getD_some]
    · rw [State.postNow_of_session hs, if_pos hb, Option.getD_none]
    · rw [State.postNow_of_session hs, if_neg (by simp [hb])]

end Sys2Proof.Machine
end

section
/-!
The write operations of a running task: its changes and their places (R48, R52, R160 to R165, R373, R379, R380).
-/
namespace Sys2Proof.Machine

/-- A running task has the opcode of its row. -/
theorem State.running_opcode {s : State} {task op : Nat} {t : Trs} (h : s.running task op = some t) : t.opcode = op := by
  unfold State.running at h
  obtain ⟨-, h⟩ := Option.filter_eq_some_iff.mp h
  simp only [Bool.and_eq_true, beq_iff_eq] at h
  exact h.1.1

/-- The six rows of the writes are one: the running task of the opcode takes a step. -/
theorem exec_write {task op : Nat} {c : Instr} {s : State} {t : Trs} (hc : (c, op) ∈ [(Instr.put task, opPut), (.putIf task, opPutIf),
      (.delete task, opDelete), (.punch task, opPunch), (.append task, opAppend), (.batch task, opBatch)])
    (hr : s.running task op = some t) : exec c s = .next (s.writeStep t) := by
  have hw : s.writeRow task op = s.writeStep t := by simp only [State.writeRow, hr]
  rw [← hw]
  simp only [List.mem_cons, Prod.mk.injEq, List.not_mem_nil, or_false] at hc
  rcases hc with ⟨rfl, rfl⟩ | ⟨rfl, rfl⟩ | ⟨rfl, rfl⟩ | ⟨rfl, rfl⟩ | ⟨rfl, rfl⟩ | ⟨rfl, rfl⟩ <;> rfl

/-! ### The step of a write -/

section
variable {s : State} {t : Trs}

theorem State.writeStep_of_no_data (h : t.data = none) : s.writeStep t = s := by
  simp [State.writeStep, h]

theorem State.writeStep_of_lost {b : Bytes} (hh : t.headed = true) (hd : t.data = some b) (hc : t.changes = [])
    (hb : t.opcode ≠ opBatch) (hm : (s.wanted t).any (s.mediaBad t.tenant) = true) : s.writeStep t = s.fail t.idx stMediaError 0 := by
  unfold State.writeStep
  rw [if_neg (by simp [hh, hd])]
  exact if_pos ⟨by simp [hc], hb, hm⟩

/-- The changes that a write's step starts from: built once, from where the payloads begin. -/
def State.changesAt (s : State) (t : Trs) (b : Bytes) (start : Nat) : List Change :=
  if t.changes = [] then s.changesOf t b 0 start (s.wanted t) else t.changes

/-- What a write's step leaves of its changes, placed as `p` says, and whether one had no place in the FAST region. -/
def State.placed (t : Trs) (outside : Bool) (p : List Change × State) : State :=
  let u := if outside = false ∧ (p.1.any fun c => c.overflow) = true
    then (p.2.bump 0x9060 0x0D 1).raise 0x9401 (wholeUnit 9) t.tenant 0 0 else p.2
  let waits := p.1.any fun c => !c.placed && !u.needsRepack c
  let v := if waits = true ∧ t.parked = false then u.bump 0x8010 0x03 1 else u
  v.mapTrs t.idx fun x => { x with changes := p.1, stripes := extentStripes (p.1.flatMap fun c => c.extents), parked := waits }

theorem State.writeStep_placed {b : Bytes} {start : Nat} (hh : t.headed = true) (hd : t.data = some b)
    (hm : t.opcode = opBatch ∨ (s.wanted t).any (s.mediaBad t.tenant) = false)
    (hs : start = if t.opcode = opBatch then tableSize (field t.fields 26 2) b else 0) :
    s.writeStep t = State.placed t ((s.changesAt t b start).any fun c => c.overflow)
      (s.placeChanges t (s.leadBytes t - start) (s.changesAt t b start)) := by
  have hn : ¬ (t.changes.isEmpty = true ∧ t.opcode ≠ opBatch ∧ (s.wanted t).any (s.mediaBad t.tenant) = true) := by
    rintro ⟨-, hb, hw⟩
    rcases hm with hm | hm
    · exact hb hm
    · rw [hm] at hw; cases hw
  subst hs
  unfold State.writeStep
  rw [if_neg (by simp [hh, hd])]
  dsimp only
  rw [if_neg hn]
  simp only [State.placed, State.changesAt, hd, Option.getD_some, List.isEmpty_iff, Bool.not_eq_true']
  rfl

end

/-! ### Placing -/

/-- A change as it is made has no extents yet. -/
theorem State.changesOf_unplaced {s : State} {t : Trs} {b : Bytes} {l : List Wanted} {i off : Nat} :
    ∀ c ∈ s.changesOf t b i off l, c.extents = [] ∧ c.overflow = false := by
  induction l generalizing i off with
  | nil => simp [State.changesOf]
  | cons w l ih =>
    intro c hc
    simp only [State.changesOf, List.mem_cons] at hc
    rcases hc with rfl | hc
    · exact ⟨rfl, rfl⟩
    · exact ih c hc

theorem Change.placed_of_no_payload {c : Change} (h : c.payload = []) : c.placed = true := by
  simp [Change.placed, h]

theorem State.placeChanges_of_placed {s : State} {t : Trs} {n : Nat} {l : List Change} (h : ∀ c ∈ l, c.placed = true) :
    s.placeChanges t n l = (l, s) := by
  induction l generalizing n with
  | nil => rfl
  | cons c l ih =>
    simp only [State.placeChanges, h c (by simp), if_true, ih fun d hd => h d (by simp [hd])]

/-- Changes that bring no bytes change nothing but the task. -/
theorem State.placed_of_no_payload {s : State} {t : Trs} {l : List Change} (hp : ∀ c ∈ l, c.payload = [])
    (he : ∀ c ∈ l, c.extents = [] ∧ c.overflow = false) :
    State.placed t (l.any fun c => c.overflow) (l, s) =
      s.mapTrs t.idx fun x => { x with changes := l, stripes := [], parked := false } := by
  have ho : (l.any fun c => c.overflow) = false := by simpa using fun c hc => (he c hc).2
  have hw : (l.any fun c => !c.placed && !s.needsRepack c) = false := by
    simpa using fun c hc hn => absurd (Change.placed_of_no_payload (hp c hc)) (by simp [hn])
  have hx : (l.flatMap fun c => c.extents) = [] := by simpa using fun c hc => (he c hc).1
  simp [State.placed, ho, hw, hx, extentStripes]

/-- A short payload that fits the tenant's open packed stripe goes there (R380). -/
theorem State.placeMore_packed {s : State} {tenant n : Nat} {cls : Cls} {q : Stripe} (hn : 0 < n) (hb : n ≤ shardBytes)
    (hq : s.openPacked tenant false = some q) (hf : roundUp q.filled 16 + n ≤ stripeBytes) :
    s.placeMore tenant n false cls [] = ([{ stripe := q.id, off := roundUp q.filled 16, len := n }],
      s.mapStripe q.id fun r => { r with filled := roundUp q.filled 16 + n, cls := if r.cls ≤ cls then r.cls else cls }) := by
  have h0 : ¬ n ≤ extentBytes [] := Nat.not_le.mpr hn
  simp only [State.placeMore, if_neg h0, if_pos hb, Bool.false_and, State.packExtent, hq, if_pos hf, List.nil_append]

theorem extentBytes_singleton (e : Extent) : extentBytes [e] = e.len := by simp [extentBytes]

theorem State.placeChanges_packed {s u : State} {t : Trs} {lead : Nat} {c : Change} {q : Stripe} {e : Extent} (hc : c.extents = [])
    (hf : c.fast = false) (hr : s.needsRepack c = false) (hn : 0 < c.payload.length)
    (hb : c.payload.length ≤ shardBytes) (hq : s.openPacked c.tenant false = some q)
    (hs : roundUp q.filled 16 + c.payload.length ≤ stripeBytes)
    (he : e = { stripe := q.id, off := roundUp q.filled 16, len := c.payload.length })
    (hu : u = s.mapStripe q.id fun r => { r with
      filled := roundUp q.filled 16 + c.payload.length, cls := if r.cls ≤ t.cls then r.cls else t.cls }) :
    s.placeChanges t lead [c] = ([{ c with extents := [e] }], u.encryptValue t 0 0 c.payload.length lead) := by
  have hp : ¬ c.placed = true := by
    rw [Change.placed, hc, decide_eq_true_eq]
    exact Nat.not_le.mpr hn
  have hd (f o : Bool) : ({ c with fast := f, extents := [e], overflow := o } : Change).placed = true := by
    simp [Change.placed, extentBytes_singleton, he]
  have hm := State.placeMore_packed (cls := t.cls) hn hb hq hs
  rw [← he, ← hu] at hm
  have hx : extentBytes [e] - extentBytes [] = c.payload.length := by rw [extentBytes_singleton, he]; rfl
  simp only [State.placeChanges, if_neg hp, hr, Bool.false_eq_true, if_false, hc, hf, hm, hx, Bool.false_and, Bool.or_false, hd,
    if_true]
  rfl

/-- What the step leaves of a change that has its place in one stripe. -/
theorem State.placed_singleton {s : State} {t : Trs} {outside : Bool} {c : Change} {e : Extent} (hc : c.extents = [e])
    (he : e.stripe ≠ 0) (ho : c.overflow = false) (hp : c.placed = true) : State.placed t outside ([c], s) =
      s.mapTrs t.idx fun x => { x with changes := [c], stripes := [e.stripe], parked := false } := by
  simp [State.placed, ho, hp, hc, extentStripes, he]

/-- Settles O27: all six rows take one step of the write, which goes by its data, its changes and their places. -/
theorem writeOperations : Obligations.WriteOperations := by
  unfold Obligations.WriteOperations
  intro task op c s t hc hr
  obtain rfl := State.running_opcode hr
  rw [exec_write hc hr]
  refine ⟨fun _ hd => by rw [State.writeStep_of_no_data hd], fun b hh hd => ⟨fun h0 hb hm => ?_, fun hm start l p hs hl hp => ?_⟩⟩
  · rw [State.writeStep_of_lost hh hd h0 hb hm]
  have hstep := State.writeStep_placed hh hd hm hs
  obtain rfl : l = s.changesAt t b start := hl
  have hunplaced (h0 : t.changes = []) : ∀ c ∈ s.changesAt t b start, c.extents = [] ∧ c.overflow = false := by
    rw [State.changesAt, if_pos h0]
    exact State.changesOf_unplaced
  refine ⟨fun u v hu hv => ?_, fun h0 he => ?_, fun ch q h0 hb hl hf hr hn hb' hq hq0 hfit e u he hu => ?_⟩
  · subst hp hu hv
    rw [hstep]
    rfl
  · have hpay : ∀ c ∈ s.changesAt t b start, c.payload = [] := by simpa using he
    rw [hstep, State.placeChanges_of_placed fun c hc => Change.placed_of_no_payload (hpay c hc),
      State.placed_of_no_payload hpay (hunplaced h0)]
  · obtain ⟨hext, hover⟩ := hunplaced h0 ch (by simp [hl])
    have h00 : start = 0 := by rw [hs, if_neg hb]
    have hp : ({ ch with extents := [e] } : Change).placed = true := by simp [Change.placed, extentBytes_singleton, he]
    rw [hstep, hl, h00, Nat.sub_zero, State.placeChanges_packed hext hf hr hn hb' hq hfit he hu,
      State.placed_singleton (c := { ch with extents := [e] }) rfl (by rwa [he]) hover hp, he]

end Sys2Proof.Machine
end

section
/-!
What the operations that read, report and place leave as it was: keys, stripes, versions, leases and chains.
-/
namespace Sys2Proof.Machine

/-! ### The part of the state that holds what clients have stored -/

/-- What no operation but a commit, a lock or a lease changes. -/
structure Grants where
  version : Nat
  leases : List Lease
  chains : List (Nat × Nat × List Nat)

/-- The same with the stored keys: what placing a write leaves. -/
structure Ledger where
  grants : Grants
  keys : List KeyRec

/-- The same with the stripes: what a read leaves. -/
structure Holding where
  ledger : Ledger
  stripes : List Stripe

/-- The same with the tasks and the errors in the buffer memory: what transfers, counters and pages leave. -/
structure Store where
  holding : Holding
  trs : List Trs
  faults : List BufFault

def State.store (s : State) : Store :=
  { holding :=
      { ledger :=
          { grants := { version := s.plc.versionCounter, leases := s.cqc.leases, chains := s.cqc.chains },
            keys := s.asu.keys },
        stripes := s.plc.stripes },
    trs := s.cqc.trs, faults := s.bfc.faults }

theorem foldl_leaves {α γ : Type} {g : State → γ} {f : State → α → State} (hf : ∀ s x, g (f s x) = g s) (s : State) (l : List α) :
    g (l.foldl f s) = g s :=
  List.foldlRecOn (motive := fun (t : State) => g t = g s) l f rfl fun t ht x _ => (hf t x).trans ht

theorem foldl_leaves_snd {α β γ : Type} {g : State → γ} {f : β × State → α → β × State} (hf : ∀ p x, g (f p x).2 = g p.2)
    (p : β × State) (l : List α) : g (l.foldl f p).2 = g p.2 :=
  List.foldlRecOn (motive := fun (q : β × State) => g q.2 = g p.2) l f rfl fun q hq x _ => (hf q x).trans hq

theorem ite_leaves {γ : Type} {g : State → γ} {a b : State} {x : γ} {c : Prop} [Decidable c] (ha : g a = x) (hb : g b = x) :
    g (if c then a else b) = x := by
  split <;> assumption

/-! ### Counters, events and transfers -/

@[simp] theorem State.bump_store (s : State) (i u n : Nat) : (s.bump i u n).store = s.store := rfl

@[simp] theorem State.raise_store (s : State) (c u a b d : Nat) : (s.raise c u a b d).store = s.store := by simp [State.store]

@[simp] theorem State.traced_store (s : State) (k n : Nat) (a : Option Nat) (d : Nat) : (s.traced k n a d).store = s.store := rfl

@[simp] theorem State.transfer_store (s : State) (a b : Nat) (c : Cls) (l : Bool) (t n : Nat) (k : Option (Nat × Nat)) :
    (s.transfer a b c l t n k).store = s.store := rfl

@[simp] theorem State.fetch_store (s : State) (a b : Nat) (c : Cls) (l : Bool) (t n : Nat) : (s.fetch a b c l t n).store = s.store := rfl

@[simp] theorem State.indexRead_store (s : State) (t : Trs) : (s.indexRead t).store = s.store := rfl

@[simp] theorem State.bind_store (s : State) (n p : Nat) : (s.bind n p).store = s.store := rfl

@[simp] theorem State.dealOver_store (s : State) (l : List Nat) (j : CipherJob) : (s.dealOver l j).store = s.store := by
  unfold State.dealOver
  extract_lets shares keys u
  have hu : u.store = s.store := foldl_leaves (fun _ _ => by dsimp only; split <;> rfl) s shares
  split <;> exact hu

@[simp] theorem State.deal_store (s : State) (j : CipherJob) : (s.deal j).store = s.store := by
  unfold State.deal
  split
  · split
    · simp
    · rfl
  · simp

@[simp] theorem State.crypt_store (s : State) (m : CipherMode) (p a b : Nat) (c : Cls) (l : Bool) (t n : Nat) (d : Nat × Nat)
    (k : Option (Nat × Nat)) : (s.crypt m p a b c l t n d k).store = s.store := by
  unfold State.crypt
  split
  · rfl
  · exact State.deal_store ..

@[simp] theorem State.queueDie_store (s : State) (t c d : Nat) (o : DieOp) : (s.queueDie t c d o).store = s.store := rfl

@[simp] theorem State.queueRead_store (s : State) (c : Cls) (r : Bool) (p : Stripe) (i : Nat) (e : ReadPart) :
    (s.queueRead c r p i e).store = s.store := by
  unfold State.queueRead
  split
  · rfl
  · split
    · rfl
    · simp only [State.queueDie_store, State.transfer_store]
      split <;> rfl

@[simp] theorem State.readAround_store (s : State) (c : Cls) (r : Bool) (p : Stripe) (i : Nat) (e : ReadPart) :
    (s.readAround c r p i e).store = s.store := by
  unfold State.readAround
  extract_lets missing others u v
  have hu : u.store = s.store := foldl_leaves (fun _ _ => State.queueRead_store ..) s others
  split
  · exact hu
  · split
    · exact hu
    · rw [State.crypt_store]
      exact hu

@[simp] theorem State.fetchPart_store (s : State) (c : Cls) (n pos : Nat) (e : Extent) : (s.fetchPart c n pos e).store = s.store := by
  unfold State.fetchPart
  split
  · rfl
  · split
    · rfl
    · refine foldl_leaves (fun _ _ => ?_) ..
      dsimp only
      split <;> simp

@[simp] theorem State.fetchParts_store (s : State) (c : Cls) (n pos : Nat) (l : List Extent) :
    (s.fetchParts c n pos l).store = s.store := by
  induction l generalizing s pos with
  | nil => rfl
  | cons e l ih => simp [State.fetchParts, ih]

@[simp] theorem State.encryptValue_store (s : State) (t : Trs) (a b n l : Nat) : (s.encryptValue t a b n l).store = s.store := by
  unfold State.encryptValue
  dsimp only
  split <;> simp

@[simp] theorem State.captureRead_store (s : State) (off n : Nat) : (s.captureRead off n).store = s.store := by
  unfold State.captureRead
  dsimp only
  split <;> rfl

@[simp] theorem State.traceStart_store (s : State) (t : Trs) : (s.traceStart t).store = s.store := by
  unfold State.traceStart
  split
  · split <;> rfl
  · rfl

@[simp] theorem State.cacheValue_store (s : State) (k : KeyRec) (a b : Nat) : (s.cacheValue k a b).store = s.store := rfl

/-! ### Classification -/

@[simp] theorem State.classify_store (s : State) (t : Nat) (k : Bytes) (n : Option Nat) : (s.classify t k n).2.store = s.store := by
  unfold State.classify
  dsimp only
  repeat' split
  all_goals rfl

@[simp] theorem classifyAll_store (s : State) (t n : Nat) (ks : List Bytes) (l : List Classification) :
    (classifyAll s t n ks l).2.store = s.store := by
  induction ks generalizing s l with
  | nil => rfl
  | cons k ks ih => exact (ih ..).trans (State.classify_store ..)

@[simp] theorem State.runPredicates_store (s : State) (t : Trs) (c : Cls) (l : List Bytes) :
    (s.runPredicates t c l).store = s.store := by
  unfold State.runPredicates
  exact foldl_leaves (fun _ _ => foldl_leaves (fun _ _ => by simp) ..) ..

/-! ### Pages -/

@[simp] theorem State.mapPage_store (s : State) (n : Nat) (f : Page → Page) : (s.mapPage n f).store = s.store := rfl

@[simp] theorem State.wantPage_store (s : State) (n : Nat) : (s.wantPage n).store = s.store := rfl

@[simp] theorem State.touchPage_store (s : State) (n : Nat) : (s.touchPage n).store = s.store := rfl

@[simp] theorem State.changePage_store (s : State) (n v : Nat) : (s.changePage n v).store = s.store := rfl

@[simp] theorem State.framePage_store (s : State) (p : Page) : (s.framePage p).store = s.store := rfl

@[simp] theorem State.evict_store (s : State) : s.evict.store = s.store := by
  unfold State.evict
  split
  · rfl
  · dsimp only
    split <;> rfl

@[simp] theorem State.newPage_store (s : State) (k t v : Nat) (p : Bool) : (s.newPage k t v p).2.store = s.store :=
  s.evict_store

@[simp] theorem State.dirtyPages_store (s : State) (l : List Nat) (v : Nat) : (s.dirtyPages l v).store = s.store :=
  foldl_leaves (fun _ _ => State.changePage_store ..) s l

@[simp] theorem State.touchDirAt_store (s : State) (b : Bool) (p : Nat × Nat) (v : Nat) : (s.touchDirAt b p v).store = s.store := by
  unfold State.touchDirAt
  split
  · rfl
  · exact State.newPage_store s 3 0 v b

@[simp] theorem State.touchDir_store (s : State) (b : Bool) (p v : Nat) : (s.touchDir b p v).store = s.store := by
  unfold State.touchDir
  split
  · simp
  · rw [foldl_leaves (fun _ _ => State.touchDirAt_store ..), State.touchDirAt_store]

@[simp] theorem State.invalidate_store (s : State) (p i : Nat) : (s.invalidate p i).store = s.store := rfl

@[simp] theorem State.changeAbove_store (s : State) (t : Nat) (b : Bool) (l v : Nat) : (s.changeAbove t b l v).store = s.store :=
  foldl_leaves (fun _ _ => State.changePage_store ..) ..

@[simp] theorem State.fitTree_store (s : State) (t : Nat) (b : Bool) (v : Nat) : (s.fitTree t b v).store = s.store := by
  unfold State.fitTree
  dsimp only
  exact (foldl_leaves (g := State.store) (fun _ _ => by simp) ..).trans rfl

@[simp] theorem State.fitTrees_store (s : State) : s.fitTrees.store = s.store :=
  foldl_leaves (fun _ _ => State.fitTree_store ..) ..

@[simp] theorem State.chainBucket_store (s : State) (b : Nat × Nat) (v : Nat) : (s.chainBucket b v).store = s.store :=
  State.touchDirAt_store ..

@[simp] theorem State.fitChains_store (s : State) : s.fitChains.store = s.store := by
  unfold State.fitChains
  exact (foldl_leaves (g := State.store) (fun _ _ => foldl_leaves (fun _ _ => State.chainBucket_store ..) ..) _ _).trans rfl

@[simp] theorem State.dropEmpty_store (s : State) : s.dropEmpty.store = s.store :=
  (State.fitChains_store _).trans ((State.fitTrees_store _).trans rfl)

@[simp] theorem State.dropMapPages_store (s : State) : s.dropMapPages.store = s.store := rfl

@[simp] theorem State.dropRetention_store (s : State) : s.dropRetention.store = s.store := rfl

@[simp] theorem State.seatRetention_store (s : State) (t v : Nat) : (s.seatRetention t v).2.store = s.store := by
  unfold State.seatRetention
  split
  · rfl
  · simp

@[simp] theorem State.olderAfter_store (s : State) (p : Option KeyRec) (t v : Nat) : (s.olderAfter p t v).2.store = s.store := by
  unfold State.olderAfter
  split
  · rfl
  · dsimp only
    split
    · exact State.seatRetention_store ..
    · rfl

@[simp] theorem State.treeFor_store (s : State) (c : Change) (p : Option KeyRec) (n : Nat) : (s.treeFor c p n).2.store = s.store := by
  unfold State.treeFor
  repeat' split
  all_goals simp

@[simp] theorem State.seatMap_store (s : State) (t v : Nat) (p : Bool) (n : Nat × Nat) : (s.seatMap t v p n).2.2.store = s.store := by
  unfold State.seatMap
  split
  · rfl
  · dsimp only
    refine (foldl_leaves_snd (g := State.store) (fun _ _ => by simp) ..).trans ?_
    dsimp only
    split <;> simp only [State.newPage_store, State.mapPage_store] <;> exact ite_leaves (by simp) rfl

@[simp] theorem State.pageTransfer_store (s : State) (p : Page) : (s.pageTransfer p).store = s.store := by
  unfold State.pageTransfer
  dsimp only
  split
  · rfl
  · split <;> rfl

/-! ### The Key CAM and the walker -/

@[simp] theorem State.mapBank_store (s : State) (n : Nat) (f : CamBank → CamBank) : (s.mapBank n f).store = s.store := rfl

@[simp] theorem State.wantMask_store (s : State) (u : UnitId) (b : Bool) : (s.wantMask u b).store = s.store := by
  unfold State.wantMask
  split <;> rfl

/-- A bank of the Key CAM leaves service without a change of what is stored. -/
@[simp] theorem State.isolate_bank_store (s : State) (n r : Nat) : (s.isolate (bankUnit n) r).store = s.store := by
  unfold State.isolate
  extract_lets u v w
  have hw : w.store = s.store := by
    simp only [w, State.raise_store]
    exact (State.wantMask_store ..).trans rfl
  split <;> exact hw

@[simp] theorem State.camFault_store (s : State) (n : Nat) (e : CamEntry) : (s.camFault n e).store = s.store := by
  unfold State.camFault
  dsimp only
  split <;> simp

@[simp] theorem State.falseHit_store (s : State) (t p n : Nat) (e : CamEntry) (k : Option KeyRec) :
    (s.falseHit t p n e k).store = s.store := by
  unfold State.falseHit
  repeat' split
  all_goals simp

@[simp] theorem State.camInsert_store (s : State) (k : KeyRec) : (s.camInsert k).store = s.store := by
  unfold State.camInsert
  split <;> rfl

@[simp] theorem State.walker_store (s : State) (t : Nat) (k : Bytes) (p : Nat) (a b : Bool) : (s.walker t k p a b).2.store = s.store := by
  unfold State.walker
  extract_lets first u
  have hu : u.store = s.store := by
    simp only [u]
    split
    · exact foldl_leaves (fun _ _ => State.touchPage_store ..) ..
    · rfl
  split
  · dsimp only
    split <;> simp [hu]
  · exact hu
  · exact hu

@[simp] theorem State.lookup_store (s : State) (t : Nat) (k : Bytes) (p : Nat) (a : Bool) (b : Option Bool) (n : Nat) :
    (s.lookup t k p a b n).2.store = s.store := by
  unfold State.lookup
  split
  · simp
  · split
    · simp
    · split
      · simp
      · split
        · rfl
        · dsimp only
          split
          · split <;> simp
          · simp

/-! ### Reads of the buffer memory and reports to the task: errors and tasks apart, nothing changes -/

@[simp] theorem State.eccFound_store (s : State) (f : BufFault) : (s.eccFound f).store = s.store := by
  unfold State.eccFound
  split <;> simp

@[simp] theorem State.bufferRead_holding (s : State) (h : BufHolds) : (s.bufferRead h).2.store.holding = s.store.holding := by
  unfold State.bufferRead
  dsimp only
  split
  · rfl
  · exact (congrArg Store.holding (foldl_leaves (fun _ _ => State.eccFound_store ..) ..)).trans rfl

@[simp] theorem State.readPage_holding (s : State) (n : Nat) : (s.readPage n).store.holding = s.store.holding := by
  have h := s.bufferRead_holding (.page n)
  unfold State.readPage
  generalize s.bufferRead (.page n) = r at h ⊢
  obtain ⟨b, u⟩ := r
  cases b <;> exact h

@[simp] theorem State.readPages_holding (s : State) (l : List Nat) : (s.readPages l).store.holding = s.store.holding := by
  unfold State.readPages
  split
  · rfl
  · exact foldl_leaves (g := fun u => u.store.holding) (fun _ _ => State.readPage_holding ..) s l

@[simp] theorem State.readCached_holding (s : State) (k : KeyRec) (a b : Nat) :
    (s.readCached k a b).2.store.holding = s.store.holding := by
  have h := s.bufferRead_holding (.value k.tenant k.key)
  unfold State.readCached
  split
  · rfl
  · generalize s.bufferRead (.value k.tenant k.key) = r at h ⊢
    obtain ⟨b, u⟩ := r
    cases b <;> exact h

@[simp] theorem State.mapTrs_holding (s : State) (i : Nat) (f : Trs → Trs) : (s.mapTrs i f).store.holding = s.store.holding := rfl

@[simp] theorem State.mapTrs_faults (s : State) (i : Nat) (f : Trs → Trs) : (s.mapTrs i f).store.faults = s.store.faults := rfl

@[simp] theorem State.finish_holding (s : State) (i st fl : Nat) (a b : Bytes) : (s.finish i st fl a b).store.holding = s.store.holding :=
  rfl

@[simp] theorem State.fromTile_holding (s : State) (i : Nat) : (s.fromTile i).store.holding = s.store.holding := rfl

@[simp] theorem State.lookFor_holding (s : State) (t : Trs) (i : Nat) (k : Bytes) (p : Bool) :
    (s.lookFor t i k p).2.store.holding = s.store.holding := by
  unfold State.lookFor
  dsimp only
  split <;> simp

theorem State.lookFor_faults {s : State} {t : Trs} {i : Nat} {k : Bytes} {p : Bool} (h : s.bfc.faults = []) :
    (s.lookFor t i k p).2.store.faults = [] := by
  have hs : s.store.faults = [] := h
  have hi : (s.indexRead t).bfc.faults = [] := h
  unfold State.lookFor
  dsimp only
  rw [State.readPages_of_no_faults hi]
  split <;> simp [hs]

@[simp] theorem State.serveGet_holding (s : State) (t : Trs) (k : KeyRec) : (s.serveGet t k).store.holding = s.store.holding := by
  unfold State.serveGet
  have h := s.readCached_holding k (field t.fields 32 8) (readEnd k.length (field t.fields 32 8) (field t.fields 40 8))
  dsimp only
  refine ite_leaves (g := fun v => v.store.holding) rfl (ite_leaves (g := fun v => v.store.holding) rfl ?_)
  generalize s.readCached k _ _ = r at h ⊢
  obtain ⟨cached, u⟩ := r
  rw [← h]
  simp only [State.finish_holding, State.mapTrs_holding, State.fetch_store, State.transfer_store]
  refine ite_leaves (g := fun v => v.store.holding) ?_ ?_ <;>
    simp only [State.cacheValue_store, State.bump_store] <;>
    exact ite_leaves (g := fun v => v.store.holding) (by cases cached <;> simp) (by cases cached <;> simp)

/-! ### The loss of data: versions, leases and chains stay -/

@[simp] theorem State.mapKey_grants (s : State) (t : Nat) (k : Bytes) (f : KeyRec → KeyRec) :
    (s.mapKey t k f).store.holding.ledger.grants = s.store.holding.ledger.grants := rfl

@[simp] theorem State.logLost_store (s : State) (k : KeyRec) : (s.logLost k).store = s.store := by
  unfold State.logLost
  repeat' split
  all_goals rfl

@[simp] theorem State.unlogLost_store (s : State) (t : Nat) (k : Bytes) : (s.unlogLost t k).store = s.store := rfl

@[simp] theorem State.mapStripe_ledger (s : State) (n : Nat) (f : Stripe → Stripe) :
    (s.mapStripe n f).store.holding.ledger = s.store.holding.ledger := rfl

@[simp] theorem State.mapShard_ledger (s : State) (n i : Nat) (f : Shard → Shard) :
    (s.mapShard n i f).store.holding.ledger = s.store.holding.ledger := rfl

@[simp] theorem State.releaseStripes_ledger (s : State) : s.releaseStripes.store.holding.ledger = s.store.holding.ledger := rfl

@[simp] theorem State.loseKeys_grants (s : State) (l : List KeyRec) (n : Nat) :
    (s.loseKeys l n).store.holding.ledger.grants = s.store.holding.ledger.grants := by
  have h := foldl_leaves (g := fun u => u.store.holding.ledger.grants)
    (f := fun u k => (u.mapKey k.tenant k.key fun r => { r with lost := true }).logLost k) (fun _ _ => by simp) s l
  unfold State.loseKeys
  dsimp only
  split
  · exact h
  · rw [State.raise_store]
    exact h

@[simp] theorem State.loseStripe_grants (s : State) (n : Nat) :
    (s.loseStripe n).store.holding.ledger.grants = s.store.holding.ledger.grants := by
  unfold State.loseStripe
  split
  · rfl
  · split
    · rfl
    · exact (State.loseKeys_grants ..).trans rfl

@[simp] theorem State.readDirtyShard_grants (s : State) (n i : Nat) :
    (s.readDirtyShard n i).store.holding.ledger.grants = s.store.holding.ledger.grants := by
  have h := foldl_leaves (g := fun u => u.store.holding)
    (f := fun u j => (u.bufferRead (.shard n j)).2) (fun _ _ => State.bufferRead_holding ..) s (List.range 16)
  unfold State.readDirtyShard
  dsimp only
  split
  · simp
  · split
    · rw [State.loseStripe_grants, h]
    · rw [h]

@[simp] theorem State.readDirty_grants (s : State) (n : Nat) (l : List Nat) :
    (s.readDirty n l).store.holding.ledger.grants = s.store.holding.ledger.grants := by
  unfold State.readDirty
  split
  · rfl
  · exact foldl_leaves (g := fun u => u.store.holding.ledger.grants) (fun _ _ => State.readDirtyShard_grants ..) s l

@[simp] theorem State.readDirtyOf_grants (s : State) (t : Trs) (k : KeyRec) :
    (s.readDirtyOf t k).store.holding.ledger.grants = s.store.holding.ledger.grants := by
  unfold State.readDirtyOf
  refine foldl_leaves (g := fun u => u.store.holding.ledger.grants) (fun _ _ => ?_) ..
  repeat' split
  · exact State.readDirty_grants ..
  · rfl
  · rfl

@[simp] theorem State.pruneOlder_grants (s : State) : s.pruneOlder.store.holding.ledger.grants = s.store.holding.ledger.grants := by
  unfold State.pruneOlder
  rw [State.dropRetention_store, State.dropEmpty_store]
  refine (foldl_leaves (g := fun u => u.store.holding.ledger.grants) (fun u k => ?_) ..).trans rfl
  have h : (((u.invalidate k.page k.entryId).changePage k.page 0).touchDir k.pinned k.print 0).store = u.store := by simp
  dsimp only
  split
  · rfl
  · exact congrArg (fun x => x.holding.ledger.grants) h

@[simp] theorem State.endTenantCursors_grants (s : State) (t : Nat) :
    (s.endTenantCursors t).store.holding.ledger.grants = s.store.holding.ledger.grants :=
  (State.pruneOlder_grants _).trans rfl

@[simp] theorem State.loseMapPage_grants (s : State) (n : Nat) :
    (s.loseMapPage n).store.holding.ledger.grants = s.store.holding.ledger.grants := by
  unfold State.loseMapPage
  simp only [State.releaseStripes_ledger, State.dropMapPages_store, State.loseKeys_grants]
  exact foldl_leaves (g := fun u => u.store.holding.ledger.grants) (fun _ _ => State.mapKey_grants ..) ..

@[simp] theorem State.losePage_grants (s : State) (p : Page) :
    (s.losePage p).store.holding.ledger.grants = s.store.holding.ledger.grants := by
  unfold State.losePage
  split
  · exact (State.endTenantCursors_grants ..).trans rfl
  · split
    · exact State.loseMapPage_grants ..
    · rfl

@[simp] theorem State.rebuildPage_grants (s : State) (p : Page) :
    (s.rebuildPage p).store.holding.ledger.grants = s.store.holding.ledger.grants := by
  unfold State.rebuildPage
  split
  · exact State.losePage_grants ..
  · dsimp only
    split
    · exact State.losePage_grants ..
    · simp only [State.bump_store, State.framePage_store, State.mapShard_ledger]
      rw [foldl_leaves (g := State.store) fun _ _ => State.queueRead_store ..]

@[simp] theorem State.pageIn_grants (s : State) (p : Page) (r : Bool) :
    (s.pageIn p r).store.holding.ledger.grants = s.store.holding.ledger.grants := by
  unfold State.pageIn
  dsimp only
  repeat' split
  all_goals simp

@[simp] theorem State.readEffect_grants (s : State) (i u o n : Nat) :
    (s.readEffect i u o n).store.holding.ledger.grants = s.store.holding.ledger.grants := by
  unfold State.readEffect
  repeat' split
  all_goals simp

/-- Apart from PAGE_COPY a read of an entry changes nothing that is stored (R317, R603). -/
theorem State.readEffect_store {s : State} {i u o n : Nat} (h : i ≠ 0x5025) : (s.readEffect i u o n).store = s.store := by
  unfold State.readEffect
  split
  · exact State.captureRead_store ..
  · rw [if_neg fun e => h e.1]

end Sys2Proof.Machine
end

section
/-!
GET, HEAD, QUERY and OD_READ change no key (R54, R124, R208).
-/
namespace Sys2Proof.Machine

/-! ### The reads -/

@[simp] theorem State.find_holding (s : State) (t : Trs) : (s.find t).2.store.holding = s.store.holding := State.lookFor_holding ..

theorem State.find_faults {s : State} {t : Trs} (h : s.bfc.faults = []) : (s.find t).2.bfc.faults = [] :=
  State.lookFor_faults h

/-- What a step that reads leaves: versions, leases and chains always, keys and stripes where `c` holds. -/
def ReadLeaves (c : Prop) (s t : State) : Prop :=
  t.store.holding.ledger.grants = s.store.holding.ledger.grants ∧ (c → t.store.holding = s.store.holding)

theorem ReadLeaves.of_holding {c : Prop} {s t : State} (h : t.store.holding = s.store.holding) : ReadLeaves c s t :=
  ⟨congrArg (fun x => x.ledger.grants) h, fun _ => h⟩

theorem execGet_leaves {task : Nat} {s t : State} (h : exec (.get task) s = .next t) : ReadLeaves (s.bfc.faults = []) s t := by
  change execGet task s = .next t at h
  unfold execGet at h
  split at h
  · cases h
    exact .of_holding rfl
  next r hr =>
    have hh := s.find_holding r
    have hf := fun he => State.find_faults (t := r) (s := s) he
    generalize s.find r = q at h hh hf
    obtain ⟨f, u⟩ := q
    dsimp only at hh hf
    split at h
    next e =>
      obtain ⟨-, rfl⟩ := Prod.mk.inj e
      cases h
      exact .of_holding hh
    next e =>
      obtain ⟨rfl, rfl⟩ := Prod.mk.inj e
      split at h
      · cases h
        exact .of_holding hh
      next k hk =>
        dsimp only at h
        split at h
        · cases h
          exact .of_holding (by simp [hh])
        · cases h
          refine ⟨by simp [hh], fun he => ?_⟩
          rw [State.serveGet_holding, State.readPages_of_no_faults (hf he), State.readDirtyOf_of_no_faults (hf he), hh]

theorem execHead_holding {task : Nat} {s t : State} (h : exec (.head task) s = .next t) : t.store.holding = s.store.holding := by
  change execHead task s = .next t at h
  unfold execHead at h
  split at h
  · cases h
    rfl
  next r hr =>
    have hh := s.find_holding r
    generalize s.find r = q at h hh
    obtain ⟨f, u⟩ := q
    split at h
    next e =>
      obtain ⟨-, rfl⟩ := Prod.mk.inj e
      cases h
      exact hh
    next e =>
      obtain ⟨rfl, rfl⟩ := Prod.mk.inj e
      split at h <;> cases h <;> exact hh

theorem execQuery_holding {task : Nat} {s t : State} (h : exec (.query task) s = .next t) : t.store.holding = s.store.holding := by
  change execQuery task s = .next t at h
  unfold execQuery at h
  split at h <;> cases h <;> rfl

theorem execOdRead_leaves {task : Nat} {s t : State} (h : exec (.odRead task) s = .next t) :
    ReadLeaves (∀ r, s.running task opOdRead = some r → field r.fields 24 2 ≠ 0x5025) s t := by
  change execOdRead task s = .next t at h
  unfold execOdRead at h
  split at h
  · cases h
    exact .of_holding rfl
  next r hr =>
    dsimp only at h
    split at h
    · cases h
      exact .of_holding rfl
    · split at h
      · cases h
        exact .of_holding rfl
      · split at h
        · cases h
          exact .of_holding rfl
        · cases h
          refine ⟨by simp, fun hp => ?_⟩
          rw [State.finish_holding, State.readEffect_store (hp r hr)]

/-- Settles O13: each of the four leaves what `ReadLeaves` says. -/
theorem readsChangeNoKey : Obligations.ReadsChangeNoKey := by
  unfold Obligations.ReadsChangeNoKey
  intro task s t h
  have hl : ReadLeaves (s.bfc.faults = [] ∧ ∀ r, s.running task opOdRead = some r → field r.fields 24 2 ≠ 0x5025) s t := by
    rcases h with h | h | h | h
    · exact ⟨(execGet_leaves h).1, fun hc => (execGet_leaves h).2 hc.1⟩
    · exact .of_holding (execHead_holding h)
    · exact .of_holding (execQuery_holding h)
    · exact ⟨(execOdRead_leaves h).1, fun hc => (execOdRead_leaves h).2 hc.2⟩
  obtain ⟨hg, hk⟩ := hl
  exact ⟨congrArg Grants.version hg, congrArg Grants.leases hg, congrArg Grants.chains hg,
    fun hb hp => ⟨congrArg (fun x => x.ledger.keys) (hk ⟨hb, hp⟩), congrArg Holding.stripes (hk ⟨hb, hp⟩)⟩⟩

end Sys2Proof.Machine
end

section
/-!
Placing a write changes no key and takes no version; its place in the journal takes its versions (R43, R44, R53, R59).
-/
namespace Sys2Proof.Machine

/-! ### Placing -/

theorem State.takeSlot_store (s : State) (t r n : Nat) : (s.takeSlot t r n).store = s.store := rfl

@[simp] theorem State.seatShards_store (s : State) (r : Nat) (a b : List Nat) : (s.seatShards r a b).2.store = s.store :=
  foldl_leaves_snd (fun _ _ => State.takeSlot_store ..) ..

theorem State.giveShards_ledger {s u : State} {i n : Nat} (h : s.giveShards i n = some u) :
    u.store.holding.ledger = s.store.holding.ledger := by
  unfold State.giveShards at h
  split at h
  · cases h
  · dsimp only at h
    split at h
    · cases h
    · split at h
      · cases h
      · cases h
        simp

theorem State.seal_ledger {s u : State} {i : Nat} (h : s.seal i = some u) : u.store.holding.ledger = s.store.holding.ledger := by
  unfold State.seal at h
  split at h
  · cases h
  · split at h
    · cases h
    · obtain ⟨v, hv, rfl⟩ := Option.map_eq_some_iff.mp h
      rw [State.bump_store]
      exact State.giveShards_ledger hv

theorem State.buildStripe_ledger {s u : State} {t k n i : Nat} {f : Bool} {c : Cls} (h : s.buildStripe t k n f c = some (i, u)) :
    u.store.holding.ledger = s.store.holding.ledger := by
  obtain ⟨v, hv, e⟩ := Option.map_eq_some_iff.mp h
  obtain ⟨-, rfl⟩ := Prod.mk.inj e
  exact (State.giveShards_ledger hv).trans rfl

theorem State.packExtent_ledger {s u : State} {t n : Nat} {f : Bool} {c : Cls} {e : Extent}
    (h : s.packExtent t n f c = some (e, u)) : u.store.holding.ledger = s.store.holding.ledger := by
  unfold State.packExtent at h
  extract_lets fresh at h
  have hfresh (v : State) (h : fresh v = some (e, u)) : u.store.holding.ledger = v.store.holding.ledger := by
    simp only [fresh] at h
    split at h
    · cases h
      rfl
    · cases h
  split at h
  · exact hfresh s h
  · dsimp only at h
    split at h
    · cases h
      rfl
    · split at h
      · cases h
      next hs => exact (hfresh _ h).trans (State.seal_ledger hs)

@[simp] theorem State.sealFull_ledger (s : State) (t n : Nat) (f : Bool) :
    (s.sealFull t n f).store.holding.ledger = s.store.holding.ledger := by
  unfold State.sealFull
  split
  · rfl
  next p _ =>
    split
    · cases hs : s.seal p.id with
      | none => rfl
      | some u => exact State.seal_ledger hs
    · rfl

@[simp] theorem State.placeStripes_ledger (s : State) (t n : Nat) (f : Bool) (c : Cls) (fuel done : Nat) (l : List Extent) :
    (s.placeStripes t n f c fuel done l).2.store.holding.ledger = s.store.holding.ledger := by
  induction fuel generalizing s done l with
  | zero => rfl
  | succ fuel ih =>
    unfold State.placeStripes
    dsimp only
    split
    · rfl
    · split
      · rfl
      next hb => exact (ih ..).trans (State.buildStripe_ledger hb)

@[simp] theorem State.placeMore_ledger (s : State) (t n : Nat) (f : Bool) (c : Cls) (l : List Extent) :
    (s.placeMore t n f c l).2.store.holding.ledger = s.store.holding.ledger := by
  unfold State.placeMore
  dsimp only
  split
  · rfl
  · split
    · split
      · exact State.sealFull_ledger ..
      next hp => exact State.packExtent_ledger hp
    · exact State.placeStripes_ledger ..

@[simp] theorem State.placeChanges_ledger (s : State) (t : Trs) (n : Nat) (l : List Change) :
    (s.placeChanges t n l).2.store.holding.ledger = s.store.holding.ledger := by
  induction l generalizing s n with
  | nil => rfl
  | cons c l ih =>
    unfold State.placeChanges
    dsimp only
    split
    · exact ih ..
    · split
      · rfl
      · split
        · simp [ih]
        · simp

@[simp] theorem State.writeStep_ledger (s : State) (t : Trs) : (s.writeStep t).store.holding.ledger = s.store.holding.ledger := by
  unfold State.writeStep
  dsimp only
  split
  · rfl
  · split
    · rfl
    · rw [State.mapTrs_holding]
      refine ite_leaves (g := fun u => u.store.holding.ledger)
        (ite_leaves (g := fun u => (u.bump 0x8010 0x03 1).store.holding.ledger) ?_ ?_)
        (ite_leaves (g := fun u => u.store.holding.ledger) ?_ ?_) <;> simp

@[simp] theorem State.writeRow_ledger (s : State) (i op : Nat) : (s.writeRow i op).store.holding.ledger = s.store.holding.ledger := by
  unfold State.writeRow
  split
  · rfl
  · exact State.writeStep_ledger ..

/-! ### Start, joining and the head of a chain -/

/-- Only a SCAN that is refused gives a cursor back. -/
theorem State.refuseTenant_holding {s : State} {t : Trs} (h : t.opcode ≠ opScan) :
    (s.refuseTenant t).store.holding = s.store.holding := by
  unfold State.refuseTenant
  rw [if_neg fun e => h e.1]
  rfl

theorem State.classifyTask_holding {s : State} {t : Trs} {l : List Bytes} (h : t.opcode ≠ opScan) :
    (s.classifyTask t l).store.holding = s.store.holding := by
  have hc := (classifyAll_store (s.runPredicates t t.admitCls l) t.tenant t.task l []).trans (State.runPredicates_store ..)
  unfold State.classifyTask
  split
  · exact State.refuseTenant_holding h
  · split
    next cs u e =>
      have hu : u.store.holding = s.store.holding := by rw [← hc, e]
      split
      · exact hu
      · extract_lets cls v w x
        have hw : w.store.holding = u.store.holding := congrArg Store.holding (foldl_leaves (fun _ _ => State.crypt_store ..) v l)
        exact hw.trans hu

theorem State.classifyBatch_holding {s : State} {t : Trs} (h : t.opcode ≠ opScan) :
    (s.classifyBatch t).store.holding = s.store.holding := by
  unfold State.classifyBatch
  split
  · rfl
  · rfl
  · rfl
  · exact State.classifyTask_holding h

@[simp] theorem State.headChecks_holding (s : State) (t : Trs) (i : Nat) (ws : List Wanted) (l : List (Option KeyRec)) :
    (s.headChecks t i ws l).2.store.holding = s.store.holding := by
  induction ws generalizing s i l with
  | nil => rfl
  | cons w ws ih =>
    unfold State.headChecks
    extract_lets element denied
    split
    · rfl
    · split
      · rfl
      next pin _ _ _ =>
        have hf := s.lookFor_holding t i w.key pin
        split
        next e =>
          rw [e] at hf
          exact hf
        next e =>
          rw [e] at hf
          split
          split
          · exact hf
          · exact (ih ..).trans hf

@[simp] theorem State.headWrite_holding (s : State) (t : Trs) : (s.headWrite t).store.holding = s.store.holding := by
  have h := s.headChecks_holding t 0 (s.wanted t) []
  unfold State.headWrite
  dsimp only
  generalize s.headChecks t 0 (s.wanted t) [] = r at h ⊢
  obtain ⟨f, u⟩ := r
  cases f with
  | paging => exact h
  | refuse st e d => exact h
  | pass ks =>
    dsimp only
    split <;> exact h

@[simp] theorem State.headLock_holding (s : State) (t : Trs) : (s.headLock t).store.holding = s.store.holding := by
  unfold State.headLock
  dsimp only
  repeat' split
  all_goals rfl

theorem execCommandStart_holding {s t : State} (h : exec .commandStart s = .next t)
    (hs : ∀ u, s.nextStart = some u → u.opcode ≠ opScan) : t.store.holding = s.store.holding := by
  change execCommandStart s = .next t at h
  unfold execCommandStart at h
  split at h
  · cases h
    rfl
  next u hu =>
    have ho := hs u hu
    dsimp only at h
    split at h
    · cases h
      rw [State.traceStart_store, State.refuseTenant_holding ho]
      rfl
    · split at h
      · cases h
        rw [State.traceStart_store, State.classifyTask_holding ho]
        rfl
      · split at h <;> cases h
        · rw [State.traceStart_store, State.classifyBatch_holding ho]
          rfl
        · rw [State.traceStart_store]
          rfl

theorem lockEntries_scan (f : Bytes) : lockEntries opScan f = 0 := by
  simp [lockEntries, opScan, opBatch, opAppend, opLock]

/-- A command that joins chains is no SCAN; it changes nothing that is stored but the chains. -/
theorem execKeyLockJoin_keys {task : Nat} {s t : State} (h : exec (.keyLockJoin task) s = .next t) :
    t.asu.keys = s.asu.keys ∧ t.plc.versionCounter = s.plc.versionCounter := by
  change execKeyLockJoin task s = .next t at h
  unfold execKeyLockJoin at h
  split at h
  · cases h
    exact ⟨rfl, rfl⟩
  next u _ =>
    split at h
    · cases h
      exact ⟨rfl, rfl⟩
    next hj =>
      have ho : u.opcode ≠ opScan := fun e => hj (.inr (.inr (by rw [e, lockEntries_scan])))
      split at h
      · cases h
        have hk : ((s.classifyBatch u).traceStart u).store.holding = s.store.holding := by
          rw [State.traceStart_store, State.classifyBatch_holding ho]
        exact ⟨congrArg (fun x => x.ledger.keys) hk, congrArg (fun x => x.ledger.grants.version) hk⟩
      · split at h
        · cases h
          exact ⟨rfl, rfl⟩
        · dsimp only at h
          split at h <;> cases h <;> exact ⟨rfl, rfl⟩

theorem execKeyChainHead_holding {task : Nat} {s t : State} (h : exec (.keyChainHead task) s = .next t) :
    t.store.holding = s.store.holding := by
  change execKeyChainHead task s = .next t at h
  unfold execKeyChainHead at h
  split at h
  · cases h
    rfl
  · split at h
    · cases h
      rfl
    · dsimp only at h
      split at h <;> cases h <;> simp

/-! ### The commit point -/

theorem State.readChanges_of_no_faults {s : State} (h : s.bfc.faults = []) (t : Trs) : s.readChanges t = s :=
  List.foldlRecOn (motive := fun u => u = s) _ _ rfl fun u hu _ _ => by
    subst hu
    exact State.readPages_of_no_faults h _

theorem State.reserve_version (s : State) (t : Trs) :
    (s.reserve t).plc.versionCounter = s.plc.versionCounter + t.changes.length := rfl

theorem State.reserve_keys (s : State) (t : Trs) : (s.reserve t).asu.keys = s.asu.keys := rfl

/-! ### What the elements of a commit leave: versions, leases and chains, and the tasks -/

/-- The part of the state that an element of a commit leaves. -/
def State.unnamed (s : State) : Grants × List Trs := (s.store.holding.ledger.grants, s.store.trs)

theorem State.unnamed_of_store {s t : State} (h : t.store = s.store) : t.unnamed = s.unnamed := by
  rw [State.unnamed, h, State.unnamed]

theorem State.mapKey_unnamed (s : State) (t : Nat) (k : Bytes) (f : KeyRec → KeyRec) : (s.mapKey t k f).unnamed = s.unnamed := rfl

/-- The store with one key's record changed. -/
def Store.mapKey (x : Store) (t : Nat) (k : Bytes) (f : KeyRec → KeyRec) : Store :=
  { x with
    holding.ledger.keys := x.holding.ledger.keys.map fun r => if r.tenant = t ∧ r.key = k then f r else r }

theorem State.mapKey_store (s : State) (t : Nat) (k : Bytes) (f : KeyRec → KeyRec) : (s.mapKey t k f).store = s.store.mapKey t k f :=
  rfl

theorem State.moveEntries_unnamed (s : State) (n v : Nat) (l : List KeyRec) : (s.moveEntries n v l).unnamed = s.unnamed := by
  unfold State.moveEntries
  exact foldl_leaves (fun _ _ => (State.mapKey_unnamed ..).trans (State.unnamed_of_store (by simp))) ..

theorem State.splitPage_unnamed (s : State) (n v : Nat) : (s.splitPage n v).unnamed = s.unnamed := by
  unfold State.splitPage
  split
  · rfl
  · dsimp only
    rw [State.moveEntries_unnamed]
    exact State.unnamed_of_store (by simp)

theorem State.seat_unnamed (s : State) (t : Nat) (b : Bool) (k : Bytes) (v : Nat) : (s.seat t b k v).2.2.unnamed = s.unnamed := by
  unfold State.seat
  split
  · exact State.unnamed_of_store (State.newPage_store ..)
  · exact ite_leaves rfl (State.splitPage_unnamed ..)

theorem State.removeEntry_unnamed (s : State) (k : KeyRec) (v : Nat) : (s.removeEntry k v).unnamed = s.unnamed := by
  have h : (((s.invalidate k.page k.entryId).changePage k.page v).touchDir k.pinned k.print v).unnamed = s.unnamed :=
    State.unnamed_of_store (by simp)
  exact h

/-- A new entry is its record put into the index of a state with the same rest, with the map pages it is seated in. -/
theorem State.writeEntry_putKey (s : State) (c : Change) (prior old : Option KeyRec) (print version : Nat) :
    ∃ (u : State) (r : KeyRec) (maps : List Nat) (pin : Bool), u.unnamed = s.unnamed ∧
      (r.tenant = c.tenant ∧ r.key = c.key ∧ r.version = version ∧ r.value = c.valueAfter old ∧ r.tombstone = false) ∧
      (s.writeEntry c prior old print version).store =
        ((u.putKey r).mapKey c.tenant c.key fun k => { k with mapPages := maps, pinnedMap := pin }).store := by
  unfold State.writeEntry
  extract_lets lost s1
  have h1 : s1.unnamed = s.unnamed := State.unnamed_of_store (State.dirtyPages_store ..)
  split
  next older s2 e2 =>
  have h2 : s2.unnamed = s1.unnamed := State.unnamed_of_store (by rw [← State.olderAfter_store s1, e2])
  split
  next pinned s3 e3 =>
  have h3 : s3.unnamed = s2.unnamed := State.unnamed_of_store (by rw [← State.treeFor_store s2, e3])
  extract_lets stay s4
  have h4 : s4.unnamed = s3.unnamed := by
    simp only [s4]
    split
    · exact ite_leaves rfl (State.removeEntry_unnamed ..)
    · rfl
  split
  next page id s5 e5 =>
  have h5 : s5.unnamed = s4.unnamed := by
    clear_value s4 stay
    rcases stay with _ | ⟨p, i⟩
    · have h := State.seat_unnamed (s4.touchDir pinned print version) c.tenant pinned c.key version
      simp only at e5
      rw [e5] at h
      exact h.trans (State.unnamed_of_store (State.touchDir_store ..))
    · obtain ⟨-, -, rfl⟩ := e5
      rfl
  extract_lets packed r s6
  split
  next maps pin s7 e7 =>
  have h7 : s7.store = (s5.putKey r).store := by
    have h := s6.seatMap_store c.tenant version c.pin r.mapSize
    rw [e7] at h
    exact h.trans (State.dirtyPages_store ..)
  refine ⟨s5, r, maps, pin, h5.trans (h4.trans (h3.trans (h2.trans h1))), ⟨rfl, rfl, rfl, rfl, rfl⟩, ?_⟩
  rw [State.mapKey_store, ← h7, ← State.mapKey_store]
  exact ite_leaves (State.logLost_store ..) (State.unlogLost_store ..)

/-- A deleted key's entry is filtered out, or stays as a tombstone. -/
theorem State.dropEntry_cases (s : State) (k : KeyRec) (tenant version : Nat) :
    ∃ u : State, u.unnamed = s.unnamed ∧ u.asu.keys = s.asu.keys ∧
      ((s.dropEntry (some k) tenant version).store = (u.removeEntry k version).store ∨
        ∃ f : KeyRec → KeyRec, (∀ r, (f r).tombstone = true) ∧
          (s.dropEntry (some k) tenant version).store = (u.mapKey tenant k.key f).store) := by
  have h := s.olderAfter_store (some k) tenant version
  unfold State.dropEntry
  dsimp only
  generalize s.olderAfter (some k) tenant version = q at h ⊢
  obtain ⟨older, v⟩ := q
  dsimp only at h ⊢
  generalize hu : (v.unlogLost tenant k.key).dirtyPages k.pages version = u
  have h : u.store = s.store := by rw [← hu, State.dirtyPages_store, State.unlogLost_store, h]
  refine ⟨u, State.unnamed_of_store h, congrArg (fun x => x.holding.ledger.keys) h, ?_⟩
  split
  · exact .inl rfl
  · exact .inr ⟨_, fun _ => rfl, rfl⟩

end Sys2Proof.Machine
end

section
/-!
COMMIT: its rows, and what a write of one element leaves of its key (R44, R48, R53, R64, R292, R375, R393).
-/
namespace Sys2Proof.Machine

theorem State.writeEntry_unnamed (s : State) (c : Change) (prior old : Option KeyRec) (print version : Nat) :
    (s.writeEntry c prior old print version).unnamed = s.unnamed := by
  obtain ⟨u, r, maps, pin, hu, -, hs⟩ := s.writeEntry_putKey c prior old print version
  exact (State.unnamed_of_store hs).trans hu

theorem State.dropEntry_unnamed (s : State) (prior : Option KeyRec) (tenant version : Nat) :
    (s.dropEntry prior tenant version).unnamed = s.unnamed := by
  cases prior with
  | none => rfl
  | some k =>
    obtain ⟨u, hu, -, hs | ⟨f, -, hs⟩⟩ := s.dropEntry_cases k tenant version
    · exact (State.unnamed_of_store hs).trans ((State.removeEntry_unnamed ..).trans hu)
    · exact (State.unnamed_of_store hs).trans hu

theorem State.applyChange_unnamed (s : State) (c : Change) (print version : Nat) :
    (s.applyChange c print version).2.2.unnamed = s.unnamed := by
  unfold State.applyChange
  exact ite_leaves (State.dropEntry_unnamed ..) (State.writeEntry_unnamed ..)

theorem State.applyChanges_unnamed (s : State) (version : Nat) (prints : List Nat) (i : Nat) (l : List Change) :
    (s.applyChanges version prints i l).2.unnamed = s.unnamed := by
  induction l generalizing s i with
  | nil => rfl
  | cons c l ih => exact (ih ..).trans (State.applyChange_unnamed ..)

/-! ### The key of a change after it -/

theorem find?_insertKey (r : KeyRec) (l : List KeyRec) :
    (insertKey r l).find? (fun k => k.tenant == r.tenant && k.key == r.key) = some r := by
  induction l with
  | nil => simp [insertKey]
  | cons k l ih =>
    unfold insertKey
    split
    · simp
    next h =>
      split
      · simp
      · rw [List.find?_cons_of_neg (by simpa using h), ih]

theorem State.live?_of_store {s u : State} (h : u.store = s.store) (t : Nat) (k : Bytes) : u.live? t k = s.live? t k := by
  have hk : u.asu.keys = s.asu.keys := congrArg (fun x => x.holding.ledger.keys) h
  rw [State.live?, State.key?, hk, State.live?, State.key?]

/-- A record of the key after `mapKey` is a changed one. -/
theorem State.key?_mapKey {s : State} {t : Nat} {k : Bytes} {f : KeyRec → KeyRec} {r : KeyRec}
    (h : (s.mapKey t k f).key? t k = some r) : ∃ q, r = f q := by
  have hp := List.find?_some h
  obtain ⟨q, -, rfl⟩ := List.mem_map.mp (List.mem_of_find?_eq_some h)
  split at hp
  next hq => exact ⟨q, if_pos hq⟩
  next hq => exact absurd (by simpa using hp) hq

/-- A changed record that keeps its name is found under it. -/
theorem State.key?_mapKey_of_some {s : State} {t : Nat} {k : Bytes} {f : KeyRec → KeyRec} {r : KeyRec} (h : s.key? t k = some r)
    (hf : ∀ q, (f q).tenant = q.tenant ∧ (f q).key = q.key) : (s.mapKey t k f).key? t k = some (f r) := by
  have hp : r.tenant = t ∧ r.key = k := by simpa using List.find?_some h
  have he : ((fun q : KeyRec => q.tenant == t && q.key == k) ∘ fun q => if q.tenant = t ∧ q.key = k then f q else q) =
      fun q => q.tenant == t && q.key == k := by
    funext q
    by_cases hq : q.tenant = t ∧ q.key = k
    · simp [hq, hf q]
    · simp [hq]
  unfold State.key? at h
  rw [State.key?, State.mapKey, List.find?_map, he, h, Option.map_some, if_pos hp]

theorem State.writeEntry_live {s : State} {c : Change} {prior old : Option KeyRec} {print version : Nat} :
    ∃ k, (s.writeEntry c prior old print version).live? c.tenant c.key = some k ∧ k.version = version ∧ k.value = c.valueAfter old := by
  obtain ⟨u, r, maps, pin, -, ⟨ht, hk, hv, hval, htomb⟩, hs⟩ := s.writeEntry_putKey c prior old print version
  have hr : (u.putKey r).key? c.tenant c.key = some r := by rw [← ht, ← hk]; exact find?_insertKey ..
  have hm := State.key?_mapKey_of_some (f := fun k => { k with mapPages := maps, pinnedMap := pin }) hr fun _ => ⟨rfl, rfl⟩
  refine ⟨({ r with mapPages := maps, pinnedMap := pin } : KeyRec), ?_, hv, hval⟩
  rw [State.live?_of_store hs, State.live?, hm, Option.filter_some, if_pos (by simp [htomb])]

theorem State.live?_mapKey_of_tombstone {s : State} {t : Nat} {k : Bytes} {f : KeyRec → KeyRec} (hf : ∀ r, (f r).tombstone = true) :
    (s.mapKey t k f).live? t k = none := by
  refine Option.filter_eq_none_iff.mpr fun r hr => ?_
  obtain ⟨q, rfl⟩ := State.key?_mapKey hr
  simp [hf]

theorem State.live?_removeEntry (s : State) {k : KeyRec} {t version : Nat} {key : Bytes} (ht : k.tenant = t) (hk : k.key = key) :
    (s.removeEntry k version).live? t key = none := by
  have h : (s.removeEntry k version).key? t key = none := by
    refine List.find?_eq_none.mpr fun r hr => ?_
    obtain ⟨-, hr⟩ := List.mem_filter.mp hr
    rw [← ht, ← hk, Bool.not_eq_true]
    simpa only [Bool.not_eq_true'] using hr
  rw [State.live?, h, Option.filter_none]

theorem State.dropEntry_live (s : State) (tenant version : Nat) (key : Bytes) :
    (s.dropEntry (s.key? tenant key) tenant version).live? tenant key = none := by
  cases hp : s.key? tenant key with
  | none => simp [State.dropEntry, State.live?, hp]
  | some k =>
    have hk : k.tenant = tenant ∧ k.key = key := by simpa using List.find?_some hp
    obtain ⟨u, -, -, hs | ⟨f, hf, hs⟩⟩ := s.dropEntry_cases k tenant version
    · rw [State.live?_of_store hs, State.live?_removeEntry u hk.1 hk.2]
    · rw [State.live?_of_store hs, hk.2, State.live?_mapKey_of_tombstone hf]

theorem State.applyChange_live_of_write {s : State} {c : Change} {print version : Nat} (h : c.op ≠ opDelete) :
    ∃ k, (s.applyChange c print version).2.2.live? c.tenant c.key = some k ∧ k.version = version ∧
      k.value = c.valueAfter (s.live? c.tenant c.key) := by
  unfold State.applyChange
  dsimp only
  rw [if_neg h]
  exact State.writeEntry_live

theorem State.applyChange_live_of_delete {s : State} {c : Change} {print version : Nat} (h : c.op = opDelete) :
    (s.applyChange c print version).2.2.live? c.tenant c.key = none := by
  unfold State.applyChange
  dsimp only
  rw [if_pos h]
  exact State.dropEntry_live (s.useAfter c (s.live? c.tenant c.key)) ..

/-! ### The commit -/

/-- Behind its elements a commit changes pages, the journal, stripes and its task. -/
theorem State.commit_ledger (s : State) (t : Trs) (place : Nat) :
    (s.commit t place).store.holding.ledger = (s.applyChanges t.version t.prints 0 t.changes).2.store.holding.ledger := by
  unfold State.commit
  dsimp only
  rw [State.releaseStripes_ledger, State.finish_holding, State.mapTrs_holding]
  refine (foldl_leaves (g := fun u => u.store.holding.ledger) (fun _ _ => State.mapStripe_ledger ..) ..).trans ?_
  exact congrArg (fun x => x.holding.ledger) ((State.dropEmpty_store _).trans (State.dropMapPages_store _))

theorem State.commit_version (s : State) (t : Trs) (place : Nat) : (s.commit t place).plc.versionCounter = s.plc.versionCounter :=
  (congrArg (fun x => x.grants.version) (s.commit_ledger t place)).trans
    (congrArg (fun x => x.1.version) (s.applyChanges_unnamed t.version t.prints 0 t.changes))

theorem State.trs?_mapTrs {s : State} {i : Nat} {f : Trs → Trs} {x : Trs} (h : s.trs? i = some x) (hf : ∀ y, (f y).idx = y.idx) :
    (s.mapTrs i f).trs? i = some (f x) := by
  have hx : x.idx = i := by simpa using List.find?_some h
  have he : ((fun y : Trs => y.idx == i) ∘ fun y => if y.idx = i then f y else y) = fun y => y.idx == i := by
    funext y
    by_cases hy : y.idx = i <;> simp [hy, hf y]
  unfold State.trs? at h
  rw [State.trs?, State.mapTrs, List.find?_map, he, h, Option.map_some, if_pos hx]

theorem State.commit_result {s : State} {t x : Trs} {place : Nat} (h : s.trs? t.idx = some x) :
    ∃ y, (s.commit t place).trs? t.idx = some y ∧ y.result = true ∧ y.status = stOk := by
  unfold State.commit
  extract_lets v
  split
  next res s1 e =>
  have h1 : s1.unnamed = s.unnamed := by rw [← s.applyChanges_unnamed v t.prints 0 t.changes, e]
  extract_lets s2 changed plc s3 s4 s5
  have h2 : s2.store = s1.store := (State.dropEmpty_store _).trans (State.dropMapPages_store _)
  have h4 : s4.cqc.trs = s2.cqc.trs := foldl_leaves (g := fun u => u.cqc.trs) (fun _ _ => by rfl) s3 t.stripes
  have hs : s4.trs? t.idx = some x := by
    rw [State.trs?, h4, show s2.cqc.trs = s.cqc.trs from (congrArg Store.trs h2).trans (congrArg Prod.snd h1)]
    exact h
  exact ⟨_, State.trs?_mapTrs (State.trs?_mapTrs hs fun _ => rfl) fun _ => rfl, rfl, rfl⟩

/-! ### The rows -/

section
variable {task : Nat} {s : State} {t : Trs}

theorem execCommit_pageMissing {n : Nat} (ht : s.trs? task = some t) (hr : t.state = .running) (hh : s.held t = true)
    (hn : (s.readChanges t).changeMissing t = some n) : exec (.commit task) s = .next ((s.readChanges t).wantPage n) := by
  simp [exec, execCommit, ht, hr, hh, hn]

theorem execCommit_place {place : Nat} (ht : s.trs? task = some t) (hr : t.state = .running) (hh : s.held t = true)
    (hn : (s.readChanges t).changeMissing t = none) (hp : t.place = some place) :
    exec (.commit task) s = if (s.readChanges t).reservedBefore place = true ∨
        (s.readChanges t).invalidationsFull ((s.readChanges t).commit t place) = true ∨
        ((s.readChanges t).commit t place).framesFull = true
      then .next (s.readChanges t) else .next ((s.readChanges t).commit t place) := by
  simp [exec, execCommit, ht, hr, hh, hn, hp]

theorem execCommit_noPlace (ht : s.trs? task = some t) (hr : t.state = .running) (hh : s.held t = true)
    (hn : (s.readChanges t).changeMissing t = none) (hp : t.place = none) :
    exec (.commit task) s =
      if 2 ^ 64 - 1 < (s.readChanges t).plc.versionCounter + t.changes.length then .next ((s.readChanges t).enterCharcoal 4)
      else if !(s.readChanges t).journalRoom (recordBytes (t.changes.map fun c => c.key.length)) then
        .next (if t.parked then s.readChanges t
          else ((s.readChanges t).mapTrs task fun u => { u with parked := true }).bump 0x9060 0x10 1)
      else .next ((s.readChanges t).reserve t) := by
  simp only [exec, execCommit, ht, hr, hh, hn, hp, ne_eq, not_true_eq_false, Bool.not_true, Bool.false_eq_true, or_self, if_false]

end

theorem State.journalRoom_iff {s : State} {n : Nat} : s.journalRoom n = true ↔ s.journalUsed + n ≤ journalRing := by
  simp [State.journalRoom]

/-- Settles O14: the ledger over placing, start, joining and the head of a chain; COMMIT's first pass is the reservation. -/
theorem nothingCommitsBeforeItsCommit : Obligations.NothingCommitsBeforeItsCommit := by
  unfold Obligations.NothingCommitsBeforeItsCommit
  refine ⟨fun task s t h => ?_, fun task s t ht hr hh hb hm hp hv hj => ⟨?_, s.reserve_version t, s.reserve_keys t⟩,
    State.commit_version⟩
  · have of_ledger (hl : t.store.holding.ledger = s.store.holding.ledger) :
        t.asu.keys = s.asu.keys ∧ t.plc.versionCounter = s.plc.versionCounter :=
      ⟨congrArg Ledger.keys hl, congrArg (fun x => x.grants.version) hl⟩
    have of_row {op : Nat} (h : (Host.Outcome.next (s.writeRow task op) : Host.Outcome State Fault Refusal) = .next t) :
        t.asu.keys = s.asu.keys ∧ t.plc.versionCounter = s.plc.versionCounter := by
      cases h
      exact of_ledger (s.writeRow_ledger task op)
    rcases h with h | h | h | h | h | h | ⟨h, hs⟩ | h | h
    · exact of_row h
    · exact of_row h
    · exact of_row h
    · exact of_row h
    · exact of_row h
    · exact of_row h
    · exact of_ledger (congrArg Holding.ledger (execCommandStart_holding h hs))
    · exact execKeyLockJoin_keys h
    · exact of_ledger (congrArg Holding.ledger (execKeyChainHead_holding h))
  · have hs := State.readChanges_of_no_faults hb t
    rw [execCommit_noPlace ht hr hh (by rw [hs, hm]) hp, hs, if_neg (by omega), if_neg (by simp [hj])]

theorem Change.valueAfter_put {c : Change} {o : Option KeyRec} (h : c.op = opPut ∨ c.op = opPutIf) : c.valueAfter o = c.payload := by
  simp [Change.valueAfter, h]

theorem Change.valueAfter_append {c : Change} {o : Option KeyRec} (h : c.op = opAppend) :
    c.valueAfter o = (o.map (·.value)).getD [] ++ c.payload := by
  simp [Change.valueAfter, h, opAppend, opPut, opPutIf]

theorem Change.valueAfter_punch {c : Change} {o : Option KeyRec} (h : c.op = opPunch) : c.valueAfter o =
    ((o.map (·.value)).getD []).take c.off ++ zeros (min c.len (((o.map (·.value)).getD []).length - c.off)) ++
      ((o.map (·.value)).getD []).drop (c.off + c.len) := by
  simp [Change.valueAfter, h, opAppend, opPut, opPutIf, opPunch]

/-- What a commit of one element leaves of its key is what the element does. -/
theorem State.commit_live {s : State} {t : Trs} {place : Nat} {c : Change} (hc : t.changes = [c]) :
    (s.commit t place).live? c.tenant c.key = (s.applyChange c (t.prints.getD 0 0) t.version).2.2.live? c.tenant c.key := by
  have hk : (s.commit t place).asu.keys = (s.applyChange c (t.prints.getD 0 0) t.version).2.2.asu.keys := by
    have h := congrArg Ledger.keys (s.commit_ledger t place)
    rw [hc] at h
    exact h
  rw [State.live?, State.key?, hk, State.live?, State.key?]

/-- Settles O33: COMMIT's forms in turn, then what one element leaves of its key. -/
theorem commitPointEffect : Obligations.CommitPointEffect := by
  unfold Obligations.CommitPointEffect
  refine ⟨fun task s w t ht hr hh hw => ?_, fun _ t hb => State.readChanges_of_no_faults hb t, fun s t x place c hc hx => ⟨?_, ?_, ?_⟩⟩
  · subst hw
    refine ⟨fun n => execCommit_pageMissing ht hr hh, fun hn => ⟨fun place hp hb hi hf => ?_, fun place hp hwait => ?_, fun hp =>
      ⟨fun hv => ?_, fun hv => ⟨fun hj hq => ?_, fun hj => ⟨?_, State.reserve_version ..⟩⟩⟩⟩⟩
    · rw [execCommit_place ht hr hh hn hp, if_neg (by simp [hb, hi, hf])]
    · rw [execCommit_place ht hr hh hn hp, if_pos hwait]
    · rw [execCommit_noPlace ht hr hh hn hp, if_pos hv]
    · rw [execCommit_noPlace ht hr hh hn hp, if_neg (by omega), if_pos (by simp [State.journalRoom, hj]), hq]
      rfl
    · rw [execCommit_noPlace ht hr hh hn hp, if_neg (by omega), if_neg (by simp [State.journalRoom_iff.mpr hj])]
  · intro v ho hv
    obtain ⟨k, hk, hver, hval⟩ := State.applyChange_live_of_write (s := s) (print := t.prints.getD 0 0) (version := t.version) ho
    subst hv
    exact ⟨k, (State.commit_live hc).trans hk, hver, fun h => hval.trans (Change.valueAfter_put h),
      fun h => hval.trans (Change.valueAfter_append h), fun h => hval.trans (Change.valueAfter_punch h)⟩
  · exact fun ho => (State.commit_live hc).trans (State.applyChange_live_of_delete ho)
  · exact State.commit_result hx

end Sys2Proof.Machine
end

section
/-!
The dictionary store as its entries read (R145, R478, R480, R490).
-/
namespace Sys2Proof.Machine

theorem odKey_ne {i u j w : Nat} (hu : u < 256) (hw : w < 256) (h : ¬ (j = i ∧ w = u)) : odKey j w ≠ odKey i u :=
  fun e => h (odKey_inj hw hu e)

@[simp] theorem State.stored_put_same (s : State) (i u : Nat) (v : OdVal) : (s.put i u v).stored i u = v.canon := by
  rw [State.stored, State.put, odGet_insert_same, Option.getD_some]

theorem State.stored_put_of_ne {s : State} {i u j w : Nat} {v : OdVal} (h : odKey j w ≠ odKey i u) :
    (s.put i u v).stored j w = s.stored j w := by
  rw [State.stored, State.put, odGet_insert_other _ _ _ _ h, State.stored]

@[simp] theorem State.num_putNum_same (s : State) (i u n : Nat) : (s.putNum i u n).num i u = n := by
  rw [State.num, State.putNum, State.stored_put_same, OdVal.canon]

theorem State.bump_of_entry {s : State} {i u n : Nat} {e : EntryRow} (h : entryAt i u = some e) :
    s.bump i u n = s.putNum i u (min (s.num i u + n) (2 ^ (8 * e.type.size) - 1)) := by
  simp only [State.bump, h, satAddW, maxU]

theorem State.stored_bump_of_ne {s : State} {i u n j w : Nat} (h : odKey j w ≠ odKey i u) :
    (s.bump i u n).stored j w = s.stored j w :=
  State.stored_put_of_ne h

/-- Settles O9: reading a key of the store after it, or another, was inserted. -/
theorem entryReadAfterWrite : Obligations.EntryReadAfterWrite := by
  unfold Obligations.EntryReadAfterWrite
  refine ⟨fun s i u v => ⟨s.stored_put_same i u v, fun j w hu hw h => ?_, rfl⟩, fun s i u n e he => ⟨?_, fun j w hu hw h => ?_⟩⟩
  · exact State.stored_put_of_ne (odKey_ne hu hw h)
  · rw [State.bump_of_entry he, State.num_putNum_same]
  · exact State.stored_bump_of_ne (odKey_ne hu hw h)

end Sys2Proof.Machine
end

section
/-!
FRAGMENT_RX, ACK_ONLY, ACK_DUE and FRAGMENT_SEND (R104, R107, R113, R114, R118, R136).
-/
namespace Sys2Proof.Machine

section
variable {p : Port} {s : State} {d : Datagram} {rest : List Datagram}

theorem execFragmentRx_oldest (hd : (s.port p).toWte = d :: rest) (ha : s.wteAwake = true) (hf : d.frag.has flAckOnly = false) :
    exec (.fragmentRx p) s = .next
      ((((s.mapPort p fun x => { x with toWte := rest }).takeIn p d).fragment p d.frag).release p d.part d.len) := by
  simp [exec, execFragmentRx, hd, ha, hf]

theorem execAckOnly_oldest (hd : (s.port p).toWte = d :: rest) (ha : s.wteAwake = true) (hf : d.frag.has flAckOnly = true) :
    exec (.ackOnly p) s = .next
      ((((s.mapPort p fun x => { x with toWte := rest }).takeIn p d).ackFragment p d.frag).release p d.part d.len) := by
  simp [exec, execAckOnly, hd, ha, hf]

end

section
variable {id : Nat} {s : State} {x : Session}

theorem execAckDue_due {t : Nat} (hx : s.session? id = some x) (ha : s.wteAwake = true) (hd : x.ackDue = some t) (ht : t ≤ s.now) :
    exec (.ackDue id) s = .next (s.sendAck id false) := by
  simp [exec, execAckDue, hx, ha, hd, ht]

/-- A fragment goes out unless the session is sealed and its nonces are used up (R138). -/
theorem State.dispatch_of_nonce {f : TxFrag} {value : Option Nat} (h : x.sealed = true → x.nextNonce.isSome = true) :
    ∃ g u, s.dispatch x f value = some (g, u) := by
  unfold State.dispatch
  cases hx : x.sealed with
  | false => exact ⟨_, _, rfl⟩
  | true =>
    obtain ⟨⟨n, rekey⟩, hn⟩ := Option.isSome_iff_exists.mp (h hx)
    rw [hn]
    exact ⟨_, _, rfl⟩

theorem execFragmentSend_piece {m m' : TxMessage} {p : Piece} {f : TxFrag} {u : State} (ha : s.wteAwake = true)
    (hx : s.session? id = some x) (hw : seqLt x.peerEdge x.txNext = false) (ho : x.outgoing.find? (fun m => m.hasWork) = some m)
    (hm : m.next (s.txLimit x m.resp.cls) (x.ipHead + 48 + x.encLen) = some (p, m'))
    (hd : (s.bufferRead (.outbound id x.txNext)).2.dispatch x (x.fragment m p x.txNext) (m.resp.valueOf p) = some (f, u)) :
    exec (.fragmentSend id) s = .next (u.mapSession id fun y => { y with
      txNext := seqAdd y.txNext 1, outgoing := y.outgoing.map fun n => if n = m then m' else n,
      unacked := y.unacked ++ [{ frag := { f with timed := none }, firstSent := u.cqc.cycle, retries := 0, resent := false,
                                 fastAt := none }],
      rtoFrom := if y.unacked.isEmpty then some u.cqc.cycle else some (y.rtoFrom.getD u.cqc.cycle) }) := by
  simp [exec, execFragmentSend, State.sendNext, State.sendFrom, ha, hx, hw, ho, hm, hd]

end

/-- Settles O22: the oldest datagram by its flag, an acknowledgement that is due, a piece whose nonce is there. -/
theorem fragmentCommands : Obligations.FragmentCommands := by
  unfold Obligations.FragmentCommands
  refine ⟨fun p s d rest hd ha => ⟨execFragmentRx_oldest hd ha, execAckOnly_oldest hd ha⟩, fun id s x t => execAckDue_due,
    fun id s x m m' p ha hx hw ho hm hn => ?_⟩
  obtain ⟨f, u, hd⟩ := State.dispatch_of_nonce (s := (s.bufferRead (.outbound id x.txNext)).2)
    (f := x.fragment m p x.txNext) (value := m.resp.valueOf p) hn
  exact ⟨f, u, hd, execFragmentSend_piece ha hx hw ho hm hd⟩

end Sys2Proof.Machine
end

section
/-!
RTO_EXPIRY (R108, R110, R111, R112).
-/
namespace Sys2Proof.Machine

section
variable {id t : Nat} {s : State} {x : Session} (ha : s.wteAwake = true) (hx : s.session? id = some x) (hr : x.rtoFrom = some t)
  (hd : t + x.rto ≤ s.cqc.cycle)
include ha hx hr hd

theorem execRtoExpiry_resends {u : Unacked} {rest : List Unacked} (hu : x.unacked = u :: rest) (hn : x.retries < 8) :
    exec (.rtoExpiry id) s = .next (((s.mapSession id fun y =>
      { y with retries := y.retries + 1, rto := min 50000000 (2 * y.rto), rtoFrom := some s.cqc.cycle }).resend id u.frag.seq
        fun w => { w with retries := w.retries + 1 }).bump 0x2012 0x03 1) := by
  have h8 : ¬ 8 ≤ x.retries := Nat.not_le.mpr hn
  simp [exec, execRtoExpiry, ha, hx, hr, hd, hu, h8]

theorem execRtoExpiry_probes (hu : x.unacked = []) (hp : x.probing = true ∨ x.stuck = true) (hn : x.retries < 8) :
    exec (.rtoExpiry id) s = .next ((s.mapSession id fun y =>
      { y with retries := y.retries + 1, rto := min 50000000 (2 * y.rto), rtoFrom := some s.cqc.cycle }).sendAck id true) := by
  have h8 : ¬ 8 ≤ x.retries := Nat.not_le.mpr hn
  have hq : x.probing = false → x.stuck = true := fun h => hp.resolve_left (by simp [h])
  simp +contextual [exec, execRtoExpiry, ha, hx, hr, hd, hu, h8, hq]

theorem execRtoExpiry_dies (hw : x.unacked ≠ [] ∨ x.probing = true ∨ x.stuck = true) (hn : 8 ≤ x.retries) :
    exec (.rtoExpiry id) s = .next (s.sessionDies x false) := by
  have hq : x.unacked = [] → x.probing = false → x.stuck = true := fun hu h =>
    (hw.resolve_left (by simp [hu])).resolve_left (by simp [h])
  simp +contextual [exec, execRtoExpiry, ha, hx, hr, hd, hn, hq]

end

/-- Settles O23: a timer that has run out, by what it waits for and by its retries. -/
theorem rtoExpiryEffect : Obligations.RtoExpiryEffect := by
  unfold Obligations.RtoExpiryEffect
  exact fun id t s x ha hx hr hd => ⟨fun u rest => execRtoExpiry_resends ha hx hr hd, execRtoExpiry_probes ha hx hr hd,
    execRtoExpiry_dies ha hx hr hd⟩

end Sys2Proof.Machine
end

section
/-!
What ends with time: sessions, nonce epochs, replay entries and kept caches (R122, R125, R132, R139, R142, R143, R144).
-/
namespace Sys2Proof.Machine

section
variable {id : Nat} {s : State} {x : Session}

theorem State.due_of_le {t : Nat} (h : t ≤ s.now) : s.due t = true := decide_eq_true h

theorem execSessionIdleExpiry_due (hx : s.session? id = some x) (hh : x.half = false)
    (hd : x.lastAuth + s.num 0x2001 0 * 1000 ≤ s.now) : exec (.sessionIdleExpiry id) s = .next (s.sessionDies x true) := by
  simp [exec, execSessionIdleExpiry, hx, hh, State.due_of_le hd]

theorem execHalfOpenExpiry_due {t : Nat} (hx : s.session? id = some x) (hp : x.phase = .halfOpen t) (hd : t + 100000 ≤ s.now)
    (hc : s.confirming id = false) : exec (.halfOpenExpiry id) s = .next (s.endSession id) := by
  simp [exec, execHalfOpenExpiry, hx, hp, State.due_of_le hd, hc]

end

/-- The replay entries that REPLAY_ENTRY_EXPIRY leaves of a list at a device time. -/
def keepReplay (req now : Nat) (l : List ReplayEntry) : List ReplayEntry :=
  l.filter fun e => !(e.reqId == req && decide (e.postedAt + 30000000 ≤ now))

/-- An entry of the request that is left has not had its 30 s (R122). -/
theorem lt_of_mem_keepReplay {req now : Nat} {l : List ReplayEntry} {e : ReplayEntry} (h : e ∈ keepReplay req now l)
    (hr : e.reqId = req) : now < e.postedAt + 30000000 := by
  simpa [hr] using (List.mem_filter.mp h).2

theorem execReplayEntryExpiry_eq (id req : Nat) (s : State) : exec (.replayEntryExpiry id req) s = .next { s with
    wte.sessions := s.wte.sessions.map fun x => if x.id = id then { x with replay := keepReplay req s.now x.replay } else x,
    wte.kept := s.wte.kept.map fun (k : KeptCache) =>
      if k.session = id then { k with entries := keepReplay req s.now k.entries } else k } := rfl

/-- Where the elements that meet a condition are updated, one that meets it afterwards is an updated one. -/
theorem eq_of_mem_map_ite {α : Type} {l : List α} {c : α → Prop} [DecidablePred c] {f : α → α} {y : α}
    (h : y ∈ l.map fun x => if c x then f x else x) (hc : c y) : ∃ x, y = f x := by
  obtain ⟨x, -, rfl⟩ := List.mem_map.mp h
  by_cases hx : c x
  · exact ⟨x, if_pos hx⟩
  · rw [if_neg hx] at hc
    exact absurd hc hx

/-- Settles O24: the first two by their time, the other three at any time, with what has not ended left. -/
theorem sessionTimers : Obligations.SessionTimers := by
  unfold Obligations.SessionTimers
  refine ⟨fun id s x => execSessionIdleExpiry_due, fun id t s x => execHalfOpenExpiry_due, fun id s => rfl,
    fun id req s => ⟨_, execReplayEntryExpiry_eq id req s, fun x hx hid e he hr => ?_, fun k hk hid e he hr => ?_, rfl⟩, fun id s => rfl⟩
  · obtain ⟨y, rfl⟩ := eq_of_mem_map_ite (c := fun x : Session => x.id = id) hx hid
    exact lt_of_mem_keepReplay he hr
  · obtain ⟨y, rfl⟩ := eq_of_mem_map_ite (c := fun k : KeptCache => k.session = id) hk hid
    exact lt_of_mem_keepReplay he hr

end Sys2Proof.Machine
end

section
/-!
SESSION_OPEN, SESSION_CONFIRM and SESSION_CLOSE (R127 to R132, R141, R176, R187).
-/
namespace Sys2Proof.Machine

theorem State.takeHandshake_of_findIdx? {s t : State} {op i : Nat} {h : Handshake}
    (hi : s.wte.handshakes.findIdx? (fun h => h.frag.opcode == op) = some i) (hh : s.wte.handshakes[i]? = some h)
    (ht : t = { s with wte.handshakes := s.wte.handshakes.eraseIdx i }) : s.takeHandshake op = some (h, t) := by
  simp [State.takeHandshake, hi, hh, ht]

section
variable {s t : State} {h : Handshake}

theorem State.repeatReply_of_opening {x : Session} {o : HalfOpen} (ho : x.opening = some o) :
    t.repeatReply x = t.sendReply x.port o.reply x.carriage := by
  simp [State.repeatReply, ho]

theorem execSessionOpen_repeated {x : Session} (hg : s.gap = false) (ht : s.takeHandshake opOpen = some (h, t))
    (hr : t.repeated h = some x) : exec .sessionOpen s = .next (t.repeatReply x) := by
  simp [exec, execSessionOpen, hg, ht, hr]

/-- Past the checks a first SESSION_OPEN goes by the limits, the queue and the tenant's key page, in this order. -/
theorem execSessionOpen_first (hg : s.gap = false) (ht : s.takeHandshake opOpen = some (h, t)) (hr : t.repeated h = none)
    (hp : t.openPending h = false) (hb : h.openBad = none) : exec .sessionOpen s =
      if t.sessionsFull then .next (t.refuse h stRetryLater 0 0)
      else if t.queueClosed then .next (t.refuse h stRetryLater 0 t.drainWait)
      else if (t.keyPage (field h.fields 24 2)).state ≠ 2 then .next (t.refuse h stAuthFailed 0 0)
      else .next (t.queueJob (.handshakeOpen h)) := by
  simp [exec, execSessionOpen, hg, ht, hr, hp, hb]

theorem execSessionConfirm_noHalfOpen (hg : s.gap = false) (ht : s.takeHandshake opConfirm = some (h, t)) (hb : h.confirmBad = none)
    (hx : (t.session? h.frag.session).filter Session.half = none) : exec .sessionConfirm s = .next (t.refuse h stNoSession 0 0) := by
  simp only [exec, execSessionConfirm, hg, ht, hb, hx, Bool.false_eq_true, if_false]

theorem execSessionConfirm_halfOpen {x : Session} (hg : s.gap = false) (ht : s.takeHandshake opConfirm = some (h, t))
    (hb : h.confirmBad = none) (hx : t.session? h.frag.session = some x) (hh : x.half = true) (hc : t.confirming x.id = false)
    (hq : t.queueClosed = false) : exec .sessionConfirm s =
      if (t.macBlocks x.id x.tenant 15).mcOk x h then .next ((t.macBlocks x.id x.tenant 15).queueJob (.handshakeConfirm h))
      else .next (((t.macBlocks x.id x.tenant 15).refuse h stAuthFailed 0 0).endSession x.id) := by
  have hf : (t.session? h.frag.session).filter Session.half = some x := by rw [hx, Option.filter_some, if_pos hh]
  simp only [exec, execSessionConfirm, hg, ht, hb, hf, hc, hq, Bool.false_eq_true, if_false]

theorem execSessionClose_running {task : Nat} {r : Trs} (hr : s.running task opClose = some r) :
    exec (.sessionClose task) s = .next (s.finish task stOk 0 [] []) := by
  simp [exec, execSessionClose, hr]

end

/-- Settles O25: the oldest request of its kind is taken and goes by its checks; a close ends with OK. -/
theorem sessionHandshake : Obligations.SessionHandshake := by
  unfold Obligations.SessionHandshake
  refine ⟨fun s t h i hg hi hh ht => ?_, fun s t h i hg hi hh ht hb => ?_, fun task s r => execSessionClose_running⟩
  · have hd : s.takeHandshake opOpen = some (h, t) := State.takeHandshake_of_findIdx? hi hh ht
    refine ⟨fun x o hr ho => ?_, fun hr hp hb => ⟨fun hf hq hk => ?_, fun hf hq => ?_, fun hf => ?_⟩⟩
    · rw [execSessionOpen_repeated hg hd hr, State.repeatReply_of_opening ho]
    · simp [execSessionOpen_first hg hd hr hp hb, hf, hq, hk]
    · simp [execSessionOpen_first hg hd hr hp hb, hf, hq]
    · simp [execSessionOpen_first hg hd hr hp hb, hf]
  · have hd : s.takeHandshake opConfirm = some (h, t) := State.takeHandshake_of_findIdx? hi hh ht
    refine ⟨execSessionConfirm_noHalfOpen hg hd hb, fun x hx hl hc hq => ⟨fun hm => ?_, fun hm => ?_⟩⟩
    · rw [execSessionConfirm_halfOpen hg hd hb hx hl hc hq, if_pos hm]
    · rw [execSessionConfirm_halfOpen hg hd hb hx hl hc hq, if_neg (by simp [hm])]

end Sys2Proof.Machine
end

section
/-!
QUEUE_RESET, SANITIZE, FORMAT and POWER_STATE (R179 to R188, R214, R216).
-/
namespace Sys2Proof.Machine

/-! ### POWER_STATE -/

section
variable {task : Nat} {s : State} {t : Trs}

theorem execQuery_powerTask (h : s.powerTask task 0 = some t) : exec (.query task) s = .next (s.setPolicy task s.cqc.policy) := by
  simp [exec, execQuery, h]

theorem execStayReady_powerTask (h : s.powerTask task 1 = some t) : exec (.stayReady task) s = .next (s.setPolicy task 1) := by
  simp [exec, execStayReady, h]

theorem execAuto_powerTask (h : s.powerTask task 2 = some t) : exec (.auto task) s = .next (s.setPolicy task 0) := by
  simp [exec, execAuto, h]

theorem execDozeNow_powerTask (h : s.powerTask task 3 = some t) :
    exec (.dozeNow task) s = .next (s.setPolicy task (if s.cqc.policy = 3 then 3 else 2)) := by
  simp [exec, execDozeNow, h]

theorem execPrepareHold_no_drain (h : s.powerTask task 4 = some t) (hd : s.cqc.drain = none) : exec (.prepareHold task) s =
    .next ({ s with cqc.policyBefore := s.cqc.policy }.startDrain (.prepareHold task)) := by
  simp [exec, execPrepareHold, h, hd]

end

/-! ### QUEUE_RESET -/

theorem execQueueReset_running {task : Nat} {s : State} {t : Trs} (h : s.running task opQueueReset = some t) :
    exec (.queueReset task) s = .next (s.queueReset t) := by
  simp [exec, execQueueReset, h]

theorem State.queueReset_of_posted {s u v : State} {t : Trs}
    (hu : s.abortTasks ((s.cqc.trs.filter fun u => u.abortedBy == some t.idx).mergeSort fun a b => decide (a.idx ≤ b.idx)) = (true, u))
    (hv : u.abortDescs (u.cqc.aborting.filter fun e => e.1 == t.idx) = (true, v)) :
    s.queueReset t = v.pruneOlder.releaseHeld.finish t.idx stOk 0 t.respFields [] := by
  simp only [State.queueReset, hu, hv]

theorem State.queueReset_of_nothing_stopped {s : State} {t : Trs} (hu : ∀ u ∈ s.cqc.trs, u.abortedBy ≠ some t.idx)
    (hv : ∀ e ∈ s.cqc.aborting, e.1 ≠ t.idx) :
    s.queueReset t = s.pruneOlder.releaseHeld.finish t.idx stOk 0 t.respFields [] := by
  have hu' : (s.cqc.trs.filter fun u => u.abortedBy == some t.idx) = [] := List.filter_eq_nil_iff.mpr (by simpa using hu)
  have hv' : (s.cqc.aborting.filter fun e => e.1 == t.idx) = [] := List.filter_eq_nil_iff.mpr (by simpa using hv)
  exact State.queueReset_of_posted (u := s) (by simp [hu', State.abortTasks]) (by simp [hv', State.abortDescs])

/-! ### SANITIZE and FORMAT -/

theorem State.sanitizeStep_runs {task mode : Nat} {s u : State} {t : Trs} (ht : s.trs? task = some t) (ho : t.opcode = opSanitize)
    (hr : t.result = false) (hs : t.state = .running) (ha : t.abortedBy = none) (hm : field t.fields 24 1 = mode)
    (hu : u = (if t.parked then s.stopUnstarted t else (s.stopUnstarted t).startSanitize t))
    (hn : u.noneStarted task (fun v => sanitizeRefuses v.opcode v.fields) = true) (hj : u.journalRoom 64 = true) :
    s.sanitizeStep task mode = u.runSanitize t := by
  subst hu
  simp [State.sanitizeStep, ht, ho, hr, hs, ha, hm, hn, hj]

/-- The command of each mode of a SANITIZE is that mode's step. -/
theorem exec_sanitize {task mode : Nat} {c : Instr}
    (hc : (c, mode) ∈ [(Instr.sanitizeCrypto task, 1), (.sanitizeBlockErase task, 2), (.sanitizeOverwrite task, 3)]) (s : State) :
    exec c s = .next (s.sanitizeStep task mode) := by
  simp only [List.mem_cons, Prod.mk.injEq, List.not_mem_nil, or_false] at hc
  obtain ⟨rfl, rfl⟩ | ⟨rfl, rfl⟩ | ⟨rfl, rfl⟩ := hc <;> rfl

/-- A SANITIZE ends with OK and its mode. -/
theorem State.runSanitize_finish (s : State) (t : Trs) :
    ∃ v : State, s.runSanitize t = v.finish t.idx stOk 0 (natBytes 1 (field t.fields 24 1) ++ zeros 7) [] := ⟨_, rfl⟩

theorem execFormat_begun {task : Nat} {s : State} {t : Trs} {f : Nat × List Nat} (hr : s.running task opFormat = some t)
    (hf : s.plc.formats.find? (fun f => f.1 == task) = some f) (hn : s.noneStarted task (fun u => f.2.contains u.tenant) = true) :
    exec (.format task) s = .next (s.runFormat t f.2) := by
  have hb : (s.plc.formats.any fun f => f.1 == task) = true :=
    List.any_eq_true.mpr ⟨f, List.mem_of_find?_eq_some hf, List.find?_some (p := fun f : Nat × List Nat => f.1 == task) hf⟩
  simp only [exec, execFormat, hr, hb, if_true, hf, hn]

/-- A FORMAT ends with OK. -/
theorem State.runFormat_finish (s : State) (t : Trs) (l : List Nat) : ∃ u : State, s.runFormat t l = u.finish t.idx stOk 0 [] [] :=
  ⟨_, rfl⟩

/-- Settles O29: POWER_STATE by its code, QUEUE_RESET by what it has stopped, SANITIZE and FORMAT whose started commands have
ended. -/
theorem administrativeOperations : Obligations.AdministrativeOperations := by
  unfold Obligations.AdministrativeOperations
  refine ⟨fun task s t => ⟨execQuery_powerTask, execStayReady_powerTask, execAuto_powerTask, fun h hp => ?_, fun h hp => ?_,
    execPrepareHold_no_drain⟩, fun task s t h => ⟨fun u v hu hv => ?_, fun hu hv => ?_⟩,
    fun task mode c s u t hc ht ho hr hs ha hm hu hn hj => ?_, fun task s t f hr hf hn => ?_⟩
  · rw [execDozeNow_powerTask h, if_neg hp]
  · rw [execDozeNow_powerTask h, if_pos hp]
  · rw [execQueueReset_running h, State.queueReset_of_posted hu hv]
  · rw [execQueueReset_running h, State.queueReset_of_nothing_stopped hu hv]
  · have he : exec c s = .next (u.runSanitize t) := by rw [exec_sanitize hc, State.sanitizeStep_runs ht ho hr hs ha hm hu hn hj]
    obtain ⟨v, hv⟩ := u.runSanitize_finish t
    rw [hm] at hv
    exact ⟨v, by rw [he, hv], he⟩
  · have he := execFormat_begun hr hf hn
    obtain ⟨u, hu⟩ := s.runFormat_finish t f.2
    exact ⟨u, by rw [he, hu], he⟩

end Sys2Proof.Machine
end

section
/-!
OD_READ, OD_WRITE, the tick and the module-wide entries (R172, R173, R486, R489, R493, R497, R498).
-/
namespace Sys2Proof.Machine

/-! ### The gates of a tenant's session -/

section
variable {s : State} {tenant i sub : Nat} {e : EntryRow}

/-- What the boot ROM serves beside the module's state it serves over the service port alone (R611). -/
theorem State.servesFor_session : s.servesFor (.session tenant) i = s.serves i := by
  have h : (Requester.session tenant == .service) = false := rfl
  simp [State.servesFor, h]

theorem readGate_session (he : entryAt i sub = some e) : readGate s (.session tenant) i sub =
    if mayRead (.session tenant) i = false then stNotFound else if s.serves i = false then stRetryLater else stOk := by
  simp [readGate, he, State.servesFor_session]

theorem frameGate_session {v : OdVal} {n : Nat} (he : entryAt i sub = some e) (hr : mayRead (.session tenant) i = true)
    (ha : e.access ≠ .ro) (hw : mayWrite (.session tenant) i sub v = true)
    (hl : if e.type.isBytes then 1 ≤ n ∧ n ≤ e.type.size else n = e.type.size) (hs : s.serves i = true)
    (hm : i = 0xD010 → s.serves 0x1000 = true) : frameGate s (.session tenant) i sub n v = stOk := by
  have hl' : (if e.type.isBytes then decide (1 ≤ n ∧ n ≤ e.type.size) else decide (n = e.type.size)) = true := by
    split at hl
    · next hb => rw [if_pos hb, decide_eq_true hl]
    · next hb => rw [if_neg hb, decide_eq_true hl]
  simp only [frameGate, he, hr, ha, hw, hl', State.servesFor_session, hs, Bool.not_true, Bool.false_eq_true, or_self, false_or,
    if_false]
  exact if_neg fun ⟨h, hn⟩ => by simp [hm h] at hn

end

/-! ### OD_READ and OD_WRITE -/

section
variable {task i sub off n : Nat} {s : State} {t : Trs} {e : EntryRow} (h : s.running task opOdRead = some t)
  (hi : i = field t.fields 24 2) (hu : sub = field t.fields 26 1)
include h hi hu

theorem execOdRead_no_entry (he : entryAt i sub = none) : exec (.odRead task) s = .next (s.fail task stNotFound 0) := by
  subst hi hu
  simp only [exec, execOdRead, h, he]

theorem execOdRead_gated {g : Nat} (he : entryAt i sub = some e) (hg : readGate s (.session t.tenant) i sub = g) (h0 : g ≠ stOk) :
    exec (.odRead task) s = .next (s.fail task g 0) := by
  subst hi hu hg
  simp only [exec, execOdRead, h, he, h0, ne_eq, not_false_eq_true, if_true]

theorem execOdRead_open (ho : off = field t.fields 28 4)
    (hn : n = (if field t.fields 32 4 = 0 then 1048576 else field t.fields 32 4)) (he : entryAt i sub = some e)
    (hg : readGate s (.session t.tenant) i sub = stOk) : exec (.odRead task) s =
      if e.type.size < off then .next (s.fail task stRange 0)
      else .next ((s.readEffect i sub off n).finish task stOk 0 (natBytes 4 e.type.size ++ natBytes 4 off)
        (s.readWindow e i sub off n)) := by
  subst hi hu ho hn
  simp only [exec, execOdRead, h, he, hg, ne_eq, not_true_eq_false, if_false]

end

theorem State.readEffect_plain {s : State} {i sub off n : Nat} (h1 : i ≠ 0xE209) (h2 : i ≠ 0x5025) : s.readEffect i sub off n = s := by
  simp [State.readEffect, h1, h2]

theorem execOdWrite_open {task i sub : Nat} {s : State} {t : Trs} {b : Bytes} {e : EntryRow} {v : OdVal}
    (h : s.running task opOdWrite = some t) (hb : t.data = some b) (hp : t.parked = false) (ho : s.odWriteBefore t = false)
    (hi : i = field t.fields 24 2) (hu : sub = field t.fields 26 1) (he : entryAt i sub = some e)
    (hv : v = (e.type.read b).getD (.num 1)) (hg : frameGate s (.session t.tenant) i sub b.length v = stOk) :
    exec (.odWrite task) s = .next { s.mapTrs task fun u => { u with parked := true } with
      msv.serial := s.msv.serial ++ [{ req := .session t.tenant, index := i, sub := sub, val := v, at_ := s.now,
                                       task := some t.task, frame := none }] } := by
  subst hi hu hv
  simp [exec, execOdWrite, h, hb, hp, ho, he, hg]

/-! ### The writes of a tick -/

/-- What a tick does once its writes are made: time passes, and a broadcast READ that is due is answered. -/
def State.tickEnd (s : State) : State :=
  (if s.coreRuns then s.reevaluateStep.passTick.readyActive else s.passTick.dozeTick).pollSegment

/-- The RULE_COMMAND write whose turn it is gets its place after the other writes of the tick. -/
def State.takeTurn (s : State) : Option DictWrite → State
  | some w => s.takeParked w
  | none => s

theorem execDictTick_clocked {s : State} (ha : s.aonOn = true) (hc : s.wdn.clockStopped = false) :
    exec .dictTick s = .next (s.serialise.takeTurn s.parkedTurn).tickEnd := by
  simp only [exec, execDictTick, ha, hc, Bool.not_true, Bool.false_eq_true, or_self, if_false]
  cases s.parkedTurn <;> rfl

section
variable {s : State}

theorem State.serialise_over_gap (h : s.writesHeld = true) :
    s.serialise = { s with msv.held := s.msv.serial.foldl (fun l w => insertHeld w l) s.msv.held, msv.serial := [] } := by
  simp only [State.serialise, h, if_true]

theorem State.serialise_of_held {w : DictWrite} {rest : List DictWrite} (h : s.writesHeld = false) (hh : s.msv.held = w :: rest) :
    s.serialise = { s with msv.held := rest }.applyOne w := by
  simp only [State.serialise, h, hh, Bool.false_eq_true, if_false]

theorem State.serialise_of_none_held (h : s.writesHeld = false) (hh : s.msv.held = []) :
    s.serialise = s.takeWrites ([0, 1, 2].filter fun r => s.parkedTurn.all fun w => reqRank w.req != r) := by
  simp only [State.serialise, h, hh, Bool.false_eq_true, if_false]

theorem State.parkedTurn_of_none_waiting (h : s.asu.waiting = []) : s.parkedTurn = none := by
  simp [State.parkedTurn, h]

theorem firstOf_single {w : DictWrite} {now rank : Nat} (ha : w.at_ < now) :
    firstOf [w] now rank = if reqRank w.req = rank then some w else none := by
  by_cases h : reqRank w.req = rank <;> simp [firstOf, h, ha]

/-- A write that waits alone, and came before the running tick began, is the tick's one write. -/
theorem State.takeWrites_of_single {w : DictWrite} (h : s.msv.serial = [w]) (ha : w.at_ < s.now) :
    s.takeWrites [0, 1, 2] = { s with msv.serial := [] }.applyOne w := by
  cases hr : w.req <;> simp [State.takeWrites, h, firstOf_single ha, dropFirst, ha, hr, reqRank, State.runTick]

theorem writeLock_of_plain_entry {i sub : Nat} {e : EntryRow} (he : entryAt i sub = some e) (ha : e.access = .rw)
    (hk : s.keyHeld i sub = false) (hi : i ≠ 0x7400) : writeLock s i sub = stOk := by
  simp [writeLock, he, ha, hk, hi]

theorem applyWrite_plain {r : Requester} {i sub n : Nat} {e : EntryRow} (he : entryAt i sub = some e) (ha : e.access = .rw)
    (hk : s.keyHeld i sub = false) (hi : i ≠ 0x7400) (hr : e.rangeOk (.num n) = true) :
    applyWrite plainEffect r i sub (.num n) s =
      ((((s.putNum i sub (n &&& liveBits i)).control (wholeUnit 0xE) (entryUnit i)).bump 0xE010 0x0F 1).lastWrite r i sub stOk, stOk) := by
  simp [applyWrite, writeLock_of_plain_entry he ha hk hi, he, hr, ha, plainEffect, stOk, stAccessLocked]

/-- The answer OK to an OD_WRITE that waits is its result, with the device time (R173). -/
theorem State.answerWrite_odWrite {w : DictWrite} {t : Trs} {k : Nat} (hi : w.index ≠ 0x7020) (hw : w.task = some k)
    (ht : s.trs? (k % 65536) = some t) (hk : t.task = k) (hr : t.result = false) :
    s.answerWrite w stOk = s.finish t.idx stOk 0 (natBytes 8 s.now) [] := by
  simp [State.answerWrite, hi, hw, ht, hk, hr]

theorem State.applyOne_of_ok {u : State} {w : DictWrite}
    (h : applyWrite (effectOf w.task w.index w.sub) w.req w.index w.sub w.val s = (u, stOk)) :
    s.applyOne w = u.answerWrite w stOk := by
  simp only [State.applyOne, h]
  exact if_neg (by decide)

end

/-! ### Device time over a tick -/

section
variable (s : State)

@[simp] theorem State.dealOver_now (l : List Nat) (j : CipherJob) : (s.dealOver l j).now = s.now := by
  unfold State.dealOver
  extract_lets shares keys u
  have hu : u.now = s.now := foldl_leaves (fun _ _ => by dsimp only; split <;> rfl) s shares
  split <;> exact hu

@[simp] theorem State.deal_now (j : CipherJob) : (s.deal j).now = s.now := by
  unfold State.deal
  split
  · split
    · exact State.dealOver_now ..
    · rfl
  · exact State.dealOver_now ..

@[simp] theorem State.keepModulePage_now : s.keepModulePage.now = s.now := by
  unfold State.keepModulePage
  split
  · rfl
  · split <;> rfl

@[simp] theorem State.runPipelines_now (n : Nat) : (s.runPipelines n).now = s.now :=
  (foldl_leaves State.deal_now ..).trans (State.keepModulePage_now _)

@[simp] theorem State.preload_now (n : Nat) : (s.preload n).now = s.now := by
  unfold State.preload
  split
  · rfl
  · exact foldl_leaves (g := State.now) (f := fun s k => s.queueInsert k n) (fun _ _ => rfl) ..

@[simp] theorem State.bankReturns_now (n : Nat) : (s.bankReturns n).now = s.now := by
  unfold State.bankReturns
  split
  · split
    · exact State.preload_now ..
    · rfl
  · rfl

@[simp] theorem State.banksReturn_now : s.banksReturn.now = s.now := foldl_leaves State.bankReturns_now ..

@[simp] theorem State.slewTick_now : s.slewTick.now = s.now := by
  unfold State.slewTick
  split <;> rfl

/-- Of what happens in a tick the passing of time alone moves device time. -/
theorem State.passTick_devTime : s.passTick.pch.devTime = s.pch.devTime + 1 := by
  change s.passTick.now = s.now + 1
  unfold State.passTick
  exact (State.slewTick_now _).trans ((State.banksReturn_now _).trans (ite_leaves (State.runPipelines_now ..) rfl))

end

/-! ### The module-wide entries -/

theorem execConfigLock_taken {r : Requester} {n : Nat} {s : State} (h : s.takesWrite r 0xF020 0 (.num n)) :
    exec (.configLock r (.num n)) s = .next (s.writeAnswered (s.putNum 0xF020 0 (n &&& liveBits 0xF020)) r 0xF020 0) :=
  congrArg _ (State.ownWrite_taken h rfl)

theorem execRestoreDefaults_taken {r : Requester} {n : Nat} {s : State} (h : s.takesWrite r 0xF021 0 (.num n))
    (hl : s.flag 0xF020 0 = false) (hn : n ≤ 1) :
    exec (.restoreDefaults r (.num n)) s = .next (s.writeAnswered (s.put 0xF021 0 (.num n)) r 0xF021 0) := by
  refine congrArg _ (State.ownWrite_taken h ?_)
  simp [restoreEffect, hl, valNum, Nat.not_lt.mpr hn]

/-- Settles O31: a read and a write by their gates, a tick by the writes it takes, a module-wide entry by its effect. -/
theorem dictionaryCommands : Obligations.DictionaryCommands := by
  unfold Obligations.DictionaryCommands
  refine ⟨fun task s t i sub off n h hi hu ho hn => ⟨execOdRead_no_entry h hi hu, fun e he => ⟨fun hr => ?_, fun hr hs => ?_,
      fun hr hs => ⟨fun hb => ?_, fun hb => ⟨?_, fun h1 h2 => State.readEffect_plain h1 h2⟩⟩⟩⟩,
    fun task i sub s t b e v h hb hp ho hi hu he hv hr ha hw hl hs hm =>
      execOdWrite_open h hb hp ho hi hu he hv (frameGate_session he hr ha hw hl hs hm),
    fun s u v w e t k n ha hc hh hno hwait hser hat htask he hrw hkey h1 h2 hval hrange heff htrs hk hres hu hv => ?_,
    fun s u v ha hc hgap hheld hnone hv => ?_, State.passTick_devTime, fun r n s => execConfigLock_taken,
    fun r n s => execRestoreDefaults_taken⟩
  · exact execOdRead_gated h hi hu he (by rw [readGate_session he, if_pos hr]) (by decide)
  · exact execOdRead_gated h hi hu he (by simp [readGate_session he, hr, hs]) (by decide)
  · rw [execOdRead_open h hi hu ho hn he (by simp [readGate_session he, hr, hs]), if_pos hb]
  · rw [execOdRead_open h hi hu ho hn he (by simp [readGate_session he, hr, hs]), if_neg (Nat.not_lt.mpr hb)]
  · have hturn : s.parkedTurn = none := State.parkedTurn_of_none_waiting hwait
    have hw : applyWrite (effectOf w.task w.index w.sub) w.req w.index w.sub w.val { s with msv.serial := [] } = (u, stOk) := by
      rw [heff, hval, hu]
      exact applyWrite_plain he hrw hkey h1 (hval ▸ hrange)
    have hnow : u.now = s.now := by rw [hu]; rfl
    have htask' : u.trs? (k % 65536) = some t := by rw [hu]; exact htrs
    have hs : s.serialise = v := by
      rw [State.serialise_of_none_held hh hno, hturn, hv, ← hnow]
      exact (State.takeWrites_of_single hser hat).trans
        ((State.applyOne_of_ok hw).trans (State.answerWrite_odWrite h2 htask htask' hk hres))
    rw [execDictTick_clocked ha hc, hs, hturn]
    rfl
  · have hs : s.serialise = u := by
      cases hw : s.writesHeld with
      | true => rw [State.serialise_over_gap hw, hgap hw]
      | false => cases hh : s.msv.held with
        | nil => rw [State.serialise_of_none_held hw hh, hnone hw hh]
        | cons w rest => rw [State.serialise_of_held hw hh, hheld hw w rest hh]
    have ht : u.takeTurn s.parkedTurn = v := by
      rw [hv]
      cases s.parkedTurn <;> rfl
    rw [execDictTick_clocked ha hc, hs, ht]
    rfl

end Sys2Proof.Machine
end

section
/-!
Drains: DRAIN_PHASE_ADVANCE and DRAIN_LIMIT_EXPIRY (R187, R218 to R220).
-/
namespace Sys2Proof.Machine

section
variable {s : State} {d : Drain} (hd : s.cqc.drain = some d)
include hd

/-! ### The phases -/

theorem execDrainPhaseAdvance_no_command_left (hp : d.phase ≤ 2) (hl : s.cqc.trs.all Trs.isPrepare = true) :
    exec .drainPhaseAdvance s = .next { s with cqc.drain := some { d with phase := 3 } }.sealPacked := by
  simp only [exec, execDrainPhaseAdvance, hd, hp, hl, if_true]

theorem execDrainPhaseAdvance_tailWritten (hp : d.phase = 3) (ht : s.tailWritten = true) : exec .drainPhaseAdvance s =
    .next ((((s.cqc.trs.filter fun t => !t.isPrepare).map (·.idx)).foldl (fun s i => s.completeTask i) s).drained d) := by
  simp [exec, execDrainPhaseAdvance, hd, hp, ht]

theorem execDrainPhaseAdvance_restarts (hp : d.phase = 4)
    (hr : s.allAcked = true ∨ d.grace.all (fun t => decide (t ≤ s.now)) = true) :
    exec .drainPhaseAdvance s = .next (s.beginStart (if d.cause = .activation then 4 else 3) 2) := by
  have hr' : s.allAcked = true ∨ (match d.grace with | some t => decide (t ≤ s.now) | none => true) = true := by
    cases hg : d.grace with
    | none => exact .inr rfl
    | some t => simpa [hg] using hr
  simp only [exec, execDrainPhaseAdvance, hd, hp]
  exact congrArg _ (if_pos hr')

/-! ### The limit of the second phase -/

section
variable (hp : d.phase ≤ 2) (hl : d.start + s.num 0x3004 0 * 1000 ≤ s.now)
include hp hl

theorem execDrainLimitExpiry_prepareHold {k : Nat} (hc : d.cause = .prepareHold k) {u : State}
    (hu : u = s.endPrepare stRetryLater 0 fun s => plainError s.drainWait) :
    exec .drainLimitExpiry s = .next { u with cqc.drain := none, cqc.policy := u.cqc.policyBefore }.readyActive := by
  subst hu
  simp [exec, execDrainLimitExpiry, hd, hc, Nat.not_lt.mpr hp, Nat.not_lt.mpr hl]

theorem execDrainLimitExpiry_restart {u v w : State} {rest : List Nat} {n : Nat} (hc : ∀ k, d.cause ≠ .prepareHold k)
    (hu : u = ((s.cqc.trs.filter fun t => t.past && s.modeMet t).map (·.idx)).foldl (fun s i => s.completeTask i) s)
    (hr : rest = (u.cqc.trs.filter fun t => !t.past).map (·.idx)) (hn : n = rest.length + u.cqc.aborting.length)
    (hv : v = rest.foldl (fun s i => s.freeTrs i)
      { u with cqc.aborting := [], msv.serial := u.msv.serial.filter (·.task.isNone) })
    (hw : w = if n = 0 then v
      else (v.bump 0x3010 0x0B n).raise 0x3402 (wholeUnit 3) n (if d.cause = .activation then 4 else 3) 0) :
    exec .drainLimitExpiry s = .next { w with cqc.drain := some { d with phase := 3 } }.sealPacked := by
  have hg : ¬ (2 < d.phase ∨ s.now < d.start + s.num 0x3004 0 * 1000) := by omega
  subst hu hr hn hv hw
  -- `hc` is what the second branch of the match on the cause asks.
  simp only [exec, execDrainLimitExpiry, hd, hg, if_false]

end
end

/-- Settles O35: a drain by its phase, and one past its limit by its cause. -/
theorem drainCommands : Obligations.DrainCommands := by
  unfold Obligations.DrainCommands
  exact ⟨fun s d hd => ⟨execDrainPhaseAdvance_no_command_left hd, execDrainPhaseAdvance_tailWritten hd,
      execDrainPhaseAdvance_restarts hd⟩,
    fun s d k u hd hp hl hc hu => execDrainLimitExpiry_prepareHold hd hp hl hc hu,
    fun s u v w d rest n hd hp hl hc hu hr hn hv hw => execDrainLimitExpiry_restart hd hp hl hc hu hr hn hv hw⟩

end Sys2Proof.Machine
end

section
/-!
ATTEST, PK_JOB and the public-key engine (R177, R364 to R368).
-/
namespace Sys2Proof.Machine

theorem execAttest_not_parked {task : Nat} {s : State} {t : Trs} (hr : s.running task opAttest = some t) (hp : t.parked = false) :
    exec (.attest task) s = .next ((s.mapTrs task fun u => { u with parked := true }).queueJob (.attest t.task)) := by
  simp [exec, execAttest, hr, hp]

/-! ### A write of PK_JOB -/

/-- The image of a job begins with the job's operation. -/
theorem numAt_pkJobImage (b : Bytes) : numAt (pkJobImage b) 0 1 = numAt b 0 1 := by
  cases b <;> simp [pkJobImage, numAt, slice, window, beNat]

/-- Where the write is taken, the effect of an operation of the table queues the job and stores its image. -/
theorem pkJobEffect_of_operation {task : Option Nat} {r : Requester} {index sub : Nat} {v : OdVal} {s : State}
    (h1 : 1 ≤ numAt (valBytes v) 0 1) (h4 : numAt (valBytes v) 0 1 ≤ 4) : pkJobEffect task r index sub v s =
      ((s.queueJob (.dictionary (pkJobImage (valBytes v)) s.now (jobAnswer r task))).put index sub
        (.bytes (pkJobImage (valBytes v))), stOk) := by
  have h : ¬ (numAt (pkJobImage (valBytes v)) 0 1 = 0 ∨ 4 < numAt (pkJobImage (valBytes v)) 0 1) := by
    rw [numAt_pkJobImage]; omega
  simp only [pkJobEffect, if_neg h]

/-- A write that is taken and whose effect answers OK is counted and is the last write. -/
theorem State.takeWrite_taken {s t : State} {eff : WriteEffect} {r : Requester} {i u : Nat} {v : OdVal} (h : s.takesWrite r i u v)
    (he : eff r i u v s = (t, stOk)) : s.takeWrite eff r i u v =
      (((t.control (wholeUnit 0xE) (entryUnit i)).bump 0xE010 0x0F 1).lastWrite r i u stOk, some (stOk, 0)) := by
  obtain ⟨hgate, hheld, hnone, hlock, e, hentry, hrange, hw1⟩ := h
  simp [State.takeWrite, applyWrite, hgate, hheld, hnone, hlock, hentry, hrange, hw1, he, stAccessLocked, stBadRequest, stOk, stParked]

theorem pkRow_taken {op : Nat} {r : Requester} {v : OdVal} {s q w : State} (h : s.takesWrite r 0x7020 0 v) (h1 : 1 ≤ op) (h4 : op ≤ 4)
    (hop : numAt (valBytes v) 0 1 = op)
    (hq : q = (s.queueJob (.dictionary (pkJobImage (valBytes v)) s.now (jobAnswer r none))).put 0x7020 0
      (.bytes (pkJobImage (valBytes v))))
    (hw : w = ((q.control (wholeUnit 0xE) (entryUnit 0x7020)).bump 0xE010 0x0F 1).lastWrite r 0x7020 0 stOk) :
    pkRow op r v s = if jobAnswer r none ≠ .nobody then w else w.emit (.dictAnswer r 0x7020 0 stOk 0 s.now) := by
  subst hop hq hw
  simp only [pkRow, State.takeWrite_taken h (pkJobEffect_of_operation h1 h4), ne_eq, not_true_eq_false, if_false, true_and]

/-! ### The ladder units -/

theorem execPkJobStart_next {s u : State} {i : Nat} {j : PkJob} (hu : u = s.dropStaleJobs)
    (hi : u.cpx.ladders.findIdx? (·.isNone) = some i) (hj : u.nextJob = some j) : exec .pkJobStart s = .next
      { u with cpx.ladders := u.cpx.ladders.set i (some (j, s.now)),
               cpx.pkWaiting := u.cpx.pkWaiting.filter fun k => k.order != j.order } := by
  subst hu
  simp only [exec, execPkJobStart, hi, hj]
  rfl

theorem execPkJobComplete_ended {n : Nat} {s u : State} {j : PkJob} {start : Nat} (hn : n < 4)
    (hl : s.cpx.ladders[n]? = some (some (j, start))) (ht : start + j.kind.time ≤ s.now)
    (hr : j.kind.random = false ∨ s.cpx.rngState = 0) (he : s.endJob j.kind = (true, u)) :
    exec (.pkJobComplete n) s = .next ({ u with cpx.ladders := u.cpx.ladders.set n none }.bump 0x7030 0x09 1) := by
  have hg : ¬ (s.now < start + j.kind.time ∨ j.kind.random = true ∧ s.cpx.rngState ≠ 0) := by
    obtain hr | hr := hr <;> simp [hr, ht]
  simp only [exec, execPkJobComplete, if_neg (Nat.not_le.mpr hn), hl, if_neg hg, he, if_true]

theorem State.endDictJob_done {s : State} {job p : Bytes} {tick : Nat} {v : Bool} (h : pkRun job = .done v p) :
    s.endDictJob job tick .nobody =
      { s with cpx.jobSeq := s.cpx.jobSeq + 1 }.putBytes 0x7021 0 (pkResult (s.cpx.jobSeq + 1) (.done v p)) := by
  simp only [State.endDictJob, h]

/-- Settles O41: an ATTEST, the write of each operation of the table, and the start and the end of a job. -/
theorem publicKeyJobs : Obligations.PublicKeyJobs := by
  unfold Obligations.PublicKeyJobs
  refine ⟨fun task s t => execAttest_not_parked, fun r v s q w u h hq hw hu => ?_, fun s u i j => execPkJobStart_next,
    fun n s u j start hn hl ht hr he hu => execPkJobComplete_ended hn hl ht hr (Prod.ext he hu.symm),
    fun n s u j start hn hl ht hr he => execPkJobComplete_ended hn hl ht hr ?_, fun job tick s v p => State.endDictJob_done⟩
  · have row {op : Nat} (h1 : 1 ≤ op) (h4 : op ≤ 4) (hop : numAt (valBytes v) 0 1 = op) : pkRow op r v s = u := by
      rw [pkRow_taken h h1 h4 hop (by rw [hq]; cases r <;> rfl) hw, hu]
      cases r <;> rfl
    exact ⟨fun h => congrArg _ (row (by decide) (by decide) h), fun h => congrArg _ (row (by decide) (by decide) h),
      fun h => congrArg _ (row (by decide) (by decide) h), fun h => congrArg _ (row (by decide) (by decide) h)⟩
  · obtain ⟨h, hk, rfl⟩ | ⟨job, tick, who, hk, rfl⟩ := he <;> rw [hk] <;> rfl

end Sys2Proof.Machine
end

section
/-!
The shape of the module: the state at reset has it and every step keeps it (R194, R364, R531, R576, R580, R582).
-/
namespace Sys2Proof.Machine

/-- Settles O3: the shape looks at no waiting command, and `Keeps` holds it over the step. -/
theorem everyStepKeepsTheShape : Obligations.EveryStepKeepsTheShape := by
  unfold Obligations.EveryStepKeepsTheShape
  intro s t hs h
  have hrest : State.wellShaped { s with pending := s.pending.drop 1 } := hs
  exact (step_keeps h).wf hrest

/-- Settles O4: at reset the store and the queues are empty and each list of units repeats its unit's reset value. -/
theorem resetHasTheShape : Obligations.ResetHasTheShape := by
  unfold Obligations.ResetHasTheShape
  exact ⟨.nil, List.length_replicate, List.length_replicate, List.length_replicate, List.length_replicate, List.length_replicate,
    List.length_replicate, Nat.zero_le _, Nat.zero_le _, Nat.zero_le _⟩

end Sys2Proof.Machine
end

section
/-!
The key-lock table (R202).
-/
namespace Sys2Proof.Machine

theorem lockEntries_batch (f : Bytes) : lockEntries opBatch f = field f 26 2 := if_pos rfl

/-- The commands of one key that take an entry, by the opcodes of their rows (R202). -/
theorem lockEntries_eq_one {op : Nat} (f : Bytes) (h : (2 ≤ op ∧ op ≤ 5) ∨ op = opAppend ∨ op = opLock) :
    lockEntries op f = 1 := by
  have hb : op ≠ opBatch := by
    simp only [opAppend, opLock, opBatch] at h ⊢
    omega
  rw [lockEntries, if_neg hb, if_pos h]

/-- A head is taken only where the key-lock table has room for its entries. -/
theorem State.judge_take_locksFree {s : State} {d : Desc} {i : Nat} (h : s.judge d = .take i) : s.locksFree d = true := by
  unfold State.judge at h
  split at h
  · cases h
  · split at h
    · split at h <;> cases h
    · split at h
      · cases h
      · split at h
        · cases h
        · split at h
          next hfree => exact hfree
          · cases h

theorem State.locksFree_le {s : State} {d : Desc} (h : s.locksFree d = true) :
    s.locksInUse + lockEntries d.opcode d.fields ≤ 16384 :=
  of_decide_eq_true (Bool.and_eq_true_iff.mp h).1

/-- Settles O12: the opcodes that take entries, the others, and the room that admission asks for. -/
theorem keyLockEntries : Obligations.KeyLockEntries := by
  unfold Obligations.KeyLockEntries
  refine ⟨fun f => ?_, fun op f hput hputIf hdelete hpunch happend hlock hbatch => ?_,
    fun s d i h => State.locksFree_le (State.judge_take_locksFree h)⟩
  · exact ⟨lockEntries_eq_one f (by decide), lockEntries_eq_one f (by decide), lockEntries_eq_one f (by decide),
      lockEntries_eq_one f (by decide), lockEntries_eq_one f (by decide), lockEntries_eq_one f (by decide), lockEntries_batch f⟩
  · have hrange : ¬ (2 ≤ op ∧ op ≤ 5) := by
      simp only [opPut, opPutIf, opDelete, opPunch] at hput hputIf hdelete hpunch
      omega
    rw [lockEntries, if_neg hbatch, if_neg (by simp only [hrange, happend, hlock, or_self, not_false_eq_true])]

end Sys2Proof.Machine
end

section
/-!
FRAME_RECEIVE (R223, R230, R231, R232, R237, R241, R242).
-/
namespace Sys2Proof.Machine

/-! ### A frame at a port, by the first check that it does not pass -/

section
variable {s : State} {p : Port} {f : RxFrame}

theorem State.receive_refused (ha : s.accepts p f.dstMac = false) :
    s.receive p f = if (s.pbump p 0x0A 1).pflag p 0x1D 0 then (s.pbump p 0x0A 1).capture p f 0x20 else s.pbump p 0x0A 1 := by
  rw [State.receive, ha]
  rfl

theorem State.receive_overflow (ha : s.accepts p f.dstMac = true)
    (hp : s.rxLimit p (s.rxPriority f) < s.partition p (s.rxPriority f) + f.len) :
    s.receive p f = s.bump (p.base + 0x21) (s.rxPriority f + 1) 1 := by
  simp only [State.receive, ha, if_pos hp]
  rfl

theorem State.receive_faulty (ha : s.accepts p f.dstMac = true)
    (hp : s.partition p (s.rxPriority f) + f.len ≤ s.rxLimit p (s.rxPriority f)) {ctr flag : Nat}
    (hf : s.frameFault p f = some (ctr, flag)) :
    s.receive p f = if (s.pbump p ctr 1).pflag p 0x1C 0 then (s.pbump p ctr 1).capture p f flag else s.pbump p ctr 1 := by
  simp only [State.receive, ha, if_neg (Nat.not_lt.mpr hp), hf]
  rfl

theorem State.receive_passed (ha : s.accepts p f.dstMac = true)
    (hp : s.partition p (s.rxPriority f) + f.len ≤ s.rxLimit p (s.rxPriority f)) (hf : s.frameFault p f = none)
    (htags : f.secondTag = false) (hvid : (f.tag.any fun t => t.vid == 4095) = false) :
    s.receive p f = ((s.pbump p 0x01 1).pbump p 0x03 f.len).handle p f := by
  simp only [State.receive, ha, if_neg (Nat.not_lt.mpr hp), hf, htags, hvid]
  rfl

end

/-! ### The row -/

theorem execFrameReceive_up {p : Port} {f : RxFrame} {s : State} (hok : f.ok = true) (hup : (s.port p).up = true) :
    exec (.frameReceive p f) s = .next (((s.pbump p 0x16 f.fecFixed).pbump p 0x17 f.fecLost).frameWakes.receive p f) := by
  simp only [exec, execFrameReceive, hok, hup]
  rfl

theorem execFrameReceive_down {p : Port} {f : RxFrame} {s : State} (hok : f.ok = true) (hdown : (s.port p).up = false) :
    exec (.frameReceive p f) s = .next s := by
  simp only [exec, execFrameReceive, hok, hdown]
  rfl

/-- Settles O16: a port that is up counts the codewords and wakes, and then the frame goes by its first failing check. -/
theorem frameReceiveEffect : Obligations.FrameReceiveEffect := by
  unfold Obligations.FrameReceiveEffect
  intro p f s u hok hu
  refine ⟨execFrameReceive_down hok, fun hup => ?_⟩
  have hrow : exec (.frameReceive p f) s = .next (u.receive p f) := hu ▸ execFrameReceive_up hok hup
  rw [hrow]
  refine ⟨fun ha => ?_, fun ha hp => ?_, fun ha hp => ⟨fun ctr flag hf => ?_, fun hf htags hvid => ?_⟩⟩
  · rw [State.receive_refused ha]
  · rw [State.receive_overflow ha hp]
  · rw [State.receive_faulty ha hp hf]
  · rw [State.receive_passed ha hp hf htags hvid]

end Sys2Proof.Machine
end

section
/-!
ADMIT, COMMAND_START, KEY_LOCK_JOIN and KEY_CHAIN_HEAD (R194, R195, R200, R204, R205, R206).
-/
namespace Sys2Proof.Machine

/-! ### ADMIT -/

theorem execAdmission_clockStands {s : State} (h : s.cycleRuns = false) : exec .admission s = .next s := by
  simp only [exec, execAdmission, h]
  rfl

theorem execAdmission_asleep {s : State} (hc : s.cycleRuns = true) (hw : s.wteAwake = false) :
    exec .admission s = .next { s with cqc.cycle := s.cqc.cycle + 1 } := by
  simp only [exec, execAdmission, hc, hw]
  rfl

theorem execAdmission_awake {s u t : State} (hc : s.cycleRuns = true) (hw : s.wteAwake = true)
    (hu : u = if ([0, 1, 2, 3].any s.laneReady && [4, 5, 6, 7].any s.laneReady) = true then s.bump 0x3010 0x06 1 else s)
    (ht : t = (u.tryLanes (laneOrder u.cqc.cycle)).readyActive) :
    exec .admission s = .next { t with cqc.cycle := t.cqc.cycle + 1 } := by
  subst hu ht
  simp only [exec, execAdmission, hc, hw]
  rfl

/-! ### COMMAND_START -/

theorem execCommandStart_starts {s u : State} {t : Trs} (h : s.nextStart = some t)
    (hu : u = ((s.mapTrs t.idx fun x => { x with
        started := true, state := if classifiedOpcode x.opcode then .classifying else .running,
        covered := if x.opcode = opFlush ∧ x.ordered then s.coveredNow x.session else x.covered }).transfer cqcLane t.startLane
      t.admitCls true t.task (24 + t.fields.length))) :
    exec .commandStart s = .next ((if classifiedOpcode t.opcode = true ∧ u.formatting t.tenant = true then
        (u.mapTrs t.idx fun x => { x with late := true }).refuseTenant t
      else if keyOpcode t.opcode = true then u.classifyTask t [keyOf t.opcode t.fields]
      else if t.opcode = opBatch then u.classifyBatch t
      else u).traceStart t) := by
  subst hu
  simp only [exec, execCommandStart, h]
  split
  · rfl
  · split
    · rfl
    · split <;> rfl

theorem keyOpcode_batch : keyOpcode opBatch = false := by decide

theorem classifiedOpcode_eq_false {o : Nat} (hk : keyOpcode o = false) (hb : o ≠ opBatch) (hs : o ≠ opScan) :
    classifiedOpcode o = false := by
  simp [classifiedOpcode, hk, hb, hs]

/-! ### The key-lock chains -/

section
variable {task : Nat} {s : State} {t : Trs} (hs : s.trs? task = some t)
include hs

section
variable (hstate : t.state = .classifying) (hjoined : t.joined = false) (hlock : lockEntries t.opcode t.fields ≠ 0)
  (hkeys : t.keys ≠ [])
include hstate hjoined hlock hkeys

/-- A classified command that takes entries joins, or waits for those that became ready before it. -/
theorem execKeyLockJoin_classified {u : State}
    (hu : u = { s with cqc.chains := t.prints.foldl (fun l p => joinChain task t.tenant p l) s.cqc.chains }) :
    exec (.keyLockJoin task) s = .next (if s.readyBefore t = true then s
      else if u.headsAll task = true then u.mapTrs task fun x => { x with joined := true, state := .running }
      else (u.mapTrs task fun x => { x with joined := true, state := .keyWait }).bump 0x3010 0x05 1) := by
  subst hu
  have hjoins : ¬ (t.state ≠ .classifying ∨ t.joined = true ∨ lockEntries t.opcode t.fields = 0) := by
    simp [hstate, hjoined, hlock]
  simp only [exec, execKeyLockJoin, hs, if_neg hjoins, List.isEmpty_iff, if_neg hkeys]
  split
  · rfl
  · split <;> rfl

end

theorem execKeyChainHead_heads (hjoined : t.joined = true) (hheaded : t.headed = false) (hresult : t.result = false)
    (hheads : s.headsAll task = true) : exec (.keyChainHead task) s =
      .next (if t.opcode = opLock then (s.mapTrs task fun u => { u with state := .running }).headLock t
        else (s.mapTrs task fun u => { u with state := .running }).headWrite t) := by
  have hchecks : ¬ ((!t.joined) = true ∨ t.headed = true ∨ t.result = true ∨ (!s.headsAll task) = true) := by
    simp [hjoined, hheaded, hresult, hheads]
  simp only [exec, execKeyChainHead, hs, if_neg hchecks]
  split <;> rfl

end

/-- Settles O32: an admission by its clock and its two halves, a start by its opcode, a command of the chains by what stands
before it. -/
theorem admissionAndStart : Obligations.AdmissionAndStart := by
  unfold Obligations.AdmissionAndStart
  refine ⟨fun s => execAdmission_clockStands, fun s => execAdmission_asleep, fun s t hc hw hties ht => ?_,
    fun s t hc hw hlow hhigh ht => ?_, fun s u t hs hu => ?_, fun task s t hs hstate hjoined hlock hkeys => ?_,
    fun task s t hs hjoined hheaded hresult hheads => ?_⟩
  · exact execAdmission_awake hc hw (if_neg (Bool.eq_false_iff.mp hties)).symm ht
  · exact execAdmission_awake hc hw (if_pos (Bool.and_eq_true_iff.mpr ⟨hlow, hhigh⟩)).symm ht
  · rw [execCommandStart_starts hs hu]
    refine ⟨fun hk hf => ?_, fun hb hf => ?_, fun hk hb hscan => ?_, fun hc hf => ?_⟩
    · simp only [hk, hf, Bool.false_eq_true, and_false, if_true, if_false]
    · simp only [hb, keyOpcode_batch, hf, Bool.false_eq_true, and_false, if_true, if_false]
    · simp only [classifiedOpcode_eq_false hk hb hscan, hk, hb, Bool.false_eq_true, false_and, if_false]
    · rw [if_pos ⟨hc, hf⟩]
  · refine ⟨fun hbefore => ?_, fun hbefore u hu => ⟨fun hheads => ?_, fun hheads => ?_⟩⟩
    · rw [execKeyLockJoin_classified hs hstate hjoined hlock hkeys rfl, if_pos hbefore]
    · rw [execKeyLockJoin_classified hs hstate hjoined hlock hkeys hu, if_neg (Bool.eq_false_iff.mp hbefore), if_pos hheads]
    · rw [execKeyLockJoin_classified hs hstate hjoined hlock hkeys hu, if_neg (Bool.eq_false_iff.mp hbefore),
        if_neg (Bool.eq_false_iff.mp hheads)]
  · rw [execKeyChainHead_heads hs hjoined hheaded hresult hheads]
    exact ⟨fun hl => by rw [if_pos hl], fun hl => by rw [if_neg hl]⟩

end Sys2Proof.Machine
end

section
/-!
PFC_FRAME_RX, PFC_REFRESH, PAUSE_EXPIRY, PAUSE_WATCHDOG and PAUSE_HONOUR_RESUME (R251, R252, R253).
-/
namespace Sys2Proof.Machine

/-- The oldest waiting frame of a kind leaves the inbox and gives its partition's octets back. -/
theorem State.takeInbox_oldest {s : State} {p : Port} {kind : FrameBody → Bool} {b : FrameBody} {i len : Nat}
    (h : (s.port p).inbox.find? (fun e => kind e.1) = some (b, i, len)) :
    s.takeInbox p kind = some (b, (s.mapPort p fun x => { x with inbox := x.inbox.eraseP fun e => kind e.1 }).release p i len) := by
  rw [State.takeInbox, h]

/-- A time that has come; with the span `k` a variable, no proof computes with the number that stands for it. -/
theorem any_add_le {o : Option Nat} {t k n : Nat} (h : o = some t) (ht : t + k ≤ n) :
    o.any (fun t => decide (t + k ≤ n)) = true := by
  rw [h, Option.any_some, decide_eq_true ht]

section
variable {p : Port} {q : Nat} {s : State}

theorem execPfcFrameRx_oldest {b : FrameBody} {i len : Nat}
    (h : (s.port p).inbox.find? (fun e => FrameBody.isPause e.1) = some (b, i, len)) :
    exec (.pfcFrameRx p) s = .next (((s.mapPort p fun x =>
      { x with inbox := x.inbox.eraseP fun e => FrameBody.isPause e.1 }).release p i len).pauseFrame p b) := by
  simp only [exec, execPfcFrameRx, State.takeInbox_oldest h]

/-- The watchdog ends one queue's pause and leaves the other queues as they are. -/
theorem PortS.breakPause_queue (x : PortS) (t : Nat) : x.breakPause false q t =
    { x with pausedUntil := x.pausedUntil.set q none, pausedSince := x.pausedSince.set q none,
             ignoreUntil := x.ignoreUntil.set q (some t) } := rfl

/-- The watchdog ends the pauses of all queues. -/
theorem PortS.breakPause_port (x : PortS) (t : Nat) : x.breakPause true q t =
    { x with pausedUntil := List.replicate 8 none, pausedSince := List.replicate 8 none,
             ignoreUntil := List.replicate 8 (some t) } := rfl

variable (hq : q < 8)
include hq

theorem execPfcRefresh_due (hsent : (s.port p).pauseSent.getD q false = true) (hon : s.flowOn p q = true)
    (hhigh : s.fillHigh p q = true)
    (hdue : (s.port p).pauseAt.getD q 0 + quantaNs 32768 (rateOf (s.port p).linkState) ≤ s.cqc.cycle) :
    exec (.pfcRefresh p q) s = .next (s.sendPause p q 0xFFFF) := by
  simp only [exec, execPfcRefresh, if_neg (Nat.not_le.mpr hq), hsent, hon, hhigh, decide_eq_true hdue, Bool.and_true, if_true]

theorem execPauseExpiry_ended {t : Nat} (h : (s.port p).pausedUntil.getD q none = some t) (ht : t ≤ s.cqc.cycle) :
    exec (.pauseExpiry p q) s = .next (s.mapPort p fun x =>
      { x with pausedUntil := x.pausedUntil.set q none, pausedSince := x.pausedSince.set q none }) := by
  simp only [exec, execPauseExpiry, if_neg (Nat.not_le.mpr hq), h, Option.any_some, decide_eq_true ht, if_true]

/-- A pause as old as PAUSE_WATCHDOG that still runs is broken, of the whole port in PAUSE mode. -/
theorem execPauseWatchdog_fires {t c : Nat} (hsince : (s.port p).pausedSince.getD q none = some t)
    (hlong : t + s.pnum p 0x0E 0 * 1000 ≤ s.now) (huntil : (s.port p).pausedUntil.getD q none = some c) (hruns : s.cqc.cycle < c) :
    exec (.pauseWatchdog p q) s = .next (((s.mapPort p fun x =>
      x.breakPause (s.pnum p 0x0B 0 == 2) q (s.now + s.pnum p 0x0E 0 * 1000)).pbump p 0x11 1).raise 0x1406 p.unit
        (if s.pnum p 0x0B 0 == 2 then 0xFF else q) (s.pnum p 0x0E 0) 0) := by
  simp only [exec, execPauseWatchdog, if_neg (Nat.not_le.mpr hq), any_add_le hsince hlong, huntil, Option.any_some,
    decide_eq_true hruns, Bool.and_true, if_true]

theorem execPauseHonourResume_over {t : Nat} (h : (s.port p).ignoreUntil.getD q none = some t) (ht : t ≤ s.now) :
    exec (.pauseHonourResume p q) s = .next (s.mapPort p fun x => { x with ignoreUntil := x.ignoreUntil.set q none }) := by
  simp only [exec, execPauseHonourResume, if_neg (Nat.not_le.mpr hq), h, Option.any_some, decide_eq_true ht, if_true]

end

/-- Settles O17: the oldest pause frame, then each timer of a queue that has run out; the watchdog by the port's mode. -/
theorem pauseCommands : Obligations.PauseCommands := by
  unfold Obligations.PauseCommands
  intro p q s hq
  refine ⟨fun b i len => execPfcFrameRx_oldest, execPfcRefresh_due hq, fun t => execPauseExpiry_ended hq,
    fun t c hsince hlong huntil hruns => ?_, fun t => execPauseHonourResume_over hq⟩
  rw [execPauseWatchdog_fires hq hsince hlong huntil hruns]
  refine ⟨fun hmode => ?_, fun hmode => ?_⟩
  · simp only [beq_eq_false_iff_ne.mpr hmode, PortS.breakPause_queue, Bool.false_eq_true, if_false]
  · simp only [beq_iff_eq.mpr hmode, PortS.breakPause_port, if_true]

end Sys2Proof.Machine
end

section
/-!
LINK_UP, LINK_DOWN, TRAINING_FAILURE and LINK_PARTNER_DETECT (R227, R229, R255, R625).
-/
namespace Sys2Proof.Machine

section
variable {p : Port} {s : State}

theorem execLinkUp_resolved {partner : Nat} {u : State} (hdown : (s.port p).up = false) (hmode : s.resolve p partner ≠ 0)
    (hseen : (s.port p).partnerSeen = true) (hruns : s.portRuns p = true)
    (hu : u = ((s.mapPort p fun x =>
      { x with linkState := s.resolve p partner, trainMode := 0, trainFails := 0, idleSince := s.now }).raise 0x1001 p.unit
        (s.resolve p partner) 0 0).announceAddresses p) :
    exec (.linkUp p partner) s = .next ((if u.pflag p 0x1B 0 then
      (u.sendLldp p).mapPort p fun x => { x with lldpDue := u.now + 30000000 } else u).gateSuspend p) := by
  rw [hu]
  simp only [exec, execLinkUp, hdown, beq_eq_false_iff_ne.mpr hmode, hseen, hruns, Bool.not_true, Bool.or_false,
    Bool.false_eq_true, if_false]

theorem State.linkFalls_up (hup : (s.port p).up = true) :
    s.linkFalls p = ((s.mapPort p fun x =>
      { x with linkState := 0, txq := List.replicate 8 [], bypass := [], lpiTx := false, lpiRx := false }).pbump p 0x18 1).raise
        0x1402 p.unit (s.port p).linkState 0 0 := by
  rw [State.linkFalls, if_pos hup]

theorem execLinkPartnerDetect_runs (hruns : s.portRuns p = true) :
    exec (.linkPartnerDetect p) s = .next (s.mapPort p fun x =>
      { x with partnerSeen := true, linkState := if x.linkState = 0 ∧ s.pnum p 0x00 0 ≠ 0 then 1 else x.linkState }) := by
  simp only [exec, execLinkPartnerDetect, hruns, Bool.not_true, Bool.false_eq_true, if_false]

/-- Failures in a row at a mode, with the one that comes now. -/
def PortS.failsAt (x : PortS) (mode : Nat) : Nat := if x.trainMode = mode then x.trainFails + 1 else 1

theorem PortS.failsAt_same {x : PortS} {mode : Nat} (h : x.trainMode = mode) : x.failsAt mode = x.trainFails + 1 := if_pos h

theorem PortS.failsAt_other {x : PortS} {mode : Nat} (h : x.trainMode ≠ mode) : x.failsAt mode = 1 := if_neg h

/-- A failure at an advertised mode goes by the number of failures in a row. -/
theorem execTrainingFailure_advertised {mode : Nat} (hmode : mode < 3) (hdown : (s.port p).up = false)
    (hruns : s.portRuns p = true) (hown : bit (s.pnum p 0x00 0) mode = true) (hkept : bit (s.port p).dropped mode = false) :
    exec (.trainingFailure p mode) s =
      if (s.port p).failsAt mode < 3 then
        .next (s.mapPort p fun x => { x with trainMode := mode, trainFails := (s.port p).failsAt mode })
      else .next (((s.mapPort p fun x =>
        { x with trainMode := mode, trainFails := 0, dropped := setBit x.dropped mode, linkState := 1 }).pbump p 0x19 3).raise
          0x1403 p.unit (2 ^ mode) 0 0) := by
  simp only [exec, execTrainingFailure, if_neg (Nat.not_le.mpr hmode), hdown, hruns, hown, hkept, Bool.not_true,
    Bool.false_eq_true, or_self, if_false]
  rfl

end

/-- Settles O18: the rows past their checks; a training failure by how many there have been in a row at its mode. -/
theorem linkCommands : Obligations.LinkCommands := by
  unfold Obligations.LinkCommands
  refine ⟨fun p partner s u => execLinkUp_resolved, fun p s hup => congrArg _ (State.linkFalls_up hup),
    fun p mode s hmode hdown hruns hown hkept => ?_, fun p s => execLinkPartnerDetect_runs⟩
  rw [execTrainingFailure_advertised hmode hdown hruns hown hkept]
  refine ⟨fun hsame htwo => ?_, fun hsame hfew => ?_, fun hother => ?_⟩
  · rw [PortS.failsAt_same hsame, htwo, if_neg (by decide)]
  · rw [PortS.failsAt_same hsame, if_pos (Nat.succ_lt_succ hfew)]
  · rw [PortS.failsAt_other hother, if_pos (by decide)]

end Sys2Proof.Machine
end

section
/-!
LPI_ENTRY, LPI_EXIT, LPI_RX_ENTRY, LPI_RX_EXIT, LLDP_RX and LLDP_TIMER (R254, R255, R256).
-/
namespace Sys2Proof.Machine

section
variable {p : Port} {s : State}

theorem execLpiEntry_idle (hup : (s.port p).up = true) (heee : s.pflag p 0x18 0 = true) (hlpi : (s.port p).lpiTx = false)
    (hidle : (s.port p).idle = true)
    (hpower : s.pch.power = .doze ∨ (s.pflag p 0x19 0 = true ∧ (s.port p).idleSince + 2 ≤ s.now)) :
    exec (.lpiEntry p) s = .next ((s.mapPort p fun x => { x with lpiTx := true }).pbump p 0x1A 1) := by
  have hwhen : (s.pch.power == .doze || (s.pflag p 0x19 0 && s.due ((s.port p).idleSince + 2))) = true := by
    rcases hpower with hdoze | ⟨hready, hlong⟩
    · rw [hdoze]
      rfl
    · rw [hready, State.due_of_le hlong, Bool.and_self, Bool.or_true]
  simp only [exec, execLpiEntry, hup, heee, hlpi, hidle, hwhen, Bool.not_false, Bool.and_true, if_true]

theorem execLpiExit_waiting (hlpi : (s.port p).lpiTx = true) (hwaits : (s.port p).idle = false) :
    exec (.lpiExit p) s = .next (s.mapPort p fun x => { x with lpiTx := false, lpiWakeAt := s.now + s.lpiWake p }) := by
  simp only [exec, execLpiExit, hlpi, hwaits, Bool.not_false, Bool.and_true, if_true]

theorem execLpiRxEntry_up (hup : (s.port p).up = true) (heee : s.pflag p 0x18 0 = true) (hlpi : (s.port p).lpiRx = false) :
    exec (.lpiRxEntry p) s = .next ((s.mapPort p fun x => { x with lpiRx := true }).pbump p 0x1B 1) := by
  simp only [exec, execLpiRxEntry, hup, heee, hlpi, Bool.not_false, Bool.and_true, if_true]

theorem execLldpRx_eeeTlv {rxTw txTw i len : Nat} {u : State}
    (h : (s.port p).inbox.find? (fun e => FrameBody.isLldp e.1) = some (.lldp (some (rxTw, txTw)), i, len))
    (hu : u = (s.mapPort p fun x => { x with inbox := x.inbox.eraseP fun e => FrameBody.isLldp e.1 }).release p i len)
    (hlldp : u.pflag p 0x1B 0 = true) :
    exec (.lldpRx p) s = .next (((u.putNum (p.base + 0x1A) 3 rxTw).putNum (p.base + 0x1A) 4 txTw).mapPort p
      fun x => { x with eeeTlvSeen := true }) := by
  subst hu
  simp only [exec, execLldpRx, State.takeInbox_oldest h, hlldp, if_true]

theorem execLldpTimer_due (hup : (s.port p).up = true) (hlldp : s.pflag p 0x1B 0 = true) (hdue : (s.port p).lldpDue ≤ s.now) :
    exec (.lldpTimer p) s = .next ((s.sendLldp p).mapPort p fun x => { x with lldpDue := s.now + 30000000 }) := by
  simp only [exec, execLldpTimer, hup, hlldp, State.due_of_le hdue, Bool.and_self, if_true]

end

/-- Settles O19: the transmitter's idle by its power state, the receiver's at any time, an EEE TLV and the 30 s timer. -/
theorem lowPowerIdleCommands : Obligations.LowPowerIdleCommands := by
  unfold Obligations.LowPowerIdleCommands
  intro p s
  exact ⟨execLpiEntry_idle, execLpiExit_waiting, execLpiRxEntry_up, rfl, fun rxTw txTw i len u => execLldpRx_eeeTlv,
    execLldpTimer_due⟩

end Sys2Proof.Machine
end

section
/-!
PTP_MESSAGE_RX, DELAY_REQ_DUE and PTP_ANNOUNCE_TIMEOUT (R257, R258, R536).
-/
namespace Sys2Proof.Machine

section
variable {p : Port} {s : State}

theorem execPtpMessageRx_domain {u : State} {tr dom i len : Nat} {m : PtpMsg}
    (h : (s.port p).inbox.find? (fun e => FrameBody.isPtp e.1) = some (.ptp tr dom m, i, len))
    (hu : u = (s.mapPort p fun x => { x with inbox := x.inbox.eraseP fun e => FrameBody.isPtp e.1 }).release p i len)
    (hport : u.isPtpPort p = true) (hdom : dom = u.num 0x1002 0) : exec (.ptpMessageRx p) s = .next (u.ptpMessage p m) := by
  subst hu
  simp only [exec, execPtpMessageRx, State.takeInbox_oldest h, hport, beq_iff_eq.mpr hdom, Bool.and_self, if_true]

theorem execDelayReqDue_due (hport : s.ptpPort = some p) (hstate : 2 ≤ s.dpx.ptp.state) (hdue : s.dpx.ptp.delayDue ≤ s.now) :
    exec .delayReqDue s = .next ({ s with
      dpx.ptp.delaySeq := (s.dpx.ptp.delaySeq + 1) % 65536, dpx.ptp.delaySent := none,
      dpx.ptp.delayDue := s.now + max 1 s.dpx.ptp.delayInterval }.respond p (.delayReq ((s.dpx.ptp.delaySeq + 1) % 65536))) := by
  simp only [exec, execDelayReqDue, hport, if_pos (And.intro hstate (State.due_of_le hdue))]

theorem execPtpAnnounceTimeout_silent (hstate : 2 ≤ s.dpx.ptp.state)
    (hsilent : s.dpx.ptp.lastAnnounce + 3 * s.dpx.ptp.intervalUs ≤ s.now) :
    exec .ptpAnnounceTimeout s = .next { s with dpx.ptp.state := 1 } := by
  simp only [exec, execPtpAnnounceTimeout, if_pos (And.intro hstate (State.due_of_le hsilent))]

/-! A clock that is not the leader is not heard, whatever Sync or Delay_Req waits for its answer. -/

variable {l : Nat} (hl : l ≠ s.dpx.ptp.leader)
include hl

theorem State.ptpMessage_otherSync (n : Nat) (o : Option Int) (x : Int) : s.ptpMessage p (.sync l n o x) = s := by
  cases o with
  | none => exact if_neg fun h => hl h.2
  | some origin => exact if_neg fun h => hl h.2

theorem State.ptpMessage_otherFollowUp (n : Nat) (x : Int) : s.ptpMessage p (.followUp l n x) = s := by
  simp only [State.ptpMessage]
  cases s.dpx.ptp.syncRx with
  | none => rfl
  | some pending => exact if_neg fun h => hl h.2.1

theorem State.ptpMessage_otherDelayResp (r n i : Nat) (x : Int) : s.ptpMessage p (.delayResp l r n x i) = s := by
  simp only [State.ptpMessage]
  split
  · exact if_pos (Or.inl hl)
  · rfl

end

/-- Settles O20: a message past its port and domain, the two timers, and each message that only the leader's clock may send. -/
theorem ptpCommands : Obligations.PtpCommands := by
  unfold Obligations.PtpCommands
  exact ⟨fun p s u tr dom i len m => execPtpMessageRx_domain, fun p s => execDelayReqDue_due,
    fun s => execPtpAnnounceTimeout_silent, fun p s l n rx i r o x hl =>
      ⟨State.ptpMessage_otherSync hl n o x, State.ptpMessage_otherFollowUp hl n x, State.ptpMessage_otherDelayResp hl r n i x⟩⟩

end Sys2Proof.Machine
end

section
/-!
GATE_COMMIT, GATE_SWITCH, CAPTURE_FREEZE_EXPIRY and FRAME_TRANSMIT (R226, R234, R236, R244 to R246, R248, R249).
-/
namespace Sys2Proof.Machine

section
variable {p : Port} {s : State}

theorem gateCommitEffect_ok (hok : s.commitOk p = true) (r : Requester) (i u : Nat) (v : OdVal) :
    gateCommitEffect p r i u v s = ((s.mapPort p fun x => { x with
      gatePending := some ({ s.adminList p with start := s.switchInstant p (s.adminList p) },
                           s.switchInstant p (s.adminList p)) }).putNum (p.base + 0x15) 0 1, stOk) := by
  simp only [gateCommitEffect, hok, Bool.not_true, Bool.false_eq_true, if_false]

@[simp] theorem State.setPort_port (x : PortS) : (s.setPort p x).port p = x := by
  cases p <;> rfl

@[simp] theorem State.putNum_port (i u n : Nat) : (s.putNum i u n).port p = s.port p := by
  cases p <;> rfl

@[simp] theorem State.pbump_port (ctr n : Nat) : (s.pbump p ctr n).port p = s.port p := by
  cases p <;> rfl

/-- A list whose instant has come and whose windows hold every waiting frame comes into force and sends no data again. -/
theorem execGateSwitch_holdsAll {g : GateList} {t : Nat} (hpending : (s.port p).gatePending = some (g, t)) (ht : t ≤ s.nowNs)
    (hholds : ∀ q e, e ∈ (s.port p).txq.getD q [] → g.holds q e.2 (s.portRate p) = true) :
    exec (.gateSwitch p) s = .next (((s.setPort p { s.port p with
      gatePending := none, oper := g, gateState := if g.enable then 1 else 0,
      txq := (List.range 8).map fun q => ((s.port p).txq.getD q []).filter fun e => g.holds q e.2 (s.portRate p)
      }).putNum (p.base + 0x15) 0 0).pbump p 0x0E 0) := by
  have hlate : ((List.range 8).flatMap fun q =>
      ((s.port p).txq.getD q []).filter fun e => !g.holds q e.2 (s.portRate p)) = [] := by
    simp only [List.flatMap_eq_nil_iff, List.filter_eq_nil_iff]
    intro q _ e he
    rw [hholds q e he]
    decide
  simp only [exec, execGateSwitch, hpending, if_neg (Nat.not_lt.mpr ht), hlate, List.length_nil, List.foldl_nil]

theorem execCaptureFreezeExpiry_over {t : Nat} (h : (s.port p).captureFrozenAt = some t) (ht : t + 10000000 ≤ s.now) :
    exec (.captureFreezeExpiry p) s =
      .next ((s.putNum (p.base + 0x20) 0 0).mapPort p fun x => { x with captureFrozenAt := none }) := by
  simp only [exec, execCaptureFreezeExpiry, any_add_le h ht, if_true]

theorem State.sendOut_echoReply (q : Option Nat) (c : Carriage) (ident seq len t : Nat) (data : Bytes) :
    s.sendOut p q (.echoReply c ident seq data) len t =
      ((((s.mapPort p fun x => { x with idleSince := s.now, txFreeAt := t + frameNs len (rateOf x.linkState) }).pbump p 0x02
        1).pbump p 0x04 len).emit (.frame p q (.echoReply c ident seq data)
          ((s.mapPort p fun x => { x with idleSince := s.now, txFreeAt := t + frameNs len (rateOf x.linkState) }).wire p
            (.echoReply c ident seq data)) (lanesOf (s.port p).linkState))) := by
  simp only [State.sendOut, State.mapPort_port]

/-! FRAME_TRANSMIT on a port that is up and awake. -/

variable {f : TxFrame} (hup : (s.port p).up = true) (hlpi : (s.port p).lpiTx = false) (hwake : (s.port p).lpiWakeAt ≤ s.now)
include hup hlpi hwake

theorem execFrameTransmit_bypass {rest : List TxFrame} (hbypass : (s.port p).bypass = f :: rest)
    (hpower : s.pch.power ≠ .doze) (hfree : (s.port p).txFreeAt < s.nowNs + 1000) :
    exec (.frameTransmit p) s = .next ((s.mapPort p fun x => { x with bypass := rest }).sendOut p none f 64 (s.freeAt p)) := by
  have hsends : ¬ (s.pch.power = .doze ∨ s.nowNs + 1000 ≤ (s.port p).txFreeAt) := not_or.mpr ⟨hpower, Nat.not_le.mpr hfree⟩
  simp only [exec, execFrameTransmit, hup, hlpi, decide_eq_false (Nat.not_lt.mpr hwake), hbypass, if_neg hsends, Bool.not_true,
    Bool.or_self, Bool.false_eq_true, if_false, bypassLen]

theorem execFrameTransmit_queue {t q len : Nat} {rest : List (TxFrame × Nat)} (hbypass : (s.port p).bypass = [])
    (hnext : s.nextSend p = some (t, q)) (hhead : (s.port p).txq.getD q [] = (f, len) :: rest)
    (hpower : s.pch.power ≠ .doze ∨ f.fromDoze = true) :
    exec (.frameTransmit p) s =
      .next ((s.mapPort p fun x => { x with txq := x.txq.set q rest }).sendOut p (some q) f len t) := by
  have hsends : ¬ (s.pch.power = .doze ∧ (!f.fromDoze) = true) := fun ⟨hdoze, hstays⟩ =>
    hpower.elim (· hdoze) fun hgoes => by simp [hgoes] at hstays
  simp only [exec, execFrameTransmit, hup, hlpi, decide_eq_false (Nat.not_lt.mpr hwake), hbypass, hnext, hhead, if_neg hsends,
    Bool.not_true, Bool.or_self, Bool.false_eq_true, if_false]

end

/-- Settles O21: a list committed and switched to, a freeze that is over, and a frame sent past the gates or through them. -/
theorem gateCaptureTransmit : Obligations.GateCaptureTransmit := by
  unfold Obligations.GateCaptureTransmit
  refine ⟨fun p s r v htakes hok => congrArg _ (State.ownWrite_taken htakes (gateCommitEffect_ok hok ..)),
    fun p s g t hpending ht hholds => ⟨_, execGateSwitch_holdsAll hpending ht hholds, ?_⟩,
    fun p s t => execCaptureFreezeExpiry_over,
    fun p s hup hlpi hwake => ⟨fun f rest => execFrameTransmit_bypass hup hlpi hwake,
      fun t q f len rest => execFrameTransmit_queue hup hlpi hwake⟩,
    fun p s => State.sendOut_echoReply, rfl, rfl, rfl⟩
  simp only [State.pbump_port, State.putNum_port, State.setPort_port, and_self]

end Sys2Proof.Machine
end

section
/-!
CAM_UPDATE_CYCLE, CAM_BANK_WIDTH, DIRECTORY_SPLIT, PAGE_JOIN and PIN_REEVALUATE (R291, R292, R295, R300, R303).
-/
namespace Sys2Proof.Machine

section
variable {s u v : State} {r : Requester}

theorem execCamBankWidth_taken {bank : Nat} {w : OdVal} (hbank : bank < 32) (htakes : s.takesWrite r 0x5010 (bank + 1) w) :
    exec (.camBankWidth bank r w) s = .next (s.writeAnswered
      ((s.mapBank bank fun b => { CamBank.reset with
        state := if b.state = 0 then 1 else b.state, width := valNum w,
        returnAt := if b.state ≤ 1 then some (s.now + reinitUs s.now) else none }).put 0x5010 (bank + 1) w)
      r 0x5010 (bank + 1)) :=
  (if_neg (Nat.not_le.mpr hbank)).trans (congrArg _ (State.ownWrite_taken htakes rfl))

/-! ### The directory -/

theorem execDirectorySplit_begins (hnone : s.asu.split = none)
    (hload : 6 * 2 ^ s.asu.depth < (s.asu.keys.filter fun k => !k.pinned).length) (hdepth : s.asu.depth < 30) :
    exec .directorySplit s = .next { s with asu.split := some 0 } := by
  simp only [exec, execDirectorySplit, hnone, if_pos (And.intro hload hdepth)]

/-- The directory pages that the split of bucket `b` reads: the bucket's own and those of its overflow buckets. -/
def State.splitPages (s : State) (b : Nat) : List Nat :=
  ((s.dirAt false (s.asu.depth, b / 256)).toList.map (·.number))
    ++ (s.asu.chain (s.asu.depth, b)).filterMap fun o => (s.dirAt false (overflowPlace o.number)).map (·.number)

/-- The directory after the split of bucket `b`: the next bucket's turn, or after the last one d one higher. -/
def State.afterSplit (s : State) (b : Nat) : State :=
  if b + 1 < 2 ^ (s.splitBucket b).asu.depth then { s.splitBucket b with asu.split := some (b + 1) }
  else { s.splitBucket b with asu.split := none, asu.depth := (s.splitBucket b).asu.depth + 1 }

variable {b : Nat} (hsplit : s.asu.split = some b) (hread : u = s.readPages (s.splitPages b))
include hsplit hread

theorem execDirectorySplit_pageMissing {n : Nat} (hmissing : (s.splitPages b).find? (fun n => !u.pageReady n) = some n) :
    exec .directorySplit s = .next (u.wantPage n) := by
  subst hread
  unfold State.splitPages at hmissing ⊢
  simp only [exec, execDirectorySplit, hsplit, hmissing]

theorem execDirectorySplit_pagesReady (hready : ∀ n ∈ s.splitPages b, u.pageReady n = true) (hv : v = u.afterSplit b) :
    exec .directorySplit s = .next (if v.fitChains.framesFull then u else v.fitChains) := by
  have hnone : (s.splitPages b).find? (fun n => !u.pageReady n) = none := by simpa using hready
  subst hread hv
  unfold State.splitPages at hnone ⊢
  simp only [exec, execDirectorySplit, hsplit, hnone, State.afterSplit]

end

/-! ### Pages and pins -/

section
variable {s u t : State}

/-- Two neighbour pages that may be joined are, when the invalidation queues have room for it, else the join waits (R292, R302). -/
theorem execPageJoin_joinable {page neighbour v : Nat} {a b : Page} (ha : s.page? page = some a) (hb : s.page? neighbour = some b)
    (hu : u = s.readPages [page, neighbour]) (hneighbours : u.neighbours a b = true)
    (hquarter : 4 * keysBytes (u.pageKeys page) < pageRoom)
    (hroom : keysBytes (u.pageKeys page) + keysBytes (u.pageKeys neighbour) ≤ pageRoom)
    (hentries : (u.pageKeys page).length + (u.pageKeys neighbour).length ≤ 256)
    (hready : u.pageReady page = true) (hready' : u.pageReady neighbour = true) (hv : v = max a.version b.version)
    (ht : t =
      (((u.changeAbove a.tenant a.pinned page v).moveEntries neighbour v (u.pageKeys page)).changePage neighbour v).dropEmpty) :
    exec (.pageJoin page neighbour) s = .next (if u.invalidationsFull t then u else t) := by
  subst hu hv ht
  simp only [exec, execPageJoin, ha, hb, hneighbours, hquarter, hroom, hentries, hready, hready', and_self, if_true,
    apply_ite Host.Outcome.next]

theorem pinReevaluateEffect_starts (hidle : s.asu.reevaluate = none) (r : Requester) (i sub : Nat) :
    pinReevaluateEffect r i sub (.num 1) s =
      ({ s with asu.reevaluate := some (s.asu.keys.map fun k => (k.tenant, k.key)) }, stOk) := by
  simp only [pinReevaluateEffect, valNum, hidle, if_true]

theorem pinReevaluateEffect_walking (hwalks : s.asu.reevaluate.isSome = true) (r : Requester) (i sub : Nat) :
    pinReevaluateEffect r i sub (.num 1) s = (s, stOk) := by
  obtain ⟨l, hl⟩ := Option.isSome_iff_exists.mp hwalks
  simp only [pinReevaluateEffect, valNum, hl, if_true]

end

/-- Settles O38: the rows in turn; a split by its pages and by the bucket's place, a join by the room of the invalidation queues. -/
theorem indexCommands : Obligations.IndexCommands := by
  unfold Obligations.IndexCommands
  refine ⟨fun s => ⟨_, rfl, rfl⟩, fun bank r v s => execCamBankWidth_taken, fun s => execDirectorySplit_begins, ?_,
    fun page neighbour v s u t a b ha hb hu hneighbours hquarter hroom hentries hready hready' hv ht => ?_,
    fun r s htakes => ⟨fun hidle => congrArg _ (State.ownWrite_taken htakes (pinReevaluateEffect_starts hidle ..)),
      fun hwalks => congrArg _ (State.ownWrite_taken htakes (pinReevaluateEffect_walking hwalks ..))⟩⟩
  · intro s u v b pages hsplit hpages hread
    subst hpages
    refine ⟨fun n => execDirectorySplit_pageMissing hsplit hread, fun hready => ⟨fun hmore hv => ?_, fun hlast hv => ?_⟩⟩
    · exact execDirectorySplit_pagesReady hsplit hread hready (hv.trans (if_pos hmore).symm)
    · exact execDirectorySplit_pagesReady hsplit hread hready (hv.trans (if_neg (Nat.not_lt.mpr hlast)).symm)
  · have hjoin := execPageJoin_joinable ha hb hu hneighbours hquarter hroom hentries hready hready' hv ht
    exact ⟨fun hfits => by rw [hjoin, hfits]; rfl, fun hfull => by rw [hjoin, if_pos hfull]⟩

end Sys2Proof.Machine
end

section
/-!
RULE_INSERT, RULE_REPLACE, RULE_DELETE, RULE_UPDATE_WRITE, RULE_SCRUB, PRED_IMAGE_WRITE and PRED_CLEAR (R312 to R314, R316, R332,
R333).
-/
namespace Sys2Proof.Machine

section
variable {s : State} {r : Requester} {v : OdVal} {op : RuleOp}

theorem ruleCommandEffect_accepted (hplace : s.asu.commands < 256) (hwaiting : s.asu.waiting = [])
    (hop : s.ruleCommand (valBytes v) = some op) (i sub : Nat) : ruleCommandEffect r i sub v s =
      ({ s with asu.accepted := s.asu.accepted ++ [op] }.putBytes 0x5003 0 (ruleImage (valBytes v)), stOk) := by
  have htaken : ¬ (256 ≤ s.asu.commands ∨ (!s.asu.waiting.isEmpty) = true) := by simp [hwaiting, hplace]
  simp only [ruleCommandEffect, if_neg htaken, State.acceptRule, hop]

/-- The three rows of RULE_COMMAND accept the command in one way. -/
theorem ruleRow_accepted (htakes : s.takesWrite r 0x5003 0 v) (hplace : s.asu.commands < 256) (hwaiting : s.asu.waiting = [])
    (hop : s.ruleCommand (valBytes v) = some op) {n : Nat} (hn : numAt (valBytes v) 0 1 = n) : ruleRow n r v s = s.writeAnswered
      ({ s with asu.accepted := s.asu.accepted ++ [op] }.putBytes 0x5003 0 (ruleImage (valBytes v))) r 0x5003 0 :=
  (if_pos hn).trans (State.ownWrite_taken htakes (ruleCommandEffect_accepted hplace hwaiting hop ..))

/-! ### The update slot and the scrub -/

/-- What a write in the update slot sets before it writes: RULE_GENERATION, and the image of a replacement. -/
def State.updateSlot (s : State) (op : RuleOp) : State :=
  let s := if s.asu.running.getD 0 + 1 = op.slot s.asu.copy then { s with asu.ruleGen := (s.asu.ruleGen + 1) % 2 ^ 32 } else s
  match op with
  | .image slot img => { s with pae.preds := (slot, img) :: s.pae.preds.filter fun p => p.1 != slot }
  | _ => s

@[simp] theorem State.updateSlot_od (op : RuleOp) : (s.updateSlot op).od = s.od := by
  unfold State.updateSlot
  cases op <;> split <;> rfl

variable {rest : List RuleOp} (haccepted : s.asu.accepted = op :: rest) (hholder : s.gap = false)
include haccepted hholder

/-- With the lease held, the update slot makes the next write of the first accepted command. -/
theorem execRuleUpdateWrite_first : exec .ruleUpdateWrite s =
    if op.writes s.asu.copy ≤ s.asu.running.getD 0 + 1 then
      .next ({ s.updateSlot op with
        asu.rules := op.apply s.asu.copy, asu.copy := op.apply s.asu.copy, asu.accepted := rest, asu.running := none }.bump
          0x5030 0x0F 1)
    else .next { s.updateSlot op with
      asu.rules := op.partly (s.asu.running.getD 0 + 1) s.asu.copy, asu.running := some (s.asu.running.getD 0 + 1) } := by
  simp only [exec]
  unfold execRuleUpdateWrite
  split
  next hnone => rw [haccepted] at hnone; contradiction
  next op' rest' hfirst =>
    obtain ⟨rfl, rfl⟩ := List.cons.inj (hfirst.symm.trans haccepted)
    exact if_neg (Bool.not_eq_true _ ▸ hholder)

end

section
variable {s : State}

theorem execRuleScrub_differs {position : Nat} {e q : Rule} (hexpected : s.asu.expected[position]? = some e)
    (hrule : s.asu.rules[position]? = some q) (hne : e ≠ q) : exec (.ruleScrub position) s =
      .next (({ s with asu.rules := s.asu.rules.set position e }.bump 0x5030 0x11 1).raise 0x5803 (unitId 5 0x20) position
        (Rule.id e) 0) := by
  simp only [exec, execRuleScrub, hexpected, hrule, if_neg hne]

/-! ### Predicate slots -/

variable {slot : Nat} {r : Requester} {b : Bytes}

theorem execPredImageWrite_taken {t : State} (hslot : slot < 256) (htakes : s.takesWrite r (0x6100 + slot) 0 (.bytes b))
    (heffect : predImageEffect slot r (0x6100 + slot) 0 (.bytes b) s = (t, stOk)) :
    exec (.predImageWrite slot r (.bytes b)) s = .next (s.writeAnswered t r (0x6100 + slot) 0) := by
  simp only [exec, execPredImageWrite, if_neg (Nat.not_le.mpr hslot), State.ownWrite_taken htakes heffect]

/-- A well-formed image that the store holds waits where the slot has an image, else fills the slot (R333). -/
theorem predImageEffect_fits (hgood : imageFault b = none) (hroom : s.predPeak slot + imageRoom b ≤ 8388608) (i sub : Nat) :
    predImageEffect slot r i sub (.bytes b) s =
      if s.futurePreds.any (fun p => p.1 == slot) then ({ s with asu.accepted := s.asu.accepted ++ [.image slot b] }, stOk)
      else ({ s with pae.preds := (slot, b) :: s.pae.preds }, stOk) := by
  have hfits : ¬ ((imageFault b).isSome = true ∨ 8388608 < s.predPeak slot + imageRoom b) := by
    rw [hgood]
    exact not_or.mpr ⟨Bool.false_ne_true, Nat.not_lt.mpr hroom⟩
  exact if_neg hfits

end

/-- Settles O39: a command by its operation, the update slot by the writes left, an image by what its slot holds. -/
theorem ruleAndPredicateCommands : Obligations.RuleAndPredicateCommands := by
  unfold Obligations.RuleAndPredicateCommands
  refine ⟨fun r v s op htakes hplace hwaiting hop t ht => ?_, fun s op rest haccepted hholder hlast =>
      ⟨_, (execRuleUpdateWrite_first haccepted hholder).trans (if_pos hlast), rfl, rfl, rfl, rfl, _, rfl, State.updateSlot_od op⟩,
    fun s op rest haccepted hholder hmore =>
      ⟨_, (execRuleUpdateWrite_first haccepted hholder).trans (if_neg (Nat.not_le.mpr hmore)), rfl, rfl⟩,
    fun position s e q => execRuleScrub_differs, fun slot r b s hslot htakes hgood hroom => ?_,
    fun r v s t htakes hunnamed ht => ?_⟩
  · have hrow {n : Nat} (hn : numAt (valBytes v) 0 1 = n) : ruleRow n r v s = t :=
      (ruleRow_accepted htakes hplace hwaiting hop hn).trans ht.symm
    exact ⟨fun hinsert => congrArg _ (hrow hinsert), fun hreplace => congrArg _ (hrow hreplace),
      fun hdelete => congrArg _ (hrow hdelete)⟩
  · have heffect := predImageEffect_fits (r := r) hgood hroom (0x6100 + slot) 0
    exact ⟨fun hfull => execPredImageWrite_taken hslot htakes (heffect.trans (if_pos hfull)),
      fun hempty => execPredImageWrite_taken hslot htakes (heffect.trans (if_neg (Bool.not_eq_true _ ▸ hempty)))⟩
  · have heffect : predClearEffect r 0x6001 0 v s = (t, stOk) := ht ▸ if_neg (not_not_intro hunnamed)
    refine ⟨congrArg _ (State.ownWrite_taken htakes heffect), fun p hp => ?_⟩
    rw [ht] at hp
    exact bne_iff_ne.mp (List.mem_filter.mp hp).2

end Sys2Proof.Machine
end

section
/-!
The bytes as GF(256) and the recovery of lost data shards from P and Q (R346, R374).
-/
namespace Sys2Proof.Machine

/-! ### A function taken n times -/

section
variable {α : Type} {f g : α → α}

theorem repeat_of_fixed {a : α} (h : f a = a) (n : Nat) : Nat.repeat f n a = a := by
  induction n with
  | zero => rfl
  | succ n ih => exact (congrArg f ih).trans h

theorem apply_repeat (h : ∀ a, g (f a) = f (g a)) (n : Nat) (a : α) : g (Nat.repeat f n a) = Nat.repeat f n (g a) := by
  induction n with
  | zero => rfl
  | succ n ih => exact (h _).trans (congrArg f ih)

theorem repeat_add (m n : Nat) (a : α) : Nat.repeat f (m + n) a = Nat.repeat f m (Nat.repeat f n a) := by
  induction m with
  | zero => rw [Nat.zero_add]; rfl
  | succ m ih => rw [Nat.succ_add]; exact congrArg f ih

end

/-! ### Multiplication in GF(256) -/

theorem xor_xor_cancel (a b : Byte) : a ^^^ b ^^^ a = b := by
  rw [BitVec.xor_comm, ← BitVec.xor_assoc, BitVec.xor_self, BitVec.zero_xor]

theorem ite_xor_zero (p q : Bool) (c : Byte) :
    (if p ^^ q then c else 0#8) = (if p then c else 0#8) ^^^ (if q then c else 0#8) := by
  cases p <;> cases q <;> simp

theorem gfDouble_eq (a : Byte) : gfDouble a = a <<< 1 ^^^ if a.msb then 0x1D#8 else 0#8 := by
  unfold gfDouble
  split <;> simp

@[simp] theorem gfDouble_zero : gfDouble 0#8 = 0#8 := rfl

theorem gfDouble_xor (a b : Byte) : gfDouble (a ^^^ b) = gfDouble a ^^^ gfDouble b := by
  simp only [gfDouble_eq, BitVec.msb_xor, BitVec.shiftLeft_xor_distrib, ite_xor_zero]
  ac_rfl

/-- `a` doubled n times. -/
def gfShift (n : Nat) (a : Byte) : Byte := Nat.repeat gfDouble n a

theorem zero_gfShift (a : Byte) : gfShift 0 a = a := rfl

theorem gfShift_succ (n : Nat) (a : Byte) : gfShift (n + 1) a = gfDouble (gfShift n a) := rfl

theorem gfDouble_gfShift (n : Nat) (a : Byte) : gfDouble (gfShift n a) = gfShift n (gfDouble a) :=
  apply_repeat (fun _ => rfl) n a

theorem gfShift_add (m n : Nat) (a : Byte) : gfShift (m + n) a = gfShift m (gfShift n a) := repeat_add m n a

@[simp] theorem gfShift_zero (n : Nat) : gfShift n 0#8 = 0#8 := repeat_of_fixed gfDouble_zero n

/-- The sum of the doublings of `a` that the lowest `n` bits of `b` name. -/
def gfPartial (a b : Byte) : Nat → Byte
  | 0 => 0#8
  | n + 1 => gfPartial a b n ^^^ if b.getLsbD n then gfShift n a else 0#8

theorem gfMul_fold (a b : Byte) (n : Nat) :
    (List.range n).foldl (fun (x : Byte × Byte) i => (if b.getLsbD i then x.1 ^^^ x.2 else x.1, gfDouble x.2)) (0#8, a)
      = (gfPartial a b n, gfShift n a) := by
  induction n with
  | zero => rfl
  | succ n ih =>
    rw [List.range_succ, List.foldl_append, ih]
    cases hbit : b.getLsbD n <;> simp [gfPartial, gfShift_succ, hbit]

theorem gfMul_eq_gfPartial (a b : Byte) : gfMul a b = gfPartial a b 8 := by
  rw [gfMul, gfMul_fold]

theorem gfPartial_xor_right (a b c : Byte) (n : Nat) : gfPartial a (b ^^^ c) n = gfPartial a b n ^^^ gfPartial a c n := by
  induction n with
  | zero => simp [gfPartial]
  | succ n ih =>
    simp only [gfPartial, ih, BitVec.getLsbD_xor, ite_xor_zero]
    ac_rfl

theorem gfMul_xor_right (a b c : Byte) : gfMul a (b ^^^ c) = gfMul a b ^^^ gfMul a c := by
  simp only [gfMul_eq_gfPartial, gfPartial_xor_right]

theorem gfShift_xor (n : Nat) (a b : Byte) : gfShift n (a ^^^ b) = gfShift n a ^^^ gfShift n b := by
  induction n with
  | zero => rfl
  | succ n ih => rw [gfShift_succ, ih, gfDouble_xor]; rfl

theorem gfPartial_xor_left (a b c : Byte) (n : Nat) : gfPartial (a ^^^ b) c n = gfPartial a c n ^^^ gfPartial b c n := by
  induction n with
  | zero => simp [gfPartial]
  | succ n ih =>
    simp only [gfPartial, ih, gfShift_xor]
    cases c.getLsbD n with
    | false => simp
    | true => ac_rfl

theorem gfMul_xor_left (a b c : Byte) : gfMul (a ^^^ b) c = gfMul a c ^^^ gfMul b c := by
  simp only [gfMul_eq_gfPartial, gfPartial_xor_left]

theorem gfPartial_double_left (a b : Byte) (n : Nat) : gfPartial (gfDouble a) b n = gfDouble (gfPartial a b n) := by
  induction n with
  | zero => simp [gfPartial]
  | succ n ih =>
    rw [gfPartial, gfPartial, gfDouble_xor, ih, apply_ite gfDouble, gfDouble_gfShift, gfDouble_zero]

theorem gfMul_double_left (a b : Byte) : gfMul (gfDouble a) b = gfDouble (gfMul a b) := by
  simp only [gfMul_eq_gfPartial, gfPartial_double_left]

theorem gfPartial_shift_right (a b : Byte) {n : Nat} (hn : n ≤ 7) :
    gfPartial a (b <<< 1) (n + 1) = gfDouble (gfPartial a b n) := by
  induction n with
  | zero => simp [gfPartial]
  | succ n ih =>
    have hbit : (b <<< 1).getLsbD (n + 1) = b.getLsbD n := by
      simp [BitVec.getLsbD_eq_getElem (show n < 8 by omega), show n + 1 < 8 by omega]
    rw [gfPartial, ih (Nat.le_of_succ_le hn), hbit, gfPartial, gfDouble_xor, apply_ite gfDouble, gfShift_succ,
      gfDouble_zero]

/-- The polynomial 0x11D (R374): the eighth power of the generator is 0x1D. -/
theorem gfMul_reduction : ∀ a : Byte, gfMul a 0x1D#8 = gfShift 8 a := by decide +kernel

@[simp] theorem gfMul_zero (a : Byte) : gfMul a 0#8 = 0#8 := by
  simpa using gfMul_xor_right a 0#8 0#8

theorem gfMul_double_right (a b : Byte) : gfMul a (gfDouble b) = gfDouble (gfMul a b) := by
  have hshift : gfMul a (b <<< 1) = gfDouble (gfPartial a b 7) :=
    (gfMul_eq_gfPartial ..).trans (gfPartial_shift_right a b (Nat.le_refl 7))
  have hmul : gfMul a b = gfPartial a b 7 ^^^ if b.msb then gfShift 7 a else 0#8 := gfMul_eq_gfPartial a b
  rw [hmul, gfDouble_xor, apply_ite gfDouble, ← gfShift_succ, gfDouble_zero, gfDouble_eq b, gfMul_xor_right,
    hshift, apply_ite (gfMul a), gfMul_reduction, gfMul_zero]

theorem gfMul_gfShift_right (a b : Byte) (n : Nat) : gfMul a (gfShift n b) = gfShift n (gfMul a b) :=
  apply_repeat (gfMul_double_right a) n b

theorem gfMul_gfPartial (a b c : Byte) (n : Nat) : gfMul a (gfPartial b c n) = gfPartial (gfMul a b) c n := by
  induction n with
  | zero => exact gfMul_zero a
  | succ n ih =>
    rw [gfPartial, gfPartial, gfMul_xor_right, ih, apply_ite (gfMul a), gfMul_gfShift_right, gfMul_zero]

theorem gfMul_assoc (a b c : Byte) : gfMul (gfMul a b) c = gfMul a (gfMul b c) := by
  rw [gfMul_eq_gfPartial b c, gfMul_gfPartial, gfMul_eq_gfPartial _ c]

@[simp] theorem gfMul_one (a : Byte) : gfMul a 1#8 = a := by
  simp [gfMul_eq_gfPartial, gfPartial, zero_gfShift]

@[simp] theorem one_gfMul : ∀ a : Byte, gfMul 1#8 a = a := by decide +kernel

theorem gfMul_two (a : Byte) : gfMul 2#8 a = gfDouble a :=
  (gfMul_double_left 1#8 a).trans (congrArg gfDouble (one_gfMul a))

theorem gfMul_gfShift_left (a b : Byte) (n : Nat) : gfMul (gfShift n a) b = gfShift n (gfMul a b) :=
  apply_repeat (g := (gfMul · b)) (fun a => gfMul_double_left a b) n a

theorem gfMul_gfPow_two (n : Nat) (a : Byte) : gfMul (gfPow 2#8 n) a = gfShift n a := by
  induction n with
  | zero => exact one_gfMul a
  | succ n ih => rw [gfPow, gfMul_assoc, ih, gfMul_two, gfShift_succ]

theorem gfPow_two_eq (n : Nat) : gfPow 2#8 n = gfShift n 1#8 := by
  rw [← gfMul_gfPow_two, gfMul_one]

/-! ### The generator's powers and inverses -/

theorem gfShift_255 (a : Byte) : gfShift 255 a = a := by
  have hone : gfShift 255 1#8 = 1#8 := by decide +kernel
  rw [← gfMul_one a, ← gfMul_gfShift_right, hone]

theorem gfShift_mul_255 (n : Nat) (a : Byte) : gfShift (n * 255) a = a := by
  induction n with
  | zero => rw [Nat.zero_mul]; rfl
  | succ n ih => rw [Nat.succ_mul, gfShift_add, gfShift_255, ih]

theorem gfPow_two_ne_zero (n : Nat) : gfPow 2#8 n ≠ 0#8 := fun h => by
  have hone : gfShift (n * 254 + n) 1#8 = 0#8 := by rw [gfShift_add, ← gfPow_two_eq, h, gfShift_zero]
  rw [← Nat.mul_succ, gfShift_mul_255] at hone
  exact absurd hone (by decide)

theorem gfPow_two_ne {i j : Nat} (hij : i < j) (hj : j < 14) : gfPow 2#8 i ≠ gfPow 2#8 j := by
  have hdistinct : ∀ j < 14, ∀ i < j, gfPow 2#8 i ≠ gfPow 2#8 j := by decide +kernel
  exact hdistinct j hj i hij

/-- The generator's first n powers as the bits of a number. -/
def gfPowerBits : Nat → Nat
  | 0 => 0
  | n + 1 => gfPowerBits n ||| 2 ^ (gfShift n 1#8).toNat

theorem exists_of_testBit_gfPowerBits {n k : Nat} (h : (gfPowerBits n).testBit k = true) : ∃ m, (gfShift m 1#8).toNat = k := by
  induction n with
  | zero => simp [gfPowerBits] at h
  | succ n ih =>
    rw [gfPowerBits, Nat.testBit_or, Nat.testBit_two_pow, Bool.or_eq_true, decide_eq_true_iff] at h
    exact h.elim ih fun h => ⟨n, h⟩

/-- The generator's 255 powers are all the bytes but 0. -/
theorem exists_eq_gfShift_one {a : Byte} (ha : a ≠ 0#8) : ∃ n, gfShift n 1#8 = a := by
  have hbits : gfPowerBits 255 = 2 ^ 256 - 2 := by decide +kernel
  have hall : ∀ b : Byte, b ≠ 0#8 → (2 ^ 256 - 2).testBit b.toNat = true := by decide +kernel
  obtain ⟨n, hn⟩ := exists_of_testBit_gfPowerBits (hbits ▸ hall a ha)
  exact ⟨n, BitVec.eq_of_toNat_eq hn⟩

theorem gfPow_gfShift_one (m n : Nat) : gfPow (gfShift m 1#8) n = gfShift (m * n) 1#8 := by
  induction n with
  | zero => rfl
  | succ n ih => rw [gfPow, ih, gfMul_gfShift_left, one_gfMul, ← gfShift_add, Nat.mul_succ, Nat.add_comm]

theorem gfMul_gfInv_left {a : Byte} (ha : a ≠ 0#8) : gfMul (gfInv a) a = 1#8 := by
  obtain ⟨n, rfl⟩ := exists_eq_gfShift_one ha
  rw [gfInv, gfPow_gfShift_one, gfMul_gfShift_left, one_gfMul, ← gfShift_add, ← Nat.mul_succ, gfShift_mul_255]

theorem gfInv_gfMul_cancel {a : Byte} (ha : a ≠ 0#8) (b : Byte) : gfMul (gfInv a) (gfMul a b) = b := by
  rw [← gfMul_assoc, gfMul_gfInv_left ha, one_gfMul]

/-! ### Strings by their bytes, the ones past the end being 0 -/

theorem xorBytes_getD (a b : Bytes) (k : Nat) : (xorBytes a b).getD k 0#8 = a.getD k 0#8 ^^^ b.getD k 0#8 := by
  induction a, b using xorBytes.induct generalizing k with
  | case1 b => simp [xorBytes]
  | case2 a ha => cases a <;> simp [xorBytes]
  | case3 x a y b ih => cases k with
    | zero => rfl
    | succ k => exact ih k

theorem length_xorBytes (a b : Bytes) : (xorBytes a b).length = max a.length b.length := by
  induction a, b using xorBytes.induct with
  | case1 b => simp [xorBytes]
  | case2 a ha => cases a <;> simp [xorBytes]
  | case3 x a y b ih => simp only [xorBytes, List.length_cons, ih]; omega

theorem map_getD_zero {f : Byte → Byte} (hf : f 0#8 = 0#8) (b : Bytes) (k : Nat) :
    (b.map f).getD k 0#8 = f (b.getD k 0#8) := by
  induction b generalizing k with
  | nil => exact hf.symm
  | cons x b ih =>
    cases k with
    | zero => rfl
    | succ k => exact ih k

theorem gfScale_getD (c : Byte) (b : Bytes) (k : Nat) : (gfScale c b).getD k 0#8 = gfMul c (b.getD k 0#8) :=
  map_getD_zero (gfMul_zero c) b k

@[simp] theorem length_gfScale (c : Byte) (b : Bytes) : (gfScale c b).length = b.length := List.length_map _

theorem take_eq_of_getD {b d : Bytes} (hlength : d.length ≤ b.length) (hbytes : ∀ k, b.getD k 0#8 = d.getD k 0#8) :
    b.take d.length = d := by
  refine List.ext_getElem (List.length_take_of_le hlength) fun k htake hd => ?_
  have hbyte := hbytes k
  rw [List.getD_eq_getElem?_getD, List.getD_eq_getElem?_getD, List.getElem?_eq_getElem (Nat.lt_of_lt_of_le hd hlength),
    List.getElem?_eq_getElem hd] at hbyte
  exact List.getElem_take.trans hbyte

/-! ### P and Q -/

/-- The sum of the data shards, the i-th taken through `f` i times: P with the identity, Q with the doubling. -/
def parityWith (f : Byte → Byte) (data : List Bytes) : Bytes := data.foldr (fun d q => xorBytes d (q.map f)) []

theorem parityP_eq_parityWith (data : List Bytes) : parityP data = parityWith id data := by
  simp only [parityP, parityWith, List.map_id]

theorem parityQ_eq_parityWith (data : List Bytes) : parityQ data = parityWith gfDouble data := rfl

section
variable {f : Byte → Byte} (hzero : f 0#8 = 0#8)
include hzero

theorem parityWith_cons_getD (d : Bytes) (data : List Bytes) (k : Nat) :
    (parityWith f (d :: data)).getD k 0#8 = d.getD k 0#8 ^^^ f ((parityWith f data).getD k 0#8) :=
  (xorBytes_getD ..).trans (congrArg _ (map_getD_zero hzero ..))

/-- Without the i-th data shard the sum differs by that shard's part in it. -/
theorem parityWith_without_getD (hxor : ∀ a b, f (a ^^^ b) = f a ^^^ f b) (data : List Bytes) (i k : Nat) :
    (parityWith f (without data i)).getD k 0#8 = (parityWith f data).getD k 0#8 ^^^ Nat.repeat f i ((data.getD i []).getD k 0#8) := by
  induction data generalizing i with
  | nil => simp [without, repeat_of_fixed hzero]
  | cons d data ih =>
    cases i with
    | zero =>
      rw [parityWith_cons_getD hzero, List.getD_cons_zero, Nat.repeat, xor_xor_cancel]
      exact (parityWith_cons_getD hzero [] data k).trans (BitVec.zero_xor ..)
    | succ i =>
      rw [parityWith_cons_getD hzero, List.getD_cons_succ, BitVec.xor_assoc, Nat.repeat, ← hxor, ← ih]
      exact parityWith_cons_getD hzero d (without data i) k

end

theorem length_getD_le_parityWith (f : Byte → Byte) (data : List Bytes) (i : Nat) :
    (data.getD i []).length ≤ (parityWith f data).length := by
  induction data generalizing i with
  | nil => exact Nat.zero_le _
  | cons d data ih =>
    have hlength : (parityWith f (d :: data)).length = max d.length (parityWith f data).length :=
      (length_xorBytes ..).trans (by rw [List.length_map]; rfl)
    rw [hlength]
    cases i with
    | zero => exact Nat.le_max_left ..
    | succ i => exact Nat.le_trans (ih i) (Nat.le_max_right ..)

theorem parityP_without_getD (data : List Bytes) (i k : Nat) :
    (parityP (without data i)).getD k 0#8 = (parityP data).getD k 0#8 ^^^ (data.getD i []).getD k 0#8 := by
  rw [parityP_eq_parityWith, parityP_eq_parityWith, parityWith_without_getD (f := id) rfl (fun _ _ => rfl),
    repeat_of_fixed rfl]

theorem parityQ_without_getD (data : List Bytes) (i k : Nat) : (parityQ (without data i)).getD k 0#8 =
    (parityQ data).getD k 0#8 ^^^ gfMul (gfPow 2#8 i) ((data.getD i []).getD k 0#8) :=
  (parityWith_without_getD gfDouble_zero gfDouble_xor data i k).trans (congrArg _ (gfMul_gfPow_two ..).symm)

theorem length_getD_le_parityP (data : List Bytes) (i : Nat) : (data.getD i []).length ≤ (parityP data).length :=
  parityP_eq_parityWith data ▸ length_getD_le_parityWith id data i

theorem length_getD_le_parityQ (data : List Bytes) (i : Nat) : (data.getD i []).length ≤ (parityQ data).length :=
  length_getD_le_parityWith gfDouble data i

/-! ### Recovery -/

theorem without_set (data : List Bytes) (i : Nat) (x : Bytes) : without (data.set i x) i = without data i :=
  List.set_set ..

theorem without_getD_of_ne (data : List Bytes) {i j : Nat} (h : i ≠ j) : (without data i).getD j [] = data.getD j [] := by
  simp only [without, List.getD_eq_getElem?_getD, List.getElem?_set_ne h]

theorem recoverByP_set (data : List Bytes) (i : Nat) (x : Bytes) :
    recoverByP (data.set i x) (parityP data) i (data.getD i []).length = data.getD i [] := by
  rw [recoverByP, without_set]
  refine take_eq_of_getD ?_ fun k => ?_
  · rw [length_xorBytes]
    exact Nat.le_trans (length_getD_le_parityP ..) (Nat.le_max_right ..)
  · rw [xorBytes_getD, parityP_without_getD, xor_xor_cancel]

theorem recoverByQ_set (data : List Bytes) (i : Nat) (x : Bytes) :
    recoverByQ (data.set i x) (parityQ data) i (data.getD i []).length = data.getD i [] := by
  rw [recoverByQ, without_set]
  refine take_eq_of_getD ?_ fun k => ?_
  · rw [length_gfScale, length_xorBytes]
    exact Nat.le_trans (length_getD_le_parityQ ..) (Nat.le_max_right ..)
  · rw [gfScale_getD, xorBytes_getD, parityQ_without_getD, xor_xor_cancel, gfInv_gfMul_cancel (gfPow_two_ne_zero i)]

/-- Of the two unknown bytes x and y with `a = x + y` and `b = ux + vy` the first is `(b + va) / (u + v)`. -/
theorem gfSolve_two {u v : Byte} (huv : u ≠ v) (x y : Byte) :
    gfMul (gfInv (u ^^^ v)) (gfMul u x ^^^ gfMul v y ^^^ gfMul v (x ^^^ y)) = x := by
  have helim : gfMul u x ^^^ gfMul v y ^^^ gfMul v (x ^^^ y) = gfMul (u ^^^ v) x := by
    rw [gfMul_xor_right, gfMul_xor_left, BitVec.xor_assoc, BitVec.xor_comm (gfMul v x), ← BitVec.xor_assoc (gfMul v y),
      BitVec.xor_self, BitVec.zero_xor]
  rw [helim, gfInv_gfMul_cancel fun h => huv (BitVec.xor_eq_zero_iff.mp h)]

section
variable (data : List Bytes) {i j : Nat} (hij : i ≠ j)
include hij

theorem without_without_set (x y : Bytes) : without (without ((data.set i x).set j y) i) j = without (without data i) j := by
  simp only [without, List.set_comm _ _ hij, List.set_set]

theorem parityP_without_two_getD (k : Nat) : (xorBytes (parityP (without (without data i) j)) (parityP data)).getD k 0#8 =
    (data.getD i []).getD k 0#8 ^^^ (data.getD j []).getD k 0#8 := by
  rw [xorBytes_getD, parityP_without_getD, parityP_without_getD, without_getD_of_ne data hij,
    BitVec.xor_assoc ((parityP data).getD k 0#8), xor_xor_cancel]

theorem parityQ_without_two_getD (k : Nat) : (xorBytes (parityQ (without (without data i) j)) (parityQ data)).getD k 0#8 =
    gfMul (gfPow 2#8 i) ((data.getD i []).getD k 0#8) ^^^ gfMul (gfPow 2#8 j) ((data.getD j []).getD k 0#8) := by
  rw [xorBytes_getD, parityQ_without_getD, parityQ_without_getD, without_getD_of_ne data hij,
    BitVec.xor_assoc ((parityQ data).getD k 0#8), xor_xor_cancel]

theorem recoverTwo_set (hpow : gfPow 2#8 i ≠ gfPow 2#8 j) (x y : Bytes) :
    recoverTwo ((data.set i x).set j y) (parityP data) (parityQ data) i (data.getD i []).length j (data.getD j []).length
      = (data.getD i [], data.getD j []) := by
  simp only [recoverTwo, without_without_set data hij]
  refine Prod.ext (take_eq_of_getD ?_ fun k => ?_) (take_eq_of_getD ?_ fun k => ?_)
  · rw [length_gfScale, length_xorBytes, length_xorBytes]
    have hq := length_getD_le_parityQ data i
    omega
  · rw [gfScale_getD, xorBytes_getD, gfScale_getD, parityP_without_two_getD data hij, parityQ_without_two_getD data hij,
      gfSolve_two hpow]
  · rw [length_xorBytes, length_xorBytes]
    have hp := length_getD_le_parityP data j
    omega
  · rw [xorBytes_getD, gfScale_getD, xorBytes_getD, gfScale_getD, parityP_without_two_getD data hij,
      parityQ_without_two_getD data hij, gfSolve_two hpow, ← BitVec.xor_assoc, BitVec.xor_self, BitVec.zero_xor]

end

/-- Settles O44: P and Q without a data shard differ by that shard's part in them, and the generator's powers are invertible
and, at the places of a stripe, distinct. -/
theorem lostShardsAreRecomputed : Obligations.LostShardsAreRecomputed := by
  unfold Obligations.LostShardsAreRecomputed
  intro data hcount
  refine ⟨fun i x _ => ⟨recoverByP_set data i x, recoverByQ_set data i x⟩, fun i j x y hij hj => ?_⟩
  have hpow : gfPow 2#8 i ≠ gfPow 2#8 j := gfPow_two_ne hij (Nat.lt_of_lt_of_le hj hcount)
  exact recoverTwo_set data (Nat.ne_of_lt hij) hpow x y

end Sys2Proof.Machine
end

section
/-!
KEY_PAGE_WRITE, ADMIN_PAGE_CLEAR, RNG_HEALTH_FAIL, RNG_STARTUP_TEST_DONE, RNG_RESEED, PIPELINE_PARITY and PIPELINE_REBIND (R340 to
R342, R353, R359, R360, R362).
-/
namespace Sys2Proof.Machine

section
variable {s : State} {r : Requester} {v : OdVal}

/-! ### Key pages -/

/-- RANGE is for a key of zeros, the other half of the data key and, in RESTORE, a key other than the stored one (R359); any other
settles the page. -/
theorem keyWriteEffect_settles {page sub : Nat} {k : Bytes} (hk : k = window (valBytes v) 32 0 32) (hnonzero : k.all (· == 0) = false)
    (hhalf1 : sub = 2 → (s.keyPage page).xts1 ≠ some k) (hhalf2 : sub = 1 → (s.keyPage page).xts2 ≠ some k)
    (hstored : (s.keyPage page).state = 3 → ((s.keyPage page).key sub).2.any (fun c => c != k) = false) :
    keyWriteEffect r (0x7400 + page) sub v s =
      ((s.checkValue (s.keyPage page).page).settlePage ((s.keyPage page).putKey sub k s.now), stOk) := by
  have hhalves : ¬ ((sub = 2 ∧ (s.keyPage page).xts1 = some k) ∨ (sub = 1 ∧ (s.keyPage page).xts2 = some k)) :=
    not_or.mpr ⟨fun h => hhalf1 h.1 h.2, fun h => hhalf2 h.1 h.2⟩
  have hrestores : ¬ ((s.keyPage page).state = 3 ∧ ((s.keyPage page).key sub).2.any (fun c => c != k) = true) :=
    fun h => Bool.false_ne_true ((hstored h.1).symm.trans h.2)
  simp only [keyWriteEffect, Nat.add_sub_cancel_left, ← hk, hnonzero, Bool.false_eq_true, if_false, if_neg hhalves, if_neg hrestores]

theorem execKeyPageWrite_taken {page sub : Nat} {t : State} (hpage : page < 1024) (hsub : 1 ≤ sub) (hsub' : sub ≤ 3)
    (htakes : s.takesWrite r (0x7400 + page) sub v) (heffect : keyWriteEffect r (0x7400 + page) sub v s = (t, stOk)) :
    exec (.keyPageWrite page sub r v) s = .next (s.writeAnswered t r (0x7400 + page) sub) := by
  have hentry : ¬ (1024 ≤ page ∨ sub = 0 ∨ 3 < sub) := by omega
  simp only [exec, execKeyPageWrite, if_neg hentry, State.ownWrite_taken htakes heffect]

theorem execAdminPageClear_taken (htakes : s.takesWrite r 0x7002 0 v) :
    exec (.adminPageClear r v) s = .next (s.writeAnswered (s.destroyPage 0) r 0x7002 0) :=
  congrArg _ (State.ownWrite_taken htakes rfl)

/-! ### The random source -/

theorem execRngHealthFail_source {source test : Nat} (hsource : source < 2) (htest : 1 ≤ test) (htest' : test ≤ 2) :
    exec (.rngHealthFail source test) s = .next
      (({ s with cpx.rngState := if s.cpx.rngState = 0 then 1 else 2 }.bump 0x7030 0x0C 1).raise 0x7803 (wholeUnit 7) source test 0) := by
  have hunit : ¬ (2 ≤ source ∨ test = 0 ∨ 3 ≤ test) := by omega
  simp only [exec, execRngHealthFail, if_neg hunit]

theorem execRngStartupTestDone_stopped (hstopped : s.cpx.rngState ≠ 0) : exec .rngStartupTestDone s = .next
    ((s.cpx.pages.filter fun p => p.page != 0 && (p.state == 1 || (p.state == 3 && p.restored)) && p.complete).foldl
      (fun (s : State) p => s.settlePage p) { s with cpx.rngState := 0 }) :=
  if_neg hstopped

theorem execRngReseed_due (hruns : s.cpx.rngState = 0) (hdue : 65536 ≤ s.cpx.requests ∨ s.cpx.reseedAt + 1000000 ≤ s.now) :
    exec .rngReseed s = .next ({ s with cpx.requests := 0, cpx.reseedAt := s.now }.bump 0x7030 0x0B 1) :=
  if_pos ⟨hruns, hdue⟩

/-! ### Pipelines -/

/-- What an error in pipeline `n` counts and records: a block of page `m`, whose transfer is the one refused, or a parity error at
a stage (R340, R342). -/
def State.pipelineError (s : State) (n stage : Nat) : Option Nat → State
  | some m => ((s.bump 0x7030 0x07 1).raise 0x7802 (unitId 7 n) (s.pipeline n).binding m 0).putFirst n m
  | none => (s.bump 0x7030 0x06 1).raise 0x7801 (unitId 7 n) stage (s.pipeline n).binding 0

/-- In a pipeline in service a block of its own page alone is no error. -/
theorem execPipelineParity_error {n stage : Nat} {page : Option Nat} (hpipeline : n < 16) (hstage : stage < 16)
    (hserves : (s.pipeline n).state < 2) (hother : page ≠ some (s.pipeline n).binding) :
    exec (.pipelineParity n stage page) s = .next (((s.pipelineError n stage page).bump 0x7030 0x08
      (if (s.pipeline n).input = [] then 0 else 1)).isolate (pipelineUnit n) 1) := by
  have hunit : ¬ (16 ≤ n ∨ 16 ≤ stage) := by omega
  have herror : ¬ (2 ≤ (s.pipeline n).state ∨ page = some (s.pipeline n).binding) :=
    not_or.mpr ⟨Nat.not_le.mpr hserves, hother⟩
  cases page <;>
    simp only [exec, execPipelineParity, State.pipelineError, if_neg hunit, if_neg herror, List.isEmpty_iff]

theorem execPipelineRebind_rebindable {n page : Nat} (hpipeline : n < 16) (hpage : page ≤ 1024) (hfree : s.rebindable n = true)
    (hother : (s.pipeline n).binding ≠ page) : exec (.pipelineRebind n page) s = .next ((s.bind n page).dealWaiting) := by
  have hunit : ¬ (16 ≤ n ∨ 1024 < page) := by omega
  have hbinds : ¬ ((s.pipeline n).binding = page ∨ (!s.rebindable n) = true) := by simp [hother, hfree]
  simp only [exec, execPipelineRebind, if_neg hunit, if_neg hbinds]

end

/-- Settles O40: the rows in turn; an error of a pipeline by its kind, each counted and recorded in its own way. -/
theorem keyPageAndRandomCommands : Obligations.KeyPageAndRandomCommands := by
  unfold Obligations.KeyPageAndRandomCommands
  refine ⟨?_, fun r v s => execAdminPageClear_taken,
    fun source test s hsource htest htest' => ⟨_, execRngHealthFail_source hsource htest htest', rfl⟩,
    fun s => execRngStartupTestDone_stopped, fun s => execRngReseed_due,
    fun n stage s hn hstage hserves => ⟨execPipelineParity_error hn hstage hserves (Option.some_ne_none _).symm,
      fun m hm => execPipelineParity_error hn hstage hserves (hm ∘ Option.some.inj)⟩,
    fun n page s => execPipelineRebind_rebindable⟩
  intro page sub r v s k p hpage hsub hsub' htakes hk hp hnonzero hhalf1 hhalf2 hstored
  subst hp
  exact execKeyPageWrite_taken hpage hsub hsub' htakes (keyWriteEffect_settles hk hnonzero hhalf1 hhalf2 hstored)

end Sys2Proof.Machine
end

section
/-!
STRIPE_DRAIN, SHARD_PROGRAM_DONE, PROGRAM_REPLACEMENT, PACK_SEAL_TIMEOUT and FLUSH_VERIFY (R381, R396, R398, R399, R405 to R408).
-/
namespace Sys2Proof.Machine

section
variable {id i : Nat} {s : State} {p : Stripe} {h : Shard}

/-! ### Draining and programming -/

theorem execStripeDrain_next (hp : s.stripe? id = some p) (hdrainable : s.drainable p = true)
    (hfirst : s.plc.stripes.any (fun q => s.drainable q && s.drainsBefore q p) = false) (hfaults : s.bfc.faults = []) :
    exec (.stripeDrain id) s = .next ((List.range p.shards.length).foldl (fun (s' : State) i => match p.shards[i]? with
      | some h => if s'.sendable h then s'.sendShard (s.drainClass p) id i h else s'
      | none => s') s) := by
  simp only [exec, execStripeDrain, hp, hfirst, State.readDirty_of_no_faults hfaults, ite_self, Option.any_some, hdrainable,
    Bool.not_false, Bool.and_self, Bool.not_true, Bool.false_eq_true, if_false] <;> rfl

/-- A shard reported programmed in a row that its parity page or verification covers. -/
theorem execShardProgramDone_safe (hp : s.stripe? id = some p) (hh : p.shards[i]? = some h) (hsent : h.phase = .sent)
    (hpending : s.programPending h id i = false) (huse : (s.tile h.tile).inUse = true) (hrow : s.rowSafe h = true) {u v : State}
    (hu : u = s.mapShard id i fun x => { x with phase := .programmed })
    (hv : v = if u.plc.rebuild.state = 0 then u
      else State.bump { u with plc.rebuild.done := u.plc.rebuild.done + 1 } 0x9060 0x0C 1) :
    exec (.shardProgramDone id i) s = .next (if p.dirty then u.settleStripe id
      else (v.mapStripe id fun q => { q with degraded := decide (0 < v.goneCount q) }).endRebuild) := by
  have hsafe : ¬ (h.phase ≠ .sent ∨ s.programPending h id i = true ∨ (!(s.tile h.tile).inUse) = true ∨ (!s.rowSafe h) = true) := by
    simp [hsent, hpending, huse, hrow]
  subst hu hv
  simp only [exec, execShardProgramDone, hp, hh, if_neg hsafe]
  split <;> rfl

/-! ### Replacement -/

/-- The tile that PROGRAM_REPLACEMENT chooses for a shard: its own while that can take it, else a drawn one. -/
def State.replacementTile (s : State) (p : Stripe) (i : Nat) (h : Shard) : Option Nat :=
  if (s.tile h.tile).inUse ∧ 0 < s.slotsFree h.tile h.region ∧
      (!(s.tile h.tile).closed ∨ ((s.tile h.tile).locate h.region (s.freeSlot h.tile h.region)).isSome) then some h.tile
  else s.drawOne p i h.region

theorem State.replacementTile_own (huse : (s.tile h.tile).inUse = true) (hfree : 0 < s.slotsFree h.tile h.region)
    (hopen : (s.tile h.tile).closed = false ∨ ((s.tile h.tile).locate h.region (s.freeSlot h.tile h.region)).isSome = true) :
    s.replacementTile p i h = some h.tile :=
  if_pos ⟨huse, hfree, hopen.imp_left fun hc => by rw [hc]; rfl⟩

theorem State.replacementTile_drawn (huse : (s.tile h.tile).inUse = false) :
    s.replacementTile p i h = s.drawOne p i h.region :=
  if_neg fun hown => by simp [huse] at hown

theorem execProgramReplacement_needed (hp : s.stripe? id = some p) (hh : p.shards[i]? = some h) (hneeds : s.needsSlot p h = true) :
    exec (.programReplacement id i) s = match s.replacementTile p i h with
      | none => .next (s.enterCharcoal 3)
      | some t =>
        if p.order.isSome ∧ !s.journalRoom (s.relocationBytes [id]) then .next s.awaitJournal
        else if p.dirty ∧ t ≠ h.tile ∧ !s.flushRoom [t] then .next s
        else .next ((s.replaceShard p i t h).bump 0x9060 0x04 1) := by
  simp only [exec, execProgramReplacement, hp, hh, hneeds, Bool.not_true, Bool.false_eq_true, if_false] <;> rfl

theorem execProgramReplacement_noTile (hp : s.stripe? id = some p) (hh : p.shards[i]? = some h) (hneeds : s.needsSlot p h = true)
    (htile : s.replacementTile p i h = none) : exec (.programReplacement id i) s = .next (s.enterCharcoal 3) := by
  rw [execProgramReplacement_needed hp hh hneeds, htile]

section
variable {t : Nat} (hp : s.stripe? id = some p) (hh : p.shards[i]? = some h) (hneeds : s.needsSlot p h = true)
  (hjournal : p.order.isSome = false ∨ s.journalRoom (s.relocationBytes [id]) = true) (htile : s.replacementTile p i h = some t)
include hp hh hneeds hjournal htile

theorem execProgramReplacement_tile : exec (.programReplacement id i) s =
    if p.dirty ∧ t ≠ h.tile ∧ !s.flushRoom [t] then .next s else .next ((s.replaceShard p i t h).bump 0x9060 0x04 1) := by
  have hroom : ¬ (p.order.isSome = true ∧ (!s.journalRoom (s.relocationBytes [id])) = true) := by
    rcases hjournal with ho | hj
    · simp [ho]
    · simp [hj]
  rw [execProgramReplacement_needed hp hh hneeds, htile]
  exact if_neg hroom

theorem execProgramReplacement_replaces (hflush : p.dirty = false ∨ t = h.tile ∨ s.flushRoom [t] = true) :
    exec (.programReplacement id i) s = .next ((s.replaceShard p i t h).bump 0x9060 0x04 1) := by
  rw [execProgramReplacement_tile hp hh hneeds hjournal htile, if_neg]
  rintro ⟨hdirty, hother, hfull⟩
  rcases hflush with hf | hf | hf
  · simp [hf] at hdirty
  · exact hother hf
  · simp [hf] at hfull

theorem execProgramReplacement_waits (hdirty : p.dirty = true) (hother : t ≠ h.tile) (hfull : s.flushRoom [t] = false) :
    exec (.programReplacement id i) s = .next s := by
  rw [execProgramReplacement_tile hp hh hneeds hjournal htile, if_pos ⟨hdirty, hother, by rw [hfull]; rfl⟩]

end

/-! ### Sealing -/

theorem execPackSealTimeout_due (hp : s.stripe? id = some p) (hkind : p.kind = 2) (hopen : p.sealed = false)
    (hdue : p.openedAt + (if s.writeBack then s.num 0x9004 0 else 20) ≤ s.now) :
    exec (.packSealTimeout id) s = .next (((s.giveShards id p.filled).map fun u => u.bump 0x9060 0x02 1).getD s) := by
  have hwhen : p.kind = 2 ∧ (!p.sealed) = true ∧ p.openedAt + (if s.writeBack then s.num 0x9004 0 else 20) ≤ s.now :=
    ⟨hkind, by rw [hopen]; rfl, hdue⟩
  have hseals : ¬ (p.sealed = true ∨ p.kind ≠ 2) := by simp [hopen, hkind]
  simp only [exec, execPackSealTimeout, hp, if_pos hwhen, State.seal, if_neg hseals]

section
variable {filled region : Nat} {lens set : List Nat} (hp : s.stripe? id = some p) (hkind : p.kind ≠ 3) (hlens : lens = shardLens filled)
  (hregion : region = s.regionFor p.kind (lens.length + 2) p.fast)
include hp hkind hlens hregion

theorem State.giveShards_of_no_set (hset : s.drawFor region (lens.length + 2) = none) : s.giveShards id filled = none := by
  subst hlens hregion
  simp only [State.giveShards, hp, if_neg hkind, hset]

theorem State.giveShards_of_full (hset : s.drawFor region (lens.length + 2) = some set)
    (hfull : (s.mapStripe id fun q => { q with sealed := true }).flushRoom set = false) : s.giveShards id filled = none := by
  subst hlens hregion
  simp only [State.giveShards, hp, if_neg hkind, hset, hfull, Bool.not_false, if_true]

theorem State.giveShards_of_room (hset : s.drawFor region (lens.length + 2) = some set)
    (hroom : (s.mapStripe id fun q => { q with sealed := true }).flushRoom set = true) :
    s.giveShards id filled = some ((s.seatShards region set lens).2.mapStripe id fun q => { q with
      k := lens.length, filled := filled, sealed := true, shards := (s.seatShards region set lens).1 }) := by
  subst hlens hregion
  simp only [State.giveShards, hp, if_neg hkind, hset, hroom, Bool.not_true, Bool.false_eq_true, if_false]

end

/-! ### Flush verification -/

theorem execFlushVerify_readyWt {l : List Nat} {u : State} (hp : s.stripe? id = some p) (himage : s.plc.flushImage.contains id = true)
    (hpower : s.pch.power = .readyWt) (hu : u = { s with plc.flushImage := s.plc.flushImage.filter (· != id) }) :
    exec (.flushVerify id l) s = if 2 < (p.unreadable l).length then .next (u.loseStripe id)
      else .next ((u.mapStripe id fun q => { q with shards := q.shards.map fun h =>
        if h.phase = .programmed ∨ h.phase = .lost then h else { h with phase := .dirty } }).settleStripe id) := by
  have hwaits : ¬ ((!s.plc.flushImage.contains id) = true ∨ s.pch.power ≠ .readyWt) := by rw [himage, hpower]; decide
  subst hu
  simp only [exec, execFlushVerify, hp, if_neg hwaits]

end

/-- Settles O42: the rows in turn; a replacement by the tile it is given, a seal by the set that is drawn. -/
theorem stripePlacementCommands : Obligations.StripePlacementCommands := by
  unfold Obligations.StripePlacementCommands
  refine ⟨fun id s p => execStripeDrain_next,
    fun id i s p h hp hh hsent hpending huse hrow u hu => ⟨fun hdirty => ?_, fun hclean v hv => ?_⟩,
    fun id i s p h hp hh hneeds hjournal => ⟨fun huse hfree hopen => ?_,
      fun huse t ht => ⟨fun hflush => ?_, fun hdirty hother hfull => ?_⟩, fun huse hnone => ?_⟩,
    fun id s p hp hkind hopen hdue lens region hlens hregion => ?_,
    fun id l s u p hp himage hpower hu => ⟨fun hlost => ?_, fun hkept => ?_⟩⟩
  · rw [execShardProgramDone_safe hp hh hsent hpending huse hrow hu rfl, if_pos hdirty]
  · rw [execShardProgramDone_safe hp hh hsent hpending huse hrow hu hv, if_neg (by simp [hclean])]
  · exact execProgramReplacement_replaces hp hh hneeds hjournal (State.replacementTile_own huse hfree hopen) (.inr (.inl rfl))
  · exact execProgramReplacement_replaces hp hh hneeds hjournal ((State.replacementTile_drawn huse).trans ht) hflush
  · exact execProgramReplacement_waits hp hh hneeds hjournal ((State.replacementTile_drawn huse).trans ht) hdirty hother hfull
  · exact execProgramReplacement_noTile hp hh hneeds ((State.replacementTile_drawn huse).trans hnone)
  · rw [execPackSealTimeout_due hp hkind hopen hdue]
    have hnometa : p.kind ≠ 3 := by omega
    have hregion : region = s.regionFor p.kind (lens.length + 2) p.fast := by rw [hkind, hregion]
    refine ⟨fun set u hset hroom hu => ?_, fun hset => ?_, fun set hset hfull => ?_⟩
    · rw [State.giveShards_of_room hp hnometa hlens hregion hset hroom, hu]
      rfl
    · rw [State.giveShards_of_no_set hp hnometa hlens hregion hset]
      rfl
    · rw [State.giveShards_of_full hp hnometa hlens hregion hset hfull]
      rfl
  · rw [execFlushVerify_readyWt hp himage hpower hu, if_pos hlost]
  · rw [execFlushVerify_readyWt hp himage hpower hu, if_neg (Nat.not_lt.mpr hkept)]

end Sys2Proof.Machine
end

section
/-!
GC_STEP, JOURNAL_TRIM, REPACK, REBUILD_STRIPE, RESERVE_REFILL and LONG_OP_STEP (R391, R392, R396, R397, R400, R403, R410, R411, R416,
R418, R420, R421).
-/
namespace Sys2Proof.Machine

section
variable {s u v : State}

/-! ### Emptying a block -/

theorem State.emptyBlock_of_empty {t c d b why : Nat} (h : s.slotsIn t c d b = []) : s.emptyBlock t c d b why = s.emptied t c d b why :=
  if_pos (by rw [h]; rfl)

theorem State.emptyBlock_of_slots {t c d b why : Nat} (h : s.slotsIn t c d b ≠ []) :
    s.emptyBlock t c d b why = s.startMoves t c d b why :=
  if_neg (by rwa [List.isEmpty_iff])

theorem execGcStep_settled {t c d b : Nat} (htile : t < 64) (hdie : dieExists c d = true) (hblock : b < parityBlock)
    (hu : u = s.landMoves) (hgap : u.gap = false) (hused : u.blockCode t c d b ≠ 0) (hretired : u.blockCode t c d b ≠ 6)
    (herase : u.erasePending t c d b = false) (huse : (u.tile t).inUse = true) (hsettled : u.settled t c d b = true)
    (hinto : u.movesInto t c d b = false) : exec (.gcStep t c d b) s = .next (u.emptyBlock t c d b 0) := by
  have hunit : ¬ (64 ≤ t ∨ (!dieExists c d) = true ∨ parityBlock ≤ b) := by
    simp [hdie, htile, hblock]
  have hvictim : ¬ (u.gap = true ∨ u.blockCode t c d b = 0 ∨ u.erasePending t c d b = true ∨ (!(u.tile t).inUse) = true ∨
      (!u.settled t c d b) = true ∨ u.movesInto t c d b = true ∨ (u.blockCode t c d b = 6 ∧ (u.slotsIn t c d b).isEmpty = true)) := by
    simp [hgap, hused, hretired, herase, huse, hsettled, hinto]
  subst hu
  simp only [exec, execGcStep, if_neg hunit, if_neg hvictim]

/-! ### Trimming -/

theorem execJournalTrim_noPage (h : s.writeMetadata = none) : exec .journalTrim s = .next s.trimJournal.landMoves := by
  simp only [exec, execJournalTrim, h]

theorem execJournalTrim_pages (h : s.writeMetadata = some u) : exec .journalTrim s =
    if u.trimJournal.journalRoom u.trimJournal.mapRootBytes then .next u.trimJournal.writeRoots.releaseStripes.landMoves
    else .next s.trimJournal.awaitJournal := by
  simp only [exec, execJournalTrim, h]

/-! ### Repacking: its rows -/

section
variable {tenant : Nat} {key : Bytes}

/-- A value's extents placed anew, where they are fragmented or lie in sparse stripes. -/
def State.placedAnew (s : State) (k : KeyRec) (c : Cls) : Option (List Extent × State) :=
  if s.fragmented k then s.placeRuns k c (runsOf k.extents)
  else if k.extents.any fun e => s.sparse e.stripe then s.placeSparse k c k.extents
  else none

theorem State.beginRepack_unplaced {k : KeyRec} (h : s.placedAnew k (s.repackClass k) = none) : s.beginRepack k = s := by
  unfold State.placedAnew at h
  simp only [State.beginRepack, h]

theorem State.beginRepack_placed {k : KeyRec} {l : List Extent} (h : s.placedAnew k (s.repackClass k) = some (l, u)) {r : Repack}
    (hr : r = { tenant := k.tenant, key := k.key, version := k.version, extents := l }) {n : Nat}
    (hn : n = extentBytes (l.filter fun e => !k.extents.contains e && e.stripe != 0)) {w : State}
    (hv : v = u.fetchParts (s.repackClass k) 0 0 (k.extents.filter fun e => !(l.contains e || e.stripe == 0)))
    (hw : w = v.crypt .xtsE k.tenant (bufferLane k.version) (bufferLane k.version) (s.repackClass k) false noTask n) :
    s.beginRepack k = ({ w with plc.repacks := w.plc.repacks ++ [r] }.bump 0x9060 0x09 1).bump 0x7030 0x01 (2 * n) := by
  unfold State.placedAnew at h
  subst hr hn hv hw
  simp only [State.beginRepack, h]

theorem execRepack_begins {k : KeyRec} (hnone : s.plc.repacks.find? (fun r => r.tenant == tenant && r.key == key) = none)
    (hk : s.live? tenant key = some k) (hlost : k.lost = false) (hready : s.tenantReady tenant = true)
    (hlong : s.plc.longOp.any (fun o => decide (2 ≤ o.op)) = false) : exec (.repack tenant key) s = .next (s.beginRepack k) := by
  have hwaits : ¬ (k.lost = true ∨ (!s.tenantReady tenant) = true ∨ s.plc.longOp.any (fun o => decide (2 ≤ o.op)) = true) := by
    simp [hlost, hready, hlong]
  simp only [exec, execRepack, hnone, hk, if_neg hwaits]

theorem execRepack_held {r : Repack} (hr : s.plc.repacks.find? (fun r => r.tenant == tenant && r.key == key) = some r)
    (hheld : s.repackHeld r = true) : exec (.repack tenant key) s =
      if !s.journalRoom (recordBytes [key.length]) then .next s.awaitJournal else .next (s.endRepack r) := by
  simp only [exec, execRepack, hr, hheld, Bool.not_true, Bool.false_eq_true, if_false]

/-! ### Repacking: the key afterwards -/

theorem State.live?_of_keys (h : u.asu.keys = s.asu.keys) (t : Nat) (k : Bytes) : u.live? t k = s.live? t k := by
  rw [State.live?, State.key?, h, State.live?, State.key?]

theorem State.live?_name {k : KeyRec} (h : s.live? tenant key = some k) : k.tenant = tenant ∧ k.key = key := by
  simpa using List.find?_some (Option.filter_eq_some_iff.mp h).1

/-- A change of a record that keeps its name and does not delete it is what the key's entry becomes. -/
theorem State.live?_mapKey {k : KeyRec} {f : KeyRec → KeyRec} (h : s.live? tenant key = some k)
    (hf : ∀ q, (f q).tenant = q.tenant ∧ (f q).key = q.key ∧ (f q).tombstone = q.tombstone) :
    (s.mapKey tenant key f).live? tenant key = some (f k) := by
  obtain ⟨hkey, hstored⟩ := Option.filter_eq_some_iff.mp h
  rw [State.live?, State.key?_mapKey_of_some hkey fun q => ⟨(hf q).1, (hf q).2.1⟩, Option.filter_some, (hf k).2.2, if_pos hstored]

/-- Seating a map record anew changes its key's record only in where the map record lies. -/
theorem State.live?_reseatMap {k r : KeyRec} (h : s.live? k.tenant k.key = some r) :
    ∃ q, (s.reseatMap k).live? k.tenant k.key = some q ∧ q.extents = r.extents ∧ q.version = r.version ∧ q.value = r.value := by
  unfold State.reseatMap
  split
  · exact ⟨r, h, rfl, rfl, rfl⟩
  · split
    · exact ⟨r, h, rfl, rfl, rfl⟩
    · dsimp only
      have hcleared := State.live?_mapKey (f := fun r => { r with mapPages := [], pinnedMap := false }) h fun _ => ⟨rfl, rfl, rfl⟩
      rw [← State.live?_of_store (State.seatMap_store _ k.tenant k.version k.pinnedMap k.mapSize)] at hcleared
      rw [State.live?_of_store (State.dropMapPages_store _)]
      exact ⟨_, State.live?_mapKey hcleared fun _ => ⟨rfl, rfl, rfl⟩, rfl, rfl, rfl⟩

@[simp] theorem State.journalAppend_store (n : Nat) (b : JournalBody) (l : List Nat) (c : Cls) (t : Nat) :
    (s.journalAppend n b l c t).store = s.store := rfl

@[simp] theorem State.writeRelocation_store (t : Nat) (k : Bytes) (n : Nat) : (s.writeRelocation t k n).store = s.store := by
  simp [State.writeRelocation]

/-- The end of a repacking of the version that the key holds gives the key the new extents. -/
theorem State.endRepack_live {r : Repack} {k : KeyRec} (hk : s.live? r.tenant r.key = some k) (hversion : k.version = r.version) :
    ∃ q, (s.endRepack r).live? r.tenant r.key = some q ∧ q.extents = r.extents ∧ q.version = k.version ∧ q.value = k.value := by
  obtain ⟨htenant, hkey⟩ := State.live?_name hk
  unfold State.endRepack State.relocate
  extract_lets plc s1 l
  have hk1 : s1.live? r.tenant r.key = some k := hk
  dsimp -zeta only
  rw [hk1, Option.any_some, if_pos (beq_iff_eq.mpr hversion)]
  dsimp -zeta only
  extract_lets order packed s2 s3 s4
  have hk3 : s3.live? r.tenant r.key = some { k with extents := l, packed := packed } :=
    State.live?_mapKey (s := s2) (f := fun r => { r with extents := l, packed := packed }) hk1 fun _ => ⟨rfl, rfl, rfl⟩
  obtain ⟨q, hq, hextents, hver, hvalue⟩ : ∃ q, s4.live? r.tenant r.key = some q ∧ q.extents = l ∧ q.version = k.version ∧
      q.value = k.value := by
    rw [← htenant, ← hkey] at hk3 ⊢
    exact State.live?_reseatMap (k := { k with extents := l, packed := packed }) hk3
  refine ⟨q, ?_, hextents, hver, hvalue⟩
  rw [← hq]
  refine State.live?_of_keys (congrArg Ledger.keys (?_ : (State.store _).holding.ledger = s4.store.holding.ledger)) ..
  rw [State.releaseStripes_ledger, State.writeRelocation_store]
  exact foldl_leaves (g := fun u => u.store.holding.ledger) (fun _ _ => State.mapStripe_ledger ..) ..

end

/-! ### Rebuild, reserve and long operations -/

theorem execRebuildStripe_next {id : Nat} {p : Stripe} (hp : s.stripe? id = some p) (hgap : s.gap = false)
    (hruns : s.plc.rebuild.state ≠ 0) (hneeded : s.toRebuild p = true) (hwrite : s.toWrite p ≠ [])
    (hfirst : s.plc.stripes.any (fun q => (s.toRebuild q && !(s.toWrite q).isEmpty) && s.rebuildsBefore q p &&
      (s.plc.charcoal = 0 || (s.rebuildShards q.id 3 (s.toWrite q)).isSome)) = false)
    (hroom : s.journalRoom (s.relocationBytes [id]) = true) {c : Cls} (hc : c = if s.num 0x9011 0 = 2 then 2 else 3)
    (hu : u = (((List.range p.shards.length).filter fun j => !(s.missingShards p).contains j).take p.k).foldl
      (fun (s : State) j => match p.shards[j]? with
        | some h => s.queueRead c true p j h.whole
        | none => s) s) :
    exec (.rebuildStripe id) s = match u.rebuildShards id c (u.toWrite p) with
      | none => .next ({ u with plc.rebuild.state := 2 }.enterCharcoal 1)
      | some v => .next ({ v.mapStripe id (fun q => { q with degraded := true }) with
          plc.rebuild.state := 1 }.relocateStripe id).checkCharcoal := by
  have hopen : (s.toRebuild p && !(s.toWrite p).isEmpty) = true := by simp [hneeded, hwrite]
  have hturn : ¬ (s.gap = true ∨ s.plc.rebuild.state = 0 ∨ (!(s.toRebuild p && !(s.toWrite p).isEmpty)) = true ∨
      s.plc.stripes.any (fun q => (s.toRebuild q && !(s.toWrite q).isEmpty) && s.rebuildsBefore q p &&
        (s.plc.charcoal = 0 || (s.rebuildShards q.id 3 (s.toWrite q)).isSome)) = true) := by
    rw [hgap, hopen, hfirst]
    simp [hruns]
  subst hc hu
  simp only [exec, execRebuildStripe, hp, if_neg hturn, hroom, Bool.not_true, Bool.false_eq_true, if_false] <;> rfl

theorem execReserveRefill_noRebuild {bytes : Nat} (h : s.plc.rebuild.state = 0) : exec (.reserveRefill bytes) s =
    .next { s with plc.reserve := s.plc.reserve + min bytes (min (fullReserve - s.plc.reserve)
      (s.dataFree + fullReserve - s.reserveHeld - (s.capacity - s.storedBytes) * 16 / 14)) } :=
  if_neg (not_not_intro h)

theorem execLongOpStep_running {work : Nat} {o : LongOp} (hruns : s.longRuns = true) (ho : s.plc.longOp = some o)
    (hdraw : o.op = 1 ∨ s.cpx.rngState = 0 ∨ o.phase ≠ lastPhase o.op) : exec (.longOpStep work) s =
      if !s.journalRoom 64 then .next s.awaitJournal else .next (s.longStep o work) := by
  have hwaits : ¬ (o.op ≠ 1 ∧ o.phase = lastPhase o.op ∧ s.cpx.rngState ≠ 0) := by
    rintro ⟨hop, hlast, hdry⟩
    rcases hdraw with hd | hd | hd
    · exact hop hd
    · exact hdry hd
    · exact hd hlast
  simp only [exec, execLongOpStep, hruns, Bool.not_true, Bool.false_eq_true, if_false, ho, if_neg hwaits]

theorem execLongOpStep_reclaim {work t since : Nat} {l : List (Nat × Nat)} (hruns : s.longRuns = true) (hnone : s.plc.longOp = none)
    (hl : s.plc.reclaims = (t, since) :: l) :
    exec (.longOpStep work) s = .next ({ s with plc.reclaims := l }.startLongOp 1 t 0 since) := by
  simp only [exec, execLongOpStep, hruns, Bool.not_true, Bool.false_eq_true, if_false, hnone, hl]

end

/-- Settles O43: the rows in turn, a repack by its begin and its end; what the end leaves of the key is `State.endRepack_live`. -/
theorem collectionAndRebuildCommands : Obligations.CollectionAndRebuildCommands := by
  unfold Obligations.CollectionAndRebuildCommands
  refine ⟨fun t c d b s u ht hd hb hu hg hc hr he hi hs hm => ?_,
    fun s => ⟨execJournalTrim_noPage, fun u hu => ⟨fun hroom => ?_, fun hfull => ?_⟩⟩,
    fun tenant key s k c placed hnone hk hlost hready hlong hc hplaced => ⟨fun hno => ?_, fun l u v w n r hl hr hn hv hw => ?_⟩,
    fun tenant key s r hr hheld => ⟨fun hfull => ?_, fun hroom => ⟨?_, fun k hk hversion => ?_⟩⟩,
    fun id s p hp hgap hruns hneeded hwrite hfirst hroom c u hc hu => ⟨fun hnone => ?_, fun v w hv hw => ?_⟩,
    fun bytes room s h hroom => ?_,
    fun work s hruns => ⟨fun o ho hdraw => ⟨fun hroom => ?_, fun hfull => ?_⟩, fun t since l => execLongOpStep_reclaim hruns⟩⟩
  · rw [execGcStep_settled ht hd hb hu hg hc hr he hi hs hm]
    exact ⟨fun h => by rw [State.emptyBlock_of_empty h], fun h => by rw [State.emptyBlock_of_slots h]⟩
  · rw [execJournalTrim_pages hu, if_pos hroom]
  · rw [execJournalTrim_pages hu, if_neg (by simp [hfull])]
  · subst hc
    rw [execRepack_begins hnone hk hlost hready hlong, State.beginRepack_unplaced (hplaced.symm.trans hno)]
  · subst hc
    rw [execRepack_begins hnone hk hlost hready hlong, State.beginRepack_placed (hplaced.symm.trans hl) hr hn hv hw]
  · rw [execRepack_held hr hheld, if_pos (by rw [hfull]; rfl)]
  · rw [execRepack_held hr hheld, if_neg (by simp [hroom])]
  · obtain ⟨rfl, rfl⟩ : r.tenant = tenant ∧ r.key = key := by simpa using List.find?_some hr
    exact State.endRepack_live hk hversion
  · rw [execRebuildStripe_next hp hgap hruns hneeded hwrite hfirst hroom hc hu, hnone]
  · rw [execRebuildStripe_next hp hgap hruns hneeded hwrite hfirst hroom hc hu, hv, hw]
  · rw [execReserveRefill_noRebuild h, hroom]
  · rw [execLongOpStep_running hruns ho hdraw, if_neg (by simp [hroom])]
  · rw [execLongOpStep_running hruns ho hdraw, if_pos (by rw [hfull]; rfl)]

end Sys2Proof.Machine
end

section
/-!
ROW_VERIFY, REWRITE, DIE_TEMP_SAMPLE, TILE_EMBER_IDLE, TILE_PEAT_IDLE, TILE_WAKE and TILE_FAULT (R412, R436, R437, R446, R447, R449 to
R452, R454).
-/
namespace Sys2Proof.Machine

section
variable {t c d b row : Nat} {s u : State}

/-! ### Verification -/

theorem execRowVerify_next {l : List (List Nat)} {k : DieBlock} {pages bad : List SuperPlace} {w : State} (hunit : unitsExist t c d = true)
    (hblock : b < parityBlock) (hk : k = (s.tile t).blockAt c d b) (hpages : pages = (s.tile t).rowPages k.region k.superblock row)
    (huse : (s.tile t).inUse = true) (hrun : (s.tile t).state = 0) (hverifies : (s.tile t).verifies k.region k.superblock row = true)
    (hnext : pages.any (fun e => !s.verifyNext t ((s.tile t).dieAt e.channel e.die) e.block row) = false)
    (hw : w = s.mapTile t fun y => y.dropVerify k.region k.superblock row)
    (hu : u = pages.foldl (fun s e => s.sensed t e.channel e.die e.block (pageCodewords l e.pos)) w) :
    (bad = pages.filter fun e => w.pageFails (pageCodewords l e.pos)) → exec (.rowVerify t c d b row l) s = match bad with
      | [] => .next (pages.foldl (fun (s : State) e => s.mapTile t fun y => y.mapBlock e.channel e.die e.block fun k => k.verify row)
          (u.mapTile t fun y => y.parityDrop k.region k.superblock row))
      | first :: more => .next (bad.foldl (fun (s : State) e => s.failPage t row more.isEmpty e)
          ((u.bump (tileIndex t) 0x0E 1).raise 0xA803 (dieUnit t first.channel first.die) first.block row 0)) := by
  intro hbad
  have hnamed : ¬ ((!unitsExist t c d) = true ∨ parityBlock ≤ b) := by
    simp [hunit, hblock]
  subst hk hpages hu hbad hw
  have hready : ¬ ((!(s.tile t).inUse) = true ∨ (s.tile t).state ≠ 0 ∨
      (!(s.tile t).verifies ((s.tile t).blockAt c d b).region ((s.tile t).blockAt c d b).superblock row) = true ∨
      ((s.tile t).rowPages ((s.tile t).blockAt c d b).region ((s.tile t).blockAt c d b).superblock row).any
        (fun e => !s.verifyNext t ((s.tile t).dieAt e.channel e.die) e.block row) = true) := by
    rw [huse, hverifies, hnext]
    simp [hrun]
  simp only [exec, execRowVerify, if_neg hnamed, if_neg hready] <;> rfl

/-! ### Rewriting -/

theorem execRewrite_settled (hunit : unitsExist t c d = true) (hblock : b < parityBlock) (hu : u = s.landMoves)
    (hqueued : ((u.tile t).blockAt c d b).queued ≠ 0) (hgap : u.gap = false) (huse : (u.tile t).inUse = true)
    (herase : u.erasePending t c d b = false) (hsettled : u.settled t c d b = true) (hinto : u.movesInto t c d b = false) :
    exec (.rewrite t c d b) s = .next (u.emptyBlock t c d b ((u.tile t).blockAt c d b).queued) := by
  have hnamed : ¬ ((!unitsExist t c d) = true ∨ parityBlock ≤ b) := by
    simp [hunit, hblock]
  have hready : ¬ (((u.tile t).blockAt c d b).queued = 0 ∨ u.gap = true ∨ (!(u.tile t).inUse) = true ∨
      u.erasePending t c d b = true ∨ (!u.settled t c d b) = true ∨ u.movesInto t c d b = true) := by
    simp [hqueued, hgap, huse, herase, hsettled, hinto]
  subst hu
  simp only [exec, execRewrite, if_neg hnamed, if_neg hready]

/-! ### Temperature -/

theorem execDieTempSample_existing {x : Int} {sensor : Bool} {v : State} {e : Die} {y : Tile} (hunit : unitsExist t c d = true)
    (he : e = (s.tile t).dieAt c d) (hu : u = if sensor ∨ e.sensorFailed then s else s.raise 0xA401 (dieUnit t c d) 0 0 0)
    (hy : y = { (s.tile t).putDie { e with temp := x, sensorFailed := !sensor } with
      tempUs := (s.tile t).tempUs.modify (historyBucket (s.tile t).hottest) (· + (u.now - (s.tile t).tempAt)), tempAt := u.now })
    (hv : v = (u.mapTile t fun _ => y).putNum (tileIndex t) 0x15 (clampI 32 y.hottest)) :
    exec (.dieTempSample t c d x sensor) s = if v.signed (tileIndex t) 0x16 < y.hottest
      then .next (v.putNum (tileIndex t) 0x16 (clampI 32 y.hottest)) else .next v := by
  subst hv hy hu he
  simp only [exec, execDieTempSample, hunit, Bool.not_true, Bool.false_eq_true, if_false]

/-! ### Power -/

theorem execTileEmberIdle_due (ht : t < 64) (hrun : (s.tile t).state = 0) (hon : (s.tile t).isolated = false)
    (hidle : s.tileIdle t = true) (hdue : (s.tile t).idleSince + s.num 0xA000 0 ≤ s.now) :
    exec (.tileEmberIdle t) s = .next (s.mapTile t fun y => { y with state := 1, idleSince := s.now }) := by
  have hready : (s.tile t).state = 0 ∧ (!(s.tile t).isolated) = true ∧ s.tileIdle t = true ∧
      (s.tile t).idleSince + s.num 0xA000 0 ≤ s.now := ⟨hrun, by rw [hon]; rfl, hidle, hdue⟩
  simp only [exec, execTileEmberIdle, if_neg (Nat.not_le.mpr ht), if_pos hready]

section
variable (ht : t < 64) (hember : (s.tile t).state = 1) (hidle : s.tileIdle t = true)
  (hleaves : s.fastHolder t = false ∨ s.num 0x4000 0 = 0)
include ht hember hidle hleaves

theorem execTilePeatIdle_ember : exec (.tilePeatIdle t) s =
    if (s.tile t).peatStep = 0 ∧ (s.num 0xA000 1 = 0 ∨ s.now < (s.tile t).idleSince + s.num 0xA000 1 * 1000) then .next s
    else if (s.tile t).peatStep < 2 then .next (s.mapTile t fun y => { y with peatStep := y.peatStep + 1 })
    else .next (s.mapTile t fun y => { y with state := 2, peatStep := 0 }) := by
  have hgoes : ¬ ((s.tile t).state ≠ 1 ∨ (!s.tileIdle t) = true ∨ (s.fastHolder t = true ∧ s.num 0x4000 0 ≠ 0)) := by
    rcases hleaves with hf | hn
    · simp [hember, hidle, hf]
    · simp [hember, hidle, hn]
  simp only [exec, execTilePeatIdle, if_neg (Nat.not_le.mpr ht), if_neg hgoes]

theorem execTilePeatIdle_first (hstep : (s.tile t).peatStep = 0) (hon : s.num 0xA000 1 ≠ 0)
    (hdue : (s.tile t).idleSince + s.num 0xA000 1 * 1000 ≤ s.now) :
    exec (.tilePeatIdle t) s = .next (s.mapTile t fun y => { y with peatStep := y.peatStep + 1 }) := by
  rw [execTilePeatIdle_ember ht hember hidle hleaves, if_neg (by omega), if_pos (by omega)]

theorem execTilePeatIdle_second (hstep : (s.tile t).peatStep = 1) :
    exec (.tilePeatIdle t) s = .next (s.mapTile t fun y => { y with peatStep := y.peatStep + 1 }) := by
  rw [execTilePeatIdle_ember ht hember hidle hleaves, if_neg (by omega), if_pos (by omega)]

theorem execTilePeatIdle_last (hstep : 2 ≤ (s.tile t).peatStep) :
    exec (.tilePeatIdle t) s = .next (s.mapTile t fun y => { y with state := 2, peatStep := 0 }) := by
  rw [execTilePeatIdle_ember ht hember hidle hleaves, if_neg (by omega), if_neg (by omega)]

end

theorem execTileWake_work (ht : t < 64) (hwork : s.tileIdle t = false) (hsaves : (s.tile t).state = 1 ∨ (s.tile t).state = 2) :
    exec (.tileWake t) s = .next ((s.mapTile t fun y => { y with state := 0, peatStep := 0, idleSince := s.now }).bump (tileIndex t)
      (if (s.tile t).state = 1 then 0x13 else 0x14) 1) := by
  simp only [exec, execTileWake, if_neg (Nat.not_le.mpr ht), hwork, Bool.false_eq_true, if_false, State.wakeTile, if_pos hsaves]

/-! ### Faults -/

theorem execTileFault_inUse {x : UnitId} {kind : Nat} {l : List Nat} (hl : faultTiles x kind = some l)
    (huse : (l.filter fun t => (s.tile t).inUse) ≠ []) : exec (.tileFault x kind) s =
      .next ((l.filter fun t => (s.tile t).inUse).foldl (fun (s : State) t => s.isolate (tileUnit t) 1)
        (s.raise 0xA807 x.word kind 0 0)) := by
  have hsome : ¬ (l.filter fun t => (s.tile t).inUse).isEmpty = true := by rwa [List.isEmpty_iff]
  simp only [exec, execTileFault, hl, if_neg hsome]

end

/-- Settles O46: the rows in turn, a verification by the pages that fail, a tile's power by where it stands. -/
theorem tileCommands : Obligations.TileCommands := by
  unfold Obligations.TileCommands
  refine ⟨fun t c d b row l s k pages hunit hblock hk hpages huse hrun hverifies hnext w u hw hu => ?_,
    fun t c d b s u hunit hblock hu hqueued hgap huse herase hsettled hinto => ?_,
    fun t c d x sensor s u v e y hunit he hu hy hv => ?_,
    fun t s ht => ⟨execTileEmberIdle_due ht, fun hember hidle hleaves => ⟨execTilePeatIdle_first ht hember hidle hleaves,
      execTilePeatIdle_second ht hember hidle hleaves, execTilePeatIdle_last ht hember hidle hleaves⟩, execTileWake_work ht⟩,
    fun u kind l s => execTileFault_inUse⟩
  · rw [execRowVerify_next hunit hblock hk hpages huse hrun hverifies hnext hw hu rfl]
    exact ⟨fun hnone => by rw [hnone], fun first more hfails => by rw [hfails]⟩
  · rw [execRewrite_settled hunit hblock hu hqueued hgap huse herase hsettled hinto]
    refine ⟨fun hslots => by rw [State.emptyBlock_of_slots hslots], fun hempty v hv => ?_⟩
    rw [State.emptyBlock_of_empty hempty, hv]
    exact ⟨fun hreads => by rw [hreads]; rfl, fun hwear => by rw [hwear]; rfl⟩
  · rw [execDieTempSample_existing hunit he hu hy hv]
    exact ⟨fun hmax => if_pos hmax, fun hmax => if_neg hmax⟩

end Sys2Proof.Machine
end

section
/-!
FLUSH_END, MRST_N_ASSERT, MRST_N_RELEASE, PWRDIS_ASSERT, PWRDIS_RELEASE, MODULE_RESET, DOZE_ENTRY, DOZE_WAKE, DEVICE_TIME_CHECKPOINT,
AON_TRIM and MODULE_OUT_OF_SERVICE (R32, R223, R404, R547 to R549, R554, R556, R565, R569 to R571, R631, R632).
-/
namespace Sys2Proof.Machine

section
variable {s : State}

/-! ### What the end of a flush leaves of the power state -/

@[simp] theorem State.record_pch (e : Event) (n : Nat) : (s.record e n).pch = s.pch := by
  unfold State.record
  split
  · split <;> rfl
  · rfl

@[simp] theorem State.stage_pch (e : Event) : (s.stage e).pch = s.pch := by
  unfold State.stage
  dsimp only
  split
  · split
    · rfl
    · split
      · rfl
      · split
        · rfl
        · split <;> rfl
  · rfl

@[simp] theorem State.writeEvent_pch (e : Event) (n : Nat) : (s.writeEvent e n).pch = s.pch := by
  unfold State.writeEvent
  extract_lets jsr u
  have hu : u.pch = s.pch := ite_leaves (g := State.pch) rfl rfl
  refine ite_leaves (g := State.pch) ?_ ?_
  · rw [State.stage_pch, hu]
  · rw [State.record_pch, hu]

@[simp] theorem State.unpowerJsr_pch : s.unpowerJsr.pch = s.pch :=
  foldl_leaves (g := State.pch) (fun _ _ => State.writeEvent_pch ..) ..

@[simp] theorem State.trimJournal_pch : s.trimJournal.pch = s.pch := by
  change s.voidPlaces.releaseFlush.pch = s.pch
  unfold State.releaseFlush
  split <;> rfl

@[simp] theorem State.flushStripe_pch (p : Stripe) : (s.flushStripe p).pch = s.pch := by
  unfold State.flushStripe
  exact foldl_leaves_snd (g := State.pch) (fun _ _ => by dsimp only; split <;> rfl) ..

/-- A flush that wrote its map-root record sets how the next start-up begins, and no other part of the power state. -/
theorem State.flushDone_pch : s.flushDone.pch = { s.pch with startKind := 1 } := by
  have hstripes : ((s.plc.stripes.filter Stripe.flushes).foldl (fun s p => s.flushStripe p) s.trimJournal).pch = s.pch :=
    (foldl_leaves (g := State.pch) (fun _ _ => State.flushStripe_pch ..) ..).trans State.trimJournal_pch
  rw [← hstripes]
  rfl

theorem execFlushEnd_wrote {mv mj cause : Nat} {u : State} (hflush : s.pch.flushing = some cause) (hmain : s.pch.mainGood = false)
    (hroom : s.flushRecords = true)
    (hu : u = ((s.lastFlush s.pch.flushBytes mj mv cause true).flushDone).raise 0xD005 (unitId 0xD 1)
      (clampU 32 (s.pch.flushBytes / 1048576)) (clampU 32 (s.now - s.pch.flushAt)) (clampU 32 mj)) :
    exec (.flushEnd mv mj true) s =
      .next { u with pch.flushing := none, pch.bankMv := mv, pch.firewood := .charging }.unpowerJsr.holdStart := by
  have hgone : u.pch.mainGood = false := by
    rw [hu, State.raise_pch, State.flushDone_pch]
    exact hmain
  have hstays : ¬ (cause = 3 ∧
      { u with pch.flushing := none, pch.bankMv := mv, pch.firewood := .charging }.unpowerJsr.pch.mainGood = true) := by
    simp [hgone]
  subst hu
  simp only [exec, execFlushEnd, hflush, hroom, Bool.not_true, Bool.false_eq_true, and_false, if_false, if_true, if_neg hstays]

/-! ### Contacts -/

section
variable {us : Nat} (hup : s.pch.mrst = false)
include hup

theorem execMrstNAssert_filtered (hshort : us < 2) (hpower : s.pch.power ≠ .off) :
    exec (.mrstNAssert us) s = .next (s.bump 0xD068 0x02 1) := by
  simp only [exec, execMrstNAssert, hup, Bool.false_eq_true, if_false, if_pos hshort, if_neg hpower]

theorem execMrstNAssert_recognised (hlong : 10 ≤ us) : exec (.mrstNAssert us) s = .next { s with pch.mrst := true }.mrstRecognised := by
  have hkept : ¬ us < 2 := by omega
  simp only [exec, execMrstNAssert, hup, Bool.false_eq_true, if_false, if_neg hkept, if_neg (Nat.not_lt.mpr hlong)]

end

theorem execMrstNRelease_held (hdown : s.pch.mrst = true) : exec .mrstNRelease s = .next s.mrstReleased :=
  if_pos hdown

theorem execPwrdisAssert_powered (hup : s.pch.pwrdis = false) (hpower : s.pch.power ≠ .off) (hmain : s.pch.mainPower = true) :
    exec .pwrdisAssert s = .next (({ s with pch.pwrdis := true }.bump 0xD068 0x01 1).mainRemoved 2) := by
  simp only [exec, execPwrdisAssert, hup, Bool.false_eq_true, if_false, if_neg hpower, if_pos hmain]

theorem execModuleReset_taken {r : Requester} (htakes : s.takesWrite r 0xD010 0 (.num 1)) : exec (.moduleReset r (.num 1)) s =
    .next (s.writeAnswered (((s.wakeUp).startDrain .reset).putNum 0xD010 0 1) r 0xD010 0) :=
  congrArg _ (State.ownWrite_taken htakes (if_neg (not_not_intro rfl)))

/-! ### Doze -/

theorem execDozeEntry_begins (hout : s.pch.dozeStep = 0) (hdue : s.dozeDue = true) : exec .dozeEntry s = .next (s.dozeAdvance 1) := by
  simp only [exec, execDozeEntry, if_neg (not_not_intro hout), if_pos hdue]

theorem execDozeEntry_goesOn (hin : s.pch.dozeStep ≠ 0) : exec .dozeEntry s = .next s.dozeNext :=
  if_pos hin

theorem State.dozeNext_undisturbed (h : s.pch.wakeWanted = false) : s.dozeNext = s.dozeAdvance (s.pch.dozeStep + 1) := by
  simp only [State.dozeNext, h, Bool.not_false, if_true]

theorem State.dozeNext_reversed {u : State} (h : s.pch.wakeWanted = true) (hu : u = s.dozeAdvance (s.pch.dozeStep + 1)) :
    s.dozeNext = if u.pch.dozeStep ≠ 0 then u.wakeUp else u.wakeUp.bump 0x3010 0x0C 1 := by
  subst hu
  simp only [State.dozeNext, h, Bool.not_true, Bool.false_eq_true, if_false]

/-- No entry to Doze is under way, and the module is not in Doze. -/
def State.awake (s : State) : Prop := s.pch.dozeStep = 0 ∧ s.pch.power ≠ .doze

theorem State.awake_of_pch {u : State} (h : u.pch = s.pch) (hs : s.awake) : u.awake := by
  unfold State.awake
  rwa [h]

@[simp] theorem State.wakeLink_pch (p : Port) : (s.wakeLink p).pch = s.pch :=
  ite_leaves (g := State.pch) (State.mapPort_pch ..) rfl

@[simp] theorem State.wakeTile_pch (t : Nat) : (s.wakeTile t).pch = s.pch :=
  ite_leaves (g := State.pch) rfl rfl

/-- Ready and Active alternate as work comes and goes; neither is Doze. -/
theorem State.readyActive_awake (hs : s.awake) : s.readyActive.awake := by
  obtain ⟨hstep, hpower⟩ := hs
  unfold State.readyActive
  split
  · split
    · exact ⟨hstep, Power.noConfusion⟩
    · exact ⟨hstep, hpower⟩
  · split
    · exact ⟨hstep, hpower⟩
    · exact ⟨hstep, Power.noConfusion⟩
  · exact ⟨hstep, hpower⟩

theorem State.wakeUp_awake (h : s.pch.power = .doze ∨ s.pch.dozeStep ≠ 0) : s.wakeUp.awake := by
  have hwakes : ¬ ((!decide (s.pch.dozeStep ≠ 0)) = true ∧ s.pch.power ≠ .doze) := by
    rintro ⟨hout, hpower⟩
    rcases h with hdoze | hin
    · exact hpower hdoze
    · simp [hin] at hout
  unfold State.wakeUp
  extract_lets entering reversed s1 wdn pch s2 s3 s4 s5
  have h2 : s2.awake := ⟨rfl, Power.noConfusion⟩
  have h3 : s3.pch = s2.pch := (State.wakeLink_pch ..).trans (State.wakeLink_pch ..)
  have h4 : s4.pch = s3.pch :=
    foldl_leaves (g := State.pch) (fun _ _ => ite_leaves (g := State.pch) (State.wakeTile_pch _) rfl) s3 (List.range 64)
  have h5 : s5.awake := State.readyActive_awake (State.awake_of_pch ((State.bump_pch ..).trans (h4.trans h3)) h2)
  rw [if_neg hwakes]
  split
  · exact State.awake_of_pch (State.bump_pch ..) h5
  · exact h5

/-! ### Device time and the end of service -/

theorem execDeviceTimeCheckpoint_due (hon : s.aonOn = true) (hdue : s.pch.devSaved + 1000000 ≤ s.now) :
    exec .deviceTimeCheckpoint s = .next { s with pch.devSaved := s.now } :=
  if_pos ⟨hon, hdue⟩

theorem execAonTrim_on {ppm : Int} (hon : s.aonOn = true) : exec (.aonTrim ppm) s = .next (s.putNum 0xD031 0 (clampI 32 ppm)) :=
  if_pos hon

end

/-- Settles O53: the rows in turn; a wake ends Doze and its entry by `State.wakeUp_awake`. -/
theorem flushResetAndDozeCommands : Obligations.FlushResetAndDozeCommands := by
  unfold Obligations.FlushResetAndDozeCommands
  refine ⟨fun mv mj cause s u => execFlushEnd_wrote, fun us s hup => ⟨execMrstNAssert_filtered hup, execMrstNAssert_recognised hup⟩,
    fun s => execMrstNRelease_held, fun s => execPwrdisAssert_powered, fun s => rfl, fun r s => execModuleReset_taken,
    fun s => ⟨execDozeEntry_begins, fun hin => ⟨execDozeEntry_goesOn hin, State.dozeNext_undisturbed, fun u hwake hu => ?_⟩⟩,
    fun s hasleep => ⟨rfl, State.wakeUp_awake hasleep⟩, fun s => execDeviceTimeCheckpoint_due, fun ppm s => execAonTrim_on,
    fun s => ⟨_, rfl, rfl, rfl, rfl⟩⟩
  rw [State.dozeNext_reversed hwake hu]
  exact ⟨fun hstep => if_pos hstep, fun hstep => if_neg (not_not_intro hstep)⟩

end Sys2Proof.Machine
end

section
/-!
DIE_OP_START, READ_DONE, PROGRAM_DONE, PROGRAM_FAILED and ERASE_DONE (R399, R400, R430, R432 to R434, R437, R442, R445, R447).
-/
namespace Sys2Proof.Machine

section
variable {t c d b row : Nat} {s u v : State} {x : Die} {q : Nat × Nat} {l : List Nat}

/-! ### What the codewords of a read lead to -/

section
variable {w : List (Nat × Nat)} (hgood : (w.any fun e => decide (5 ≤ e.1)) = false)
include hgood

theorem State.unrecovered_of_decoded (s : State) (t c d b row : Nat) : s.unrecovered t c d b row w = false :=
  List.any_eq_false.2 fun e he => by simp [List.any_eq_false.1 hgood e he]

/-- A codeword that the ladder decoded asks nothing of die parity. -/
theorem any_step_five_of_decoded : (w.any fun e => e.1 == 5) = false := by
  refine List.any_eq_false.2 fun e he => ?_
  have hstep : ¬ 5 ≤ e.1 := by simpa using List.any_eq_false.1 hgood e he
  simp only [beq_iff_eq]
  omega

theorem State.readEnds_decoded (s : State) (t c d b row : Nat) (a : Cls) (e : Bool) (id i : Nat) (part : ReadPart) :
    s.readEnds t c d b row a e id i part w = s.bringData t a e id i part := by
  simp only [State.readEnds, State.unrecovered_of_decoded hgood, any_step_five_of_decoded hgood, Bool.false_and, Bool.false_eq_true,
    if_false]

theorem State.backgroundEnds_moves {e : Nat × Nat × Nat × Nat} {m : Move}
    (hslot : (s.slotsIn t c d b).find? (fun e => e.2.2.2 == row) = some e)
    (hmove : s.plc.moves.find? (fun m => m.tile == t && m.stripe == e.1 && m.shard == e.2.1 && m.source == (c, d, b) && !m.read) = some m) :
    s.backgroundEnds t c d b row w = State.programMove
      { s with plc.moves := s.plc.moves.map fun y => if y = m then { m with read := true } else y } { m with read := true } := by
  simp only [State.backgroundEnds, hslot, hmove, State.unrecovered_of_decoded hgood, any_step_five_of_decoded hgood, Bool.false_eq_true,
    if_false]

end

section
variable {w : List (Nat × Nat)} {a : Cls} {e : Bool} {id i : Nat} {part : ReadPart} (hbad : s.unrecovered t c d b row w = true)
include hbad

theorem State.readEnds_around {p : Stripe} (hp : (s.badShard id i part).stripe? id = some p) (hkept : p.lost = false) :
    s.readEnds t c d b row a e id i part w = (s.badShard id i part).readAround a e p i part := by
  simp only [State.readEnds, hbad, if_true, hp, hkept, Bool.false_eq_true, if_false]

theorem State.readEnds_gone (hp : (s.badShard id i part).stripe? id = none) :
    s.readEnds t c d b row a e id i part w = s.badShard id i part := by
  simp only [State.readEnds, hbad, if_true, hp]

end

/-! ### The rows for a die that exists -/

section
variable (hunit : unitsExist t c d = true) (hx : x = (s.tile t).dieAt c d)
include hunit hx

section
variable (huse : (s.tile t).inUse = true) (hrun : (s.tile t).state = 0)
include huse hrun

theorem execDieOpStart_free (hfree : x.doing = none) : exec (.dieOpStart t c d) s = .next (s.startFree t x) := by
  subst hx
  simp only [exec, execDieOpStart, hunit, huse, hrun, hfree, Bool.not_true, Bool.false_eq_true, ne_eq, not_true_eq_false, or_self, if_false]

theorem execDieOpStart_interrupts {p o : DieOp} {started n i : Nat} (hdoing : x.doing = some (p, started, n))
    (hnext : nextOp (fun o => o.isRead && (x.suspended.isNone || p.isRead)) x.queue = some (i, o))
    (hmay : s.mayInterrupt o p started n = true) : exec (.dieOpStart t c d) s = .next (s.interrupt t x i o p started n) := by
  subst hx
  simp only [exec, execDieOpStart, hunit, huse, hrun, hdoing, hnext, hmay, Bool.not_true, Bool.false_eq_true, ne_eq, not_true_eq_false,
    or_self, if_false, if_true]

end

theorem execProgramFailed_program {id i : Nat} {z : Bool} (hdoing : x.doing = some (.program id i b row z, q))
    (hv : v = ((s.mapTile t fun y => { y.putDie { x with
        doing := none
        queue := x.queue ++ ((List.range ((s.tile t).blockAt c d b).pointer).filter fun r =>
          !((s.tile t).blockAt c d b).verified.contains r).map fun r =>
            DieOp.background b r ((s.tile t).blockAt c d b).slc } with idleSince := s.now }).bump
        (tileIndex t) 0x0B 1).raise 0xA804 (dieUnit t c d) b row 0) :
    exec (.programFailed t c d) s = .next ((v.programLost t c d b row id i).blockOut t c d b 6 (row + 1)) := by
  subst hx hv
  simp only [exec, execProgramFailed, hunit, hdoing, Bool.not_true, Bool.false_eq_true, if_false]

section
variable (hu : u = s.mapTile t fun y => { y.putDie { x with doing := none } with idleSince := s.now })
include hu

theorem execReadDone_read {a : Cls} {e z : Bool} {id i : Nat} {part : ReadPart} (hdoing : x.doing = some (.read a e id i b row z part, q))
    (hv : v = u.sensedRead t c d b (l.map codeword)) :
    exec (.readDone t c d l) s = .next (v.readEnds t c d b row a e id i part (l.map codeword)) := by
  subst hx hu hv
  simp only [exec, execReadDone, hunit, hdoing, DieOp.isRead, DieOp.target, Bool.not_true, Bool.false_eq_true, if_false]

theorem execReadDone_background {z : Bool} (hdoing : x.doing = some (.background b row z, q))
    (hv : v = u.sensedRead t c d b (l.map codeword)) :
    exec (.readDone t c d l) s = .next (v.backgroundEnds t c d b row (l.map codeword)) := by
  subst hx hu hv
  simp only [exec, execReadDone, hunit, hdoing, DieOp.isRead, DieOp.target, Bool.not_true, Bool.false_eq_true, if_false]

theorem execProgramDone_filler {z : Bool} (hdoing : x.doing = some (.filler b row z, q)) :
    exec (.programDone t c d) s = .next (u.rowProgrammed t c d b) := by
  subst hx hu
  simp only [exec, execProgramDone, hunit, hdoing, Bool.not_true, Bool.false_eq_true, if_false]

section
variable {id i : Nat} {z : Bool} (hdoing : x.doing = some (.program id i b row z, q))
include hdoing

theorem execProgramDone_stays (hmove : (u.rowProgrammed t c d b).moveAt t c d b row id i = none) :
    exec (.programDone t c d) s = .next (u.rowProgrammed t c d b) := by
  subst hx hu
  simp only [exec, execProgramDone, hunit, hdoing, hmove, Bool.not_true, Bool.false_eq_true, if_false]

theorem execProgramDone_lands {m : Move} (hmove : (u.rowProgrammed t c d b).moveAt t c d b row id i = some m) :
    exec (.programDone t c d) s = .next ((u.rowProgrammed t c d b).landMove m) := by
  subst hx hu
  simp only [exec, execProgramDone, hunit, hdoing, hmove, Bool.not_true, Bool.false_eq_true, if_false]

end

section
variable (hdoing : x.doing = some (.erase b, q))
include hdoing

theorem execEraseDone_failed : exec (.eraseDone t c d false) s =
    .next (((((u.freeSlots t c d b).bump (tileIndex t) 0x0C 1).raise 0xA806 (dieUnit t c d) b 0 0).blockOut
      t c d b 6 0).mapTile t Tile.eraseParity) := by
  subst hx hu
  simp only [exec, execEraseDone, hunit, hdoing, Bool.not_true, Bool.false_eq_true, if_false]

/-- The block is not SUSPECT: the erase of one that is would add to the spares of its tile (R443). -/
theorem execEraseDone_passed {k : DieBlock} (hk : k = (s.tile t).blockAt c d b) (hsound : k.state ≠ 5) :
    exec (.eraseDone t c d true) s =
      .next (((u.freeSlots t c d b).mapTile t fun y => y.putBlock
        { k.erased with region := k.region, superblock := k.superblock, slc := k.slc }).mapTile t fun y =>
          (y.trimVerify k.region k.superblock).releaseSuper k.region k.superblock) := by
  subst hx hu hk
  simp only [exec, execEraseDone, hunit, hdoing, Bool.not_true, Bool.false_eq_true, if_false, if_true, if_neg hsound]

end
end
end
end

/-- Settles O45: a start by what the die does, a read by its codewords, a program and an erase by their outcomes. -/
theorem dieOperationCommands : Obligations.DieOperationCommands := by
  unfold Obligations.DieOperationCommands
  intro t c d s hunit x hx
  refine ⟨execDieOpStart_free hunit hx, fun p started n i o huse hrun => execDieOpStart_interrupts hunit hx huse hrun,
    fun u hu => ⟨fun a e id i b row z part q l v hdoing hv => ?_, fun b row z q l v hdoing hv => ?_,
      fun b row z q => execProgramDone_filler hunit hx hu,
      fun id i b row z q hdoing => ⟨execProgramDone_stays hunit hx hu hdoing, fun m => execProgramDone_lands hunit hx hu hdoing,
        fun v => execProgramFailed_program hunit hx hdoing⟩,
      fun b q hdoing => ⟨execEraseDone_failed hunit hx hu hdoing, fun k => execEraseDone_passed hunit hx hu hdoing⟩⟩⟩
  · rw [execReadDone_read hunit hx hu hdoing hv]
    exact ⟨fun hgood => by rw [State.readEnds_decoded hgood], fun hbad =>
      ⟨fun p hp hkept => by rw [State.readEnds_around hbad hp hkept], fun hp => by rw [State.readEnds_gone hbad hp]⟩⟩
  · have hends := execReadDone_background hunit hx hu hdoing hv
    refine ⟨hends, fun e m n hslot hmove hn hgood => ?_⟩
    rw [hends, State.backgroundEnds_moves hgood hslot hmove, hn]

end Sys2Proof.Machine
end

section
/-!
HOLDER over the commands of the lease, of the Wardens' recovery and of the AON clock (R458 to R475).
-/
namespace Sys2Proof.Machine

/-! ### What the operations on a Warden leave of HOLDER -/

section
variable (s : State) (w : Warden)

@[simp] theorem State.transfer_wdn (a b : Nat) (c : Cls) (l : Bool) (t n : Nat) (k : Option (Nat × Nat)) :
    (s.transfer a b c l t n k).wdn = s.wdn := rfl

@[simp] theorem State.mapHealth_wdn (u : UnitId) (f : Health → Health) : (s.mapHealth u f).wdn = s.wdn := rfl

@[simp] theorem State.wantMask_wdn (u : UnitId) (on : Bool) : (s.wantMask u on).wdn = s.wdn := by
  unfold State.wantMask
  split <;> rfl

@[simp] theorem State.mapWarden_holder (f : WardenS → WardenS) : (s.mapWarden w f).wdn.holder = s.wdn.holder := by
  cases w <;> rfl

/-- No subsystem but the Wardens' own is touched by the isolation of a Warden. -/
@[simp] theorem State.unitOut_warden (code : Nat) : s.unitOut w.unitId_ code = s := rfl

@[simp] theorem State.isolate_warden_wdn (reason : Nat) : (s.isolate w.unitId_ reason).wdn = s.wdn := by
  unfold State.isolate
  dsimp only
  split <;> simp

@[simp] theorem State.wardenOut_holder : (s.wardenOut w).wdn.holder = s.wdn.holder := by
  simp [State.wardenOut]

@[simp] theorem State.recordSwitch_wdn (at_ gap cause : Nat) (dst : Option Warden) :
    (s.recordSwitch at_ gap cause w dst).wdn = s.wdn := by
  simp [State.recordSwitch]

@[simp] theorem State.leaseOver_holder (cause start : Nat) : (s.leaseOver w cause start).wdn.holder = none := by
  unfold State.leaseOver
  dsimp only
  exact ite_leaves (g := fun u => u.wdn.holder) (by simp) (by simp)

@[simp] theorem State.endLease_holder (cause start : Nat) : (s.endLease w cause start).wdn.holder = none :=
  State.leaseOver_holder ..

@[simp] theorem State.clockTakes_holder : (s.clockTakes w).wdn.holder = none := by
  simp [State.clockTakes]

@[simp] theorem State.closeGap_holder : s.closeGap.wdn.holder = s.wdn.holder := by
  unfold State.closeGap
  split
  · dsimp only
    split <;> simp
  · rfl

end

/-! ### How a command can move HOLDER -/

/-- HOLDER stays, is given while no Warden holds the lease, or is taken. -/
inductive HolderMoves (s t : State) : Prop
  | kept (same : t.wdn.holder = s.wdn.holder)
  | given (vacant : s.wdn.holder = none)
  | taken (vacant : t.wdn.holder = none)

theorem HolderMoves.through_none {s t : State} {v w : Warden} (h : HolderMoves s t) (hv : s.wdn.holder = some v)
    (hw : t.wdn.holder = some w) : v = w := by
  cases h with
  | kept same => exact Option.some.inj (hv.symm.trans (same.symm.trans hw))
  | given vacant => simp [vacant] at hv
  | taken vacant => simp [vacant] at hw

/-- A next state that a command answers moves HOLDER in one of these ways. -/
def MovesHolder (s : State) (o : Host.Outcome State Fault Refusal) : Prop := ∀ t, o = .next t → HolderMoves s t

theorem MovesHolder.next {s t : State} (h : HolderMoves s t) : MovesHolder s (.next t) := by
  rintro _ ⟨⟩
  exact h

section
variable (w : Warden) (s : State)

theorem execLeaseRenewal_movesHolder : MovesHolder s (execLeaseRenewal w s) := by
  unfold execLeaseRenewal
  repeat' split
  all_goals exact .next (.kept rfl)

theorem execPairMismatch_movesHolder : MovesHolder s (execPairMismatch w s) := by
  unfold execPairMismatch
  dsimp only
  repeat' split
  all_goals exact .next (.kept (by simp))

theorem execLeaseDrop_movesHolder : MovesHolder s (execLeaseDrop w s) := by
  unfold execLeaseDrop
  split
  · split
    · exact .next (.taken (State.endLease_holder ..))
    · exact .next (.kept rfl)
  · exact .next (.kept rfl)

theorem execLeaseExpiry_movesHolder : MovesHolder s (execLeaseExpiry s) := by
  unfold execLeaseExpiry
  split
  · split
    · exact .next (.kept rfl)
    · exact .next (.taken (State.endLease_holder ..))
  · exact .next (.kept rfl)

/-- A grant waits until no Warden holds the lease (R461). -/
theorem execLeaseGrant_movesHolder : MovesHolder s (execLeaseGrant s) := by
  unfold execLeaseGrant
  extract_lets early
  split
  · exact .next (.kept rfl)
  next hopen =>
    have hvacant : s.wdn.holder = none := by simpa using (not_or.mp hopen).1
    split <;> exact .next (.given hvacant)

theorem execDeliveryNote_movesHolder (seq digest own : Nat) : MovesHolder s (execDeliveryNote seq digest own s) := by
  unfold execDeliveryNote
  dsimp only
  repeat' split
  all_goals exact .next (.kept (by simp))

theorem execGatedOutput_movesHolder (seq : Nat) : MovesHolder s (execGatedOutput w seq s) := by
  unfold execGatedOutput
  split
  · exact .next (.kept rfl)
  · exact .next (.kept (by simp))

theorem execStandbyLeavesStep_movesHolder : MovesHolder s (execStandbyLeavesStep s) := by
  unfold execStandbyLeavesStep
  repeat' split
  all_goals exact .next (.kept (by simp))

theorem execResyncStart_movesHolder : MovesHolder s (execResyncStart w s) := by
  unfold execResyncStart
  split <;> exact .next (.kept rfl)

theorem execResyncComplete_movesHolder : MovesHolder s (execResyncComplete s) := by
  unfold execResyncComplete
  repeat' split
  all_goals exact .next (.kept (by simp))

theorem execResyncAbandoned_movesHolder (n : Nat) : MovesHolder s (execResyncAbandoned n s) := by
  unfold execResyncAbandoned
  repeat' split
  all_goals exact .next (.kept (by simp))

theorem execWardenRestartDone_movesHolder : MovesHolder s (execWardenRestartDone w s) := by
  unfold execWardenRestartDone
  split
  · exact .next (.kept rfl)
  · exact .next (.kept (by simp))

theorem execAonClockStop_movesHolder : MovesHolder s (execAonClockStop s) := by
  unfold execAonClockStop
  dsimp only
  split
  · exact .next (.kept rfl)
  · split
    · exact .next (.kept rfl)
    · exact .next (.taken (State.clockTakes_holder ..))

theorem execAonClockRestore_movesHolder (us : Nat) : MovesHolder s (execAonClockRestore us s) := by
  unfold execAonClockRestore
  dsimp only
  split
  · exact .next (.kept rfl)
  · refine .next (.kept ?_)
    rw [State.raise_wdn]
    split <;> simp

end

/-- Settles O15: each command keeps HOLDER, takes it, or gives it while there is none. -/
theorem holderThroughNone : Obligations.HolderThroughNone := by
  unfold Obligations.HolderThroughNone
  intro c s t v w hc hnext
  suffices h : MovesHolder s (exec c s) from (h t hnext).through_none
  simp only [List.mem_cons, List.not_mem_nil, or_false] at hc
  rcases hc with (rfl | rfl | rfl | rfl | rfl | rfl | rfl | rfl | rfl | rfl | rfl | rfl | rfl | rfl) | ⟨n, d, o, rfl⟩ |
    ⟨x, n, rfl⟩ | ⟨n, rfl⟩ | rfl | ⟨n, rfl⟩
  · exact execLeaseRenewal_movesHolder .a s
  · exact execLeaseRenewal_movesHolder .b s
  · exact execPairMismatch_movesHolder .a s
  · exact execPairMismatch_movesHolder .b s
  · exact execLeaseDrop_movesHolder .a s
  · exact execLeaseDrop_movesHolder .b s
  · exact execLeaseExpiry_movesHolder s
  · exact execLeaseGrant_movesHolder s
  · exact execResyncStart_movesHolder .a s
  · exact execResyncStart_movesHolder .b s
  · exact execResyncComplete_movesHolder s
  · exact execWardenRestartDone_movesHolder .a s
  · exact execWardenRestartDone_movesHolder .b s
  · exact execAonClockStop_movesHolder s
  · exact execDeliveryNote_movesHolder s n d o
  · exact execGatedOutput_movesHolder x s n
  · exact execResyncAbandoned_movesHolder s n
  · exact execStandbyLeavesStep_movesHolder s
  · exact execAonClockRestore_movesHolder s n

end Sys2Proof.Machine
end

section
/-!
LEASE_RENEWAL, PAIR_MISMATCH, LEASE_DROP, LEASE_EXPIRY, LEASE_GRANT, DELIVERY_NOTE, GATED_OUTPUT and SWITCHOVER_REQUEST (R458 to
R465, R476).
-/
namespace Sys2Proof.Machine

section
variable {w : Warden} {s : State}

/-! ### Renewal, drop and expiry -/

theorem execLeaseRenewal_other (hrun : s.leaseFrozen = false) (hother : s.wdn.holder ≠ some w) :
    exec (.leaseRenewal w) s = .next (s.bump 0xB010 0x05 1) :=
  (if_neg (Bool.not_eq_true _ ▸ hrun)).trans (if_pos hother)

theorem execLeaseRenewal_extends (hrun : s.leaseFrozen = false) (hholds : s.wdn.holder = some w)
    (hagree : (s.warden w).mismatch = false) : exec (.leaseRenewal w) s = .next { s with wdn.leaseEnd := s.now + 50 } := by
  simp only [exec, execLeaseRenewal, hrun, hholds, hagree, Bool.false_eq_true, ne_eq, not_true_eq_false, if_false]

theorem execLeaseDrop_due {cause : Nat} (hdue : s.wdn.dropWanted = some (w, cause)) (hholds : s.wdn.holder = some w)
    (hanswered : cause = 3 → s.switchAnswered = true) :
    exec (.leaseDrop w) s = .next (s.endLease w cause (if cause = 1 then s.wdn.gapFrom else s.now)) := by
  simp only [exec, execLeaseDrop, hdue, true_and]
  exact if_pos ⟨hholds, hanswered⟩

theorem execLeaseExpiry_passed (hholds : s.wdn.holder = some w) (hrun : s.leaseFrozen = false) (hpassed : s.wdn.leaseEnd < s.now) :
    exec .leaseExpiry s = .next ((s.bump 0xB010 0x04 1).endLease w 2 (s.wdn.leaseEnd - 50)) := by
  simp only [exec, execLeaseExpiry, hholds, hrun, Nat.not_le.mpr hpassed, Bool.false_eq_true, or_self, if_false]

/-! ### The first mismatch of a Warden that is not retired -/

section
variable {v u : State} (hfirst : (s.warden w).mismatch = false) (hserves : (s.warden w).state ≠ 4)
  (hv : v = s.mapWarden w fun x => { x with mismatch := true, eligible := false })
  (hu : u = (v.bump 0xB010 (2 + w.num) 1).raise 0xB801 w.unit v.wdn.outSeq 0 0)
include hfirst hserves hv hu

theorem execPairMismatch_first : exec (.pairMismatch w) s =
    if u.wdn.holder = some w then .next { u with wdn.dropWanted := some (w, 1), wdn.gapFrom := u.now } else .next (u.wardenOut w) := by
  subst hv hu
  have hmeets : ¬ ((s.warden w).mismatch = true ∨ (s.warden w).state = 4) := by simp [hfirst, hserves]
  exact if_neg hmeets

end

/-! ### The grant after a lease end -/

theorem execLeaseGrant_after_end {x : Warden} {u : State} {t c : Nat} (hvacant : s.wdn.holder = none)
    (hrun : s.leaseFrozen = false) (hended : s.wdn.ended = some (t, c, x)) (hlater : t < s.now) (hnext : s.nextHolder = some w)
    (hu : u = (({ s with wdn.holder := some w, wdn.leaseEnd := s.now + 50 }.mapWarden w fun x => { x with state := 0 }).mapWarden
      w.other fun x => if x.eligible then { x with state := 1 } else x).installTable) :
    exec .leaseGrant s = .next (if x ≠ w then u.bump 0xB010 0x01 1 else u) := by
  subst hu
  have hopen : ¬ (s.wdn.holder.isSome = true ∨ s.leaseFrozen = true ∨ decide (s.now ≤ t) = true) := by
    simp [hvacant, hrun, hlater]
  simp only [exec, execLeaseGrant, hended, hnext, if_neg hopen, bne_iff_ne]

/-! ### Outputs -/

section
variable {u : State} {seq digest own : Nat} (hheld : s.gap = false) (hu : u = { s with wdn.outSeq := (seq + 1) % 2 ^ 32 }.closeGap)
include hheld hu

theorem execDeliveryNote_alone (halone : u.standby = none) : exec (.deliveryNote seq digest own) s = .next u := by
  subst hu
  simp only [exec, execDeliveryNote, hheld, halone, Bool.false_eq_true, if_false]

theorem execDeliveryNote_compared (hstandby : u.standby = some w) : exec (.deliveryNote seq digest own) s =
    if digest = own then .next u else .next (((u.bump 0xB010 0x0B 1).raise 0xB804 w.unit seq 0 0).wardenOut w) := by
  subst hu
  simp only [exec, execDeliveryNote, hheld, hstandby, Bool.false_eq_true, if_false]

/-- An output that no standby disagrees with leaves the Wardens as they are. -/
theorem execDeliveryNote_agrees (hagree : u.standby = none ∨ digest = own) : exec (.deliveryNote seq digest own) s = .next u := by
  cases hstandby : u.standby with
  | none => exact execDeliveryNote_alone hheld hu hstandby
  | some w =>
    have hsame : digest = own := hagree.resolve_left (by simp [hstandby])
    exact (execDeliveryNote_compared hheld hu hstandby).trans (if_pos hsame)

end

theorem execGatedOutput_disabled {seq : Nat} (hother : s.wdn.holder ≠ some w) :
    exec (.gatedOutput w seq) s = .next ((s.bump 0xB010 0x06 1).raise 0xB803 w.unit seq 0 0) := if_neg hother

/-! ### A request to switch over -/

theorem switchoverEffect_drops (hholds : s.wdn.holder = some w) (hstandby : s.standby = some w.other) (r : Requester) (i u : Nat)
    (v : OdVal) : switchoverEffect r i u v s = ({ s with wdn.dropWanted := some (w, 3) }, stOk) := by
  simp only [switchoverEffect, hholds]
  exact if_pos hstandby

end

/-- Settles O47, each command by what the arbiter and the Wardens show. -/
theorem leaseCommands : Obligations.LeaseCommands := by
  unfold Obligations.LeaseCommands
  refine ⟨fun w s hrun => ⟨execLeaseRenewal_other hrun, execLeaseRenewal_extends hrun⟩, fun w s v u hfirst hserves hv hu => ?_,
    fun w cause s => execLeaseDrop_due, fun w s => execLeaseExpiry_passed,
    fun w x s u t c hvacant hrun hended hlater hnext hu => ?_,
    fun seq digest own s u hheld hu => ⟨execDeliveryNote_agrees hheld hu, fun w hstandby hdiffers =>
      (execDeliveryNote_compared hheld hu hstandby).trans (if_neg hdiffers)⟩,
    fun w seq s => execGatedOutput_disabled,
    fun r v s w htakes hholds hstandby => congrArg _ (State.ownWrite_taken htakes (switchoverEffect_drops hholds hstandby ..))⟩
  · have hmismatch := execPairMismatch_first hfirst hserves hv hu
    exact ⟨fun hholds => hmismatch.trans (if_pos hholds), fun hother => hmismatch.trans (if_neg hother)⟩
  · rw [execLeaseGrant_after_end hvacant hrun hended hlater hnext hu]
    exact ⟨fun hchange => congrArg _ (if_pos hchange), fun hsame => congrArg _ (if_neg (not_not_intro hsame))⟩

end Sys2Proof.Machine
end

section
/-!
STANDBY_LEAVES_STEP, RESYNC_START, RESYNC_COMPLETE, RESYNC_ABANDONED, WARDEN_RESTART_DONE, AON_CLOCK_STOP and AON_CLOCK_RESTORE
(R458, R470, R473, R475, R557).
-/
namespace Sys2Proof.Machine

section
variable {w : Warden} {s : State}

theorem execStandbyLeavesStep_leaves (hstandby : s.standby = some w) (hheld : s.gap = false) :
    exec .standbyLeavesStep s = .next (s.mapWarden w fun x => { x with eligible := false, state := 3 }) := by
  simp only [exec, execStandbyLeavesStep, hstandby, hheld, Bool.false_eq_true, if_false]

/-! ### Resynchronisation and restart -/

theorem execResyncStart_copies (hserved : s.wdn.holder = some w.other) (hwaits : (s.warden w).state = 3)
    (hidle : s.wdn.resync = none) (hafter : s.wdn.resyncAfter ≤ s.now) : exec (.resyncStart w) s =
      .next ({ s with wdn.resync := some (w, s.now) }.transfer (wardenLane w.other) (wardenLane w) 3 false noTask wardenMemory) :=
  if_pos ⟨hserved, hwaits, Option.isNone_iff_eq_none.mpr hidle, hafter⟩

section
variable {start : Nat} (hcopies : s.wdn.resync = some (w, start))
include hcopies

theorem execResyncComplete_in_time (htime : s.now ≤ start + 30000) : exec .resyncComplete s =
    .next (({ s with wdn.resync := none }.mapWarden w fun x => { x with eligible := true, state := 1 }).bump 0xB010 0x09 1) := by
  simp only [exec, execResyncComplete, hcopies, if_neg (Nat.not_lt.mpr htime)]

theorem execResyncAbandoned_late {n : Nat} (hlate : start + 28000 ≤ s.now) (hleft : 4194304 < n) : exec (.resyncAbandoned n) s =
    .next (({ s with wdn.resync := none, wdn.resyncAfter := s.now + 1000000 }.bump 0xB010 0x0A 1).raise 0xB405 w.unit
      (clampU 32 n) 0 0) := by
  have hgives : ¬ (s.now < start + 28000 ∨ n ≤ 4194304) := by omega
  simp only [exec, execResyncAbandoned, hcopies, if_neg hgives]

end

theorem execWardenRestartDone_restarted (hrestarts : (s.warden w).state = 5) : exec (.wardenRestartDone w) s =
    .next ((s.mapWarden w fun x => { x with eligible := true, state := 1 }).bump 0xB005 0 1) :=
  if_neg (not_not_intro hrestarts)

/-! ### The AON clock -/

section
variable (hticks : s.wdn.clockStopped = false)
include hticks

theorem execAonClockStop_vacant (hvacant : s.wdn.holder = none) : exec .aonClockStop s = .next { s with wdn.clockStopped := true } := by
  simp only [exec, execAonClockStop, hticks, hvacant, Bool.false_eq_true, if_false]

theorem execAonClockStop_takes (hholds : s.wdn.holder = some w) :
    exec .aonClockStop s = .next ({ s with wdn.clockStopped := true }.clockTakes w) := by
  simp only [exec, execAonClockStop, hticks, hholds, Bool.false_eq_true, if_false]

end

/-- The clock's return wakes the halted Wardens and advances device time; the power state decides only whether it is counted. -/
theorem execAonClockRestore_returns {us : Nat} {u : State} {wake : WardenS → WardenS} (hstopped : s.wdn.clockStopped = true)
    (hwake : wake = fun x => if x.state = 6 then { x with state := 1 } else x)
    (hu : u = ({ s with wdn.clockStopped := false, pch.devTime := s.pch.devTime + us }.mapWarden .a wake).mapWarden .b wake) :
    exec (.aonClockRestore us) s = .next ((if u.pch.power = .hold then u else u.bump 0xB010 0x0C 1).raise 0xB806 arbiterUnit
      (us % 2 ^ 32) (us / 2 ^ 32) 0) := by
  subst hwake hu
  simp only [exec, execAonClockRestore, hstopped, Bool.not_true, Bool.false_eq_true, if_false]

end

/-- Settles O48, each command by the state of the Wardens, of the copy and of the clock. -/
theorem wardenRecoveryCommands : Obligations.WardenRecoveryCommands := by
  unfold Obligations.WardenRecoveryCommands
  refine ⟨fun s w => execStandbyLeavesStep_leaves, fun w s => execResyncStart_copies,
    fun w start s hcopies => ⟨execResyncComplete_in_time hcopies, fun n => execResyncAbandoned_late hcopies⟩,
    fun w s => execWardenRestartDone_restarted,
    fun s hticks => ⟨execAonClockStop_vacant hticks, fun w hholds => ⟨execAonClockStop_takes hticks hholds, State.clockTakes_holder ..⟩⟩,
    fun us s u wake hstopped hwake hu => ?_⟩
  rw [execAonClockRestore_returns hstopped hwake hu]
  exact ⟨fun hhold => by rw [if_pos hhold], fun hother => by rw [if_neg hother]⟩

end Sys2Proof.Machine
end

section
/-!
PRIVATE_WRITE, PRIVATE_READ and RESPONSE_EXPIRY (R608 to R611).
-/
namespace Sys2Proof.Machine

section
variable {b : Bytes} {s : State} (hon : s.aonOn = true)
include hon

theorem State.svcOn_of_aonOn : s.svcOn = true := hon

theorem execPrivateWrite_busy (hbusy : s.svcBusy = true) :
    exec (.privateWrite b) s = .next ((s.bump 0xE321 0x03 1).emit .i3cNack) := by
  simp only [exec, execPrivateWrite, State.svcOn_of_aonOn hon, hbusy, Bool.not_true, Bool.false_eq_true, if_false, if_true]

theorem execPrivateWrite_bad (hfree : s.svcBusy = false) (hbytes : parseRequest b = none) :
    exec (.privateWrite b) s = .next (s.wakeUp.bump 0xE321 0x02 1) := by
  simp only [exec, execPrivateWrite, State.svcOn_of_aonOn hon, hfree, hbytes, Bool.not_true, Bool.false_eq_true, if_false]

theorem execPrivateWrite_good {f : DictFrame} (hfree : s.svcBusy = false) (hbytes : parseRequest b = some f) :
    exec (.privateWrite b) s = .next (s.wakeUp.svcRequest f) := by
  simp only [exec, execPrivateWrite, State.svcOn_of_aonOn hon, hfree, hbytes, Bool.not_true, Bool.false_eq_true, if_false]

theorem execPrivateRead_response {r : DictResponse} {t : Nat} {q : Bool} (hresponse : s.msv.service.response = some (r, t, q)) :
    exec .privateRead s = .next ({ s with msv.service.response := some (r, t, true) }.emit (.i3cRead r.bytes)) := by
  simp only [exec, execPrivateRead, State.svcOn_of_aonOn hon, hresponse, Bool.not_true, Bool.false_eq_true, if_false]

theorem execPrivateRead_nothing (hresponse : s.msv.service.response = none) : exec .privateRead s = .next (s.emit .i3cNack) := by
  simp only [exec, execPrivateRead, State.svcOn_of_aonOn hon, hresponse, Bool.not_true, Bool.false_eq_true, if_false]

end

theorem execResponseExpiry_unread {s : State} {r : DictResponse} {t : Nat} (hresponse : s.msv.service.response = some (r, t, false))
    (hold : t + 1000000 ≤ s.now) :
    exec .responseExpiry s = .next ({ s with msv.service.response := none }.bump 0xE321 0x04 1) := by
  simp only [exec, execResponseExpiry, hresponse]
  exact if_pos hold

/-- Settles O58: a private write by what the port holds and by its bytes, a private read by whether there is a response. -/
theorem servicePortTransfers : Obligations.ServicePortTransfers := by
  unfold Obligations.ServicePortTransfers
  exact ⟨fun b s hon => ⟨execPrivateWrite_busy hon, execPrivateWrite_bad hon, fun f => execPrivateWrite_good hon⟩,
    fun s hon => ⟨fun r t q => execPrivateRead_response hon, execPrivateRead_nothing hon⟩,
    fun s r t => execResponseExpiry_unread⟩

end Sys2Proof.Machine
end

section
/-!
The common commands of the service port (R608).
-/
namespace Sys2Proof.Machine

section
variable {s : State} (hon : s.aonOn = true)
include hon

theorem State.i3cAck_on : s.i3cAck = .next (s.emit .i3cAck) :=
  congrArg _ (if_pos hon)

theorem State.i3cReturn_on (b : Bytes) : s.i3cReturn b = .next (s.emit (.i3cBytes b)) :=
  congrArg _ (if_pos hon)

/-- A command that the port, while it is on, carries out on a state `t` of its own is acknowledged there. -/
theorem acknowledged_of_on {t : State} (ht : t.aonOn = true) :
    (if !s.svcOn then .next s else t.i3cAck) = Host.Outcome.next (t.emit .i3cAck) := by
  rw [if_neg (by simp [State.svcOn_of_aonOn hon]), State.i3cAck_on ht]

/-! ### Addresses -/

section
variable (hfree : s.msv.service.dynAddr = 0) (a : Nat)
include hfree

theorem execEntdaa_free : exec (.entdaa a) s = .next ({ s with msv.service.dynAddr := a % 128 }.emit .i3cAck) := by
  have hgives : ¬ ((!s.svcOn) = true ∨ s.msv.service.dynAddr ≠ 0) := by simp [State.svcOn_of_aonOn hon, hfree]
  exact (if_neg hgives).trans (State.i3cAck_on hon)

theorem execSetdasa_free : exec (.setdasa 0x3A a) s = .next ({ s with msv.service.dynAddr := a % 128 }.emit .i3cAck) := by
  have hgives : ¬ ((!s.svcOn) = true ∨ 0x3A ≠ staticAddress ∨ s.msv.service.dynAddr ≠ 0) := by
    simp [State.svcOn_of_aonOn hon, hfree, staticAddress]
  exact (if_neg hgives).trans (State.i3cAck_on hon)

end

theorem execRstdaa_on : exec .rstdaa s = .next ({ s with msv.service.dynAddr := 0 }.emit .i3cAck) :=
  acknowledged_of_on hon hon

/-! ### Events and lengths -/

section
variable {m : Nat} (hbit : bit m 0 = true)
include hbit

theorem execEnec_bit0 : exec (.enec m) s = .next ({ s with msv.service.events := true }.emit .i3cAck) := by
  simp only [exec, execEnec, if_pos hbit]
  exact acknowledged_of_on hon hon

theorem execDisec_bit0 : exec (.disec m) s = .next ({ s with msv.service.events := false }.emit .i3cAck) := by
  simp only [exec, execDisec, if_pos hbit]
  exact acknowledged_of_on hon hon

end

theorem execSetmwl_on (n : Nat) : exec (.setmwl n) s = .next ({ s with msv.service.mwl := min n 1048 }.emit .i3cAck) :=
  acknowledged_of_on hon hon

theorem execSetmrl_on (n : Nat) : exec (.setmrl n) s = .next ({ s with msv.service.mrl := min n 1048 }.emit .i3cAck) :=
  acknowledged_of_on hon hon

/-! ### Status and the rest -/

theorem execGetstatus_on :
    exec .getstatus s = .next ((s.takeFree 20).2.emit (.i3cBytes (natBytes 2 (s.takeFree 20).1))) :=
  State.i3cReturn_on (s := (s.takeFree 20).2) hon _

theorem execUnlistedCommonCommand_on {c : Nat} (hc : c < 256) : exec (.unlistedCommonCommand c) s = .next (s.emit .i3cNack) := by
  have hanswers : ¬ ((!s.svcOn) = true ∨ 256 ≤ c) := by simp [State.svcOn_of_aonOn hon, hc]
  exact if_neg hanswers

end

/-- Settles O59: every common command is acknowledged, answered with its bytes or refused while the port is on. -/
theorem commonCommands : Obligations.CommonCommands := by
  unfold Obligations.CommonCommands
  exact fun s hon => ⟨fun a hfree => ⟨execEntdaa_free hon hfree a, execSetdasa_free hon hfree a⟩, execRstdaa_on hon,
    fun m hbit => ⟨execEnec_bit0 hon hbit, execDisec_bit0 hon hbit⟩, fun n => ⟨execSetmwl_on hon n, execSetmrl_on hon n⟩,
    State.i3cReturn_on hon _, State.i3cReturn_on hon _, State.i3cReturn_on hon _, State.i3cReturn_on hon _,
    State.i3cReturn_on hon _, execGetstatus_on hon, fun c => execUnlistedCommonCommand_on hon⟩

end Sys2Proof.Machine
end

section
/-!
FW_IMAGE_WINDOW, FW_STAGING_EXPIRY, FW_ACTIVATE, FW_ABANDON and FW_FLOOR (R614 to R617, R619).
-/
namespace Sys2Proof.Machine

/-! ### Slots -/

theorem State.mapSlot_slot (s : State) (n : Nat) (f : Slot → Slot) : (s.mapSlot n f).slot n = f (s.slot n) := by
  unfold State.slot State.mapSlot
  split <;> rfl

theorem State.slotIn_eq_none {s : State} {n : Nat} (h1 : s.msv.slot1.state ≠ n) (h2 : s.msv.slot2.state ≠ n) : s.slotIn n = none := by
  simp [State.slotIn, State.slot, h1, h2]

/-- A slot that FW_ABANDON leaves is neither being staged nor staged (R616). -/
theorem abandoned_state (x : Slot) {n : Nat} (hn : n = 1 ∨ n = 2) :
    (if x.state = 1 ∨ x.state = 2 then Slot.empty else x).state ≠ n := by
  split
  · rcases hn with rfl | rfl <;> decide
  · rename_i hkept
    rcases hn with rfl | rfl
    · exact fun h => hkept (.inl h)
    · exact fun h => hkept (.inr h)

section
variable {s : State}

/-! ### Staging -/

/-- The first window of an image of a length that R615 takes, not yet whole, opens the staging of its target. -/
theorem State.imageWindow_first {len : Nat} {d : Bytes} (hsane : s.sanitizing = false) (hready : s.pch.power = .ready)
    (hleast : 336 ≤ len) (hmost : len ≤ 67108864) (hpart : d.length < len) : s.imageWindow 0 len d =
      ({ s.mapSlot s.stagingTarget fun _ => { Slot.empty with state := 1 } with
        msv.fwStaged := some (len, d, (s.mapSlot s.stagingTarget fun _ => { Slot.empty with state := 1 }).now) }, stOk, 0) := by
  have hserves : ¬ (s.sanitizing = true ∨ s.pch.power = .hold ∨ (s.pch.power = .startUp ∧ s.pch.step ≤ 2 ∧ (!s.pch.noImage) = true)) := by
    simp [hsane, hready]
  have hlength : ¬ (67108864 < len ∨ len < d.length) := by omega
  have hlong : ¬ len < 336 := by omega
  have hmore : ¬ d.length = len := by omega
  simp only [State.imageWindow, if_neg hserves, if_true, if_neg hlength, if_neg hlong, if_neg hmore]

@[simp] theorem State.mapSlot_now (n : Nat) (f : Slot → Slot) : (s.mapSlot n f).now = s.now := by
  unfold State.mapSlot
  split <;> rfl

theorem execFwStagingExpiry_old {x : Nat × Bytes × Nat} (hstaged : s.msv.fwStaged = some x) (hold : x.2.2 + 10000000 ≤ s.now) :
    exec .fwStagingExpiry s = .next s.dropStaging := by
  simp only [exec, execFwStagingExpiry, hstaged, if_pos hold]

/-! ### Activation and abandoning -/

theorem execFwActivate_staged {r : Requester} (htakes : s.takesWrite r 0xE302 0 (.num 1)) (hstaged : (s.slotIn 2).isSome = true)
    (hruns : s.pch.power ≠ .startUp) : exec (.fwActivate r (.num 1)) s =
      .next (s.writeAnswered (((s.putNum 0xE302 0 1).bump 0xE321 0x06 1).startDrain .activation) r 0xE302 0) := by
  have hslot : ¬ (s.slotIn 2).isNone = true := by simpa [Option.isSome_iff_ne_none] using hstaged
  have heffect : stageControlEffect r 0xE302 0 (.num 1) s =
      (((s.putNum 0xE302 0 1).bump 0xE321 0x06 1).startDrain .activation, stOk) := by
    simp only [stageControlEffect, if_true, if_neg hslot, if_neg hruns]
  exact congrArg _ (State.ownWrite_taken htakes heffect)

/-- The state without anything staged (R616). -/
def State.abandonStaging (s : State) : State :=
  let drop : Slot → Slot := fun x => if x.state = 1 ∨ x.state = 2 then Slot.empty else x
  { s with msv.slot1 := drop s.msv.slot1, msv.slot2 := drop s.msv.slot2, msv.fwStaged := none }

theorem State.abandonStaging_slotIn {n : Nat} (hn : n = 1 ∨ n = 2) : s.abandonStaging.slotIn n = none :=
  State.slotIn_eq_none (abandoned_state _ hn) (abandoned_state _ hn)

theorem execFwAbandon_taken {r : Requester} (htakes : s.takesWrite r 0xE302 0 (.num 2)) :
    exec (.fwAbandon r (.num 2)) s = .next (s.writeAnswered s.abandonStaging r 0xE302 0) :=
  congrArg _ (State.ownWrite_taken htakes (if_neg (by decide)))

/-! ### The rollback floor -/

/-- The answer of a write, taken, of an entry that is written once: the entry counts as written. -/
theorem State.ownWrite_written1 {t : State} {eff : WriteEffect} {r : Requester} {i u : Nat} {v : OdVal} {e : EntryRow}
    (hgate : writeGate s r i u v = stOk) (hgap : s.writesHeld = false) (hheld : s.msv.held = []) (hlock : writeLock s i u = stOk)
    (he : entryAt i u = some e) (hrange : e.rangeOk v = true) (haccess : e.access = .w1) (heffect : eff r i u v s = (t, stOk)) :
    s.ownWrite eff r i u v = s.writeAnswered { t with msv.written1 := odKey i u :: t.msv.written1 } r i u := by
  have happly : applyWrite eff r i u v s = (((({ t.control (wholeUnit 0xE) (entryUnit i) with
      msv.written1 := odKey i u :: t.msv.written1 }).bump 0xE010 0x0F 1).lastWrite r i u stOk), stOk) := by
    simp only [applyWrite, hlock, he, hrange, heffect, haccess, if_true]
    rfl
  simp only [State.ownWrite, State.takeWrite, hgate, hgap, hheld, happly]
  rfl

theorem execFwFloor_next {i n : Nat} {r : Requester} {e : EntryRow} (hfirst : 1 ≤ i) (hlast : i ≤ 32)
    (hgate : writeGate s r 0xE305 i (.num n) = stOk) (hgap : s.writesHeld = false) (hheld : s.msv.held = [])
    (hlock : writeLock s 0xE305 i = stOk) (he : entryAt 0xE305 i = some e) (hrange : e.rangeOk (.num n) = true)
    (haccess : e.access = .w1) (hfree : s.freeFloor = some i) (habove : s.fwFloor < n) (hruns : n ≤ s.fwVersion) {t : State}
    (ht : t = (s.putNum 0xE305 i n).failBelow n) : exec (.fwFloor i r (.num n)) s =
      .next (s.writeAnswered { t with msv.written1 := odKey 0xE305 i :: t.msv.written1 } r 0xE305 i) := by
  subst ht
  have hunit : ¬ (i = 0 ∨ 32 < i) := by omega
  have htakes : ¬ (s.freeFloor ≠ some i ∨ n ≤ s.fwFloor ∨ s.fwVersion < n) := by
    simp only [hfree, ne_eq, not_true_eq_false, false_or]
    omega
  have heffect : floorEffect r 0xE305 i (.num n) s = ((s.putNum 0xE305 i n).failBelow n, stOk) := if_neg htakes
  exact (if_neg hunit).trans
    (congrArg _ (State.ownWrite_written1 hgate hgap hheld hlock he hrange haccess heffect))

end

/-- Settles O60: the first window of an image opens its staging, its expiry and FW_STAGE_CONTROL end it, and the floor rises an
element at a time. -/
theorem firmwareCommands : Obligations.FirmwareCommands := by
  unfold Obligations.FirmwareCommands
  refine ⟨fun off len d s => rfl, fun s len d hsane hready hleast hmost hpart => ?_, fun s x => execFwStagingExpiry_old,
    fun r s => execFwActivate_staged,
    fun r s htakes => ⟨_, execFwAbandon_taken htakes, rfl, State.abandonStaging_slotIn (.inl rfl), State.abandonStaging_slotIn (.inr rfl)⟩,
    fun i n r s t e hfirst hlast hgate hgap hheld hlock he hrange haccess hfree habove hruns =>
      execFwFloor_next hfirst hlast hgate hgap hheld hlock he hrange haccess hfree habove hruns⟩
  refine ⟨_, State.imageWindow_first hsane hready hleast hmost hpart, by rw [State.mapSlot_now], ?_⟩
  exact congrArg Slot.state (State.mapSlot_slot s s.stagingTarget fun _ => { Slot.empty with state := 1 })

end Sys2Proof.Machine
end

section
/-!
TRACE_OFF, TRACE_ARM_ONCE, TRACE_ARM_CONTINUOUS, TRIGGER_NOW, TRACE_ENTRY, CAPTURE_READOUT and TRACE_REARM (R599 to R604).
-/
namespace Sys2Proof.Machine

section
variable {s : State}

/-! ### Control -/

/-- A row of TRACE_CONTROL that is taken answers what its value does to the unit. -/
theorem traceRow_taken {n : Nat} {r : Requester} {t : State} (htakes : s.takesWrite r 0xE200 0 (.num n))
    (heffect : traceControlEffect r 0xE200 0 (.num n) s = (t, stOk)) :
    traceRow n r (.num n) s = s.writeAnswered t r 0xE200 0 :=
  (if_pos rfl).trans (State.ownWrite_taken htakes heffect)

theorem execTriggerNow_armed {r : Requester} (htakes : s.takesWrite r 0xE208 0 (.num 1)) (harmed : s.msv.trace.state = 1) :
    exec (.triggerNow r (.num 1)) s =
      .next (s.writeAnswered (s.triggerTrace 4 (s.msv.trace.entryOf 0xB 0 0 0)) r 0xE208 0) :=
  congrArg _ (State.ownWrite_taken htakes ((if_neg (not_not_intro rfl)).trans (if_pos harmed)))

/-! ### Entries, while the core cycle has room for one -/

section
variable {kind source task data : Nat} {e : Nat × Nat × Nat × Nat × Nat} (hroom : s.traceRoom = true)
  (he : e = s.msv.trace.entryOf kind source task data)
include hroom he

theorem State.traceEvent_triggers (harmed : s.msv.trace.state = 1) (htrigger : s.msv.trace.triggerOf kind data ≠ 0) :
    s.traceEvent kind source task data = s.traceTaken.triggerTrace (s.msv.trace.triggerOf kind data) e := by
  simp only [State.traceEvent, hroom, harmed, if_pos htrigger, ← he, Bool.not_true, Bool.false_eq_true, and_false, if_false]

theorem State.traceEvent_recorded (harmed : s.msv.trace.state = 1) (hquiet : s.msv.trace.triggerOf kind data = 0)
    (henabled : bit s.msv.trace.mask kind = true) : s.traceEvent kind source task data =
      { s.traceTaken with msv.trace.ring := (e :: s.msv.trace.ring).take traceRing } := by
  simp only [State.traceEvent, hroom, harmed, if_neg (not_not_intro hquiet), if_pos henabled, ← he, Bool.not_true, Bool.false_eq_true,
    and_false, if_false]

theorem State.traceEvent_captured (hcapture : s.msv.trace.state = 2) (henabled : bit s.msv.trace.mask kind = true) :
    s.traceEvent kind source task data =
      { s.traceTaken with msv.trace.ring := e :: s.msv.trace.ring, msv.trace.postLeft := s.msv.trace.postLeft - 1 }.captureDone := by
  simp only [State.traceEvent, hroom, hcapture, if_pos henabled, ← he, Bool.not_true, Bool.false_eq_true, and_false, if_false]

end

theorem execTraceEntry_due {kind source task data : Nat} {d : Nat × Nat × Option Nat × Nat}
    (hdue : s.msv.trace.due.find? (dueIs kind source task data) = some d) : exec (.traceEntry kind source task data) s =
      .next ({ s with msv.trace.due := s.msv.trace.due.erase d }.traceEvent kind source (task % 2 ^ 32) data) := by
  simp only [exec, execTraceEntry, hdue]

/-! ### Read-out -/

theorem execCaptureReadout_read (hheld : s.msv.trace.state = 3) (hread : s.msv.trace.readOut = true) : exec .captureReadout s =
    if s.msv.trace.continuous then .next { s with msv.trace.state := 4 } else .next { s with msv.trace.state := 0 } := by
  have hgives : ¬ (s.msv.trace.state ≠ 3 ∨ (!s.msv.trace.readOut) = true) := by simp [hheld, hread]
  exact if_neg hgives

theorem execTraceRearm_rearms (hrearms : s.msv.trace.state = 4) : exec .traceRearm s = .next (s.armTrace true) :=
  if_pos hrearms

end

/-- Settles O57: the unit's control and read-out by its state, and a due entry by its trigger and the state. -/
theorem traceCommands : Obligations.TraceCommands := by
  unfold Obligations.TraceCommands
  refine ⟨fun r s => ⟨fun htakes => congrArg _ (traceRow_taken htakes rfl), fun htakes => congrArg _ (traceRow_taken htakes rfl),
      fun htakes => congrArg _ (traceRow_taken htakes rfl), execTriggerNow_armed⟩,
    fun kind source task data s u d e hdue hu he hroom => ?_,
    fun s hheld hread => ⟨fun hcont => ?_, fun hcont => ?_⟩, fun s hrearms => ⟨execTraceRearm_rearms hrearms, rfl, rfl⟩⟩
  · rw [execTraceEntry_due hdue, ← hu]
    have hroom' : u.traceRoom = true := by rw [hu]; exact hroom
    have he' : e = u.msv.trace.entryOf kind source (task % 2 ^ 32) data := by rw [hu]; exact he
    subst hu
    exact ⟨fun harmed htrigger => congrArg _ (State.traceEvent_triggers hroom' he' harmed htrigger),
      fun harmed hquiet henabled => congrArg _ (State.traceEvent_recorded hroom' he' harmed hquiet henabled),
      fun hcapture henabled => congrArg _ (State.traceEvent_captured hroom' he' hcapture henabled)⟩
  · rw [execCaptureReadout_read hheld hread, if_pos hcont]
  · rw [execCaptureReadout_read hheld hread, hcont, if_neg Bool.false_ne_true]

end Sys2Proof.Machine
end

section
/-!
FIREWOOD_TEST_DUE, FIREWOOD_TEST_NOW, FIREWOOD_DISCHARGE_START, FIREWOOD_TEST_END and CHARGE_COMPLETE (R558 to R564).
-/
namespace Sys2Proof.Machine

section
variable {s : State}

/-! ### The beginning of a test -/

theorem execFirewoodTestDue_begins (hmay : s.mayTest = true) (hdue : s.testDue = true) :
    exec .firewoodTestDue s = .next s.beginTest :=
  if_pos ⟨hmay, hdue⟩

theorem execFirewoodTestNow_taken {r : Requester} {u : State} (htakes : s.takesWrite r 0xD023 0 (.num 1)) (hu : u = s.putNum 0xD023 0 1) :
    exec (.firewoodTestNow r (.num 1)) s = .next (s.writeAnswered (if u.mayTest then u.beginTest else u) r 0xD023 0) := by
  subst hu
  exact congrArg _ (State.ownWrite_taken htakes (if_neg (not_not_intro rfl)))

theorem execFirewoodDischargeStart_low {d : Nat} (hlimit : s.pch.testLimit = some d) (hwaits : s.pch.firewood = .waitDischarge)
    (hlow : s.dirtyBytes ≤ d) : exec .firewoodDischargeStart s = .next { s with pch.firewood := .discharging } := by
  simp only [exec, execFirewoodDischargeStart, hlimit]
  exact if_pos ⟨hwaits, hlow⟩

/-! ### Why a measurement fails (R560) -/

section
variable {us esr mj : Nat}

theorem failReason_discharge (h : us < 1000 ∨ 100000 < us) : failReason us esr mj = 2 := if_pos h

section
variable (hleast : 1000 ≤ us) (hmost : us ≤ 100000)
include hleast hmost

theorem failReason_of_discharge : failReason us esr mj = if 1000 < esr then 3 else if mj < 1650 then 4 else 0 :=
  if_neg (by omega)

theorem failReason_esr (h : 1000 < esr) : failReason us esr mj = 3 :=
  (failReason_of_discharge hleast hmost).trans (if_pos h)

theorem failReason_energy (hesr : esr ≤ 1000) (h : mj < 1650) : failReason us esr mj = 4 :=
  (failReason_of_discharge hleast hmost).trans ((if_neg (Nat.not_lt.mpr hesr)).trans (if_pos h))

theorem failReason_none (hesr : esr ≤ 1000) (h : 1650 ≤ mj) : failReason us esr mj = 0 :=
  (failReason_of_discharge hleast hmost).trans ((if_neg (Nat.not_lt.mpr hesr)).trans (if_neg (Nat.not_lt.mpr h)))

end
end

/-! ### The end of a test and of a charge -/

section
variable {us esr mv mj : Nat} (hdischarging : s.pch.firewood = .discharging) (hmj : mj = bankEnergy (5 * us) 4 32000 esr)
include hdischarging hmj

theorem execFirewoodTestEnd_passes (hwhy : failReason us esr mj = 0) :
    exec (.firewoodTestEnd us esr mv) s = .next ({ s with pch.bankMv := mv }.testPasses (5 * us / 4) esr mj mv) := by
  subst hmj
  simp only [exec, execFirewoodTestEnd, if_neg (not_not_intro hdischarging), if_pos hwhy]

theorem execFirewoodTestEnd_fails {why : Nat} (hwhy : failReason us esr mj = why) (hfails : why ≠ 0) :
    exec (.firewoodTestEnd us esr mv) s = .next ({ s with pch.bankMv := mv }.testFails (5 * us / 4) esr mj mv why) := by
  subst hmj hwhy
  simp only [exec, execFirewoodTestEnd, if_neg (not_not_intro hdischarging), if_neg hfails]

end

section
variable {ms : Nat} (htime : ms ≤ 20000)
include htime

/-- A charge in time fills the bank in each of the states in which it charges; a failed test stays failed. -/
theorem execChargeComplete_in_time (hcharges : s.pch.firewood = .charging ∨ s.pch.firewood = .restoring ∨ s.pch.firewood = .failed) :
    exec (.chargeComplete ms) s =
      .next { s with pch.bankMv := 32000, pch.firewood := if s.pch.firewood = .failed then .failed else .ready } := by
  have hgives : ¬ (s.pch.firewood ≠ .charging ∧ s.pch.firewood ≠ .restoring ∧ s.pch.firewood ≠ .failed) :=
    fun ⟨hcharging, hrestoring, hfailed⟩ => hcharges.elim hcharging (·.elim hrestoring hfailed)
  simp only [exec, execChargeComplete, if_neg hgives, if_neg (Nat.not_lt.mpr htime)]

theorem execChargeComplete_full (hcharges : s.pch.firewood = .charging ∨ s.pch.firewood = .restoring) :
    exec (.chargeComplete ms) s = .next { s with pch.bankMv := 32000, pch.firewood := .ready } := by
  have hgood : s.pch.firewood ≠ .failed := by rcases hcharges with h | h <;> simp [h]
  rw [execChargeComplete_in_time htime (hcharges.imp_right .inl), if_neg hgood]

theorem execChargeComplete_failed (hfailed : s.pch.firewood = .failed) :
    exec (.chargeComplete ms) s = .next { s with pch.bankMv := 32000, pch.firewood := .failed } := by
  rw [execChargeComplete_in_time htime (.inr (.inr hfailed)), if_pos hfailed]

end

end

/-- Settles O54: a test by what it waits for, its measurement by the first of R560's reasons that holds. -/
theorem holdUpBankCommands : Obligations.HoldUpBankCommands := by
  unfold Obligations.HoldUpBankCommands
  exact ⟨fun s => execFirewoodTestDue_begins, fun s hstep6 => if_pos hstep6, fun r s u => execFirewoodTestNow_taken,
    fun s d => execFirewoodDischargeStart_low,
    fun us esr mv mj s hdischarging hmj =>
      ⟨fun hleast hmost hesr h => execFirewoodTestEnd_passes hdischarging hmj (failReason_none hleast hmost hesr h),
      fun h => execFirewoodTestEnd_fails hdischarging hmj (failReason_discharge h) (by decide),
      fun hleast hmost h => execFirewoodTestEnd_fails hdischarging hmj (failReason_esr hleast hmost h) (by decide),
      fun hleast hmost hesr h => execFirewoodTestEnd_fails hdischarging hmj (failReason_energy hleast hmost hesr h) (by decide)⟩,
    fun ms s htime => ⟨execChargeComplete_full htime, execChargeComplete_failed htime⟩⟩

end Sys2Proof.Machine
end

section
/-!
EVENT_WRITE, RECORDER_FREEZE and FREEZE_EXPIRY (R577 to R580, R584, R586).
-/
namespace Sys2Proof.Machine

section
variable {s : State} {e : Event}

/-! ### One event -/

theorem execEventWrite_first {l : List Event} {u : State} (hqueue : s.jsr.queue = e :: l) (hpowered : s.jsr.powered = true)
    (hfree : s.jsr.wroteAt ≠ some s.now) (hu : u = { s with jsr.queue := l, jsr.wroteAt := some s.now }.queueDropped) :
    exec .eventWrite s = .next (u.writeEvent e 0) := by
  have hwrites : ¬ ((!s.jsr.powered) = true ∨ s.jsr.wroteAt = some s.now) := by simp [hpowered, hfree]
  subst hu
  simp only [exec, execEventWrite, hqueue, if_neg hwrites]

/-- An event that is not fatal, outside a freeze, goes to the recorder. -/
theorem State.writeEvent_of_no_freeze {n : Nat} (hfreeze : s.jsr.freeze = none) (hminor : severity e.code ≠ 3) :
    s.writeEvent e n = s.record e n := by
  simp only [State.writeEvent, if_neg hminor, hfreeze, Option.isSome_none, Bool.false_eq_true, if_false]

section
variable {r : Record} {l : List Record} (hrecords : s.jsr.records = r :: l)
include hrecords

theorem State.record_of_merges (n : Nat) (h : r.merges e = true) :
    s.record e n = { s with jsr.records := r.again :: l }.bump 0xC008 0x02 1 := by
  simp only [State.record, hrecords, if_pos h]

theorem State.record_of_not_merges (n : Nat) (h : r.merges e = false) : s.record e n = s.append e 0 n := by
  simp only [State.record, hrecords, h, Bool.false_eq_true, if_false]

end

/-! ### Fatal events -/

@[simp] theorem State.record_fatal (n : Nat) : (s.record e n).jsr.fatal = s.jsr.fatal := by
  unfold State.record
  split
  · split <;> rfl
  · rfl

@[simp] theorem State.stage_fatal : (s.stage e).jsr.fatal = s.jsr.fatal := by
  unfold State.stage
  dsimp only
  split
  · split
    · rfl
    · split
      · rfl
      · split
        · rfl
        · split <;> rfl
  · rfl

theorem State.writeEvent_fatal {n : Nat} (h : severity e.code = 3) : (s.writeEvent e n).jsr.fatal = true := by
  simp only [State.writeEvent, if_pos h]
  split
  · exact State.stage_fatal
  · exact State.record_fatal n

/-! ### Freezes -/

theorem execRecorderFreeze_begins {r : Requester} (htakes : s.takesWrite r 0xC006 0 (.num 1)) (hnone : s.jsr.freeze = none) :
    exec (.recorderFreeze r (.num 1)) s =
      .next (s.writeAnswered (({ s with jsr.freeze := some (s.now, r) }.putNum 0xC006 0 1).bump 0xC008 0x06 1) r 0xC006 0) := by
  have hfree : ¬ s.jsr.freeze.isSome = true := by simp [hnone]
  exact congrArg _ (State.ownWrite_taken htakes ((if_pos rfl).trans (if_neg hfree)))

theorem execRecorderFreeze_ends {r : Requester} (htakes : s.takesWrite r 0xC006 0 (.num 0)) :
    exec (.recorderFreeze r (.num 0)) s = .next (s.writeAnswered (s.endFreeze 1) r 0xC006 0) :=
  congrArg _ (State.ownWrite_taken htakes (if_neg (by decide)))

theorem execFreezeExpiry_old {start : Nat} {r : Requester} (hfreeze : s.jsr.freeze = some (start, r)) (hold : start + 10000000 ≤ s.now) :
    exec .freezeExpiry s = .next (s.endFreeze 2) := by
  simp only [exec, execFreezeExpiry, hfreeze, if_pos hold]

theorem State.endFreeze_freeze (how : Nat) : (s.endFreeze how).jsr.freeze = none := by
  unfold State.endFreeze
  split
  next hnone => exact hnone
  next start r _ =>
    extract_lets ev staged lost jsr s1 s2 s3
    have h2 : s2.jsr.freeze = s1.jsr.freeze :=
      foldl_leaves (g := fun s => s.jsr.freeze) (f := fun s q => s.append q.ev q.count q.flags) (fun _ _ => rfl) s1 staged
    have h3 : s3.jsr.freeze = none := h2
    split <;> exact h3

end

/-- Settles O55: an event by the last record and its severity, a freeze by the value written and its age. -/
theorem recorderCommands : Obligations.RecorderCommands := by
  unfold Obligations.RecorderCommands
  refine ⟨fun s u e l => execEventWrite_first, fun s e r l hfreeze hminor hrecords => ?_,
    fun s e hfatal => ⟨_, rfl, State.writeEvent_fatal hfatal⟩, fun r s => execRecorderFreeze_begins, fun r s => execRecorderFreeze_ends,
    fun s start r hfreeze hold => ⟨execFreezeExpiry_old hfreeze hold, State.endFreeze_freeze 2⟩⟩
  rw [State.writeEvent_of_no_freeze hfreeze hminor]
  refine ⟨State.record_of_merges hrecords 0, fun hnew => ?_⟩
  rw [State.record_of_not_merges hrecords 0 hnew, ← hrecords]
  exact ⟨rfl, rfl⟩

end Sys2Proof.Machine
end

section
/-!
The requested tests of Kiln, KILN_TARGETED_START, KILN_LIMITS_MET, KILN_LIMITS_LOST and KILN_TEST_END (R592 to R598).
-/
namespace Sys2Proof.Machine

section
variable {s : State}

/-! ### Requests -/

section
variable {v : OdVal} {b : Bytes} {u : UnitId} {code : Nat} (hb : b = window (valBytes v) 8 0 8) (hcode : code = numAt b 2 1)
include hb hcode

/-- A request that passes the checks of R596 while the limits hold waits behind a test that runs, and starts otherwise. -/
theorem kilnEffect_taken (hu : u = UnitId.ofWord (numAt b 0 2)) (htest : u.testable code = true)
    (hconfirm : numAt b 4 4 = if code = 5 then 0x5641554C else 0) (hfree : s.notTestable u = false) (hholder : s.isHolder u = false)
    (hlast : s.lastOfKind u = false) (hone : s.requestRuns = false) (hlimits : s.msv.kiln.limitsOk = true) (r : Requester) (i j : Nat) :
    kilnEffect r i j v s = if s.msv.kiln.test.isSome then
      ({ s with msv.kiln.waiting := s.msv.kiln.waiting ++ [(u, code, true)] }, stOk) else (s.startTest u code true, stOk) := by
  have hconfirm' : numAt b 4 4 = vaultConfirm code := hconfirm
  have hpasses : ¬ ((!u.testable code) = true ∨ numAt b 4 4 ≠ vaultConfirm code ∨ s.notTestable u = true ∨ s.isHolder u = true
      ∨ s.lastOfKind u = true ∨ s.requestRuns = true) := by
    simp [htest, hconfirm', hfree, hholder, hlast, hone]
  subst hb hcode hu
  simp only [kilnEffect, if_neg hpasses, hlimits, Bool.not_true, Bool.false_eq_true, if_false]

/-- The row of a request's own test code carries it out; a row of another code has no part in it. -/
theorem kilnRow_taken {r : Requester} {t : State} (htakes : s.takesWrite r 0xE102 0 v)
    (heffect : kilnEffect r 0xE102 0 v s = (t, stOk)) : kilnRow code r v s = s.writeAnswered t r 0xE102 0 := by
  subst hb
  exact (if_pos hcode.symm).trans (State.ownWrite_taken htakes heffect)

end

/-! ### Targeted tests and limits -/

section
variable {u : UnitId} (hunit : u.replicated = true) (hfree : s.kilnFree u = true)
  (hdue : s.msv.kiln.due.any (fun d => d.1 == u) = true) (hout : (s.health u).state = 1)
include hunit hfree hdue hout

theorem execKilnTargetedStart_due : exec (.kilnTargetedStart u) s =
    if s.msv.kiln.limitsOk then .next (s.startTest u u.targetedTest false)
    else .next ({ s with msv.kiln.due := s.msv.kiln.due.filter fun d => d.1 != u }.kilnRefused u u.targetedTest
      s.msv.kiln.brokenLimit.1 s.msv.kiln.brokenLimit.2 false) := by
  have hgives : ¬ ((!s.kilnFree u) = true ∨ (!s.msv.kiln.due.any fun d => d.1 == u) = true ∨ (s.health u).state ≠ 1) := by
    simp [hfree, hdue, hout]
  simp only [exec, execKilnTargetedStart, hunit, Bool.not_true, Bool.false_eq_true, if_false, if_neg hgives]

end

theorem execKilnLimitsMet_hold {mv : Nat} {celsius ppm : Int} (hhold : limitsHold mv celsius ppm = true) :
    exec (.kilnLimitsMet mv celsius ppm) s = .next
      { s with msv.kiln.limitMv := mv, msv.kiln.limitC := celsius, msv.kiln.limitPpm := ppm, msv.kiln.limitsOk := true }.startWaiting := by
  simp only [exec, execKilnLimitsMet, hhold, Bool.not_true, Bool.false_eq_true, if_false]

theorem limitsHold_hot {mv : Nat} {celsius ppm : Int} (hhot : 105 < celsius) : limitsHold mv celsius ppm = false := by
  simp only [limitsHold, decide_eq_false_iff_not]
  omega

section
variable {celsius : Int} {u : State} (hhot : 105 < celsius)
  (hu : u = { s with msv.kiln := { s.msv.kiln with limitC := celsius, limitsOk := false } })
include hhot hu

theorem execKilnLimitsLost_idle (hidle : s.msv.kiln.test = none) : exec (.kilnLimitsLost 3 celsius) s = .next u := by
  subst hu
  simp only [exec, execKilnLimitsLost, limitsHold_hot hhot, hidle]
  rfl

theorem execKilnLimitsLost_abandons {v : UnitId} {code at_ : Nat} {q : Bool} (htest : s.msv.kiln.test = some (v, code, at_, q)) :
    exec (.kilnLimitsLost 3 celsius) s = .next ((u.kilnRefused v code 3 celsius q).limitFrom s.dirtyLimit) := by
  subst hu
  simp only [exec, execKilnLimitsLost, limitsHold_hot hhot, htest]
  rfl

end

/-! ### The end of a test of a replicated unit -/

section
variable {failures address failBit us code at_ : Nat} {d : UnitId} {q : Bool} (htest : s.msv.kiln.test = some (d, code, at_, q))
  (hnow : s.gap = false ∨ d.isWarden = true) (hunit : d.replicated = true)
include htest hnow hunit

/-- A test that failed retires its unit. -/
theorem execKilnTestEnd_failed {u : State}
    (hu : u = ({ s with msv.kiln.test := none }.kilnEnded d code 1 us failures address failBit).bump 0xE111 0x01 1) :
    exec (.kilnTestEnd 1 failures address failBit us) s =
      .next ((((((u.takeFree 6).2.raise 0xE805 d.word code (u.takeFree 6).1 address).bump 0xE111 0x03 1).retireUnit d code).limitFrom
        s.dirtyLimit).startWaiting) := by
  have hends : ¬ (2 < 1 ∨ (s.gap = true ∧ (!d.isWarden) = true)) := by rcases hnow with h | h <;> simp [h]
  subst hu
  simp only [exec, execKilnTestEnd, htest, if_neg hends, hunit, if_true]

/-- A test that passed leaves its unit to its class: given back where it was requested, transient where it was targeted. -/
theorem execKilnTestEnd_passed {w : State}
    (hw : w = ((({ s with msv.kiln.test := none }.kilnEnded d code 0 us failures address failBit).bump 0xE111 0x01 1).raise 0xE004 d.word
        code (clampU 32 us) (if q then 0 else 1)).bump 0xE111 0x02 1) :
    exec (.kilnTestEnd 0 failures address failBit us) s =
      if q then .next ((w.limitFrom s.dirtyLimit).giveBack d).startWaiting
      else .next ((w.limitFrom s.dirtyLimit).classTransient d).startWaiting := by
  have hends : ¬ (2 < 0 ∨ (s.gap = true ∧ (!d.isWarden) = true)) := by rcases hnow with h | h <;> simp [h]
  subst hw
  simp only [exec, execKilnTestEnd, htest, if_neg hends, hunit, Bool.not_true, Bool.false_eq_true, if_false]
  rfl

end
end

/-- Settles O56: a request by the test that runs, the limits by what is measured, the end of a test by its result. -/
theorem kilnCommands : Obligations.KilnCommands := by
  unfold Obligations.KilnCommands
  refine ⟨fun r v s t b u code htakes hb hu hcode htest hconfirm hfree hholder hlast hone hlimits hstarts hwaits => ?_,
    fun u s hunit hfree hdue hout => ⟨fun hlimits => ?_, fun hlimits => ?_⟩,
    fun mv celsius ppm s => execKilnLimitsMet_hold,
    fun celsius s u hhot hu => ⟨execKilnLimitsLost_idle hhot hu, fun v code at_ q => execKilnLimitsLost_abandons hhot hu⟩,
    fun failures address failBit us s u v w d code at_ b q htest hnow hu hb hv hunit => ⟨?_, fun hw => ?_⟩⟩
  · have heffect : kilnEffect r 0xE102 0 v s = (t, stOk) := by
      rw [kilnEffect_taken hb hcode hu htest hconfirm hfree hholder hlast hone hlimits]
      cases hruns : s.msv.kiln.test with
      | none => rw [hstarts hruns]; rfl
      | some x => rw [hwaits (by rw [hruns]; rfl)]; rfl
    have hrow (n : Nat) (hn : code = n) : kilnRow n r v s = s.writeAnswered t r 0xE102 0 := by
      rw [← hn]
      exact kilnRow_taken hb hcode htakes heffect
    exact ⟨fun h => congrArg Host.Outcome.next (hrow 1 h), fun h => congrArg Host.Outcome.next (hrow 2 h), fun h => congrArg Host.Outcome.next (hrow 3 h),
      fun h => congrArg Host.Outcome.next (hrow 4 h), fun h => congrArg Host.Outcome.next (hrow 5 h)⟩
  · rw [execKilnTargetedStart_due hunit hfree hdue hout, if_pos hlimits]
  · rw [execKilnTargetedStart_due hunit hfree hdue hout, hlimits, if_neg Bool.false_ne_true]
  · rw [execKilnTestEnd_failed htest hnow hunit hu, hb, hv]
  · rw [execKilnTestEnd_passed htest hnow hunit hw]
    exact ⟨fun hq => by rw [if_pos hq], fun hq => by rw [hq, if_neg Bool.false_ne_true]⟩

end Sys2Proof.Machine
end

section
/-!
READ, WRITE, SEGMENT_OTHER_FRAME, STAGED_WRITE_EXPIRY and SEG_RESPONSE_EXPIRY (R501, R505 to R511).
-/
namespace Sys2Proof.Machine

section
variable {s : State}

/-! ### Quiet -/

/-- Only a pending quiet commits. -/
theorem State.commitQuiet_of_not_pending (h : s.msv.segment.quiet ≠ 1) : s.commitQuiet = s :=
  if_neg fun hpending => h hpending.1

/-- A frame that ends outside a quiet is received and changes nothing. -/
theorem State.frameEnds_of_no_quiet (h : s.msv.segment.quiet = 0) (belongs : Bool) : s.frameEnds belongs = (true, s) := by
  have hnone : s.commitQuiet = s := State.commitQuiet_of_not_pending (by rw [h]; decide)
  simp only [State.frameEnds, hnone, h]

section
variable {f : DictFrame}

/-! ### Requests -/

/-- A whole frame for this module alone is none of those that R501 and R506 drop. -/
theorem DictFrame.not_dropped (hwhole : f.area.length = f.length) (hone : f.broadcast = false) :
    ¬ (f.area.length < f.length ∨ (f.broadcast = true ∧ (f.op = 0x10 ∨ f.op = 0x11))) := by
  simp [hwhole, hone]

section
variable {u : State} (hwhole : f.area.length = f.length) (hone : f.broadcast = false) (hu : u = s.bump 0xE010 0x01 1)
include hwhole hone hu

/-- A whole request for this module alone is counted, and joins the requests held where there is room for it. -/
theorem State.segRequest_whole : s.segRequest f = if 4 ≤ s.msv.segment.requests.length then u.dropFrame else State.serveHeld
    { u with msv.segment.requests := u.msv.segment.requests ++ [{ f with area := f.area.take f.length }] } 5 := by
  have hlong : ¬ f.area.length < f.length := by omega
  subst hu
  simp only [State.segRequest, if_neg hlong, hone, Bool.false_eq_true, false_and, if_false]
  rfl

theorem State.segRequest_joins (hroom : s.msv.segment.requests.length < 4) : s.segRequest f = State.serveHeld
    { u with msv.segment.requests := u.msv.segment.requests ++ [{ f with area := f.area.take f.length }] } 5 :=
  (State.segRequest_whole hwhole hone hu).trans (if_neg (Nat.not_le.mpr hroom))

theorem State.segRequest_fifth (hfull : 4 ≤ s.msv.segment.requests.length) : s.segRequest f = u.dropFrame :=
  (State.segRequest_whole hwhole hone hu).trans (if_pos hfull)

end

section
variable (hok : f.ok = true) (hon : s.aonOn = true) (hquiet : s.msv.segment.quiet = 0)
include hon hquiet

theorem State.segArrive_of_no_quiet : s.segArrive f = s.segRequest f := by
  simp only [State.segArrive, hon, State.frameEnds_of_no_quiet hquiet, Bool.not_true, Bool.false_eq_true, if_false, if_true]

include hok

theorem execRead_of_no_quiet (hop : f.op = 1) : exec (.read f) s = .next (s.segRequest f) := by
  have hformed : ¬ (!(f.ok && f.op == 1)) = true := by simp [hok, hop]
  exact (if_neg hformed).trans (congrArg _ (State.segArrive_of_no_quiet hon hquiet))

theorem execWrite_of_no_quiet (hop : f.op = 2) : exec (.write f) s = .next (s.segRequest f) := by
  have hformed : ¬ (!(f.ok && f.op == 2)) = true := by simp [hok, hop]
  exact (if_neg hformed).trans (congrArg _ (State.segArrive_of_no_quiet hon hquiet))

theorem execSegmentOtherFrame_not_accepted : exec (.segmentOtherFrame f false) s = .next s.dropFrame := by
  simp only [exec, execSegmentOtherFrame, hok, hon, State.frameEnds_of_no_quiet hquiet, Bool.not_true, Bool.not_false,
    Bool.false_eq_true, if_false, true_or, if_true]

/-! ### Frames with other codes -/

section
variable (hwhole : f.area.length = f.length) (hone : f.broadcast = false)
include hwhole hone

theorem execSegmentOtherFrame_counted (hop : f.op = 0x10 ∨ f.op = 0x11 ∨ f.op = 0x21 ∨ f.op = 0x22 ∨ 128 ≤ f.op) :
    exec (.segmentOtherFrame f true) s = .next (s.bump 0xE010 0x01 1) := by
  have hcounted : 128 ≤ f.op ∨ f.op = 0x10 ∨ f.op = 0x11 ∨ f.op = 0x21 ∨ f.op = 0x22 := by omega
  simp only [exec, execSegmentOtherFrame, hok, hon, State.frameEnds_of_no_quiet hquiet, Bool.not_true, Bool.false_eq_true, if_false,
    false_or, if_neg (DictFrame.not_dropped hwhole hone), if_pos hcounted]

section
variable (hlisted : ¬ (128 ≤ f.op ∨ f.op = 0x10 ∨ f.op = 0x11 ∨ f.op = 0x21 ∨ f.op = 0x22))
include hlisted

theorem execSegmentOtherFrame_request (hop : f.op ≠ 0x20) : exec (.segmentOtherFrame f true) s = .next (s.segRequest f) := by
  simp only [exec, execSegmentOtherFrame, hok, hon, State.frameEnds_of_no_quiet hquiet, Bool.not_true, Bool.false_eq_true, if_false,
    false_or, if_neg (DictFrame.not_dropped hwhole hone), if_neg hlisted, if_neg hop]

theorem execSegmentOtherFrame_propose (hop : f.op = 0x20) (hhead : headBad f (f.length == 8) = none) :
    exec (.segmentOtherFrame f true) s = .next (s.propose (numAt f.area 0 4) (numAt f.area 4 4)) := by
  simp only [exec, execSegmentOtherFrame, hok, hon, State.frameEnds_of_no_quiet hquiet, Bool.not_true, Bool.false_eq_true, if_false,
    false_or, if_neg (DictFrame.not_dropped hwhole hone), if_neg hlisted, if_pos hop, hhead]

theorem execSegmentOtherFrame_bad_propose {sub at_ : Nat} (hop : f.op = 0x20) (hhead : headBad f (f.length == 8) = some (sub, at_)) :
    exec (.segmentOtherFrame f true) s = .next ((s.bump 0xE010 0x01 1).segRespond f stBadRequest (errorArea sub at_)) := by
  simp only [exec, execSegmentOtherFrame, hok, hon, State.frameEnds_of_no_quiet hquiet, Bool.not_true, Bool.false_eq_true, if_false,
    false_or, if_neg (DictFrame.not_dropped hwhole hone), if_neg hlisted, if_pos hop, hhead]

end
end
end
end

/-! ### Expiries -/

/-- STAGED_WRITE_EXPIRY on the segment. -/
def State.expireSegment (s : State) : State :=
  if s.msv.segment.staged.any fun x => x.expired s.now then { s with msv.segment.staged := none }.bump 0xE010 0x0C 1 else s

/-- STAGED_WRITE_EXPIRY on the service port. -/
def State.expireService (s : State) : State :=
  if s.msv.service.staged.any fun x => x.expired s.now then { s with msv.service.staged := none }.bump 0xE010 0x0C 1 else s

theorem execStagedWriteExpiry_eq (s : State) : exec .stagedWriteExpiry s = .next s.expireSegment.expireService := rfl

theorem StagedWrite.expired_of_le {x : StagedWrite} {now : Nat} (hold : x.last + 10000000 ≤ now) : x.expired now = true := by
  unfold StagedWrite.expired
  exact decide_eq_true hold

theorem State.expireSegment_of_old {x : StagedWrite} (hstaged : s.msv.segment.staged = some x) (hold : x.last + 10000000 ≤ s.now) :
    s.expireSegment = { s with msv.segment.staged := none }.bump 0xE010 0x0C 1 :=
  if_pos (by rw [hstaged, Option.any_some, StagedWrite.expired_of_le hold])

theorem State.expireService_of_old {x : StagedWrite} (hstaged : s.msv.service.staged = some x) (hold : x.last + 10000000 ≤ s.now) :
    s.expireService = { s with msv.service.staged := none }.bump 0xE010 0x0C 1 :=
  if_pos (by rw [hstaged, Option.any_some, StagedWrite.expired_of_le hold])

theorem State.expireSegment_of_none (h : s.msv.segment.staged = none) : s.expireSegment = s := by
  rw [State.expireSegment, h]
  exact if_neg Bool.false_ne_true

theorem State.expireService_of_none (h : s.msv.service.staged = none) : s.expireService = s := by
  rw [State.expireService, h]
  exact if_neg Bool.false_ne_true

end

/-- Settles O49: a frame by its code and the requests held, a staged write and a kept response by their age. -/
theorem segmentRequests : Obligations.SegmentRequests := by
  unfold Obligations.SegmentRequests
  refine ⟨fun f s u hok hon hquiet hwhole hone hu => ⟨fun hroom t ht => ?_, fun hfull => ?_,
      fun hop => execSegmentOtherFrame_propose hok hon hquiet hwhole hone (by omega) hop, fun sub at_ hop hhead => ?_, fun hop => ?_,
      execSegmentOtherFrame_not_accepted hok hon hquiet⟩,
    fun s x hstaged hother hold => ?_, fun s x hstaged hother hold => ?_,
    fun source seq s => ⟨_, rfl, fun e => ?_, rfl⟩⟩
  · rw [ht, ← State.segRequest_joins hwhole hone hu hroom]
    exact ⟨execRead_of_no_quiet hok hon hquiet, execWrite_of_no_quiet hok hon hquiet,
      fun hop => execSegmentOtherFrame_request hok hon hquiet hwhole hone (by omega) (by omega)⟩
  · rw [← State.segRequest_fifth hwhole hone hu hfull]
    exact ⟨execRead_of_no_quiet hok hon hquiet, execWrite_of_no_quiet hok hon hquiet⟩
  · rw [hu, execSegmentOtherFrame_bad_propose hok hon hquiet hwhole hone (by omega) hop hhead]
  · rw [hu, execSegmentOtherFrame_counted hok hon hquiet hwhole hone hop]
  · rw [execStagedWriteExpiry_eq, State.expireSegment_of_old hstaged hold, State.expireService_of_none (by rw [State.bump_msv]; exact hother)]
  · rw [execStagedWriteExpiry_eq, State.expireSegment_of_none hother, State.expireService_of_old hstaged hold]
  · simp only [List.mem_filter, Bool.not_eq_true', ← Bool.not_eq_true, Bool.and_eq_true, beq_iff_eq, decide_eq_true_eq, and_assoc]

end Sys2Proof.Machine
end

section
/-!
HEARTBEAT, ALERT_NOTIFY, the quiet and its wake, and PLCA (R502, R503, R512 to R518).
-/
namespace Sys2Proof.Machine

section
variable {s : State}

/-! ### Heartbeats and alerts -/

section
variable (hon : s.aonOn = true) (hquiet : s.msv.segment.quiet = 0)
include hon hquiet

theorem execHeartbeat_due (hheld : s.due s.msv.segment.holdUntil = true) (hpower : s.pch.power ≠ .hold) (hperiod : s.num 0xE00A 0 ≠ 0)
    (hdue : s.due s.msv.segment.heartbeatDue = true) : exec .heartbeat s =
      .next ({ s with msv.segment.heartbeatDue := s.now + s.num 0xE00A 0 * 1000 }.segSend (.segHeartbeat s.beatArea)) := by
  have hsends : ¬ ((!s.aonOn) = true ∨ s.pch.power = .hold ∨ s.num 0xE00A 0 = 0 ∨ 2 ≤ s.msv.segment.quiet
      ∨ (!s.due s.msv.segment.heartbeatDue) = true ∨ (!s.due s.msv.segment.holdUntil) = true) := by
    simp [hon, hpower, hperiod, hquiet, hdue, hheld]
  have hopen : ¬ s.msv.segment.quiet = 1 := by omega
  have hcommit : s.commitQuiet = s := State.commitQuiet_of_not_pending hopen
  simp only [exec, execHeartbeat, hcommit, if_neg hsends, if_neg hopen]

theorem execAlertNotify_due (hdue : s.alertDue = true) : exec .alertNotify s = .next
    ({ s with msv.segment.alertSeen := s.maskedSummary, msv.segment.alertSent := some s.now }.segSend (.segAlert s.beatArea)) := by
  have hsends : ¬ ((!s.aonOn) = true ∨ (!s.alertDue) = true ∨ s.msv.segment.quiet = 3) := by simp [hon, hdue, hquiet]
  have hcommit : s.commitQuiet = s := State.commitQuiet_of_not_pending (by omega)
  simp only [exec, execAlertNotify, hcommit, if_neg hsends, if_neg (not_not_intro hquiet)]

/-! ### Quiet -/

theorem execQuietPropose_of_no_quiet {source id delay : Nat} (hsource : fits 48 source = true) (hid : fits 32 id = true)
    (hdelay : fits 32 delay = true) : exec (.quietPropose source id delay) s = .next (s.propose id delay) := by
  simp only [exec, execQuietPropose, hsource, hid, hdelay, hon, State.frameEnds_of_no_quiet hquiet, Bool.and_true, Bool.not_true,
    Bool.false_eq_true, if_false, if_true]

end

theorem State.propose_in_range {id delay : Nat} (hleast : 5000 ≤ delay) (hmost : delay ≤ 1000000) :
    (s.propose id delay).msv.segment.quiet = 1 ∧ (s.propose id delay).msv.segment.quietAt = s.now + delay ∧
      (s.propose id delay).msv.segment.ackWanted = some (id, stOk) := by
  unfold State.propose
  extract_lets u at_ cpx v seg msv
  rw [if_pos ⟨hleast, hmost⟩]
  exact ⟨rfl, rfl, rfl⟩

theorem State.propose_out_of_range {id delay : Nat} (h : delay < 5000 ∨ 1000000 < delay) :
    (s.propose id delay).msv.segment.ackWanted = some (id, stRange) := by
  have hrefused : ¬ (5000 ≤ delay ∧ delay ≤ 1000000) := by omega
  unfold State.propose
  extract_lets
  rw [if_neg hrefused]

theorem execQuietAck_due {id st : Nat} (hon : s.aonOn = true) (hquiet : s.msv.segment.quiet ≤ 1) (hcommit : s.commitQuiet = s)
    (hwanted : s.msv.segment.ackWanted = some (id, st)) (hdue : s.due s.msv.segment.ackAt = true) :
    exec .quietAck s = .next ({ s with msv.segment.ackWanted := none }.segSend (.segQuietAck id st)) := by
  have hsends : ¬ ((!s.aonOn) = true ∨ (!s.due s.msv.segment.ackAt) = true ∨ 2 ≤ s.msv.segment.quiet) := by
    simp only [hon, hdue, Bool.not_true, Bool.false_eq_true, false_or]
    omega
  simp only [exec, execQuietAck, hcommit, hwanted, if_neg hsends]

theorem State.commitQuiet_of_before (hbefore : s.now < s.msv.segment.quietAt) : s.commitQuiet = s :=
  if_neg fun hcommits => Nat.not_lt.mpr hcommits.2 hbefore

section
variable (hpending : s.msv.segment.quiet = 1)
include hpending

theorem State.commitQuiet_commits (hcomes : s.msv.segment.quietAt ≤ s.now) : s.commitQuiet.msv.segment.quiet = 2 ∧
    s.commitQuiet.msv.segment.macOn = false ∧ s.commitQuiet.msv.segment.ackWanted = none := by
  unfold State.commitQuiet
  extract_lets g
  rw [if_pos ⟨hpending, hcomes⟩]
  exact ⟨rfl, rfl, rfl⟩

section
variable (hbefore : s.now < s.msv.segment.quietAt)
include hbefore

theorem execQuietAbandon_other : exec (.quietAbandon false) s =
    .next ({ s with msv.segment.quiet := 0, msv.segment.ackWanted := none }.bump 0xE010 0x0A 1) := by
  simp only [exec, execQuietAbandon, State.commitQuiet_of_before hbefore, if_pos hpending, Bool.false_eq_true, if_false,
    State.abandonQuiet]

theorem execQuietAbandon_own : exec (.quietAbandon true) s = .next s.sendWake := by
  simp only [exec, execQuietAbandon, State.commitQuiet_of_before hbefore, if_pos hpending, if_true]

end
end

theorem execWake_quiet (hquiet : s.msv.segment.quiet = 2) (hon : s.aonOn = true) : exec .wake s =
    .next ({ s with msv.segment.quiet := 3, msv.segment.settleAt := s.now + 2000 }.bump 0xE010 0x0B 1) :=
  congrArg _ ((if_pos hon).trans (if_pos hquiet))

theorem execWakeSettleEnd_settled (hwakes : s.msv.segment.quiet = 3) (hdue : s.due s.msv.segment.settleAt = true) :
    exec .wakeSettleEnd s = .next { s with msv.segment.quiet := 0, msv.segment.macOn := true } :=
  if_pos ⟨hwakes, hdue⟩

/-! ### PLCA -/

theorem execPlcaBeacon_coordinator (hon : s.aonOn = true) (hplca : s.msv.segment.plca = 3) (hquiet : s.msv.segment.quiet ≤ 1) :
    exec .plcaBeacon s = .next (s.emit .segBeacon) :=
  if_pos ⟨hon, hplca, hquiet⟩

theorem execBeaconReceived_follower (hon : s.aonOn = true) (hmac : s.msv.segment.macOn = true)
    (hplca : s.msv.segment.plca = 1 ∨ s.msv.segment.plca = 2) :
    exec .beaconReceived s = .next { s with msv.segment := { s.msv.segment with plca := 2, lastBeacon := s.now } } :=
  if_pos ⟨hon, hmac, hplca⟩

theorem execPlcaBeaconTimeout_silent (hplca : s.msv.segment.plca = 2) (hdue : s.due (s.msv.segment.lastBeacon + 4000) = true) :
    exec .plcaBeaconTimeout s = .next { s with msv.segment.plca := 1 } :=
  if_pos ⟨hplca, hdue⟩

section
variable {u : State} {l : List Nat} (hon : s.aonOn = true) (hplca : s.msv.segment.plca = 2 ∨ s.msv.segment.plca = 3)
  (hu : u = (s.bump 0xE010 0x07 1).bump 0xE010 0x08 1)
  (hl : l = s.now :: s.msv.segment.collisions.filter (fun t => decide (s.now < t + 1000000)))
include hon hplca hu hl

/-- A collision while PLCA is active is counted; the sixteenth within 1 s turns PLCA off (R503). -/
theorem execPlcaCollision_active : exec .plcaCollision s = if l.length < 16 then .next { u with msv.segment.collisions := l }
    else .next ({ u with msv.segment.collisions := [], msv.segment.plca := 4 }.raise 0xE402 (wholeUnit 0xE) s.msv.segment.nodeId 0 0) := by
  have hactive : ¬ (!decide (s.msv.segment.plca = 2 ∨ s.msv.segment.plca = 3)) = true := by simp [hplca]
  subst hu hl
  simp only [exec, execPlcaCollision, hon, Bool.not_true, Bool.false_eq_true, if_false, if_neg hactive]

end
end

/-- Settles O50: a signal by the quiet and its times, PLCA by the node's part in it. -/
theorem segmentSignals : Obligations.SegmentSignals := by
  unfold Obligations.SegmentSignals
  refine ⟨fun s hon hquiet hheld => ⟨execHeartbeat_due hon hquiet hheld, execAlertNotify_due hon hquiet⟩,
    fun source id delay s hsource hid hdelay hon hquiet => ⟨execQuietPropose_of_no_quiet hon hquiet hsource hid hdelay,
      State.propose_in_range, State.propose_out_of_range⟩,
    fun s id st => execQuietAck_due,
    fun s hpending => ⟨fun hcomes => ⟨_, rfl, State.commitQuiet_commits hpending hcomes⟩,
      fun hbefore => ⟨execQuietAbandon_other hpending hbefore, execQuietAbandon_own hpending hbefore⟩⟩,
    fun s => execWake_quiet, fun s => execWakeSettleEnd_settled, fun s => execPlcaBeacon_coordinator,
    fun s => execBeaconReceived_follower, fun s => execPlcaBeaconTimeout_silent, fun s u l hon hplca hu hl => ?_⟩
  rw [execPlcaCollision_active hon hplca hu hl]
  exact ⟨fun hfew => if_pos hfew, fun hmany => if_neg (Nat.not_lt.mpr hmany)⟩

end Sys2Proof.Machine
end

section
/-!
EPOCH_CLOSE, BYTE_SECONDS_SAMPLE, METERING_CHECKPOINT, EPOCH_LENGTH, WALL_TIME and UTC_OFFSET_CHANGE (R527 to R540).
-/
namespace Sys2Proof.Machine

section
variable {s : State}

/-! ### Epochs -/

theorem execEpochClose_reached (hruns : s.metersRun = true) (hreached : s.cqc.epoch.endNs ≤ s.wall.toNat) :
    exec .epochClose s = .next (s.advanceEpoch 0).frameWakes :=
  congrArg _ (if_pos ⟨hreached, hruns⟩)

theorem execEpochClose_before (hbefore : s.wall.toNat < s.cqc.epoch.endNs) : exec .epochClose s = .next s :=
  congrArg _ (if_neg fun hcloses => Nat.not_lt.mpr hcloses.1 hbefore)

/-- The epoch that opens is the one that contains wall time, of the length of the one that closed. -/
theorem State.advanceEpoch_epoch (hreached : s.cqc.epoch.endNs ≤ s.wall.toNat) (flags : Nat) : (s.advanceEpoch flags).cqc.epoch =
    { startNs := Machine.boundary s.cqc.epoch.minutes s.wall.toNat, minutes := s.cqc.epoch.minutes, flags := flags } := by
  unfold State.advanceEpoch
  extract_lets wall e
  rw [if_pos hreached]
  rfl

/-- What a write of another EPOCH_LENGTH leaves before the entry is stored (R533): the old epoch is closed, and one of the new length
is open. -/
def State.relengthEpoch (s : State) (n : Nat) : State :=
  let u := s.closeEpoch 0x10
  u.openEpoch { startNs := Machine.boundary n u.wall.toNat, minutes := n, flags := 0x10 }

theorem execEpochLength_other {r : Requester} {n : Nat} (htakes : s.takesWrite r 0x3200 0 (.num n)) (hother : n ≠ s.cqc.epoch.minutes) :
    exec (.epochLength r (.num n)) s = .next (s.writeAnswered ((s.relengthEpoch n).putNum 0x3200 0 n) r 0x3200 0) :=
  congrArg _ (State.ownWrite_taken htakes (if_neg hother))

/-! ### Samples and checkpoints -/

theorem execByteSecondsSample_due (hdue : s.cqc.sampledAt + 1000 ≤ s.now) : exec .byteSecondsSample s = .next
    { s with cqc.accounts := s.cqc.accounts.map fun a => { a with byteMs := a.byteMs + a.usageBytes },
             cqc.sampledAt := s.cqc.sampledAt + 1000 } :=
  if_pos hdue

theorem execMeteringCheckpoint_due (hdue : s.cqc.checkpointAt + 1000000 ≤ s.now) : exec .meteringCheckpoint s = .next
    { s with cqc.checkpoint := (s.cqc.accounts, s.cqc.epoch), cqc.checkpointAt := s.now } :=
  if_pos hdue

/-! ### Wall time -/

theorem execWallTime_taken {r : Requester} {n : Nat} (htakes : s.takesWrite r 0xD100 0 (.num n)) (hrange : n < 4294967296 * 1000000000) :
    exec (.wallTime r (.num n)) s = .next (s.writeAnswered ((s.stepWall (n - s.wall) 1).putNum 0xD101 0 1) r 0xD100 0) :=
  congrArg _ (State.ownWrite_taken htakes (if_neg (Nat.not_le.mpr hrange)))

theorem execUtcOffsetChange_new {offset : Int} (hfollows : s.dpx.ptp.state = 3) (hnew : s.dpx.ptp.utcOffset ≠ offset) :
    exec (.utcOffsetChange offset) s =
      .next ({ s with dpx.ptp.utcOffset := offset }.stepWall ((s.dpx.ptp.utcOffset - offset) * 1000000000) 3) :=
  if_pos ⟨hfollows, hnew⟩

end

/-- Settles O51: an epoch by its end, a sample and a checkpoint by their times, the writes by their values. -/
theorem meteringAndTimeCommands : Obligations.MeteringAndTimeCommands := by
  unfold Obligations.MeteringAndTimeCommands
  exact ⟨fun s hruns hreached => ⟨execEpochClose_reached hruns hreached, State.advanceEpoch_epoch hreached 0⟩,
    fun s => execEpochClose_before, fun s => execByteSecondsSample_due, fun s => execMeteringCheckpoint_due,
    fun r n s htakes hother => ⟨s.relengthEpoch n, execEpochLength_other htakes hother, rfl⟩, fun r n s => execWallTime_taken,
    fun offset s => execUtcOffsetChange_new⟩

end Sys2Proof.Machine
end

section
/-!
MAIN_POWER_GOOD, STARTUP_STEP_DONE, POWER_LOSS_DETECT, HOLD_ENTRY, AUX_REMOVED and AUX_APPLIED (R546, R552, R553, R565, R567 to R569,
R627, R635).
-/
namespace Sys2Proof.Machine

section
variable {s : State}

/-! ### Main power good -/

section
variable {mv : Nat} (hopen : s.pch.pwrdis = false) (hnew : s.pch.mainGood = false) (hflush : s.pch.flushing = none)
include hopen hnew hflush

/-- Main power good counts where PWRDIS is released, main was not yet good and no flush runs. -/
theorem State.not_mainIgnored : ¬ (s.pch.pwrdis = true ∨ s.pch.mainGood = true ∨ s.pch.flushing.isSome = true) := by
  simp [hopen, hnew, hflush]

theorem execMainPowerGood_startUp (hpower : s.pch.power = .startUp) : exec (.mainPowerGood mv) s = .next
    { ({ s with pch.mainPower := true, pch.mainGood := true }.beginStart 1 1) with pch.bankMv := mv, pch.firewood := .charging } := by
  simp only [exec, execMainPowerGood, if_neg (State.not_mainIgnored hopen hnew hflush), hpower]

theorem execMainPowerGood_off (hpower : s.pch.power = .off) : exec (.mainPowerGood mv) s = .next
    { ({ s with pch.mainPower := true, pch.mainGood := true }.aonStart.beginStart 1 1) with
        pch.bankMv := mv, pch.firewood := .charging } := by
  simp only [exec, execMainPowerGood, if_neg (State.not_mainIgnored hopen hnew hflush), hpower]

theorem execMainPowerGood_hold (hpower : s.pch.power = .hold) : exec (.mainPowerGood mv) s =
    .next ({ s with pch.mainPower := true, pch.mainGood := true }.resumeHold mv) := by
  simp only [exec, execMainPowerGood, if_neg (State.not_mainIgnored hopen hnew hflush), hpower]

end

/-! ### The steps of a start-up -/

section
variable {ms : Nat} (hservice : s.pch.outOfService = false) (hboots : s.pch.bootStopped = false) (hflush : s.pch.flushing = none)
  (hmain : s.pch.mainGood = true)
include hservice hboots hflush hmain

/-- Start-up goes on in a module in service, on good main power, that has neither stopped nor a flush to end. -/
theorem State.not_startUpHalted : ¬ (s.pch.outOfService = true ∨ s.pch.bootStopped = true ∨ s.pch.flushing.isSome = true ∨
    (!s.pch.mainGood) = true) := by
  simp [hservice, hboots, hflush, hmain]

section
variable (hstart : s.pch.power = .startUp)
include hstart

theorem execStartupStepDone_first (hstep : s.pch.step = 1) (hup : s.pch.mrst = false) (hreset : s.pch.resetWanted = false) :
    exec (.startupStepDone ms []) s = .next ({ s with pch.step := 2 }.stepTime 1 ms).powerJsr := by
  have hreleased : ¬ (s.pch.mrst = true ∨ s.pch.resetWanted = true) := by simp [hup, hreset]
  simp only [exec, execStartupStepDone, List.any_nil, Bool.false_eq_true, if_false,
    if_neg (State.not_startUpHalted hservice hboots hflush hmain), hstart, hstep, if_neg hreleased]

theorem execStartupStepDone_second (hstep : s.pch.step = 2) :
    exec (.startupStepDone ms []) s = .next ({ s with pch.step := 3 }.stepTime 2 ms) := by
  simp only [exec, execStartupStepDone, List.any_nil, Bool.false_eq_true, if_false,
    if_neg (State.not_startUpHalted hservice hboots hflush hmain), hstart, hstep]

theorem execStartupStepDone_third {l : List UnitId} {u : State} (hlisted : l.all UnitId.listed = true) (hstep : s.pch.step = 3)
    (hu : u = (((l.foldl (fun (s : State) u => s.powerUpFail u) s).wardensStart).stepTime 3 ms))
    (heligible : u.wdn.wardenA.eligible = true ∨ u.wdn.wardenB.eligible = true) :
    exec (.startupStepDone ms l) s = .next { u with msv.kiln.limitsOk := true, pch.step := 4 }.bootFirmware := by
  have hunits : ¬ (l.any fun u => !u.listed) = true := by
    simpa [List.any_eq_true, List.all_eq_true] using hlisted
  have hserves : ¬ ((!u.wdn.wardenA.eligible) = true ∧ (!u.wdn.wardenB.eligible) = true) := by
    rcases heligible with h | h <;> simp [h]
  subst hu
  simp only [exec, execStartupStepDone, if_neg hunits, if_neg (State.not_startUpHalted hservice hboots hflush hmain), hstart, hstep,
    if_neg hserves]

theorem execStartupStepDone_fourth (hstep : s.pch.step = 4) :
    exec (.startupStepDone ms []) s = .next (({ s with pch.step := 5 }.stepTime 4 ms).unwrapKeys.replay) := by
  simp only [exec, execStartupStepDone, List.any_nil, Bool.false_eq_true, if_false,
    if_neg (State.not_startUpHalted hservice hboots hflush hmain), hstart, hstep]

theorem execStartupStepDone_fifth (hstep : s.pch.step = 5) :
    exec (.startupStepDone ms []) s = .next ({ s with pch.power := .readyWt, pch.step := 6 }.stepTime 5 ms) := by
  simp only [exec, execStartupStepDone, List.any_nil, Bool.false_eq_true, if_false,
    if_neg (State.not_startUpHalted hservice hboots hflush hmain), hstart, hstep]

end

/-- Step 6 ends in Ready once every pinned page is loaded; until then the pages are asked for. -/
theorem execStartupStepDone_sixth (hpower : s.pch.power = .readyWt) (hstep : s.pch.step = 6) (hflushed : s.plc.flushImage = [])
    (htested : s.pch.tested = true) : exec (.startupStepDone ms []) s =
      if s.loadPinned.pinnedLoaded then .next ((s.loadPinned.stepTime 6 ms).preloadAll.enterReady ms) else .next s.loadPinned := by
  have hverified : ¬ ((!s.plc.flushImage.isEmpty) = true ∨ (!s.pch.tested) = true) := by simp [hflushed, htested]
  simp only [exec, execStartupStepDone, List.any_nil, Bool.false_eq_true, if_false,
    if_neg (State.not_startUpHalted hservice hboots hflush hmain), hpower, hstep, if_neg hverified]
  cases s.loadPinned.pinnedLoaded <;> rfl

end

/-! ### Supplies -/

theorem State.mainRemoved_running (cause : Nat) (hruns : s.pch.power = .ready ∨ s.pch.power = .active ∨ s.pch.power = .readyWt) :
    s.mainRemoved cause = if s.holdPending then s.enterHold
      else ({ s with pch.mainPower := false, pch.mainGood := false, pch.resetWanted := false }.startFlush cause) := by
  rcases hruns with h | h | h <;> simp only [State.mainRemoved, h]

theorem execPowerLossDetect_main (hmain : s.pch.mainPower = true) : exec (.powerLossDetect 1) s = .next (s.mainRemoved 1) :=
  if_pos ⟨rfl, hmain⟩

theorem execHoldEntry_pending (hruns : s.pch.power = .ready ∨ s.pch.power = .active ∨ s.pch.power = .readyWt)
    (hpending : s.holdPending = true) : exec .holdEntry s = .next s.enterHold := by
  rcases hruns with h | h | h <;> simp only [exec, execHoldEntry, h, hpending, if_true]

theorem execAuxRemoved_hold (haux : s.pch.aux = true) (hpower : s.pch.power = .hold) :
    exec .auxRemoved s = .next { s with pch.aux := false }.goOff := by
  simp only [exec, execAuxRemoved, haux, hpower, Bool.not_true, Bool.false_eq_true, if_false]

theorem execAuxRemoved_ready (haux : s.pch.aux = true) (hpower : s.pch.power = .ready) :
    exec .auxRemoved s = .next { s with pch.aux := false } := by
  simp only [exec, execAuxRemoved, haux, hpower, Bool.not_true, Bool.false_eq_true, if_false]

theorem execAuxApplied_new (a : Nat) (haux : s.pch.aux = false) : exec (.auxApplied a) s =
    if s.pch.power = .off then .next { s with pch.aux := true, pch.slotAddress := a % 32 }.aonStart
    else .next { s with pch.aux := true } := by
  simp only [exec, execAuxApplied, haux, Bool.false_eq_true, if_false]

end

/-- Settles O52: main power by the power state, a step's end by the step, a supply's loss by the state and a pending Hold. -/
theorem startupAndSupplyCommands : Obligations.StartupAndSupplyCommands := by
  unfold Obligations.StartupAndSupplyCommands
  refine ⟨fun mv s hopen hnew hflush => ⟨execMainPowerGood_startUp hopen hnew hflush, execMainPowerGood_off hopen hnew hflush,
      execMainPowerGood_hold hopen hnew hflush⟩,
    fun ms s hservice hboots hflush hmain => ⟨execStartupStepDone_first hservice hboots hflush hmain,
      execStartupStepDone_second hservice hboots hflush hmain,
      fun l u hlisted hpower hstep hu => execStartupStepDone_third hservice hboots hflush hmain hpower hlisted hstep hu,
      execStartupStepDone_fourth hservice hboots hflush hmain, execStartupStepDone_fifth hservice hboots hflush hmain,
      fun hpower hstep hflushed htested => ?_⟩,
    fun s hmain hruns => ⟨fun hnone => ?_, fun hpending => ⟨?_, execHoldEntry_pending hruns hpending⟩⟩,
    fun s haux => ⟨execAuxRemoved_hold haux, execAuxRemoved_ready haux⟩,
    fun a s haux => ⟨fun hoff => ?_, fun hon => ?_⟩⟩
  · rw [execStartupStepDone_sixth hservice hboots hflush hmain hpower hstep hflushed htested]
    exact ⟨fun hloaded => if_pos hloaded, fun hloads => if_neg (Bool.eq_false_iff.mp hloads)⟩
  · rw [execPowerLossDetect_main hmain, State.mainRemoved_running 1 hruns, hnone, if_neg Bool.false_ne_true]
  · rw [execPowerLossDetect_main hmain, State.mainRemoved_running 1 hruns, if_pos hpending]
  · rw [execAuxApplied_new a haux, if_pos hoff]
  · rw [execAuxApplied_new a haux, if_neg hon]

end Sys2Proof.Machine
end

section
/-!
Steps 7 to 10 of R493, and what LAST_WRITE records of them (R491, R492, R499).
-/
namespace Sys2Proof.Machine

section
variable {eff : WriteEffect} {r : Requester} {i u : Nat} {v : OdVal} {s : State}

/-! ### A write that a lock refuses -/

theorem applyWrite_locked (hlock : writeLock s i u = stAccessLocked) : applyWrite eff r i u v s =
    (((s.bump 0xE010 0x0E 1).raise 0xE401 (wholeUnit 0xE) (odKey i u) (reqCode r) 0).lastWrite r i u stAccessLocked,
      stAccessLocked) := by
  simp only [applyWrite, hlock, if_true, State.lockedWrite]

theorem applyWrite_lockRange (hlock : writeLock s i u = stRange) :
    applyWrite eff r i u v s = (s.lastWrite r i u stRange, stRange) := by
  have hcode : stRange ≠ stAccessLocked ∧ stRange ≠ stOk := by decide
  simp only [applyWrite, hlock, if_neg hcode.1, if_pos hcode.2, State.refuseWrite]

/-! ### A write that no lock refuses -/

section
variable {e : EntryRow} (he : entryAt i u = some e) (hlock : writeLock s i u = stOk)
include he hlock

theorem applyWrite_outOfRange (hrange : e.rangeOk v = false) :
    applyWrite eff r i u v s = (s.lastWrite r i u stRange, stRange) := by
  have hcode : ¬ stOk = stAccessLocked := by decide
  simp only [applyWrite, hlock, if_neg hcode, ne_eq, not_true_eq_false, if_false, he, hrange, Bool.not_false, if_true, State.refuseWrite]

section
variable (hrange : e.rangeOk v = true)
include hrange

theorem applyWrite_applies {x : State} (heffect : eff r i u v s = (x, stOk)) {y : State}
    (hy : y = x.control (wholeUnit 0xE) (entryUnit i)) : applyWrite eff r i u v s =
      (((if e.access = .w1 then { y with msv.written1 := odKey i u :: y.msv.written1 } else y).bump 0xE010 0x0F 1).lastWrite
        r i u stOk, stOk) := by
  have hcode : ¬ stOk = stAccessLocked := by decide
  subst hy
  simp only [applyWrite, hlock, if_neg hcode, ne_eq, not_true_eq_false, if_false, he, hrange, Bool.not_true, Bool.false_eq_true,
    heffect, if_true]

theorem applyWrite_refused {y : State} {st : Nat} (heffect : eff r i u v s = (y, st)) (hok : st ≠ stOk) (hunlocked : st ≠ stAccessLocked)
    (hanswers : st ≠ stParked) : applyWrite eff r i u v s = (y.lastWrite r i u st, st) := by
  have hcode : ¬ stOk = stAccessLocked := by decide
  simp only [applyWrite, hlock, if_neg hcode, ne_eq, not_true_eq_false, if_false, he, hrange, Bool.not_true, Bool.false_eq_true,
    heffect, if_neg hok, if_neg hunlocked, if_neg hanswers, State.refuseWrite]

end
end

/-- LAST_WRITE reads as the record of the write: time, entry, requester and status (R499). -/
theorem State.lastWrite_stored (st : Nat) : (s.lastWrite r i u st).stored 0xF030 0 =
    (OdVal.bytes (natBytes 8 s.now ++ natBytes 2 i ++ natBytes 1 u ++ natBytes 1 (reqCode r) ++ natBytes 1 st)).canon :=
  State.stored_put_same ..

end

/-- Settles O10: the steps of a write in order, each with its record. -/
theorem lastWriteRecord : Obligations.LastWriteRecord := by
  unfold Obligations.LastWriteRecord
  exact ⟨fun eff r i u v s e he => ⟨fun x y hlock hrange heffect hy => applyWrite_applies he hlock hrange heffect hy,
      applyWrite_locked, applyWrite_lockRange, applyWrite_outOfRange he,
      fun y st hlock hrange => applyWrite_refused he hlock hrange⟩,
    fun s w => rfl, fun s r i u st => State.lastWrite_stored st⟩

end Sys2Proof.Machine
end

section
/-!
Two and three writes of one entry in one tick (R486, R487).
-/
namespace Sys2Proof.Machine

/-- No two writes come from the same class of requester. -/
def OneOfEach (l : List DictWrite) : Prop := (l.map fun w => reqRank w.req).Nodup

theorem OneOfEach.eq_of_rank {l : List DictWrite} (hone : OneOfEach l) {v w : DictWrite} (hv : v ∈ l) (hw : w ∈ l)
    (hrank : reqRank v.req = reqRank w.req) : v = w := by
  induction l with
  | nil => exact absurd hv List.not_mem_nil
  | cons x l ih =>
    obtain ⟨hx, htail⟩ := List.nodup_cons.mp hone
    have hother : ∀ a ∈ l, reqRank a.req ≠ reqRank x.req := fun a ha heq => hx (List.mem_map.mpr ⟨a, ha, heq⟩)
    rcases List.mem_cons.mp hv with rfl | hvl <;> rcases List.mem_cons.mp hw with rfl | hwl
    · rfl
    · exact absurd hrank.symm (hother w hwl)
    · exact absurd hrank (hother v hvl)
    · exact ih htail hvl hwl

theorem reqRank_le_two (r : Requester) : reqRank r ≤ 2 := by
  cases r <;> simp [reqRank]

/-! ### What the serialiser takes of writes that all came before the running tick -/

section
variable {l : List DictWrite} {now : Nat} (hbefore : ∀ w ∈ l, w.at_ < now)
include hbefore

theorem firstOf_of_mem (hone : OneOfEach l) {w : DictWrite} (hw : w ∈ l) : firstOf l now (reqRank w.req) = some w := by
  have hfind : (l.find? fun v => reqRank v.req == reqRank w.req) = some w := by
    cases hfound : l.find? fun v => reqRank v.req == reqRank w.req with
    | none => simpa using List.find?_eq_none.mp hfound w hw
    | some v =>
      have hrank : reqRank v.req = reqRank w.req := by simpa using List.find?_some hfound
      rw [hone.eq_of_rank (List.mem_of_find?_eq_some hfound) hw hrank]
  simp [firstOf, hfind, hbefore w hw]

omit hbefore in
theorem firstOf_of_none {rank : Nat} (hnone : ∀ w ∈ l, reqRank w.req ≠ rank) : firstOf l now rank = none := by
  have hfind : (l.find? fun v => reqRank v.req == rank) = none := List.find?_eq_none.mpr fun w hw => by simpa using hnone w hw
  rw [firstOf, hfind, Option.filter_none]

theorem dropFirst_eq_filter (hone : OneOfEach l) (rank : Nat) : dropFirst now rank l = l.filter fun w => reqRank w.req != rank := by
  induction l with
  | nil => rfl
  | cons w t ih =>
    obtain ⟨hnew, hrest⟩ := List.nodup_cons.mp hone
    have hlater : ∀ v ∈ t, v.at_ < now := fun v hv => hbefore v (List.mem_cons_of_mem _ hv)
    by_cases hw : reqRank w.req = rank
    · have hothers : ∀ v ∈ t, (reqRank v.req != rank) = true := fun v hv => by
        simpa [← hw] using fun h : reqRank v.req = reqRank w.req => hnew (List.mem_map.mpr ⟨v, hv, h⟩)
      simp [dropFirst, hw, hbefore w List.mem_cons_self, List.filter_eq_self.mpr hothers]
    · simp [dropFirst, hw, ih hlater hrest]

/-- Of writes of different classes that all came before the tick none waits on. -/
theorem dropFirst_all (hone : OneOfEach l) : [0, 1, 2].foldl (fun l r => dropFirst now r l) l = [] := by
  have hsub (rank : Nat) {m : List DictWrite} (hm : OneOfEach m) : OneOfEach (m.filter fun w => reqRank w.req != rank) :=
    hm.sublist ((List.filter_sublist).map _)
  have hmem (rank : Nat) {m : List DictWrite} (hm : ∀ w ∈ m, w.at_ < now) :
      ∀ w ∈ m.filter fun w => reqRank w.req != rank, w.at_ < now := fun w hw => hm w (List.mem_filter.mp hw).1
  simp only [List.foldl_cons, List.foldl_nil]
  rw [dropFirst_eq_filter hbefore hone, dropFirst_eq_filter (hmem 0 hbefore) (hsub 0 hone),
    dropFirst_eq_filter (hmem 1 (hmem 0 hbefore)) (hsub 1 (hsub 0 hone))]
  refine List.filter_eq_nil_iff.mpr fun w hw => ?_
  have hle := reqRank_le_two w.req
  simp only [List.mem_filter, bne_iff_ne] at hw ⊢
  omega

end

section
variable {s : State}

/-- Writes of different classes that all came before the running tick are run in the order of their classes. -/
theorem State.takeWrites_of_oneOfEach (hbefore : ∀ w ∈ s.msv.serial, w.at_ < s.now) (hone : OneOfEach s.msv.serial) :
    s.takeWrites [0, 1, 2] = { s with msv.serial := [] }.runTick [] ([0, 1, 2].filterMap (firstOf s.msv.serial s.now)) := by
  rw [State.takeWrites, dropFirst_all hbefore hone]

/-! ### The order of a tick and its losers -/

section
variable {x y z : DictWrite} (hxy : reqRank x.req < reqRank y.req) (hkey : odKey x.index x.sub = odKey y.index y.sub)
  (hx : x.at_ < s.now) (hy : y.at_ < s.now)
include hxy hkey hx hy

theorem State.takeWrites_two (hserial : s.msv.serial.Perm [x, y]) :
    s.takeWrites [0, 1, 2] = ({ s with msv.serial := [] }.applyOne x).conflict y := by
  have hone : OneOfEach s.msv.serial := (hserial.map _).nodup_iff.mpr (by simp; omega)
  have hmem : ∀ w ∈ s.msv.serial, w = x ∨ w = y := fun w hw => by simpa using hserial.mem_iff.mp hw
  have hbefore : ∀ w ∈ s.msv.serial, w.at_ < s.now := fun w hw => by rcases hmem w hw with rfl | rfl <;> assumption
  have hfx := firstOf_of_mem hbefore hone (hserial.mem_iff.mpr (by simp : x ∈ [x, y]))
  have hfy := firstOf_of_mem hbefore hone (hserial.mem_iff.mpr (by simp : y ∈ [x, y]))
  have hnone {rank : Nat} (h1 : reqRank x.req ≠ rank) (h2 : reqRank y.req ≠ rank) : firstOf s.msv.serial s.now rank = none :=
    firstOf_of_none fun w hw => by rcases hmem w hw with rfl | rfl <;> assumption
  have htaken : [0, 1, 2].filterMap (firstOf s.msv.serial s.now) = [x, y] := by
    have hle := reqRank_le_two y.req
    have hranks : (reqRank x.req = 0 ∧ reqRank y.req = 1) ∨ (reqRank x.req = 0 ∧ reqRank y.req = 2) ∨
        (reqRank x.req = 1 ∧ reqRank y.req = 2) := by omega
    rcases hranks with ⟨h1, h2⟩ | ⟨h1, h2⟩ | ⟨h1, h2⟩
    · simp [h1 ▸ hfx, h2 ▸ hfy, hnone (rank := 2) (by omega) (by omega)]
    · simp [h1 ▸ hfx, h2 ▸ hfy, hnone (rank := 1) (by omega) (by omega)]
    · simp [h1 ▸ hfx, h2 ▸ hfy, hnone (rank := 0) (by omega) (by omega)]
  rw [State.takeWrites_of_oneOfEach hbefore hone, htaken]
  simp [State.runTick, hkey]

theorem State.takeWrites_three (hyz : reqRank y.req < reqRank z.req) (hkey' : odKey y.index y.sub = odKey z.index z.sub)
    (hz : z.at_ < s.now) (hserial : s.msv.serial.Perm [x, y, z]) :
    s.takeWrites [0, 1, 2] = (({ s with msv.serial := [] }.applyOne x).conflict y).conflict z := by
  have hone : OneOfEach s.msv.serial := (hserial.map _).nodup_iff.mpr (by simp; omega)
  have hmem (w : DictWrite) : w ∈ s.msv.serial ↔ w = x ∨ w = y ∨ w = z := by simpa using hserial.mem_iff (a := w)
  have hbefore : ∀ w ∈ s.msv.serial, w.at_ < s.now := fun w hw => by
    rcases (hmem w).mp hw with rfl | rfl | rfl <;> assumption
  have hle := reqRank_le_two z.req
  have hfx := firstOf_of_mem hbefore hone ((hmem x).mpr (.inl rfl))
  have hfy := firstOf_of_mem hbefore hone ((hmem y).mpr (.inr (.inl rfl)))
  have hfz := firstOf_of_mem hbefore hone ((hmem z).mpr (.inr (.inr rfl)))
  rw [show reqRank x.req = 0 by omega] at hfx
  rw [show reqRank y.req = 1 by omega] at hfy
  rw [show reqRank z.req = 2 by omega] at hfz
  rw [State.takeWrites_of_oneOfEach hbefore hone]
  simp [hfx, hfy, hfz, State.runTick, hkey, hkey']

end

/-- The answer to a write that came in no frame changes no entry. -/
theorem State.answerWrite_stored {w : DictWrite} (hframe : w.frame = none) (st i u : Nat) :
    (s.answerWrite w st).stored i u = s.stored i u := by
  have hod : (s.answerWrite w st).od = s.od := by
    unfold State.answerWrite
    split
    · rfl
    · cases w.task with
      | none => rw [hframe]; rfl
      | some k =>
        dsimp only
        split
        · split <;> rfl
        · rfl
  rw [State.stored, hod, State.stored]

/-- A loser's CONFLICT is counted and recorded, and changes no other entry. -/
theorem State.conflict_stored {w : DictWrite} {i u : Nat} (hframe : w.frame = none) (hu : u < 256) (hcount : ¬ (i = 0xE010 ∧ u = 0x0D))
    (hrecord : ¬ (i = 0xF030 ∧ u = 0)) : (s.conflict w).stored i u = s.stored i u := by
  calc (s.conflict w).stored i u
      = ((s.bump 0xE010 0x0D 1).lastWrite w.req w.index w.sub stConflict).stored i u := State.answerWrite_stored hframe ..
    _ = (s.bump 0xE010 0x0D 1).stored i u := State.stored_put_of_ne (odKey_ne (by decide) hu hrecord)
    _ = s.stored i u := State.stored_bump_of_ne (odKey_ne (by decide) hu hcount)

end

/-- Settles O11: the serialiser takes the writes by class, and runs every one after the first into a conflict. -/
theorem precedenceInATick : Obligations.PrecedenceInATick := by
  unfold Obligations.PrecedenceInATick
  refine ⟨⟨by decide, fun t => Nat.one_lt_two⟩, fun s x y hxy hkey hx hy hserial => State.takeWrites_two hxy hkey hx hy ?_,
    fun s x y z hxy hyz hkey hkey' hx hy hz hserial => State.takeWrites_three hxy hkey hx hy hyz hkey' hz hserial,
    fun s w => rfl, fun s w i u => State.conflict_stored⟩
  rcases hserial with h | h
  · rw [h]
  · rw [h]; exact List.Perm.swap x y []

end Sys2Proof.Machine
end

section
/-!
Where a command stops (R501, R576). A row answers a next state on every branch but one: that of a number that names no unit
of the module, or of a frame that no wire carries. That branch stands in front of all others, so each row is told by its
guard, where it has one, and by the branches behind it, which all answer.
-/
namespace Sys2Proof.Machine

/-- The outcome is a next state. -/
def Answers (o : Host.Outcome State Fault Refusal) : Prop := ∃ t, o = .next t

theorem Answers.next (t : State) : Answers (.next t) := ⟨t, rfl⟩

theorem Answers.ite {c : Prop} [Decidable c] {a b : Host.Outcome State Fault Refusal} (ha : Answers a) (hb : Answers b) :
    Answers (if c then a else b) := by
  split
  · exact ha
  · exact hb

/-- What stops a command whose operands are well-formed where `wf`, and name units of the module where `units`. -/
def StopsBy (wf units : Bool) (o : Host.Outcome State Fault Refusal) : Prop :=
  (wf = true ∧ units = true → Answers o) ∧ (wf = false → ∃ m, o = .refused (.illFormed m)) ∧
    (wf = true → units = false → o = .fault .noSuchUnit)

theorem StopsBy.of_answers {o : Host.Outcome State Fault Refusal} (h : Answers o) : StopsBy true true o :=
  ⟨fun _ => h, nofun, nofun⟩

theorem StopsBy.next (t : State) : StopsBy true true (.next t) := .of_answers (.next t)

/-- A row that begins with the guard on its unit. -/
theorem StopsBy.unit {c : Prop} [Decidable c] {units : Bool} {o : Host.Outcome State Fault Refusal}
    (hc : c ↔ units = false) (h : Answers o) : StopsBy true units (if c then .fault .noSuchUnit else o) := by
  cases units with
  | true => rw [if_neg (by simp [hc])]; exact .of_answers h
  | false => rw [if_pos (hc.2 rfl)]; exact ⟨nofun, nofun, fun _ _ => rfl⟩

/-- A row that begins with the guard on its frame. -/
theorem StopsBy.form {wf : Bool} {m : String} {o : Host.Outcome State Fault Refusal} (h : Answers o) :
    StopsBy wf true (if !wf then .refused (.illFormed m) else o) := by
  cases wf with
  | true => exact .of_answers h
  | false => exact ⟨nofun, fun _ => ⟨m, rfl⟩, nofun⟩

/-! ## The rules of the ASU -/

theorem execRuleUpdateWrite_answers (s) : Answers (execRuleUpdateWrite s) := by
  unfold execRuleUpdateWrite
  dsimp only
  repeat' split
  all_goals exact .next _

theorem execRuleScrub_answers (position s) : Answers (execRuleScrub position s) := by
  unfold execRuleScrub
  repeat' split
  all_goals exact .next _

theorem execPredImageWrite_stops (slot r v s) : StopsBy true (decide (slot < 256)) (execPredImageWrite slot r v s) :=
  .unit (by simp) (.next _)

/-! ## Metering and wall time -/

theorem execByteSecondsSample_answers (s) : Answers (execByteSecondsSample s) := .ite (.next _) (.next _)

theorem execMeteringCheckpoint_answers (s) : Answers (execMeteringCheckpoint s) := .ite (.next _) (.next _)

theorem execUtcOffsetChange_answers (offset s) : Answers (execUtcOffsetChange offset s) := .ite (.next _) (.next _)

/-! ## The data ports -/

theorem execFrameReceive_stops (p f s) : StopsBy f.ok true (execFrameReceive p f s) := .form (.ite (.next _) (.next _))

theorem execPfcFrameRx_answers (p s) : Answers (execPfcFrameRx p s) := by
  unfold execPfcFrameRx
  split <;> exact .next _

theorem execPfcRefresh_stops (p q s) : StopsBy true (decide (q < 8)) (execPfcRefresh p q s) :=
  .unit (by simp) (.ite (.next _) (.next _))

theorem execPauseExpiry_stops (p q s) : StopsBy true (decide (q < 8)) (execPauseExpiry p q s) :=
  .unit (by simp) (.ite (.next _) (.next _))

theorem execPauseWatchdog_stops (p q s) : StopsBy true (decide (q < 8)) (execPauseWatchdog p q s) :=
  .unit (by simp) (.ite (.next _) (.next _))

theorem execPauseHonourResume_stops (p q s) : StopsBy true (decide (q < 8)) (execPauseHonourResume p q s) :=
  .unit (by simp) (.ite (.next _) (.next _))

theorem execLinkUp_answers (p partner s) : Answers (execLinkUp p partner s) := .ite (.next _) (.next _)

theorem execTrainingFailure_stops (p mode s) : StopsBy true (decide (mode < 3)) (execTrainingFailure p mode s) :=
  .unit (by simp) (.ite (.next _) <| .ite (.next _) (.next _))

theorem execLinkPartnerDetect_answers (p s) : Answers (execLinkPartnerDetect p s) := .ite (.next _) (.next _)

theorem execLpiEntry_answers (p s) : Answers (execLpiEntry p s) := .ite (.next _) (.next _)

theorem execLpiExit_answers (p s) : Answers (execLpiExit p s) := .ite (.next _) (.next _)

theorem execLpiRxEntry_answers (p s) : Answers (execLpiRxEntry p s) := .ite (.next _) (.next _)

theorem execLldpRx_answers (p s) : Answers (execLldpRx p s) := by
  unfold execLldpRx
  repeat' split
  all_goals exact .next _

theorem execLldpTimer_answers (p s) : Answers (execLldpTimer p s) := .ite (.next _) (.next _)

theorem execPtpMessageRx_answers (p s) : Answers (execPtpMessageRx p s) := by
  unfold execPtpMessageRx
  repeat' split
  all_goals exact .next _

theorem execDelayReqDue_answers (s) : Answers (execDelayReqDue s) := by
  unfold execDelayReqDue
  repeat' split
  all_goals exact .next _

theorem execPtpAnnounceTimeout_answers (s) : Answers (execPtpAnnounceTimeout s) := .ite (.next _) (.next _)

theorem execCaptureFreezeExpiry_answers (p s) : Answers (execCaptureFreezeExpiry p s) := .ite (.next _) (.next _)

theorem execFrameTransmit_answers (p s) : Answers (execFrameTransmit p s) := by
  unfold execFrameTransmit
  dsimp only
  repeat' split
  all_goals exact .next _

/-! ## Fragments and sessions -/

theorem execFragmentRx_answers (p s) : Answers (execFragmentRx p s) := by
  unfold execFragmentRx
  repeat' split
  all_goals exact .next _

theorem execAckOnly_answers (p s) : Answers (execAckOnly p s) := by
  unfold execAckOnly
  repeat' split
  all_goals exact .next _

theorem execAckDue_answers (session s) : Answers (execAckDue session s) := by
  unfold execAckDue
  repeat' split
  all_goals exact .next _

theorem execFragmentSend_answers (session s) : Answers (execFragmentSend session s) := by
  unfold execFragmentSend
  repeat' split
  all_goals exact .next _

theorem execRtoExpiry_answers (session s) : Answers (execRtoExpiry session s) := by
  unfold execRtoExpiry
  repeat' split
  all_goals exact .next _

theorem execSessionIdleExpiry_answers (session s) : Answers (execSessionIdleExpiry session s) := by
  unfold execSessionIdleExpiry
  repeat' split
  all_goals exact .next _

theorem execHalfOpenExpiry_answers (session s) : Answers (execHalfOpenExpiry session s) := by
  unfold execHalfOpenExpiry
  repeat' split
  all_goals exact .next _

theorem execGateSwitch_answers (p s) : Answers (execGateSwitch p s) := by
  unfold execGateSwitch
  repeat' split
  all_goals exact .next _

/-! ## The index -/

theorem execCamBankWidth_stops (bank r v s) : StopsBy true (decide (bank < 32)) (execCamBankWidth bank r v s) :=
  .unit (by simp) (.next _)

theorem execDirectorySplit_answers (s) : Answers (execDirectorySplit s) := by
  unfold execDirectorySplit
  dsimp only
  repeat' split
  all_goals exact .next _

theorem execPageJoin_answers (page neighbour s) : Answers (execPageJoin page neighbour s) := by
  unfold execPageJoin
  dsimp only
  repeat' split
  all_goals exact .next _

/-! ## The command queue -/

theorem execAdmission_answers (s) : Answers (execAdmission s) := .ite (.next _) <| .ite (.next _) (.next _)

theorem execCommandStart_answers (s) : Answers (execCommandStart s) := by
  unfold execCommandStart
  dsimp only
  repeat' split
  all_goals exact .next _

theorem execKeyLockJoin_answers (task s) : Answers (execKeyLockJoin task s) := by
  unfold execKeyLockJoin
  repeat' split
  all_goals exact .next _

theorem execKeyChainHead_answers (task s) : Answers (execKeyChainHead task s) := by
  unfold execKeyChainHead
  repeat' split
  all_goals exact .next _

theorem execPostCompletion_answers (task s) : Answers (execPostCompletion task s) := by
  unfold execPostCompletion
  repeat' split
  all_goals exact .next _

theorem execFlushComplete_answers (task s) : Answers (execFlushComplete task s) := by
  unfold execFlushComplete
  repeat' split
  all_goals exact .next _

theorem execHoldPendingExpiry_answers (s) : Answers (execHoldPendingExpiry s) := by
  unfold execHoldPendingExpiry
  repeat' split
  all_goals exact .next _

/-! ## Commands on keys -/

theorem execGet_answers (task s) : Answers (execGet task s) := by
  unfold execGet
  dsimp only
  repeat' split
  all_goals exact .next _

theorem execHead_answers (task s) : Answers (execHead task s) := by
  unfold execHead
  repeat' split
  all_goals exact .next _

theorem execLock_answers (task s) : Answers (execLock task s) := by
  unfold execLock
  repeat' split
  all_goals exact .next _

theorem execUnlock_answers (task s) : Answers (execUnlock task s) := by
  unfold execUnlock
  dsimp only
  repeat' split
  all_goals exact .next _

theorem execFlush_answers (task s) : Answers (execFlush task s) := by
  unfold execFlush
  split <;> exact .next _

/-! ## Commit and completion -/

theorem execCommit_answers (task s) : Answers (execCommit task s) := by
  unfold execCommit
  dsimp only
  repeat' split
  all_goals exact .next _

theorem execPageInComplete_answers (page readable s) : Answers (execPageInComplete page readable s) := by
  unfold execPageInComplete
  repeat' split
  all_goals exact .next _

theorem execIndexPageRebuild_answers (page s) : Answers (execIndexPageRebuild page s) := by
  unfold execIndexPageRebuild
  dsimp only
  repeat' split
  all_goals exact .next _

/-! ## Scans and their engines -/

theorem execScan_answers (task s) : Answers (execScan task s) := by
  unfold execScan
  repeat' split
  all_goals exact .next _

theorem execScanStep_answers (task s) : Answers (execScanStep task s) := by
  unfold execScanStep
  dsimp only
  repeat' split
  all_goals exact .next _

theorem execImageMemoryError_stops (engine address s) :
    StopsBy true (decide (engine < 8))
      (execImageMemoryError engine address s) := .unit (by simp) (.ite (.next _) (.next _))

/-! ## Keys, random numbers and the pipelines -/

theorem execKeyPageWrite_stops (page sub r v s) :
    StopsBy true (decide (page < 1024 ∧ 1 ≤ sub ∧ sub ≤ 3)) (execKeyPageWrite page sub r v s) :=
  .unit (by simp; omega) (.next _)

theorem execRngHealthFail_stops (source test s) :
    StopsBy true (decide (source < 2 ∧ 1 ≤ test ∧ test ≤ 2)) (execRngHealthFail source test s) :=
  .unit (by simp; omega) (.next _)

theorem execRngStartupTestDone_answers (s) : Answers (execRngStartupTestDone s) := .ite (.next _) (.next _)

theorem execRngReseed_answers (s) : Answers (execRngReseed s) := .ite (.next _) (.next _)

theorem execPipelineParity_stops (pipeline stage mismatchPage s) :
    StopsBy true (decide (pipeline < 16 ∧ stage < 16)) (execPipelineParity pipeline stage mismatchPage s) :=
  .unit (by simp; omega) (.ite (.next _) (.next _))

theorem execPipelineRebind_stops (pipeline page s) :
    StopsBy true (decide (pipeline < 16 ∧ page ≤ 1024)) (execPipelineRebind pipeline page s) :=
  .unit (by simp; omega) (.ite (.next _) (.next _))

theorem execPkJobStart_answers (s) : Answers (execPkJobStart s) := by
  unfold execPkJobStart
  dsimp only
  repeat' split
  all_goals exact .next _

theorem execAttest_answers (task s) : Answers (execAttest task s) := by
  unfold execAttest
  repeat' split
  all_goals exact .next _

theorem execPkJobComplete_stops (ladder s) : StopsBy true (decide (ladder < 4)) (execPkJobComplete ladder s) := by
  refine .unit (by simp) ?_
  repeat' split
  all_goals exact .next _

/-! ## Sessions opened and closed -/

theorem execSessionOpen_answers (s) : Answers (execSessionOpen s) := by
  unfold execSessionOpen
  repeat' split
  all_goals exact .next _

theorem execSessionConfirm_answers (s) : Answers (execSessionConfirm s) := by
  unfold execSessionConfirm
  dsimp only
  repeat' split
  all_goals exact .next _

theorem execSessionClose_answers (task s) : Answers (execSessionClose task s) := by
  unfold execSessionClose
  split <;> exact .next _

/-! ## Stripes and their placement -/

theorem execStripeDrain_answers (stripe s) : Answers (execStripeDrain stripe s) := by
  unfold execStripeDrain
  dsimp only
  repeat' split
  all_goals exact .next _

theorem execShardProgramDone_answers (stripe shard s) : Answers (execShardProgramDone stripe shard s) := by
  unfold execShardProgramDone
  repeat' split
  all_goals exact .next _

theorem execProgramReplacement_answers (stripe shard s) : Answers (execProgramReplacement stripe shard s) := by
  unfold execProgramReplacement
  dsimp only
  repeat' split
  all_goals exact .next _

theorem execPackSealTimeout_answers (stripe s) : Answers (execPackSealTimeout stripe s) := by
  unfold execPackSealTimeout
  dsimp only
  repeat' split
  all_goals exact .next _

theorem execGcStep_stops (tile channel die block s) :
    StopsBy true (decide (tile < 64) && dieExists channel die && decide (block < parityBlock))
      (execGcStep tile channel die block s) :=
  .unit (by grind) (.ite (.next _) (.next _))

theorem execRepack_answers (tenant key s) : Answers (execRepack tenant key s) := by
  unfold execRepack
  repeat' split
  all_goals exact .next _

theorem execJournalTrim_answers (s) : Answers (execJournalTrim s) := by
  unfold execJournalTrim
  dsimp only
  repeat' split
  all_goals exact .next _

theorem execRebuildStripe_answers (stripe s) : Answers (execRebuildStripe stripe s) := by
  unfold execRebuildStripe
  dsimp only
  repeat' split
  all_goals exact .next _

theorem execReserveRefill_answers (bytes s) : Answers (execReserveRefill bytes s) := .ite (.next _) (.next _)

theorem execLongOpStep_answers (work s) : Answers (execLongOpStep work s) := by
  unfold execLongOpStep
  repeat' split
  all_goals exact .next _

theorem execFlushVerify_answers (stripe unreadable s) : Answers (execFlushVerify stripe unreadable s) := by
  unfold execFlushVerify
  repeat' split
  all_goals exact .next _

/-! ## The tiles -/

theorem execDieOpStart_stops (tile channel die s) :
    StopsBy true (unitsExist tile channel die) (execDieOpStart tile channel die s) := by
  refine .unit (by simp) ?_
  dsimp only
  repeat' split
  all_goals exact .next _

theorem execReadDone_stops (tile channel die outcome s) :
    StopsBy true (unitsExist tile channel die) (execReadDone tile channel die outcome s) := by
  refine .unit (by simp) ?_
  dsimp only
  repeat' split
  all_goals exact .next _

theorem execProgramDone_stops (tile channel die s) :
    StopsBy true (unitsExist tile channel die) (execProgramDone tile channel die s) := by
  refine .unit (by simp) ?_
  dsimp only
  repeat' split
  all_goals exact .next _

theorem execProgramFailed_stops (tile channel die s) :
    StopsBy true (unitsExist tile channel die) (execProgramFailed tile channel die s) := by
  refine .unit (by simp) ?_
  dsimp only
  repeat' split
  all_goals exact .next _

theorem execEraseDone_stops (tile channel die passed s) :
    StopsBy true (unitsExist tile channel die) (execEraseDone tile channel die passed s) := by
  refine .unit (by simp) ?_
  dsimp only
  repeat' split
  all_goals exact .next _

theorem execRowVerify_stops (tile channel die block row outcome s) :
    StopsBy true (unitsExist tile channel die && decide (block < parityBlock))
      (execRowVerify tile channel die block row outcome s) := by
  refine .unit (by grind) ?_
  dsimp only
  repeat' split
  all_goals exact .next _

theorem execRewrite_stops (tile channel die block s) :
    StopsBy true (unitsExist tile channel die && decide (block < parityBlock)) (execRewrite tile channel die block s) :=
  .unit (by grind) (.ite (.next _) (.next _))

theorem execDieTempSample_stops (tile channel die celsius sensor s) :
    StopsBy true (unitsExist tile channel die) (execDieTempSample tile channel die celsius sensor s) :=
  .unit (by simp) (.ite (.next _) (.next _))

theorem execTileEmberIdle_stops (tile s) : StopsBy true (decide (tile < 64)) (execTileEmberIdle tile s) :=
  .unit (by simp) (.ite (.next _) (.next _))

theorem execTilePeatIdle_stops (tile s) : StopsBy true (decide (tile < 64)) (execTilePeatIdle tile s) :=
  .unit (by simp) (.ite (.next _) <| .ite (.next _) <| .ite (.next _) (.next _))

theorem execTileWake_stops (tile s) : StopsBy true (decide (tile < 64)) (execTileWake tile s) :=
  .unit (by simp) (.ite (.next _) (.next _))

theorem execTileFault_stops (u kind s) : StopsBy true (faultTiles u kind).isSome (execTileFault u kind s) := by
  unfold execTileFault
  cases faultTiles u kind with
  | none => exact ⟨nofun, nofun, fun _ _ => rfl⟩
  | some l => exact .of_answers (.ite (.next _) (.next _))

/-! ## Administrative commands -/

theorem execQueueReset_answers (task s) : Answers (execQueueReset task s) := by
  unfold execQueueReset
  split <;> exact .next _

theorem execFormat_answers (task s) : Answers (execFormat task s) := by
  unfold execFormat
  dsimp only
  repeat' split
  all_goals exact .next _

theorem execQuery_answers (task s) : Answers (execQuery task s) := by
  unfold execQuery
  split <;> exact .next _

theorem execStayReady_answers (task s) : Answers (execStayReady task s) := by
  unfold execStayReady
  split <;> exact .next _

theorem execAuto_answers (task s) : Answers (execAuto task s) := by
  unfold execAuto
  split <;> exact .next _

theorem execDozeNow_answers (task s) : Answers (execDozeNow task s) := by
  unfold execDozeNow
  split <;> exact .next _

theorem execPrepareHold_answers (task s) : Answers (execPrepareHold task s) := by
  unfold execPrepareHold
  repeat' split
  all_goals exact .next _

/-! ## The slot table -/

theorem execSlotFill_answers (s) : Answers (execSlotFill s) := .ite (.next _) (.next _)

theorem execSlotTableGenerate_answers (s) : Answers (execSlotTableGenerate s) := .ite (.next _) (.next _)

theorem execTableSwap_answers (s) : Answers (execTableSwap s) := .ite (.next _) (.next _)

theorem execEndpointMaskChange_answers (s) : Answers (execEndpointMaskChange s) := .ite (.next _) (.next _)

theorem execThrottleChange_answers (s) : Answers (execThrottleChange s) := .ite (.next _) (.next _)

/-! ## The Wardens -/

theorem execLeaseRenewal_answers (w s) : Answers (execLeaseRenewal w s) :=
  .ite (.next _) <| .ite (.next _) <| .ite (.next _) (.next _)

theorem execPairMismatch_answers (w s) : Answers (execPairMismatch w s) := .ite (.next _) <| .ite (.next _) (.next _)

theorem execLeaseDrop_answers (w s) : Answers (execLeaseDrop w s) := by
  unfold execLeaseDrop
  repeat' split
  all_goals exact .next _

theorem execLeaseExpiry_answers (s) : Answers (execLeaseExpiry s) := by
  unfold execLeaseExpiry
  repeat' split
  all_goals exact .next _

theorem execLeaseGrant_answers (s) : Answers (execLeaseGrant s) := by
  unfold execLeaseGrant
  dsimp only
  repeat' split
  all_goals exact .next _

theorem execGatedOutput_answers (w seq s) : Answers (execGatedOutput w seq s) := .ite (.next _) (.next _)

theorem execDeliveryNote_answers (seq digest own s) : Answers (execDeliveryNote seq digest own s) := by
  unfold execDeliveryNote
  dsimp only
  repeat' split
  all_goals exact .next _

theorem execStandbyLeavesStep_answers (s) : Answers (execStandbyLeavesStep s) := by
  unfold execStandbyLeavesStep
  repeat' split
  all_goals exact .next _

theorem execResyncStart_answers (w s) : Answers (execResyncStart w s) := .ite (.next _) (.next _)

theorem execResyncComplete_answers (s) : Answers (execResyncComplete s) := by
  unfold execResyncComplete
  repeat' split
  all_goals exact .next _

theorem execResyncAbandoned_answers (bytesLeft s) : Answers (execResyncAbandoned bytesLeft s) := by
  unfold execResyncAbandoned
  repeat' split
  all_goals exact .next _

theorem execWardenRestartDone_answers (w s) : Answers (execWardenRestartDone w s) := .ite (.next _) (.next _)

theorem execAonClockStop_answers (s) : Answers (execAonClockStop s) := by
  unfold execAonClockStop
  dsimp only
  repeat' split
  all_goals exact .next _

theorem execAonClockRestore_answers (stopUs s) : Answers (execAonClockRestore stopUs s) := .ite (.next _) (.next _)

theorem execUnitIsolate_stops (u kind s) : StopsBy true u.replicated (execUnitIsolate u kind s) :=
  .unit (by simp) (.ite (.next _) <| .ite (.next _) <| .ite (.next _) (.next _))

/-! ## The recorder -/

theorem execEventWrite_answers (s) : Answers (execEventWrite s) := by
  unfold execEventWrite
  repeat' split
  all_goals exact .next _

theorem execFreezeExpiry_answers (s) : Answers (execFreezeExpiry s) := by
  unfold execFreezeExpiry
  repeat' split
  all_goals exact .next _

/-! ## Firmware -/

theorem execFwStagingExpiry_answers (s) : Answers (execFwStagingExpiry s) := by
  unfold execFwStagingExpiry
  repeat' split
  all_goals exact .next _

theorem execFwActivate_answers (r v s) : Answers (execFwActivate r v s) := .ite (.next _) (.next _)

theorem execFwAbandon_answers (r v s) : Answers (execFwAbandon r v s) := .ite (.next _) (.next _)

theorem execFwFloor_stops (element r v s) :
    StopsBy true (decide (1 ≤ element ∧ element ≤ 32)) (execFwFloor element r v s) := .unit (by simp; omega) (.next _)

/-! ## Supplies, start-up and resets -/

theorem execStartupStepDone_stops (ms failed s) :
    StopsBy true (failed.all UnitId.listed) (execStartupStepDone ms failed s) := by
  refine .unit (by simp) ?_
  dsimp only
  repeat' split
  all_goals exact .next _

theorem execFlushEnd_answers (bankMv energyMj mapRootWritten s) :
    Answers (execFlushEnd bankMv energyMj mapRootWritten s) := by
  unfold execFlushEnd
  dsimp only
  repeat' split
  all_goals exact .next _

theorem execPowerLossDetect_answers (cause s) : Answers (execPowerLossDetect cause s) :=
  .ite (.next _) <| .ite (.next _) (.next _)

theorem execHoldEntry_answers (s) : Answers (execHoldEntry s) := by
  unfold execHoldEntry
  repeat' split
  all_goals exact .next _

theorem execAuxRemoved_answers (s) : Answers (execAuxRemoved s) := by
  unfold execAuxRemoved
  repeat' split
  all_goals exact .next _

theorem execAuxApplied_answers (slotAddress s) : Answers (execAuxApplied slotAddress s) :=
  .ite (.next _) <| .ite (.next _) (.next _)

theorem execMainPowerGood_answers (bankMv s) : Answers (execMainPowerGood bankMv s) := by
  unfold execMainPowerGood
  repeat' split
  all_goals exact .next _

theorem execMrstNAssert_answers (heldUs s) : Answers (execMrstNAssert heldUs s) :=
  .ite (.next _) <| .ite (.next _) <| .ite (.ite (.next _) (.next _)) (.next _)

theorem execMrstNRelease_answers (s) : Answers (execMrstNRelease s) := .ite (.next _) (.next _)

theorem execPwrdisAssert_answers (s) : Answers (execPwrdisAssert s) := .ite (.next _) <| .ite (.next _) (.next _)

theorem execDrainPhaseAdvance_answers (s) : Answers (execDrainPhaseAdvance s) := by
  unfold execDrainPhaseAdvance
  dsimp only
  repeat' split
  all_goals exact .next _

theorem execDrainLimitExpiry_answers (s) : Answers (execDrainLimitExpiry s) := by
  unfold execDrainLimitExpiry
  repeat' split
  all_goals exact .next _

theorem execDozeEntry_answers (s) : Answers (execDozeEntry s) := .ite (.next _) <| .ite (.next _) (.next _)

theorem execDeviceTimeCheckpoint_answers (s) : Answers (execDeviceTimeCheckpoint s) := .ite (.next _) (.next _)

theorem execAonTrim_answers (ppm s) : Answers (execAonTrim ppm s) := .ite (.next _) (.next _)

/-! ## The hold-up bank -/

theorem execFirewoodTestDue_answers (s) : Answers (execFirewoodTestDue s) := .ite (.next _) <| .ite (.next _) (.next _)

theorem execFirewoodDischargeStart_answers (s) : Answers (execFirewoodDischargeStart s) := by
  unfold execFirewoodDischargeStart
  repeat' split
  all_goals exact .next _

theorem execFirewoodTestEnd_answers (dischargeUs esrMilliohm bankMv s) :
    Answers (execFirewoodTestEnd dischargeUs esrMilliohm bankMv s) :=
  .ite (.next _) (.next _)

theorem execChargeComplete_answers (chargeMs s) : Answers (execChargeComplete chargeMs s) :=
  .ite (.next _) <| .ite (.next _) (.next _)

/-! ## Kiln tests -/

theorem execKilnTargetedStart_stops (u s) : StopsBy true u.replicated (execKilnTargetedStart u s) :=
  .unit (by simp) (.ite (.next _) <| .ite (.next _) (.next _))

theorem execKilnLimitsMet_answers (mv celsius ppm s) : Answers (execKilnLimitsMet mv celsius ppm s) :=
  .ite (.next _) (.next _)

theorem execKilnLimitsLost_answers (limit measured s) : Answers (execKilnLimitsLost limit measured s) := by
  unfold execKilnLimitsLost
  dsimp only
  repeat' split
  all_goals exact .next _

theorem execKilnTestEnd_answers (result failures address failBit durationUs s) :
    Answers (execKilnTestEnd result failures address failBit durationUs s) := by
  unfold execKilnTestEnd
  repeat' split
  all_goals exact .next _

/-! ## The trace unit -/

theorem execTraceEntry_answers (kind source task data s) : Answers (execTraceEntry kind source task data s) := by
  unfold execTraceEntry
  split <;> exact .next _

theorem execCaptureReadout_answers (s) : Answers (execCaptureReadout s) := .ite (.next _) <| .ite (.next _) (.next _)

theorem execTraceRearm_answers (s) : Answers (execTraceRearm s) := .ite (.next _) (.next _)

/-! ## The dictionary -/

theorem execDictTick_answers (s) : Answers (execDictTick s) := by
  unfold execDictTick
  split <;> exact .next _

theorem execOdRead_answers (task s) : Answers (execOdRead task s) := by
  unfold execOdRead
  dsimp only
  repeat' split
  all_goals exact .next _

theorem execOdWrite_answers (task s) : Answers (execOdWrite task s) := by
  unfold execOdWrite
  dsimp only
  repeat' split
  all_goals exact .next _

/-! ## The management segment -/

theorem execRead_stops (f s) : StopsBy (f.ok && f.op == 1) true (execRead f s) := .form (.next _)

theorem execWrite_stops (f s) : StopsBy (f.ok && f.op == 2) true (execWrite f s) := .form (.next _)

theorem execHeartbeat_answers (s) : Answers (execHeartbeat s) := .ite (.next _) <| .ite (.next _) (.next _)

theorem execAlertNotify_answers (s) : Answers (execAlertNotify s) := .ite (.next _) <| .ite (.next _) (.next _)

theorem execQuietPropose_stops (source quietId delay s) :
    StopsBy (fits 48 source && fits 32 quietId && fits 32 delay) true (execQuietPropose source quietId delay s) :=
  .form (.ite (.next _) (.next _))

theorem execQuietAck_answers (s) : Answers (execQuietAck s) := by
  unfold execQuietAck
  dsimp only
  repeat' split
  all_goals exact .next _

theorem execWakeSettleEnd_answers (s) : Answers (execWakeSettleEnd s) := .ite (.next _) (.next _)

theorem execPlcaBeacon_answers (s) : Answers (execPlcaBeacon s) := .ite (.next _) (.next _)

theorem execBeaconReceived_answers (s) : Answers (execBeaconReceived s) := .ite (.next _) (.next _)

theorem execPlcaBeaconTimeout_answers (s) : Answers (execPlcaBeaconTimeout s) := .ite (.next _) (.next _)

theorem execPlcaCollision_answers (s) : Answers (execPlcaCollision s) :=
  .ite (.next _) <| .ite (.next _) <| .ite (.next _) (.next _)

theorem execSegmentOtherFrame_stops (f accepted s) : StopsBy f.ok true (execSegmentOtherFrame f accepted s) := by
  refine .form ?_
  repeat' split
  all_goals exact .next _

/-! ## The service port -/

theorem execPrivateWrite_answers (bytes s) : Answers (execPrivateWrite bytes s) := by
  unfold execPrivateWrite
  repeat' split
  all_goals exact .next _

theorem execPrivateRead_answers (s) : Answers (execPrivateRead s) := by
  unfold execPrivateRead
  repeat' split
  all_goals exact .next _

theorem execResponseExpiry_answers (s) : Answers (execResponseExpiry s) := by
  unfold execResponseExpiry
  repeat' split
  all_goals exact .next _

theorem execEntdaa_answers (address s) : Answers (execEntdaa address s) := .ite (.next _) (.next _)

theorem execSetdasa_answers (static address s) : Answers (execSetdasa static address s) := .ite (.next _) (.next _)

theorem execRstdaa_answers (s) : Answers (execRstdaa s) := .ite (.next _) (.next _)

theorem execEnec_answers (mask s) : Answers (execEnec mask s) := .ite (.next _) (.next _)

theorem execDisec_answers (mask s) : Answers (execDisec mask s) := .ite (.next _) (.next _)

theorem execSetmwl_answers (n s) : Answers (execSetmwl n s) := .ite (.next _) (.next _)

theorem execSetmrl_answers (n s) : Answers (execSetmrl n s) := .ite (.next _) (.next _)

theorem execUnlistedCommonCommand_answers (code s) :
    Answers (execUnlistedCommonCommand code s) := .ite (.next _) (.next _)

/-! ## Every row -/

/-- The dispatch, arm by arm: what stops the row of a command is that it is ill-formed, or names no unit. -/
theorem exec_stopsBy (c : Instr) (s : State) : StopsBy c.wellFormed c.namesUnits (exec c s) := by
  cases c with
  | frameReceive p f => exact execFrameReceive_stops _ _ _
  | pfcFrameRx p => exact .of_answers (execPfcFrameRx_answers _ _)
  | pfcRefresh p q => exact execPfcRefresh_stops _ _ _
  | pauseExpiry p q => exact execPauseExpiry_stops _ _ _
  | pauseWatchdog p q => exact execPauseWatchdog_stops _ _ _
  | pauseHonourResume p q => exact execPauseHonourResume_stops _ _ _
  | linkUp p partner => exact .of_answers (execLinkUp_answers _ _ _)
  | linkDown p => exact .next _
  | trainingFailure p mode => exact execTrainingFailure_stops _ _ _
  | linkPartnerDetect p => exact .of_answers (execLinkPartnerDetect_answers _ _)
  | lpiEntry p => exact .of_answers (execLpiEntry_answers _ _)
  | lpiExit p => exact .of_answers (execLpiExit_answers _ _)
  | lldpRx p => exact .of_answers (execLldpRx_answers _ _)
  | lldpTimer p => exact .of_answers (execLldpTimer_answers _ _)
  | ptpMessageRx p => exact .of_answers (execPtpMessageRx_answers _ _)
  | delayReqDue => exact .of_answers (execDelayReqDue_answers _)
  | ptpAnnounceTimeout => exact .of_answers (execPtpAnnounceTimeout_answers _)
  | utcOffsetChange offset => exact .of_answers (execUtcOffsetChange_answers _ _)
  | gateCommit p r v => exact .next _
  | gateSwitch p => exact .of_answers (execGateSwitch_answers _ _)
  | captureFreezeExpiry p => exact .of_answers (execCaptureFreezeExpiry_answers _ _)
  | fragmentRx p => exact .of_answers (execFragmentRx_answers _ _)
  | ackOnly p => exact .of_answers (execAckOnly_answers _ _)
  | ackDue session => exact .of_answers (execAckDue_answers _ _)
  | rtoExpiry session => exact .of_answers (execRtoExpiry_answers _ _)
  | sessionIdleExpiry session => exact .of_answers (execSessionIdleExpiry_answers _ _)
  | halfOpenExpiry session => exact .of_answers (execHalfOpenExpiry_answers _ _)
  | epochGraceExpiry session => exact .next _
  | fragmentSend session => exact .of_answers (execFragmentSend_answers _ _)
  | replayEntryExpiry session reqId => exact .next _
  | sessionIdRelease session => exact .next _
  | sessionOpen => exact .of_answers (execSessionOpen_answers _)
  | sessionConfirm => exact .of_answers (execSessionConfirm_answers _)
  | sessionClose task => exact .of_answers (execSessionClose_answers _ _)
  | get task => exact .of_answers (execGet_answers _ _)
  | head task => exact .of_answers (execHead_answers _ _)
  | put task => exact .next _
  | putIf task => exact .next _
  | delete task => exact .next _
  | punch task => exact .next _
  | append task => exact .next _
  | batch task => exact .next _
  | scan task => exact .of_answers (execScan_answers _ _)
  | lock task => exact .of_answers (execLock_answers _ _)
  | unlock task => exact .of_answers (execUnlock_answers _ _)
  | flush task => exact .of_answers (execFlush_answers _ _)
  | odRead task => exact .of_answers (execOdRead_answers _ _)
  | odWrite task => exact .of_answers (execOdWrite_answers _ _)
  | attest task => exact .of_answers (execAttest_answers _ _)
  | queueReset task => exact .of_answers (execQueueReset_answers _ _)
  | sanitizeCrypto task => exact .next _
  | sanitizeBlockErase task => exact .next _
  | sanitizeOverwrite task => exact .next _
  | format task => exact .of_answers (execFormat_answers _ _)
  | query task => exact .of_answers (execQuery_answers _ _)
  | stayReady task => exact .of_answers (execStayReady_answers _ _)
  | auto task => exact .of_answers (execAuto_answers _ _)
  | dozeNow task => exact .of_answers (execDozeNow_answers _ _)
  | prepareHold task => exact .of_answers (execPrepareHold_answers _ _)
  | holdPendingExpiry => exact .of_answers (execHoldPendingExpiry_answers _)
  | admission => exact .of_answers (execAdmission_answers _)
  | commandStart => exact .of_answers (execCommandStart_answers _)
  | keyLockJoin task => exact .of_answers (execKeyLockJoin_answers _ _)
  | keyChainHead task => exact .of_answers (execKeyChainHead_answers _ _)
  | pageInComplete page readable => exact .of_answers (execPageInComplete_answers _ _ _)
  | commit task => exact .of_answers (execCommit_answers _ _)
  | postCompletion task => exact .of_answers (execPostCompletion_answers _ _)
  | flushComplete task => exact .of_answers (execFlushComplete_answers _ _)
  | clientLeaseExpiry tenant key => exact .next _
  | cursorExpiry cursor => exact .next _
  | drainPhaseAdvance => exact .of_answers (execDrainPhaseAdvance_answers _)
  | drainLimitExpiry => exact .of_answers (execDrainLimitExpiry_answers _)
  | slotFill => exact .of_answers (execSlotFill_answers _)
  | slotTableGenerate => exact .of_answers (execSlotTableGenerate_answers _)
  | tableSwap => exact .of_answers (execTableSwap_answers _)
  | endpointMaskChange => exact .of_answers (execEndpointMaskChange_answers _)
  | unitIsolate u kind => exact execUnitIsolate_stops _ _ _
  | throttleChange => exact .of_answers (execThrottleChange_answers _)
  | caseTempSample celsius => exact .next _
  | camUpdateCycle => exact .next _
  | camBankWidth bank r v => exact execCamBankWidth_stops _ _ _ _
  | directorySplit => exact .of_answers (execDirectorySplit_answers _)
  | pageJoin page neighbour => exact .of_answers (execPageJoin_answers _ _ _)
  | pinReevaluate r v => exact .next _
  | ruleInsert r v => exact .next _
  | ruleReplace r v => exact .next _
  | ruleDelete r v => exact .next _
  | ruleUpdateWrite => exact .of_answers (execRuleUpdateWrite_answers _)
  | ruleScrub position => exact .of_answers (execRuleScrub_answers _ _)
  | scanStep task => exact .of_answers (execScanStep_answers _ _)
  | imageMemoryError engine address => exact execImageMemoryError_stops _ _ _
  | predImageWrite slot r v => exact execPredImageWrite_stops _ _ _ _
  | predClear r v => exact .next _
  | keyPageWrite page sub r v => exact execKeyPageWrite_stops _ _ _ _ _
  | adminPageClear r v => exact .next _
  | pkMultiplyP256 r v => exact .next _
  | pkMultiplyP384 r v => exact .next _
  | pkVerifyP256 r v => exact .next _
  | pkVerifyP384 r v => exact .next _
  | pkJobStart => exact .of_answers (execPkJobStart_answers _)
  | pkJobComplete ladder => exact execPkJobComplete_stops _ _
  | pipelineParity pipeline stage mismatchPage => exact execPipelineParity_stops _ _ _ _
  | pipelineRebind pipeline page => exact execPipelineRebind_stops _ _ _
  | rngHealthFail source test => exact execRngHealthFail_stops _ _ _
  | rngStartupTestDone => exact .of_answers (execRngStartupTestDone_answers _)
  | rngReseed => exact .of_answers (execRngReseed_answers _)
  | stripeDrain stripe => exact .of_answers (execStripeDrain_answers _ _)
  | shardProgramDone stripe shard => exact .of_answers (execShardProgramDone_answers _ _ _)
  | programReplacement stripe shard => exact .of_answers (execProgramReplacement_answers _ _ _)
  | packSealTimeout stripe => exact .of_answers (execPackSealTimeout_answers _ _)
  | gcStep tile channel die block => exact execGcStep_stops _ _ _ _ _
  | repack tenant key => exact .of_answers (execRepack_answers _ _ _)
  | journalTrim => exact .of_answers (execJournalTrim_answers _)
  | indexPageRebuild page => exact .of_answers (execIndexPageRebuild_answers _ _)
  | rebuildStripe stripe => exact .of_answers (execRebuildStripe_answers _ _)
  | reserveRefill bytes => exact .of_answers (execReserveRefill_answers _ _)
  | longOpStep work => exact .of_answers (execLongOpStep_answers _ _)
  | flushEnd bankMv energyMj mapRootWritten => exact .of_answers (execFlushEnd_answers _ _ _ _)
  | flushVerify stripe unreadable => exact .of_answers (execFlushVerify_answers _ _ _)
  | dieOpStart tile channel die => exact execDieOpStart_stops _ _ _ _
  | readDone tile channel die outcome => exact execReadDone_stops _ _ _ _ _
  | programDone tile channel die => exact execProgramDone_stops _ _ _ _
  | programFailed tile channel die => exact execProgramFailed_stops _ _ _ _
  | eraseDone tile channel die passed => exact execEraseDone_stops _ _ _ _ _
  | rowVerify tile channel die block row outcome => exact execRowVerify_stops _ _ _ _ _ _ _
  | rewrite tile channel die block => exact execRewrite_stops _ _ _ _ _
  | dieTempSample tile channel die celsius sensor => exact execDieTempSample_stops _ _ _ _ _ _
  | tileEmberIdle tile => exact execTileEmberIdle_stops _ _
  | tilePeatIdle tile => exact execTilePeatIdle_stops _ _
  | tileWake tile => exact execTileWake_stops _ _
  | tileFault u kind => exact execTileFault_stops _ _ _
  | leaseRenewal w => exact .of_answers (execLeaseRenewal_answers _ _)
  | pairMismatch w => exact .of_answers (execPairMismatch_answers _ _)
  | leaseDrop w => exact .of_answers (execLeaseDrop_answers _ _)
  | leaseExpiry => exact .of_answers (execLeaseExpiry_answers _)
  | leaseGrant => exact .of_answers (execLeaseGrant_answers _)
  | deliveryNote seq digest own => exact .of_answers (execDeliveryNote_answers _ _ _ _)
  | gatedOutput w seq => exact .of_answers (execGatedOutput_answers _ _ _)
  | resyncStart w => exact .of_answers (execResyncStart_answers _ _)
  | resyncComplete => exact .of_answers (execResyncComplete_answers _)
  | resyncAbandoned bytesLeft => exact .of_answers (execResyncAbandoned_answers _ _)
  | wardenRestartDone w => exact .of_answers (execWardenRestartDone_answers _ _)
  | switchoverRequest r v => exact .next _
  | aonClockStop => exact .of_answers (execAonClockStop_answers _)
  | aonClockRestore stopUs => exact .of_answers (execAonClockRestore_answers _ _)
  | dictTick => exact .of_answers (execDictTick_answers _)
  | configLock r v => exact .next _
  | restoreDefaults r v => exact .next _
  | read f => exact execRead_stops _ _
  | write f => exact execWrite_stops _ _
  | stagedWriteExpiry => exact .next _
  | segResponseExpiry source seq => exact .next _
  | heartbeat => exact .of_answers (execHeartbeat_answers _)
  | alertNotify => exact .of_answers (execAlertNotify_answers _)
  | quietPropose source quietId delay => exact execQuietPropose_stops _ _ _ _
  | quietAck => exact .of_answers (execQuietAck_answers _)
  | quietCommit => exact .next _
  | quietAbandon own => exact .next _
  | wake => exact .next _
  | plcaBeacon => exact .of_answers (execPlcaBeacon_answers _)
  | plcaBeaconTimeout => exact .of_answers (execPlcaBeaconTimeout_answers _)
  | plcaCollision => exact .of_answers (execPlcaCollision_answers _)
  | epochClose => exact .next _
  | byteSecondsSample => exact .of_answers (execByteSecondsSample_answers _)
  | meteringCheckpoint => exact .of_answers (execMeteringCheckpoint_answers _)
  | epochLength r v => exact .next _
  | wallTime r v => exact .next _
  | dozeEntry => exact .of_answers (execDozeEntry_answers _)
  | dozeWake => exact .next _
  | powerLossDetect cause => exact .of_answers (execPowerLossDetect_answers _ _)
  | holdEntry => exact .of_answers (execHoldEntry_answers _)
  | auxRemoved => exact .of_answers (execAuxRemoved_answers _)
  | mainPowerGood bankMv => exact .of_answers (execMainPowerGood_answers _ _)
  | startupStepDone ms failed => exact execStartupStepDone_stops _ _ _
  | mrstNAssert heldUs => exact .of_answers (execMrstNAssert_answers _ _)
  | mrstNRelease => exact .of_answers (execMrstNRelease_answers _)
  | pwrdisAssert => exact .of_answers (execPwrdisAssert_answers _)
  | pwrdisRelease => exact .next _
  | moduleReset r v => exact .next _
  | deviceTimeCheckpoint => exact .of_answers (execDeviceTimeCheckpoint_answers _)
  | aonTrim ppm => exact .of_answers (execAonTrim_answers _ _)
  | firewoodTestDue => exact .of_answers (execFirewoodTestDue_answers _)
  | firewoodTestNow r v => exact .next _
  | firewoodDischargeStart => exact .of_answers (execFirewoodDischargeStart_answers _)
  | firewoodTestEnd dischargeUs esrMilliohm bankMv => exact .of_answers (execFirewoodTestEnd_answers _ _ _ _)
  | chargeComplete chargeMs => exact .of_answers (execChargeComplete_answers _ _)
  | eventWrite => exact .of_answers (execEventWrite_answers _)
  | recorderFreeze r v => exact .next _
  | freezeExpiry => exact .of_answers (execFreezeExpiry_answers _)
  | kilnLogic r v => exact .next _
  | kilnMemory r v => exact .next _
  | kilnLogicMemory r v => exact .next _
  | kilnHoldUp r v => exact .next _
  | kilnVaultMemory r v => exact .next _
  | kilnTargetedStart u => exact execKilnTargetedStart_stops _ _
  | kilnLimitsMet mv celsius ppm => exact .of_answers (execKilnLimitsMet_answers _ _ _ _)
  | kilnTestEnd result failures address failBit durationUs => exact .of_answers (execKilnTestEnd_answers _ _ _ _ _ _)
  | traceOff r v => exact .next _
  | traceArmOnce r v => exact .next _
  | traceArmContinuous r v => exact .next _
  | triggerNow r v => exact .next _
  | traceEntry kind source task data => exact .of_answers (execTraceEntry_answers _ _ _ _ _)
  | captureReadout => exact .of_answers (execCaptureReadout_answers _)
  | traceRearm => exact .of_answers (execTraceRearm_answers _)
  | privateWrite bytes => exact .of_answers (execPrivateWrite_answers _ _)
  | privateRead => exact .of_answers (execPrivateRead_answers _)
  | responseExpiry => exact .of_answers (execResponseExpiry_answers _)
  | entdaa address => exact .of_answers (execEntdaa_answers _ _)
  | setdasa static address => exact .of_answers (execSetdasa_answers _ _ _)
  | rstdaa => exact .of_answers (execRstdaa_answers _)
  | enec mask => exact .of_answers (execEnec_answers _ _)
  | disec mask => exact .of_answers (execDisec_answers _ _)
  | getpid => exact .next _
  | getbcr => exact .next _
  | getdcr => exact .next _
  | getstatus => exact .next _
  | setmwl n => exact .of_answers (execSetmwl_answers _ _)
  | getmwl => exact .next _
  | setmrl n => exact .of_answers (execSetmrl_answers _ _)
  | getmrl => exact .next _
  | unlistedCommonCommand code => exact .of_answers (execUnlistedCommonCommand_answers _ _)
  | fwImageWindow offset valueLen data => exact .next _
  | fwStagingExpiry => exact .of_answers (execFwStagingExpiry_answers _)
  | fwActivate r v => exact .of_answers (execFwActivate_answers _ _ _)
  | fwAbandon r v => exact .of_answers (execFwAbandon_answers _ _ _)
  | fwFloor element r v => exact execFwFloor_stops _ _ _ _
  | auxApplied slotAddress => exact .of_answers (execAuxApplied_answers _ _)
  | lpiRxEntry p => exact .of_answers (execLpiRxEntry_answers _ _)
  | lpiRxExit p => exact .next _
  | frameTransmit p => exact .of_answers (execFrameTransmit_answers _ _)
  | standbyLeavesStep => exact .of_answers (execStandbyLeavesStep_answers _)
  | wakeSettleEnd => exact .of_answers (execWakeSettleEnd_answers _)
  | kilnLimitsLost limit measured => exact .of_answers (execKilnLimitsLost_answers _ _ _)
  | moduleOutOfService => exact .next _
  | beaconReceived => exact .of_answers (execBeaconReceived_answers _)
  | segmentOtherFrame f accepted => exact execSegmentOtherFrame_stops _ _ _

/-- Settles O2: no row stops but by the guard it begins with. -/
theorem whereACommandStops : Obligations.WhereACommandStops := by
  unfold Obligations.WhereACommandStops
  exact exec_stopsBy

end Sys2Proof.Machine
end
